-- ==== Sys2Proof/Word.lean ====
section
/-! DEFINITION. The word types of the CV-4: a byte of memory (R5) and a 64-bit scalar register (R44). -/
namespace Sys2Proof

/-- A byte of memory. -/
abbrev Byte := BitVec 8

/-- The contents of an x register, a CSR or an address being formed (R44, R58). -/
abbrev Word := BitVec 64

/-- A 5-bit register field (R65). -/
abbrev Reg := BitVec 5

end Sys2Proof
end

