-- ==== Sys2Proof/Syntax.lean ====
section
/-! DEFINITION. The instruction syntax: one constructor of `Instr` per row of spec/opcode_table.json, with the
fields R64 gives it, and the operands of the device's own steps. -/
namespace Sys2Proof

/-- Precision of a scalar floating-point instruction (R72). -/
inductive Prec where | single | double
  deriving DecidableEq, Repr

/-- Rounding field of a scalar floating-point instruction: 0 to 4 as R20, 7 uses FCSR.FRM (R72). -/
inductive FRound where | rne | rtz | rdn | rup | rna | dyn
  deriving DecidableEq, Repr

/-- Variant of `fsgnj` (R72): copy, complement, exclusive OR. -/
inductive SgnKind where | copy | neg | xor
  deriving DecidableEq, Repr

/-- Access size of a scalar atomic (R73). -/
inductive AtomSize where | w | d
  deriving DecidableEq, Repr

/-- Scope of an atomic, a fence or a queue (R73, R158). -/
inductive Scope where | core | die | device | system
  deriving DecidableEq, Repr

/-- Kind of a fence (R160). -/
inductive FenceKind where | full | acq | rel | ss
  deriving DecidableEq, Repr

/-- MX element format codes (R75). -/
inductive MxFmt where | e4m3 | e5m2 | e3m2 | e2m3 | e2m1 | mxint8
  deriving DecidableEq, Repr

/-- Condition codes of `vcmp` and `vfcmp` (R74). -/
inductive CmpCond where | eq | ne | lt | le | gt | ge | unord
  deriving DecidableEq, Repr

/-- Conditions of `vwait` (R76). -/
inductive WaitCond where | eq | ne | lt | ge | ltu | geu
  deriving DecidableEq, Repr

/-- Memory element width EW (R75). -/
inductive ElemWidth where | e8 | e16 | e32 | e64
  deriving DecidableEq, Repr

/-- Operations of `vamo` (R76). -/
inductive VAmoOp where | swap | add | and | or | xor | min | max
  deriving DecidableEq, Repr

/-- Operation of a churn window (R169). -/
inductive ChOp where | add | min | max | fadd
  deriving DecidableEq, Repr

/-- Immediate operations of majors 0x02 to 0x07 (R103). -/
inductive ImmOp where | addi | andi | ori | xori | slti | sltiu
  deriving DecidableEq, Repr

/-- Loads of major 0x0D (R68). -/
inductive LoadOp where | ldb | ldbu | ldh | ldhu | ldw | ldwu | ldd
  deriving DecidableEq, Repr

/-- Stores of major 0x0E (R68). -/
inductive StoreOp where | stb | sth | stw | std
  deriving DecidableEq, Repr

/-- Branch conditions of majors 0x0F to 0x14 (R110). -/
inductive BranchOp where | beq | bne | blt | bge | bltu | bgeu
  deriving DecidableEq, Repr

/-- The instruction that an `lpx` prefix widens, with its joined field (R69). -/
inductive LongInstr where
  | imm (op : ImmOp) (d a : Reg) (imm : BitVec 42)
  | addpc (d : Reg) (imm : BitVec 42)
  | li (d : Reg) (imm : BitVec 42)
  | load (op : LoadOp) (d a : Reg) (c : BitVec 2) (o : BitVec 37)
  | store (op : StoreOp) (s a : Reg) (c : BitVec 2) (o : BitVec 37)
  | branch (op : BranchOp) (a b : Reg) (o : BitVec 42)
  | jal (o : BitVec 52)
  | jump (o : BitVec 52)
  | jalr (d a : Reg) (imm : BitVec 42)
  deriving DecidableEq, Repr

/-- Trap causes 1 to 15 (R226). -/
inductive TrapCause where
  | illegal | undeclared | fenced | align | xlate | protect | bounds | dataErr | tileUncfg
  | fslotUnbound | fabricErr | tetherFault | brk | syscall | migrated
  deriving DecidableEq, Repr

/-- A core site: die 0 to 3 and site 0 to 63 within it (R3). -/
structure CoreId where
  die : Nat
  site : Nat
  deriving DecidableEq, Repr

/-- What names a thread: its partition and process, its launch's token (0 for a handler thread) and its THREADID
(for a handler thread its queue number), as TSEL0 and TSEL1 select threads (R370). -/
structure ThreadKey where
  part : Nat
  proc : Nat
  launch : Word
  index : Nat
  deriving DecidableEq, Repr

/-- A thread that waits for a core: pre-empted, of a handler entry, or the next unspawned one of a launch (R346). -/
inductive Waiting where
  | preempted (t : ThreadKey)
  | handler (core : CoreId) (entry : Nat)
  | unspawned (token : Word)
  deriving DecidableEq, Repr

/-- A TLB: that of a core, or the shared one of a die (R358). -/
inductive TlbHome where
  | core (c : CoreId)
  | die (d : Nat)
  deriving DecidableEq, Repr

/-- The engines that start tethers (R276). -/
inductive Engine where
  | matrix (core : CoreId)
  | loader (core : CoreId)
  | channel (core : CoreId) (ch : Nat)
  | window (core : CoreId)
  | collective (part proc pset : Nat)
  deriving DecidableEq, Repr

/-- An error that strikes one class sum of a K-block: what it adds to the four channels (R291). -/
structure RnsDelta where
  cls : Nat
  d256 : Nat
  d255 : Nat
  d257 : Nat
  d127 : Nat
  deriving DecidableEq, Repr

/-- Hardware errors met by the two attempts at a K-block (R291), and an uncorrectable B-store read error (R292). -/
structure Upset where
  first : List RnsDelta
  second : List RnsDelta
  bstore : Bool
  deriving DecidableEq, Repr

/-- An access that is performed at its home (R258): a held store of a thread, by its place among that thread's held stores;
a store of the control complex to device memory, or its read of `n` bytes of device memory or of a register (R262, R374);
an access that meets a corrected error of a die and class (R389), a read of an uncorrectable error whose value nothing uses,
an access to control state of a partition on a die that holds one (R390), and the arising of an uncorrectable error that a later
access meets: in a granule of memory with its class, in the local store of a thread, in the 64 bits `i` of one of its x, v or p
registers (0 to 31, 32 to 63, 64 and above; class 0) or the row `i` of a tile (class 1), or in its context save area (R388,
R390). -/
inductive PendingAccess where
  | held (t : ThreadKey) (k : Nat)
  | control (dpa : Nat) (data : List Byte)
  | controlRead (addr n : Nat)
  | corrected (die cls : Nat)
  | unused (die cls : Nat)
  | controlState (part die : Nat)
  | granule (dpa cls : Nat)
  | localGranule (t : ThreadKey) (off : Nat)
  | register (t : ThreadKey) (cls r i : Nat)
  | saved (t : ThreadKey) (off : Nat)
  deriving DecidableEq, Repr

/-- Another member of a peer set that has ended: the set, and whether it was cancelled rather than failed (R274, R383). -/
structure PeerMember where
  pset : Nat
  cancelled : Bool
  deriving DecidableEq, Repr

/-- What a request of a peer asks for: a read, a write, or an atomic by its operation of R156 with its comparand (R378). -/
inductive InboundKind where
  | read | write
  | atomic (op cmp : Nat)
  deriving DecidableEq, Repr

/-- A request that a peer sends through a port (R379). -/
structure InboundReq where
  kind : InboundKind
  dpa : Nat
  len : Nat
  data : List Byte
  deriving DecidableEq, Repr

/-- What a lane checker tests (R392): a lane group, a column node, or the shared unit of a capability. -/
inductive CheckUnit where
  | laneGroup (n : Nat)
  | columnNode (n : Nat)
  | shared (cap : Nat)
  deriving DecidableEq, Repr

/-- What a bring-up finds (R417): the channels whose training fails, and the lane checkers' tests that miscompare, each with
whether its repeat does too. -/
structure BringUp where
  untrained : List Nat
  tests : List (CoreId × CheckUnit × Bool)
  deriving DecidableEq, Repr

/-- A firmware image as it arrives or lies in flash (R407): its security version, a name for its contents, and whether
its signature verifies against the fused key. -/
structure FwImage where
  version : Nat
  content : Nat
  signatureOk : Bool
  deriving DecidableEq, Repr

/-- The instructions and steps of the CV-4: one constructor per row of the opcode table, in its order. -/
inductive Instr where
  /-- ADD (R101). -/
  | add (d a b : Reg)
  /-- SUB (R101). -/
  | sub (d a b : Reg)
  /-- MUL (R101). -/
  | mul (d a b : Reg)
  /-- MULH (R101). -/
  | mulh (d a b : Reg)
  /-- MULHU (R101). -/
  | mulhu (d a b : Reg)
  /-- DIV (R102). -/
  | div (d a b : Reg)
  /-- DIVU (R102). -/
  | divu (d a b : Reg)
  /-- REM (R102). -/
  | rem (d a b : Reg)
  /-- REMU (R102). -/
  | remu (d a b : Reg)
  /-- AND (R101). -/
  | andr (d a b : Reg)
  /-- OR (R101). -/
  | orr (d a b : Reg)
  /-- XOR (R101). -/
  | xorr (d a b : Reg)
  /-- SHL (R101). -/
  | shl (d a b : Reg)
  /-- SHR (R101). -/
  | shr (d a b : Reg)
  /-- SRA (R101). -/
  | sra (d a b : Reg)
  /-- SLT (R101). -/
  | slt (d a b : Reg)
  /-- SLTU (R101). -/
  | sltu (d a b : Reg)
  /-- MIN (R101). -/
  | minr (d a b : Reg)
  /-- MAX (R101). -/
  | maxr (d a b : Reg)
  /-- CLZ (R101). -/
  | clz (d a : Reg)
  /-- CTZ (R101). -/
  | ctz (d a : Reg)
  /-- POPC (R101). -/
  | popc (d a : Reg)
  /-- ADDI (R103). -/
  | addi (d a : Reg) (imm : BitVec 16)
  /-- ANDI (R103). -/
  | andi (d a : Reg) (imm : BitVec 16)
  /-- ORI (R103). -/
  | ori (d a : Reg) (imm : BitVec 16)
  /-- XORI (R103). -/
  | xori (d a : Reg) (imm : BitVec 16)
  /-- SLTI (R103). -/
  | slti (d a : Reg) (imm : BitVec 16)
  /-- SLTIU (R103). -/
  | sltiu (d a : Reg) (imm : BitVec 16)
  /-- SHLI (R104). -/
  | shli (d a : Reg) (n : BitVec 6)
  /-- SHRI (R104). -/
  | shri (d a : Reg) (n : BitVec 6)
  /-- SRAI (R104). -/
  | srai (d a : Reg) (n : BitVec 6)
  /-- BFX (R105). -/
  | bfx (d a : Reg) (l w : BitVec 6)
  /-- BFI (R105). -/
  | bfi (d a : Reg) (l w : BitVec 6)
  /-- ADDPC (R106). -/
  | addpc (d : Reg) (imm : BitVec 16)
  /-- LI (R106). -/
  | li (d : Reg) (imm : BitVec 16)
  /-- LDB (R107). -/
  | ldb (d a : Reg) (c : BitVec 2) (o : BitVec 11)
  /-- LDBU (R107). -/
  | ldbu (d a : Reg) (c : BitVec 2) (o : BitVec 11)
  /-- LDH (R107). -/
  | ldh (d a : Reg) (c : BitVec 2) (o : BitVec 11)
  /-- LDHU (R107). -/
  | ldhu (d a : Reg) (c : BitVec 2) (o : BitVec 11)
  /-- LDW (R107). -/
  | ldw (d a : Reg) (c : BitVec 2) (o : BitVec 11)
  /-- LDWU (R107). -/
  | ldwu (d a : Reg) (c : BitVec 2) (o : BitVec 11)
  /-- LDD (R107). -/
  | ldd (d a : Reg) (c : BitVec 2) (o : BitVec 11)
  /-- STB (R107). -/
  | stb (s a : Reg) (c : BitVec 2) (o : BitVec 11)
  /-- STH (R107). -/
  | sth (s a : Reg) (c : BitVec 2) (o : BitVec 11)
  /-- STW (R107). -/
  | stw (s a : Reg) (c : BitVec 2) (o : BitVec 11)
  /-- STD (R107). -/
  | std (s a : Reg) (c : BitVec 2) (o : BitVec 11)
  /-- BEQ (R110). -/
  | beq (a b : Reg) (o : BitVec 16)
  /-- BNE (R110). -/
  | bne (a b : Reg) (o : BitVec 16)
  /-- BLT (R110). -/
  | blt (a b : Reg) (o : BitVec 16)
  /-- BGE (R110). -/
  | bge (a b : Reg) (o : BitVec 16)
  /-- BLTU (R110). -/
  | bltu (a b : Reg) (o : BitVec 16)
  /-- BGEU (R110). -/
  | bgeu (a b : Reg) (o : BitVec 16)
  /-- JAL (R111). -/
  | jal (o : BitVec 26)
  /-- J (R111). -/
  | jump (o : BitVec 26)
  /-- JALR (R111). -/
  | jalr (d a : Reg) (imm : BitVec 16)
  /-- FADD (R114). -/
  | fadd (d a b : Reg) (p : Prec) (r : FRound)
  /-- FSUB (R114). -/
  | fsub (d a b : Reg) (p : Prec) (r : FRound)
  /-- FMUL (R114). -/
  | fmul (d a b : Reg) (p : Prec) (r : FRound)
  /-- FDIV (R114). -/
  | fdiv (d a b : Reg) (p : Prec) (r : FRound)
  /-- FSQRT (R114). -/
  | fsqrt (d a : Reg) (p : Prec) (r : FRound)
  /-- FMIN (R115). -/
  | fmin (d a b : Reg) (p : Prec)
  /-- FMAX (R115). -/
  | fmax (d a b : Reg) (p : Prec)
  /-- FMA (R114). -/
  | fma (d a b : Reg) (p : Prec) (r : FRound)
  /-- FEQ (R115). -/
  | feq (d a b : Reg) (p : Prec)
  /-- FLT (R115). -/
  | flt (d a b : Reg) (p : Prec)
  /-- FLE (R115). -/
  | fle (d a b : Reg) (p : Prec)
  /-- FCLASS (R115). -/
  | fclass (d a : Reg) (p : Prec)
  /-- FCVT (R117). -/
  | fcvt (d a k : Reg) (p : Prec) (r : FRound)
  /-- FSGNJ (R116). -/
  | fsgnj (d a b : Reg) (p : Prec) (v : SgnKind)
  /-- AMOSWAP (R156). -/
  | amoswap (d a b : Reg) (q l : Bool) (z : AtomSize) (e : Scope)
  /-- AMOADD (R156). -/
  | amoadd (d a b : Reg) (q l : Bool) (z : AtomSize) (e : Scope)
  /-- AMOAND (R156). -/
  | amoand (d a b : Reg) (q l : Bool) (z : AtomSize) (e : Scope)
  /-- AMOOR (R156). -/
  | amoor (d a b : Reg) (q l : Bool) (z : AtomSize) (e : Scope)
  /-- AMOXOR (R156). -/
  | amoxor (d a b : Reg) (q l : Bool) (z : AtomSize) (e : Scope)
  /-- AMOMIN (R156). -/
  | amomin (d a b : Reg) (q l : Bool) (z : AtomSize) (e : Scope)
  /-- AMOMAX (R156). -/
  | amomax (d a b : Reg) (q l : Bool) (z : AtomSize) (e : Scope)
  /-- AMOCAS (R156). -/
  | amocas (d a b : Reg) (q l : Bool) (z : AtomSize) (e : Scope)
  /-- LDAQ (R156). -/
  | ldaq (d a : Reg) (z : AtomSize) (e : Scope)
  /-- STRL (R156). -/
  | strl (a b : Reg) (z : AtomSize) (e : Scope)
  /-- SYSCALL (R215). -/
  | syscall
  /-- BRK (R215). -/
  | brk
  /-- ERET (R216). -/
  | eret
  /-- CLAIM (R217). -/
  | claim
  /-- UNCLAIM (R217). -/
  | unclaim
  /-- EXIT (R218). -/
  | exitThread
  /-- YIELD (R215). -/
  | yield
  /-- LAUNCH (R219). -/
  | launch (d a : Reg)
  /-- TRIGGER (R220). -/
  | trigger
  /-- CSRR (R222). -/
  | csrr (d : Reg) (c : BitVec 12)
  /-- CSRW (R222). -/
  | csrw (d a : Reg) (c : BitVec 12)
  /-- CSRSET (R222). -/
  | csrset (d a : Reg) (c : BitVec 12)
  /-- CSRCLR (R222). -/
  | csrclr (d a : Reg) (c : BitVec 12)
  /-- FENCE (R160). -/
  | fence (k : FenceKind) (e : Scope)
  /-- GJOIN (R161). -/
  | gjoin (a : Reg)
  /-- GLEAVE (R161). -/
  | gleave (a : Reg)
  /-- GBAR (R161). -/
  | gbar (a : Reg)
  /-- GARRIVE (R162). -/
  | garrive (d a : Reg)
  /-- GWAIT (R161). -/
  | gwait (a b : Reg)
  /-- QPUSH (R165). -/
  | qpush (a b : Reg)
  /-- QPOP (R165). -/
  | qpop (d a : Reg)
  /-- QTRY (R164). -/
  | qtry (d a : Reg)
  /-- HREG (R166). -/
  | hreg (d a b : Reg)
  /-- HUNREG (R166). -/
  | hunreg (a : Reg)
  /-- MMA (R187). -/
  | mma (d a b : Reg) (p : BitVec 3) (t : Bool)
  /-- BLOAD (R186). -/
  | bload (d a b : Reg) (p : BitVec 3) (t : Bool)
  /-- COPY (R185). -/
  | copy (d a b : Reg) (p : BitVec 3) (t : Bool)
  /-- COLL (R188). -/
  | coll (d a b : Reg) (p : BitVec 3) (t : Bool)
  /-- TWAIT (R189). -/
  | twait (d a : Reg)
  /-- TTEST (R189). -/
  | ttest (d a : Reg)
  /-- TCANCEL (R191). -/
  | tcancel (a : Reg)
  /-- TDETACH (R192). -/
  | tdetach (d a : Reg)
  /-- TADOPT (R192). -/
  | tadopt (d a : Reg)
  /-- TAFTER (R193). -/
  | tafter (a b : Reg)
  /-- TSTAT (R190). -/
  | tstat (d a s : Reg)
  /-- TSETPRI (R194). -/
  | tsetpri (a : Reg) (p : BitVec 3)
  /-- TCFG (R179). -/
  | tcfg (d a : Reg)
  /-- TZERO (R180). -/
  | tzero (d : Reg)
  /-- TLD (R180). -/
  | tld (d a b p : Reg)
  /-- TST (R180). -/
  | tst (s a b p : Reg)
  /-- TMVRV (R181). -/
  | tmvrv (d a b p : Reg)
  /-- TMVCV (R181). -/
  | tmvcv (d a b p : Reg)
  /-- TMVVR (R181). -/
  | tmvvr (d a b p : Reg)
  /-- TMVVC (R181). -/
  | tmvvc (d a b p : Reg)
  /-- TOUTER (R182). -/
  | touter (d a b p : Reg)
  /-- TRELEASE (R179). -/
  | trelease (d : Reg)
  /-- VSETVLI (R125). -/
  | vsetvli (d a : Reg) (imm : BitVec 16)
  /-- VSETVL (R125). -/
  | vsetvl (d a b : Reg)
  /-- VSETVLB (R125). -/
  | vsetvlb (d a : Reg)
  /-- VADD_VV (R127). -/
  | vaddVv (d a b p : Reg)
  /-- VSUB_VV (R127). -/
  | vsubVv (d a b p : Reg)
  /-- VMUL_VV (R127). -/
  | vmulVv (d a b p : Reg)
  /-- VMULH_VV (R127). -/
  | vmulhVv (d a b p : Reg)
  /-- VMULHU_VV (R127). -/
  | vmulhuVv (d a b p : Reg)
  /-- VDIV_VV (R127). -/
  | vdivVv (d a b p : Reg)
  /-- VDIVU_VV (R127). -/
  | vdivuVv (d a b p : Reg)
  /-- VREM_VV (R127). -/
  | vremVv (d a b p : Reg)
  /-- VREMU_VV (R127). -/
  | vremuVv (d a b p : Reg)
  /-- VAND_VV (R127). -/
  | vandVv (d a b p : Reg)
  /-- VOR_VV (R127). -/
  | vorVv (d a b p : Reg)
  /-- VXOR_VV (R127). -/
  | vxorVv (d a b p : Reg)
  /-- VSHL_VV (R127). -/
  | vshlVv (d a b p : Reg)
  /-- VSHR_VV (R127). -/
  | vshrVv (d a b p : Reg)
  /-- VSRA_VV (R127). -/
  | vsraVv (d a b p : Reg)
  /-- VMIN_VV (R127). -/
  | vminVv (d a b p : Reg)
  /-- VMAX_VV (R127). -/
  | vmaxVv (d a b p : Reg)
  /-- VMINU_VV (R127). -/
  | vminuVv (d a b p : Reg)
  /-- VMAXU_VV (R127). -/
  | vmaxuVv (d a b p : Reg)
  /-- VMACC_VV (R127). -/
  | vmaccVv (d a b p : Reg)
  /-- VSADD_VV (R127). -/
  | vsaddVv (d a b p : Reg)
  /-- VSSUB_VV (R127). -/
  | vssubVv (d a b p : Reg)
  /-- VMERGE_VV (R129). -/
  | vmergeVv (d a b p : Reg)
  /-- VMV_VV (R127). -/
  | vmvVv (d b p : Reg)
  /-- VADD_VX (R127). -/
  | vaddVx (d a b p : Reg)
  /-- VSUB_VX (R127). -/
  | vsubVx (d a b p : Reg)
  /-- VMUL_VX (R127). -/
  | vmulVx (d a b p : Reg)
  /-- VMULH_VX (R127). -/
  | vmulhVx (d a b p : Reg)
  /-- VMULHU_VX (R127). -/
  | vmulhuVx (d a b p : Reg)
  /-- VDIV_VX (R127). -/
  | vdivVx (d a b p : Reg)
  /-- VDIVU_VX (R127). -/
  | vdivuVx (d a b p : Reg)
  /-- VREM_VX (R127). -/
  | vremVx (d a b p : Reg)
  /-- VREMU_VX (R127). -/
  | vremuVx (d a b p : Reg)
  /-- VAND_VX (R127). -/
  | vandVx (d a b p : Reg)
  /-- VOR_VX (R127). -/
  | vorVx (d a b p : Reg)
  /-- VXOR_VX (R127). -/
  | vxorVx (d a b p : Reg)
  /-- VSHL_VX (R127). -/
  | vshlVx (d a b p : Reg)
  /-- VSHR_VX (R127). -/
  | vshrVx (d a b p : Reg)
  /-- VSRA_VX (R127). -/
  | vsraVx (d a b p : Reg)
  /-- VMIN_VX (R127). -/
  | vminVx (d a b p : Reg)
  /-- VMAX_VX (R127). -/
  | vmaxVx (d a b p : Reg)
  /-- VMINU_VX (R127). -/
  | vminuVx (d a b p : Reg)
  /-- VMAXU_VX (R127). -/
  | vmaxuVx (d a b p : Reg)
  /-- VMACC_VX (R127). -/
  | vmaccVx (d a b p : Reg)
  /-- VSADD_VX (R127). -/
  | vsaddVx (d a b p : Reg)
  /-- VSSUB_VX (R127). -/
  | vssubVx (d a b p : Reg)
  /-- VMERGE_VX (R129). -/
  | vmergeVx (d a b p : Reg)
  /-- VMV_VX (R127). -/
  | vmvVx (d b p : Reg)
  /-- VADD_VI (R127). -/
  | vaddVi (d a imm p : Reg)
  /-- VSUB_VI (R127). -/
  | vsubVi (d a imm p : Reg)
  /-- VMUL_VI (R127). -/
  | vmulVi (d a imm p : Reg)
  /-- VMULH_VI (R127). -/
  | vmulhVi (d a imm p : Reg)
  /-- VMULHU_VI (R127). -/
  | vmulhuVi (d a imm p : Reg)
  /-- VDIV_VI (R127). -/
  | vdivVi (d a imm p : Reg)
  /-- VDIVU_VI (R127). -/
  | vdivuVi (d a imm p : Reg)
  /-- VREM_VI (R127). -/
  | vremVi (d a imm p : Reg)
  /-- VREMU_VI (R127). -/
  | vremuVi (d a imm p : Reg)
  /-- VAND_VI (R127). -/
  | vandVi (d a imm p : Reg)
  /-- VOR_VI (R127). -/
  | vorVi (d a imm p : Reg)
  /-- VXOR_VI (R127). -/
  | vxorVi (d a imm p : Reg)
  /-- VSHL_VI (R128). -/
  | vshlVi (d a imm p : Reg)
  /-- VSHR_VI (R128). -/
  | vshrVi (d a imm p : Reg)
  /-- VSRA_VI (R128). -/
  | vsraVi (d a imm p : Reg)
  /-- VMIN_VI (R127). -/
  | vminVi (d a imm p : Reg)
  /-- VMAX_VI (R127). -/
  | vmaxVi (d a imm p : Reg)
  /-- VMINU_VI (R127). -/
  | vminuVi (d a imm p : Reg)
  /-- VMAXU_VI (R127). -/
  | vmaxuVi (d a imm p : Reg)
  /-- VMACC_VI (R127). -/
  | vmaccVi (d a imm p : Reg)
  /-- VSADD_VI (R127). -/
  | vsaddVi (d a imm p : Reg)
  /-- VSSUB_VI (R127). -/
  | vssubVi (d a imm p : Reg)
  /-- VMERGE_VI (R129). -/
  | vmergeVi (d a imm p : Reg)
  /-- VMV_VI (R127). -/
  | vmvVi (d imm p : Reg)
  /-- VFADD_VV (R130). -/
  | vfaddVv (d a b p : Reg)
  /-- VFSUB_VV (R130). -/
  | vfsubVv (d a b p : Reg)
  /-- VFMUL_VV (R130). -/
  | vfmulVv (d a b p : Reg)
  /-- VFDIV_VV (R130). -/
  | vfdivVv (d a b p : Reg)
  /-- VFMIN_VV (R130). -/
  | vfminVv (d a b p : Reg)
  /-- VFMAX_VV (R130). -/
  | vfmaxVv (d a b p : Reg)
  /-- VFMACC_VV (R130). -/
  | vfmaccVv (d a b p : Reg)
  /-- VFNMACC_VV (R130). -/
  | vfnmaccVv (d a b p : Reg)
  /-- VFMSAC_VV (R130). -/
  | vfmsacVv (d a b p : Reg)
  /-- VFNMSAC_VV (R130). -/
  | vfnmsacVv (d a b p : Reg)
  /-- VFSGNJ_VV (R130). -/
  | vfsgnjVv (d a b p : Reg)
  /-- VFSGNJN_VV (R130). -/
  | vfsgnjnVv (d a b p : Reg)
  /-- VFSGNJX_VV (R130). -/
  | vfsgnjxVv (d a b p : Reg)
  /-- VFADD_VX (R130). -/
  | vfaddVx (d a b p : Reg)
  /-- VFSUB_VX (R130). -/
  | vfsubVx (d a b p : Reg)
  /-- VFMUL_VX (R130). -/
  | vfmulVx (d a b p : Reg)
  /-- VFDIV_VX (R130). -/
  | vfdivVx (d a b p : Reg)
  /-- VFMIN_VX (R130). -/
  | vfminVx (d a b p : Reg)
  /-- VFMAX_VX (R130). -/
  | vfmaxVx (d a b p : Reg)
  /-- VFMACC_VX (R130). -/
  | vfmaccVx (d a b p : Reg)
  /-- VFNMACC_VX (R130). -/
  | vfnmaccVx (d a b p : Reg)
  /-- VFMSAC_VX (R130). -/
  | vfmsacVx (d a b p : Reg)
  /-- VFNMSAC_VX (R130). -/
  | vfnmsacVx (d a b p : Reg)
  /-- VFSGNJ_VX (R130). -/
  | vfsgnjVx (d a b p : Reg)
  /-- VFSGNJN_VX (R130). -/
  | vfsgnjnVx (d a b p : Reg)
  /-- VFSGNJX_VX (R130). -/
  | vfsgnjxVx (d a b p : Reg)
  /-- VFSQRT (R131). -/
  | vfsqrt (d a p : Reg)
  /-- VFRSQRTE (R131). -/
  | vfrsqrte (d a p : Reg)
  /-- VFRECE (R131). -/
  | vfrece (d a p : Reg)
  /-- VFCLASS (R131). -/
  | vfclass (d a p : Reg)
  /-- VFCVT (R132). -/
  | vfcvt (d a k p : Reg)
  /-- VMXCVT (R133). -/
  | vmxcvt (d a : Reg) (t : Bool) (f : MxFmt) (p : Reg)
  /-- VSEXT (R134). -/
  | vsext (d a p : Reg)
  /-- VZEXT (R134). -/
  | vzext (d a p : Reg)
  /-- VNARROW (R134). -/
  | vnarrow (d a k p : Reg)
  /-- VCMP_VV (R135). -/
  | vcmpVv (d a b p : Reg) (c : CmpCond) (u : Bool)
  /-- VCMP_VX (R135). -/
  | vcmpVx (d a b p : Reg) (c : CmpCond) (u : Bool)
  /-- VFCMP_VV (R135). -/
  | vfcmpVv (d a b p : Reg) (c : CmpCond)
  /-- VFCMP_VX (R135). -/
  | vfcmpVx (d a b p : Reg) (c : CmpCond)
  /-- PAND (R137). -/
  | pand (d a b p : Reg)
  /-- POR (R137). -/
  | por (d a b p : Reg)
  /-- PXOR (R137). -/
  | pxor (d a b p : Reg)
  /-- PNOT (R137). -/
  | pnot (d a p : Reg)
  /-- PSET (R137). -/
  | pset (d p : Reg)
  /-- PCLR (R137). -/
  | pclr (d p : Reg)
  /-- PMSBF (R137). -/
  | pmsbf (d a p : Reg)
  /-- PMSIF (R137). -/
  | pmsif (d a p : Reg)
  /-- PFIRST (R137). -/
  | pfirst (d a p : Reg)
  /-- PCOUNT (R137). -/
  | pcount (d a p : Reg)
  /-- PLD (R138). -/
  | pld (d a : Reg)
  /-- PST (R138). -/
  | pst (s a : Reg)
  /-- VSLIDEUP (R139). -/
  | vslideup (d a b p : Reg)
  /-- VSLIDEDOWN (R139). -/
  | vslidedown (d a b p : Reg)
  /-- VRGATHER (R139). -/
  | vrgather (d a b p : Reg)
  /-- VCOMPRESS (R140). -/
  | vcompress (d a p : Reg)
  /-- VEXPAND (R140). -/
  | vexpand (d a p : Reg)
  /-- VBCAST (R139). -/
  | vbcast (d a b p : Reg)
  /-- VEXTRACT (R139). -/
  | vextract (d a b : Reg)
  /-- VINSERT (R139). -/
  | vinsert (d a b : Reg)
  /-- VID (R139). -/
  | vid (d p : Reg)
  /-- VREDSUM (R141). -/
  | vredsum (d a b p : Reg)
  /-- VREDMAX (R141). -/
  | vredmax (d a b p : Reg)
  /-- VREDMIN (R141). -/
  | vredmin (d a b p : Reg)
  /-- VREDAND (R141). -/
  | vredand (d a b p : Reg)
  /-- VREDOR (R141). -/
  | vredor (d a b p : Reg)
  /-- VFREDSUM (R43). -/
  | vfredsum (d a b p : Reg)
  /-- VFREDOSUM (R141). -/
  | vfredosum (d a b p : Reg)
  /-- VFREDMAX (R141). -/
  | vfredmax (d a b p : Reg)
  /-- VFREDMIN (R141). -/
  | vfredmin (d a b p : Reg)
  /-- VRENC (R142). -/
  | vrenc (d a p : Reg)
  /-- VRADD (R142). -/
  | vradd (d a b p : Reg)
  /-- VRSUB (R142). -/
  | vrsub (d a b p : Reg)
  /-- VRMUL (R142). -/
  | vrmul (d a b p : Reg)
  /-- VRMACC (R142). -/
  | vrmacc (d a b p : Reg)
  /-- VRDEC (R143). -/
  | vrdec (d a p : Reg)
  /-- VRCHK (R143). -/
  | vrchk (d a p : Reg)
  /-- VSLICE (R144). -/
  | vslice (d a k p : Reg)
  /-- VUNSLICE (R144). -/
  | vunslice (d a p : Reg)
  /-- VWADD (R145). -/
  | vwadd (d a b p : Reg)
  /-- VWSUB (R145). -/
  | vwsub (d a b p : Reg)
  /-- VWMUL (R145). -/
  | vwmul (d a b p : Reg)
  /-- VWMACC (R145). -/
  | vwmacc (d a b p : Reg)
  /-- VWFMACC (R145). -/
  | vwfmacc (d a b p : Reg)
  /-- VQDOT (R146). -/
  | vqdot (d a b p : Reg)
  /-- VLD (R149). -/
  | vld (d a p : Reg) (c : BitVec 2) (e : ElemWidth)
  /-- VLDS (R149). -/
  | vlds (d a b p : Reg) (c : BitVec 2) (e : ElemWidth)
  /-- VLDFF (R150). -/
  | vldff (d a p : Reg) (c : BitVec 2) (e : ElemWidth)
  /-- VLDQ (R151). -/
  | vldq (d q p : Reg) (e : ElemWidth)
  /-- VST (R149). -/
  | vst (s a p : Reg) (c : BitVec 2) (e : ElemWidth)
  /-- VSTS (R149). -/
  | vsts (s a b p : Reg) (c : BitVec 2) (e : ElemWidth)
  /-- VLDX (R152). -/
  | vldx (d a b p : Reg) (c : BitVec 2) (e : ElemWidth)
  /-- VLSEG (R153). -/
  | vlseg (d a n p : Reg) (c : BitVec 2) (e : ElemWidth)
  /-- VLSEGMX (R154). -/
  | vlsegmx (d a : Reg) (f : MxFmt) (p : Reg) (c : BitVec 2)
  /-- VSTX (R152). -/
  | vstx (s a b p : Reg) (c : BitVec 2) (e : ElemWidth)
  /-- VSSEG (R153). -/
  | vsseg (s a n p : Reg) (c : BitVec 2) (e : ElemWidth)
  /-- VSSEGMX (R154). -/
  | vssegmx (s a : Reg) (f : MxFmt) (p : Reg) (c : BitVec 2)
  /-- VAMO (R167). -/
  | vamo (d a b p : Reg) (o : VAmoOp) (q l u : Bool)
  /-- VWAIT (R168). -/
  | vwait (a b p : Reg) (c : WaitCond)
  /-- CHWIN (R169). -/
  | chwin (o : ChOp) (a b : Reg)
  /-- VCHADD (R170). -/
  | vchadd (a b p : Reg)
  /-- VCHMIN (R170). -/
  | vchmin (a b p : Reg)
  /-- VCHMAX (R170). -/
  | vchmax (a b p : Reg)
  /-- VCHFADD (R170). -/
  | vchfadd (a b p : Reg)
  /-- CHURN (R171). -/
  | churn
  /-- CHDROP (R172). -/
  | chdrop
  /-- FOP (R202). -/
  | fop (d a b p : Reg) (s : BitVec 4)
  /-- FOP_VLB (R202). -/
  | fopVlb (d a b p : Reg) (s : BitVec 4)
  /-- FBIND (R196). -/
  | fbind (d a b : Reg)
  /-- FUNBIND (R196). -/
  | funbind (a : Reg)
  /-- FPREFETCH (R196). -/
  | fprefetch (a : Reg)
  /-- FQUERY (R196). -/
  | fquery (d a : Reg)
  /-- QBIND (R173). -/
  | qbind (d a b : Reg)
  /-- QUNBIND (R174). -/
  | qunbind (a : Reg)
  /-- QGET (R174). -/
  | qget (d a : Reg)
  /-- QAVAIL (R174). -/
  | qavail (d a : Reg)
  /-- DVDOT (R223). -/
  | dvdot (d a b : Reg)
  /-- DVSUM (R223). -/
  | dvsum (d a : Reg)
  /-- DVPERM (R223). -/
  | dvperm (d a b : Reg)
  /-- LPX_PAIR (R69). -/
  | lpxPair (i : LongInstr)
  /-- VECTOR_COMMIT (R234). -/
  | vectorCommit (t : ThreadKey)
  /-- TRAP_ENTRY (R225). -/
  | trapEntry (cause : TrapCause) (tval telem : Word)
  /-- THREAD_WAKE (R177). -/
  | threadWake (t : ThreadKey)
  /-- ISSUE_BOOST (R241). -/
  | issueBoost (t : ThreadKey)
  /-- THREAD_SPAWN (R345). -/
  | threadSpawn (token : Word) (core : CoreId)
  /-- THREAD_RESUME (R366). -/
  | threadResume (t : ThreadKey) (core : CoreId)
  /-- HANDLER_SPAWN (R349). -/
  | handlerSpawn (core : CoreId) (entry : Nat)
  /-- THREAD_PREEMPTION (R364). -/
  | threadPreemption (t : ThreadKey)
  /-- QUANTUM_BOUNDARY (R348). -/
  | quantumBoundary (core : CoreId) (shares : List (Nat × Nat))
  /-- PASSED_THREAD_HOLD (R346). -/
  | passedThreadHold (part : Nat) (w : Waiting)
  /-- LAUNCH_ELIGIBLE (R342). -/
  | launchEligible (token : Word)
  /-- TETHER_START (R276). -/
  | tetherStart (eng : Engine)
  /-- MMA_KBLOCK (R291). -/
  | mmaKblock (core : CoreId) (row col : Nat) (up : Upset)
  /-- BLOAD_COLUMN (R186). -/
  | bloadColumn (core : CoreId)
  /-- COPY_BURST (R254). -/
  | copyBurst (token : Word) (k : Nat)
  /-- COLL_STEP (R383). -/
  | collStep (token : Word) (data : List (Byte))
  /-- FE_FIRE (R207). -/
  | feFire (core : CoreId) (fe : Nat)
  /-- END_OF_ROUND_ARRIVAL (R300). -/
  | endOfRoundArrival (core : CoreId) (fe : Nat)
  /-- FABRIC_LD_RETURN (R213). -/
  | fabricLdReturn (core : CoreId) (fe : Nat)
  /-- FOP_COMPLETE (R302). -/
  | fopComplete (core : CoreId)
  /-- FOP_STOP (R308). -/
  | fopStop (core : CoreId)
  /-- PLANE_LOAD (R298). -/
  | planeLoad (core : CoreId) (plane : Nat)
  /-- MEMORY_ACCESS_PERFORMED (R258). -/
  | memoryAccessPerformed (acc : PendingAccess)
  /-- TABLE_WALK (R355). -/
  | tableWalk (home : TlbHome) (space : Nat × Nat) (va : Word)
  /-- INVALIDATION_COMPLETE (R359). -/
  | invalidationComplete (part : Nat)
  /-- PEER_ACK (R380). -/
  | peerAck (req : Nat) (data : List (Byte))
  /-- PEER_TIMEOUT (R380). -/
  | peerTimeout (req : Nat)
  /-- INBOUND_PEER_REQUEST (R379). -/
  | inboundPeerRequest (port : Nat) (req : InboundReq)
  /-- PORT_BURST_ARRIVAL (R381). -/
  | portBurstArrival (port : Nat) (token : Word) (k : Nat) (data : List (Byte))
  /-- LANE_CHECK_TEST (R392). -/
  | laneCheckTest (core : CoreId) (unit : CheckUnit) (first again : Bool)
  /-- COLUMN_GROUP_RETIREMENT (R394). -/
  | columnGroupRetirement (core : CoreId)
  /-- LINE_WRITE_BACK (R390). -/
  | lineWriteBack (dpa : Nat) (lost : List (Nat × Nat))
  /-- PARTITION_SWAP (R367). -/
  | partitionSwap (outgoing incoming : Nat)
  /-- KILL_COMPLETE (R369). -/
  | killComplete (part : Nat)
  /-- CLOCK_THROTTLE (R412). -/
  | clockThrottle (watts : BitVec 16) (tj : BitVec 8)
  /-- CLOCK_RAISE (R412). -/
  | clockRaise (watts : BitVec 16) (tj : BitVec 8)
  /-- OVERTEMPERATURE (R415). -/
  | overtemperature (die : Nat)
  /-- LIFETIME_REFRESH (R406). -/
  | lifetimeRefresh
  /-- LIFETIME_FLASH_WRITE (R405). -/
  | lifetimeFlashWrite
  /-- POWER_ON (R417). -/
  | powerOn (found : BringUp)
  /-- DEVICE_RESET (R410). -/
  | deviceReset
  /-- FIRMWARE_UPDATE (R410). -/
  | firmwareUpdate (img : Nat) (image : FwImage)
  /-- LIVE_ACTIVATION (R410). -/
  | liveActivation (img : Nat)
  /-- SECURITY_VERSION_RAISE (R410). -/
  | securityVersionRaise (img version : Nat)
  /-- GET_VERSION (R409). -/
  | getVersion
  /-- GET_CAPABILITIES (R409). -/
  | getCapabilities
  /-- NEGOTIATE_ALGORITHMS (R409). -/
  | negotiateAlgorithms (asym hash : BitVec 16)
  /-- GET_DIGESTS (R409). -/
  | getDigests (asym hash : BitVec 16)
  /-- GET_CERTIFICATE (R409). -/
  | getCertificate (asym hash : BitVec 16)
  /-- CHALLENGE (R409). -/
  | challenge (asym hash : BitVec 16) (nonce : Nat)
  /-- GET_MEASUREMENTS (R409). -/
  | getMeasurements (asym hash : BitVec 16) (nonce : Nat)
  /-- LISSUE (R339). -/
  | lissue (part : Nat)
  /-- FPOP (R338). -/
  | fpop (part : Nat)
  /-- QUEUE_CONFIGURE (R341). -/
  | queueConfigure (part : Nat) (value : Word)
  /-- QUEUE_DESTROY (R341). -/
  | queueDestroy (part : Nat)
  /-- PREEMPT (R370). -/
  | preempt (part : Nat)
  /-- RESUME (R370). -/
  | resume (part : Nat)
  /-- KILL (R370). -/
  | kill (part : Nat)
  /-- CANCEL (R370). -/
  | cancel (part : Nat)
  /-- DESTROY (R370). -/
  | destroy (part : Nat)
  /-- CORE_ASSIGN (R376). -/
  | coreAssign (part : Nat) (core : CoreId)
  /-- CORE_RELEASE (R376). -/
  | coreRelease (part : Nat) (core : CoreId)
  /-- CORE_RELEASE_COMPLETE (R376). -/
  | coreReleaseComplete (part : Nat) (core : CoreId)
  /-- PARTITION_KILL (R369). -/
  | partitionKill (part : Nat)
  /-- PARTITION_HALT (R367). -/
  | partitionHalt (part : Nat)
  /-- PARTITION_RUN (R375). -/
  | partitionRun (part : Nat)
  /-- INVALIDATION (R359). -/
  | invalidation (part : Nat) (value : Word)
  /-- CODE_REGISTER (R324). -/
  | codeRegister (part : Nat) (value : Word)
  /-- CODE_UNREGISTER (R376). -/
  | codeUnregister (part : Nat) (value : Word)
  /-- QUOTA_WRITE (R376). -/
  | quotaWrite (part : Nat) (value : Word)
  /-- CORESTATE_CRET (R400). -/
  | corestateCret (core : CoreId) (bits : BitVec 8)
  /-- CORESTATE_LRET (R400). -/
  | corestateLret (core : CoreId) (bits : BitVec 16)
  /-- CORESTATE_CAP (R400). -/
  | corestateCap (core : CoreId) (bits : BitVec 25)
  /-- RPOP (R401). -/
  | rpop
  /-- RCOUNT_READ (R401). -/
  | rcountRead
  /-- DEVSEL_WRITE (R404). -/
  | devselWrite (die n : Nat) (value : Word)
  /-- PEVSEL_WRITE (R404). -/
  | pevselWrite (port n : Nat) (value : Word)
  /-- REGISTER_WRITE (R374). -/
  | registerWrite (addr value : Word)
  /-- POWER_LOSS (R405). -/
  | powerLoss
  /-- LINK_RETRAIN (R404). -/
  | linkRetrain (port : Nat)
  /-- LINK_LEVEL_RETRY (R378). -/
  | linkLevelRetry (port : Nat)
  /-- PEER_MEMBER_FAILURE (R383). -/
  | peerMemberFailure (part proc : Nat) (pset : PeerMember)
  deriving DecidableEq, Repr

end Sys2Proof
end

