-- ==== Sys2Proof/WellFormed.lean ====
section
/-! DEFINITION. Which instructions are well formed: the register, predicate, tile and stream numbers and the
subfields that R45, R65, R67, R72 to R78 admit whatever the state of the thread. -/
namespace Sys2Proof

/-- A P field or a predicate operand: 24 to 31 raise ILLEGAL (R65). -/
def isPred (p : Reg) : Bool := decide (p.toNat < 24)

/-- A predicate destination: not p0 (R45). -/
def isPredDest (p : Reg) : Bool := isPred p && decide (p ≠ 0)

/-- A tile number (R65). -/
def isTile (m : Reg) : Bool := decide (m.toNat < 8)

/-- A stream register number (R65). -/
def isStream (q : Reg) : Bool := decide (q.toNat < 8)

/-- The destination of `qtry`: 1 to 30 (R164). -/
def isPairDest (d : Reg) : Bool := decide (0 < d.toNat ∧ d.toNat < 31)

/-- A subfunction code in 0 to `n` (R72, R132, R134, R144, R190), or the first register of a triple (R78). -/
def codeUpTo (k : Reg) (n : Nat) : Bool := decide (k.toNat ≤ n)

/-- `bfx` and `bfi`: lowest bit L and width field W - 1 with L + W at most 64 (R67). -/
def fieldFits (l w : BitVec 6) : Bool := decide (l.toNat + w.toNat + 1 ≤ 64)

/-- Segment counts: the field holds nf - 1, 1 to 7 (R75). -/
def isSegCount (n : Reg) : Bool := decide (0 < n.toNat ∧ n.toNat < 8)

/-- `vcmp` has no condition 6 (R74), and no unsigned eq or ne (R135). -/
def intCond (c : CmpCond) (u : Bool) : Bool :=
  match c with
  | .unord => false
  | .eq | .ne => !u
  | _ => true

/-- Unsigned `vamo` exists for min and max only (R76). -/
def atomUnsigned (o : VAmoOp) (u : Bool) : Bool :=
  match o with
  | .min | .max => true
  | _ => !u

/-- A core site (R3). -/
def CoreId.isSite (c : CoreId) : Bool := decide (c.die < 4 ∧ c.site < 64)

/-- A TLB of a core or a die (R358). -/
def TlbHome.isTlb : TlbHome → Bool
  | .core c => c.isSite
  | .die d => decide (d < 4)

/-- An access that can be performed: its die, error class and partition exist (R375, R388). -/
def PendingAccess.isAccess : PendingAccess → Bool
  | .corrected die cls | .unused die cls => decide (die < 4 ∧ cls ≤ 14)
  | .controlState part die => decide (part < 16 ∧ die < 4)
  | .granule _ cls => decide (cls ≤ 14)
  | .register _ cls r _ => decide (cls = 0 ∧ r < 88 ∨ cls = 1 ∧ r < 8)
  | _ => true

/-- Well-formedness of an instruction. -/
def Instr.wf (i : Instr) : Bool :=
  match i with
  | .add _ _ _ => true
  | .sub _ _ _ => true
  | .mul _ _ _ => true
  | .mulh _ _ _ => true
  | .mulhu _ _ _ => true
  | .div _ _ _ => true
  | .divu _ _ _ => true
  | .rem _ _ _ => true
  | .remu _ _ _ => true
  | .andr _ _ _ => true
  | .orr _ _ _ => true
  | .xorr _ _ _ => true
  | .shl _ _ _ => true
  | .shr _ _ _ => true
  | .sra _ _ _ => true
  | .slt _ _ _ => true
  | .sltu _ _ _ => true
  | .minr _ _ _ => true
  | .maxr _ _ _ => true
  | .clz _ _ => true
  | .ctz _ _ => true
  | .popc _ _ => true
  | .addi _ _ _ => true
  | .andi _ _ _ => true
  | .ori _ _ _ => true
  | .xori _ _ _ => true
  | .slti _ _ _ => true
  | .sltiu _ _ _ => true
  | .shli _ _ _ => true
  | .shri _ _ _ => true
  | .srai _ _ _ => true
  | .bfx _ _ l w => fieldFits l w
  | .bfi _ _ l w => fieldFits l w
  | .addpc _ _ => true
  | .li _ _ => true
  | .ldb _ _ _ _ => true
  | .ldbu _ _ _ _ => true
  | .ldh _ _ _ _ => true
  | .ldhu _ _ _ _ => true
  | .ldw _ _ _ _ => true
  | .ldwu _ _ _ _ => true
  | .ldd _ _ _ _ => true
  | .stb _ _ _ _ => true
  | .sth _ _ _ _ => true
  | .stw _ _ _ _ => true
  | .std _ _ _ _ => true
  | .beq _ _ _ => true
  | .bne _ _ _ => true
  | .blt _ _ _ => true
  | .bge _ _ _ => true
  | .bltu _ _ _ => true
  | .bgeu _ _ _ => true
  | .jal _ => true
  | .jump _ => true
  | .jalr _ _ _ => true
  | .fadd _ _ _ _ _ => true
  | .fsub _ _ _ _ _ => true
  | .fmul _ _ _ _ _ => true
  | .fdiv _ _ _ _ _ => true
  | .fsqrt _ _ _ _ => true
  | .fmin _ _ _ _ => true
  | .fmax _ _ _ _ => true
  | .fma _ _ _ _ _ => true
  | .feq _ _ _ _ => true
  | .flt _ _ _ _ => true
  | .fle _ _ _ _ => true
  | .fclass _ _ _ => true
  | .fcvt _ _ k _ _ => codeUpTo k 12
  | .fsgnj _ _ _ _ _ => true
  | .amoswap _ _ _ _ _ _ _ => true
  | .amoadd _ _ _ _ _ _ _ => true
  | .amoand _ _ _ _ _ _ _ => true
  | .amoor _ _ _ _ _ _ _ => true
  | .amoxor _ _ _ _ _ _ _ => true
  | .amomin _ _ _ _ _ _ _ => true
  | .amomax _ _ _ _ _ _ _ => true
  | .amocas _ _ _ _ _ _ _ => true
  | .ldaq _ _ _ _ => true
  | .strl _ _ _ _ => true
  | .syscall => true
  | .brk => true
  | .eret => true
  | .claim => true
  | .unclaim => true
  | .exitThread => true
  | .yield => true
  | .launch _ _ => true
  | .trigger => true
  | .csrr _ _ => true
  | .csrw _ _ _ => true
  | .csrset _ _ _ => true
  | .csrclr _ _ _ => true
  | .fence _ _ => true
  | .gjoin _ => true
  | .gleave _ => true
  | .gbar _ => true
  | .garrive _ _ => true
  | .gwait _ _ => true
  | .qpush _ _ => true
  | .qpop _ _ => true
  | .qtry d _ => isPairDest d
  | .hreg _ _ _ => true
  | .hunreg _ => true
  | .mma _ a _ _ _ => codeUpTo a 29
  | .bload _ a _ _ _ => codeUpTo a 29
  | .copy _ a _ _ _ => codeUpTo a 29
  | .coll _ a _ _ _ => codeUpTo a 29
  | .twait _ _ => true
  | .ttest _ _ => true
  | .tcancel _ => true
  | .tdetach _ _ => true
  | .tadopt _ _ => true
  | .tafter _ _ => true
  | .tstat _ _ s => codeUpTo s 5
  | .tsetpri _ _ => true
  | .tcfg d _ => isTile d
  | .tzero d => isTile d
  | .tld d _ _ p => isPred p && isTile d
  | .tst s _ _ p => isPred p && isTile s
  | .tmvrv _ a _ p => isPred p && isTile a
  | .tmvcv _ a _ p => isPred p && isTile a
  | .tmvvr d _ _ p => isPred p && isTile d
  | .tmvvc d _ _ p => isPred p && isTile d
  | .touter d _ _ p => isPred p && isTile d
  | .trelease d => isTile d
  | .vsetvli _ _ _ => true
  | .vsetvl _ _ _ => true
  | .vsetvlb _ _ => true
  | .vaddVv _ _ _ p => isPred p
  | .vsubVv _ _ _ p => isPred p
  | .vmulVv _ _ _ p => isPred p
  | .vmulhVv _ _ _ p => isPred p
  | .vmulhuVv _ _ _ p => isPred p
  | .vdivVv _ _ _ p => isPred p
  | .vdivuVv _ _ _ p => isPred p
  | .vremVv _ _ _ p => isPred p
  | .vremuVv _ _ _ p => isPred p
  | .vandVv _ _ _ p => isPred p
  | .vorVv _ _ _ p => isPred p
  | .vxorVv _ _ _ p => isPred p
  | .vshlVv _ _ _ p => isPred p
  | .vshrVv _ _ _ p => isPred p
  | .vsraVv _ _ _ p => isPred p
  | .vminVv _ _ _ p => isPred p
  | .vmaxVv _ _ _ p => isPred p
  | .vminuVv _ _ _ p => isPred p
  | .vmaxuVv _ _ _ p => isPred p
  | .vmaccVv _ _ _ p => isPred p
  | .vsaddVv _ _ _ p => isPred p
  | .vssubVv _ _ _ p => isPred p
  | .vmergeVv _ _ _ p => isPred p
  | .vmvVv _ _ p => isPred p
  | .vaddVx _ _ _ p => isPred p
  | .vsubVx _ _ _ p => isPred p
  | .vmulVx _ _ _ p => isPred p
  | .vmulhVx _ _ _ p => isPred p
  | .vmulhuVx _ _ _ p => isPred p
  | .vdivVx _ _ _ p => isPred p
  | .vdivuVx _ _ _ p => isPred p
  | .vremVx _ _ _ p => isPred p
  | .vremuVx _ _ _ p => isPred p
  | .vandVx _ _ _ p => isPred p
  | .vorVx _ _ _ p => isPred p
  | .vxorVx _ _ _ p => isPred p
  | .vshlVx _ _ _ p => isPred p
  | .vshrVx _ _ _ p => isPred p
  | .vsraVx _ _ _ p => isPred p
  | .vminVx _ _ _ p => isPred p
  | .vmaxVx _ _ _ p => isPred p
  | .vminuVx _ _ _ p => isPred p
  | .vmaxuVx _ _ _ p => isPred p
  | .vmaccVx _ _ _ p => isPred p
  | .vsaddVx _ _ _ p => isPred p
  | .vssubVx _ _ _ p => isPred p
  | .vmergeVx _ _ _ p => isPred p
  | .vmvVx _ _ p => isPred p
  | .vaddVi _ _ _ p => isPred p
  | .vsubVi _ _ _ p => isPred p
  | .vmulVi _ _ _ p => isPred p
  | .vmulhVi _ _ _ p => isPred p
  | .vmulhuVi _ _ _ p => isPred p
  | .vdivVi _ _ _ p => isPred p
  | .vdivuVi _ _ _ p => isPred p
  | .vremVi _ _ _ p => isPred p
  | .vremuVi _ _ _ p => isPred p
  | .vandVi _ _ _ p => isPred p
  | .vorVi _ _ _ p => isPred p
  | .vxorVi _ _ _ p => isPred p
  | .vshlVi _ _ _ p => isPred p
  | .vshrVi _ _ _ p => isPred p
  | .vsraVi _ _ _ p => isPred p
  | .vminVi _ _ _ p => isPred p
  | .vmaxVi _ _ _ p => isPred p
  | .vminuVi _ _ _ p => isPred p
  | .vmaxuVi _ _ _ p => isPred p
  | .vmaccVi _ _ _ p => isPred p
  | .vsaddVi _ _ _ p => isPred p
  | .vssubVi _ _ _ p => isPred p
  | .vmergeVi _ _ _ p => isPred p
  | .vmvVi _ _ p => isPred p
  | .vfaddVv _ _ _ p => isPred p
  | .vfsubVv _ _ _ p => isPred p
  | .vfmulVv _ _ _ p => isPred p
  | .vfdivVv _ _ _ p => isPred p
  | .vfminVv _ _ _ p => isPred p
  | .vfmaxVv _ _ _ p => isPred p
  | .vfmaccVv _ _ _ p => isPred p
  | .vfnmaccVv _ _ _ p => isPred p
  | .vfmsacVv _ _ _ p => isPred p
  | .vfnmsacVv _ _ _ p => isPred p
  | .vfsgnjVv _ _ _ p => isPred p
  | .vfsgnjnVv _ _ _ p => isPred p
  | .vfsgnjxVv _ _ _ p => isPred p
  | .vfaddVx _ _ _ p => isPred p
  | .vfsubVx _ _ _ p => isPred p
  | .vfmulVx _ _ _ p => isPred p
  | .vfdivVx _ _ _ p => isPred p
  | .vfminVx _ _ _ p => isPred p
  | .vfmaxVx _ _ _ p => isPred p
  | .vfmaccVx _ _ _ p => isPred p
  | .vfnmaccVx _ _ _ p => isPred p
  | .vfmsacVx _ _ _ p => isPred p
  | .vfnmsacVx _ _ _ p => isPred p
  | .vfsgnjVx _ _ _ p => isPred p
  | .vfsgnjnVx _ _ _ p => isPred p
  | .vfsgnjxVx _ _ _ p => isPred p
  | .vfsqrt _ _ p => isPred p
  | .vfrsqrte _ _ p => isPred p
  | .vfrece _ _ p => isPred p
  | .vfclass _ _ p => isPred p
  | .vfcvt _ _ k p => isPred p && codeUpTo k 10
  | .vmxcvt _ _ _ _ p => isPred p
  | .vsext _ _ p => isPred p
  | .vzext _ _ p => isPred p
  | .vnarrow _ _ k p => isPred p && codeUpTo k 3
  | .vcmpVv d _ _ p c u => isPred p && isPredDest d && intCond c u
  | .vcmpVx d _ _ p c u => isPred p && isPredDest d && intCond c u
  | .vfcmpVv d _ _ p _ => isPred p && isPredDest d
  | .vfcmpVx d _ _ p _ => isPred p && isPredDest d
  | .pand d a b p => isPred p && isPredDest d && isPred a && isPred b
  | .por d a b p => isPred p && isPredDest d && isPred a && isPred b
  | .pxor d a b p => isPred p && isPredDest d && isPred a && isPred b
  | .pnot d a p => isPred p && isPredDest d && isPred a
  | .pset d p => isPred p && isPredDest d
  | .pclr d p => isPred p && isPredDest d
  | .pmsbf d a p => isPred p && isPredDest d && isPred a
  | .pmsif d a p => isPred p && isPredDest d && isPred a
  | .pfirst _ a p => isPred p && isPred a
  | .pcount _ a p => isPred p && isPred a
  | .pld d _ => isPredDest d
  | .pst s _ => isPred s
  | .vslideup _ _ _ p => isPred p
  | .vslidedown _ _ _ p => isPred p
  | .vrgather _ _ _ p => isPred p
  | .vcompress _ _ p => isPred p
  | .vexpand _ _ p => isPred p
  | .vbcast _ _ _ p => isPred p
  | .vextract _ _ _ => true
  | .vinsert _ _ _ => true
  | .vid _ p => isPred p
  | .vredsum _ _ _ p => isPred p
  | .vredmax _ _ _ p => isPred p
  | .vredmin _ _ _ p => isPred p
  | .vredand _ _ _ p => isPred p
  | .vredor _ _ _ p => isPred p
  | .vfredsum _ _ _ p => isPred p
  | .vfredosum _ _ _ p => isPred p
  | .vfredmax _ _ _ p => isPred p
  | .vfredmin _ _ _ p => isPred p
  | .vrenc _ _ p => isPred p
  | .vradd _ _ _ p => isPred p
  | .vrsub _ _ _ p => isPred p
  | .vrmul _ _ _ p => isPred p
  | .vrmacc _ _ _ p => isPred p
  | .vrdec _ _ p => isPred p
  | .vrchk d _ p => isPred p && isPredDest d
  | .vslice _ _ k p => isPred p && codeUpTo k 8
  | .vunslice _ _ p => isPred p
  | .vwadd _ _ _ p => isPred p
  | .vwsub _ _ _ p => isPred p
  | .vwmul _ _ _ p => isPred p
  | .vwmacc _ _ _ p => isPred p
  | .vwfmacc _ _ _ p => isPred p
  | .vqdot _ _ _ p => isPred p
  | .vld _ _ p _ _ => isPred p
  | .vlds _ _ _ p _ _ => isPred p
  | .vldff _ _ p _ _ => isPred p
  | .vldq _ q p _ => isPred p && isStream q
  | .vst _ _ p _ _ => isPred p
  | .vsts _ _ _ p _ _ => isPred p
  | .vldx _ _ _ p _ _ => isPred p
  | .vlseg _ _ n p _ _ => isPred p && isSegCount n
  | .vlsegmx _ _ _ p _ => isPred p
  | .vstx _ _ _ p _ _ => isPred p
  | .vsseg _ _ n p _ _ => isPred p && isSegCount n
  | .vssegmx _ _ _ p _ => isPred p
  | .vamo _ _ _ p o _ _ u => isPred p && atomUnsigned o u
  | .vwait _ _ p _ => isPred p
  | .chwin _ _ _ => true
  | .vchadd _ _ p => isPred p
  | .vchmin _ _ p => isPred p
  | .vchmax _ _ p => isPred p
  | .vchfadd _ _ p => isPred p
  | .churn => true
  | .chdrop => true
  | .fop _ _ _ p _ => isPred p
  | .fopVlb _ _ _ p _ => isPred p
  | .fbind _ _ _ => true
  | .funbind _ => true
  | .fprefetch _ => true
  | .fquery _ _ => true
  | .qbind d _ _ => isStream d
  | .qunbind a => isStream a
  | .qget _ a => isStream a
  | .qavail _ a => isStream a
  | .dvdot _ _ _ => true
  | .dvsum _ _ => true
  | .dvperm _ _ _ => true
  | .lpxPair _ => true
  | .vectorCommit _ => true
  | .trapEntry _ _ _ => true
  | .threadWake _ => true
  | .issueBoost _ => true
  | .threadSpawn _ core => core.isSite
  | .threadResume _ core => core.isSite
  | .handlerSpawn core _ => core.isSite
  | .threadPreemption _ => true
  | .quantumBoundary core _ => core.isSite
  | .passedThreadHold part _ => decide (part < 16)
  | .launchEligible _ => true
  | .tetherStart _ => true
  | .mmaKblock core _ _ _ => core.isSite
  | .bloadColumn core => core.isSite
  | .copyBurst _ _ => true
  | .collStep _ _ => true
  | .feFire core fe => decide (fe < 64) && core.isSite
  | .endOfRoundArrival core fe => decide (fe < 64) && core.isSite
  | .fabricLdReturn core fe => decide (fe < 64) && core.isSite
  | .fopComplete core => core.isSite
  | .fopStop core => core.isSite
  | .planeLoad core _ => core.isSite
  | .memoryAccessPerformed acc => acc.isAccess
  | .tableWalk home space _ => home.isTlb && decide (space.1 < 16) && decide (space.2 < 64)
  | .invalidationComplete part => decide (part < 16)
  | .peerAck _ _ => true
  | .peerTimeout _ => true
  | .inboundPeerRequest port _ => decide (port < 48)
  | .portBurstArrival port _ _ _ => decide (port < 48)
  | .laneCheckTest core _ _ _ => core.isSite
  | .columnGroupRetirement core => core.isSite
  | .lineWriteBack _ _ => true
  | .partitionSwap _ _ => true
  | .killComplete part => decide (part < 16)
  | .clockThrottle _ _ => true
  | .clockRaise _ _ => true
  | .overtemperature die => decide (die < 4)
  | .lifetimeRefresh => true
  | .lifetimeFlashWrite => true
  | .powerOn _ => true
  | .deviceReset => true
  | .firmwareUpdate _ _ => true
  | .liveActivation _ => true
  | .securityVersionRaise _ _ => true
  | .getVersion => true
  | .getCapabilities => true
  | .negotiateAlgorithms _ _ => true
  | .getDigests _ _ => true
  | .getCertificate _ _ => true
  | .challenge _ _ _ => true
  | .getMeasurements _ _ _ => true
  | .lissue part => decide (part < 16)
  | .fpop part => decide (part < 16)
  | .queueConfigure part _ => decide (part < 16)
  | .queueDestroy part => decide (part < 16)
  | .preempt part => decide (part < 16)
  | .resume part => decide (part < 16)
  | .kill part => decide (part < 16)
  | .cancel part => decide (part < 16)
  | .destroy part => decide (part < 16)
  | .coreAssign part core => core.isSite && decide (part < 16)
  | .coreRelease part core => core.isSite && decide (part < 16)
  | .coreReleaseComplete part core => core.isSite && decide (part < 16)
  | .partitionKill part => decide (part < 16)
  | .partitionHalt part => decide (part < 16)
  | .partitionRun part => decide (part < 16)
  | .invalidation part _ => decide (part < 16)
  | .codeRegister part _ => decide (part < 16)
  | .codeUnregister part _ => decide (part < 16)
  | .quotaWrite part _ => decide (part < 16)
  | .corestateCret core _ => core.isSite
  | .corestateLret core _ => core.isSite
  | .corestateCap core _ => core.isSite
  | .rpop => true
  | .rcountRead => true
  | .devselWrite die _ _ => decide (die < 4)
  | .pevselWrite port _ _ => decide (port < 48)
  | .registerWrite _ _ => true
  | .powerLoss => true
  | .linkRetrain port => decide (port < 48)
  | .linkLevelRetry port => decide (port < 48)
  | .peerMemberFailure part proc _ => decide (part < 16) && decide (proc < 64)

end Sys2Proof
end

