-- ==== Sys2Proof/Decode.lean ====
section
/-! DEFINITION. The decoder: total on any bytes, rejecting by name (R63 to R79), and after it the encoder, written from
the same encoding tables. -/
namespace Sys2Proof

/-- Why a word is not an instruction (R79). -/
inductive Reject where
  /-- a major opcode that R71 leaves without codes, or a prefix before a word R69 does not permit -/
  | reservedMajor
  /-- a function code beyond the lists of R71 to R77 -/
  | reservedCode
  /-- a reserved subfield value (R67, R72 to R78) -/
  | reservedField
  /-- a nonzero field that the instruction does not use (R65) -/
  | unusedField
  /-- a register, predicate, tile, stream or subfunction number out of range (R45, R65) -/
  | badOperand
  /-- a word after `lpx` whose major may not be prefixed (R69, R70) -/
  | misplacedPrefix
  /-- fewer bytes than the instruction needs -/
  | truncated
  deriving DecidableEq, Repr

/-- Continue when `c` holds, and reject as `r` otherwise. -/
def Reject.unless {α : Type} (c : Prop) [Decidable c] (r : Reject) (k : Except Reject α) : Except Reject α :=
  if c then k else .error r

/-- Continue with the meaning of a coded subfield, and reject a reserved code. -/
def Reject.field {α β : Type} (x : Option α) (k : α → Except Reject β) : Except Reject β :=
  match x with
  | some a => k a
  | none => .error .reservedField

def Prec.code : Prec → BitVec 1 | .single => 0 | .double => 1
def Prec.ofCode (c : BitVec 1) : Prec := if c = 0 then .single else .double

def AtomSize.code : AtomSize → BitVec 1 | .w => 0 | .d => 1
def AtomSize.ofCode (c : BitVec 1) : AtomSize := if c = 0 then .w else .d

def boolCode (b : Bool) : BitVec 1 := if b then 1 else 0

def Scope.code : Scope → BitVec 2 | .core => 0 | .die => 1 | .device => 2 | .system => 3
def Scope.ofCode (c : BitVec 2) : Scope :=
  if c = 0 then .core else if c = 1 then .die else if c = 2 then .device else .system
def Scope.code5 (s : Scope) : BitVec 5 := s.code.zeroExtend 5
def Scope.ofCode5 (c : BitVec 5) : Option Scope := if c.toNat < 4 then some (Scope.ofCode (c.extractLsb' 0 2)) else none

def ElemWidth.code : ElemWidth → BitVec 2 | .e8 => 0 | .e16 => 1 | .e32 => 2 | .e64 => 3
def ElemWidth.ofCode (c : BitVec 2) : ElemWidth :=
  if c = 0 then .e8 else if c = 1 then .e16 else if c = 2 then .e32 else .e64

def FRound.code : FRound → BitVec 3 | .rne => 0 | .rtz => 1 | .rdn => 2 | .rup => 3 | .rna => 4 | .dyn => 7
def FRound.ofCode (c : BitVec 3) : Option FRound :=
  match c.toNat with
  | 0 => some .rne | 1 => some .rtz | 2 => some .rdn | 3 => some .rup | 4 => some .rna | 7 => some .dyn | _ => none

def SgnKind.code : SgnKind → BitVec 2 | .copy => 0 | .neg => 1 | .xor => 2
def SgnKind.ofCode (c : BitVec 2) : Option SgnKind :=
  match c.toNat with | 0 => some .copy | 1 => some .neg | 2 => some .xor | _ => none

def FenceKind.code : FenceKind → BitVec 5 | .full => 0 | .acq => 1 | .rel => 2 | .ss => 3
def FenceKind.ofCode (c : BitVec 5) : Option FenceKind :=
  match c.toNat with | 0 => some .full | 1 => some .acq | 2 => some .rel | 3 => some .ss | _ => none

def MxFmt.code : MxFmt → BitVec 5 | .e4m3 => 0 | .e5m2 => 1 | .e3m2 => 2 | .e2m3 => 3 | .e2m1 => 4 | .mxint8 => 5
def MxFmt.ofCode (c : BitVec 5) : Option MxFmt :=
  match c.toNat with
  | 0 => some .e4m3 | 1 => some .e5m2 | 2 => some .e3m2 | 3 => some .e2m3 | 4 => some .e2m1 | 5 => some .mxint8 | _ => none

def CmpCond.code : CmpCond → BitVec 3 | .eq => 0 | .ne => 1 | .lt => 2 | .le => 3 | .gt => 4 | .ge => 5 | .unord => 6
def CmpCond.ofCode (c : BitVec 3) : Option CmpCond :=
  match c.toNat with
  | 0 => some .eq | 1 => some .ne | 2 => some .lt | 3 => some .le | 4 => some .gt | 5 => some .ge | 6 => some .unord | _ => none

def WaitCond.code : WaitCond → BitVec 3 | .eq => 0 | .ne => 1 | .lt => 2 | .ge => 3 | .ltu => 4 | .geu => 5
def WaitCond.ofCode (c : BitVec 3) : Option WaitCond :=
  match c.toNat with
  | 0 => some .eq | 1 => some .ne | 2 => some .lt | 3 => some .ge | 4 => some .ltu | 5 => some .geu | _ => none

def VAmoOp.code : VAmoOp → BitVec 3 | .swap => 0 | .add => 1 | .and => 2 | .or => 3 | .xor => 4 | .min => 5 | .max => 6
def VAmoOp.ofCode (c : BitVec 3) : Option VAmoOp :=
  match c.toNat with
  | 0 => some .swap | 1 => some .add | 2 => some .and | 3 => some .or | 4 => some .xor | 5 => some .min | 6 => some .max
  | _ => none

def ChOp.code : ChOp → BitVec 5 | .add => 0 | .min => 1 | .max => 2 | .fadd => 3
def ChOp.ofCode (c : BitVec 5) : Option ChOp :=
  match c.toNat with | 0 => some .add | 1 => some .min | 2 => some .max | 3 => some .fadd | _ => none

def ImmOp.major : ImmOp → BitVec 6 | .addi => 2 | .andi => 3 | .ori => 4 | .xori => 5 | .slti => 6 | .sltiu => 7
def LoadOp.code : LoadOp → BitVec 3 | .ldb => 0 | .ldbu => 1 | .ldh => 2 | .ldhu => 3 | .ldw => 4 | .ldwu => 5 | .ldd => 6
def LoadOp.ofCode (c : BitVec 3) : Option LoadOp :=
  match c.toNat with
  | 0 => some .ldb | 1 => some .ldbu | 2 => some .ldh | 3 => some .ldhu | 4 => some .ldw | 5 => some .ldwu | 6 => some .ldd
  | _ => none
def StoreOp.code : StoreOp → BitVec 3 | .stb => 0 | .sth => 1 | .stw => 2 | .std => 3
def StoreOp.ofCode (c : BitVec 3) : Option StoreOp :=
  match c.toNat with | 0 => some .stb | 1 => some .sth | 2 => some .stw | 3 => some .std | _ => none
def BranchOp.major : BranchOp → BitVec 6
  | .beq => 0x0F | .bne => 0x10 | .blt => 0x11 | .bge => 0x12 | .bltu => 0x13 | .bgeu => 0x14

noncomputable section

/-- Major 0x01 (R71). -/
def decodeIntReg (w : BitVec 32) : Except Reject Instr :=
  match (w.extractLsb' 0 11).toNat with
  | 0 => .ok (.add (w.extractLsb' 21 5) (w.extractLsb' 16 5) (w.extractLsb' 11 5))
  | 1 => .ok (.sub (w.extractLsb' 21 5) (w.extractLsb' 16 5) (w.extractLsb' 11 5))
  | 2 => .ok (.mul (w.extractLsb' 21 5) (w.extractLsb' 16 5) (w.extractLsb' 11 5))
  | 3 => .ok (.mulh (w.extractLsb' 21 5) (w.extractLsb' 16 5) (w.extractLsb' 11 5))
  | 4 => .ok (.mulhu (w.extractLsb' 21 5) (w.extractLsb' 16 5) (w.extractLsb' 11 5))
  | 5 => .ok (.div (w.extractLsb' 21 5) (w.extractLsb' 16 5) (w.extractLsb' 11 5))
  | 6 => .ok (.divu (w.extractLsb' 21 5) (w.extractLsb' 16 5) (w.extractLsb' 11 5))
  | 7 => .ok (.rem (w.extractLsb' 21 5) (w.extractLsb' 16 5) (w.extractLsb' 11 5))
  | 8 => .ok (.remu (w.extractLsb' 21 5) (w.extractLsb' 16 5) (w.extractLsb' 11 5))
  | 9 => .ok (.andr (w.extractLsb' 21 5) (w.extractLsb' 16 5) (w.extractLsb' 11 5))
  | 10 => .ok (.orr (w.extractLsb' 21 5) (w.extractLsb' 16 5) (w.extractLsb' 11 5))
  | 11 => .ok (.xorr (w.extractLsb' 21 5) (w.extractLsb' 16 5) (w.extractLsb' 11 5))
  | 12 => .ok (.shl (w.extractLsb' 21 5) (w.extractLsb' 16 5) (w.extractLsb' 11 5))
  | 13 => .ok (.shr (w.extractLsb' 21 5) (w.extractLsb' 16 5) (w.extractLsb' 11 5))
  | 14 => .ok (.sra (w.extractLsb' 21 5) (w.extractLsb' 16 5) (w.extractLsb' 11 5))
  | 15 => .ok (.slt (w.extractLsb' 21 5) (w.extractLsb' 16 5) (w.extractLsb' 11 5))
  | 16 => .ok (.sltu (w.extractLsb' 21 5) (w.extractLsb' 16 5) (w.extractLsb' 11 5))
  | 17 => .ok (.minr (w.extractLsb' 21 5) (w.extractLsb' 16 5) (w.extractLsb' 11 5))
  | 18 => .ok (.maxr (w.extractLsb' 21 5) (w.extractLsb' 16 5) (w.extractLsb' 11 5))
  | 19 => Reject.unless ((w.extractLsb' 11 5) = 0#5) .unusedField (.ok (.clz (w.extractLsb' 21 5) (w.extractLsb' 16 5)))
  | 20 => Reject.unless ((w.extractLsb' 11 5) = 0#5) .unusedField (.ok (.ctz (w.extractLsb' 21 5) (w.extractLsb' 16 5)))
  | 21 => Reject.unless ((w.extractLsb' 11 5) = 0#5) .unusedField (.ok (.popc (w.extractLsb' 21 5) (w.extractLsb' 16 5)))
  | _ => .error .reservedCode

/-- Major 0x08 (R71). -/
def decodeShiftImm (w : BitVec 32) : Except Reject Instr :=
  match (w.extractLsb' 6 10).toNat with
  | 0 => .ok (.shli (w.extractLsb' 21 5) (w.extractLsb' 16 5) (w.extractLsb' 0 6))
  | 1 => .ok (.shri (w.extractLsb' 21 5) (w.extractLsb' 16 5) (w.extractLsb' 0 6))
  | 2 => .ok (.srai (w.extractLsb' 21 5) (w.extractLsb' 16 5) (w.extractLsb' 0 6))
  | _ => .error .reservedField

/-- Major 0x0D (R71). -/
def decodeLoad (w : BitVec 32) : Except Reject Instr :=
  match (w.extractLsb' 11 3).toNat with
  | 0 => .ok (.ldb (w.extractLsb' 21 5) (w.extractLsb' 16 5) (w.extractLsb' 14 2) (w.extractLsb' 0 11))
  | 1 => .ok (.ldbu (w.extractLsb' 21 5) (w.extractLsb' 16 5) (w.extractLsb' 14 2) (w.extractLsb' 0 11))
  | 2 => .ok (.ldh (w.extractLsb' 21 5) (w.extractLsb' 16 5) (w.extractLsb' 14 2) (w.extractLsb' 0 11))
  | 3 => .ok (.ldhu (w.extractLsb' 21 5) (w.extractLsb' 16 5) (w.extractLsb' 14 2) (w.extractLsb' 0 11))
  | 4 => .ok (.ldw (w.extractLsb' 21 5) (w.extractLsb' 16 5) (w.extractLsb' 14 2) (w.extractLsb' 0 11))
  | 5 => .ok (.ldwu (w.extractLsb' 21 5) (w.extractLsb' 16 5) (w.extractLsb' 14 2) (w.extractLsb' 0 11))
  | 6 => .ok (.ldd (w.extractLsb' 21 5) (w.extractLsb' 16 5) (w.extractLsb' 14 2) (w.extractLsb' 0 11))
  | _ => .error .reservedCode

/-- Major 0x0E (R71). -/
def decodeStore (w : BitVec 32) : Except Reject Instr :=
  match (w.extractLsb' 11 3).toNat with
  | 0 => .ok (.stb (w.extractLsb' 21 5) (w.extractLsb' 16 5) (w.extractLsb' 14 2) (w.extractLsb' 0 11))
  | 1 => .ok (.sth (w.extractLsb' 21 5) (w.extractLsb' 16 5) (w.extractLsb' 14 2) (w.extractLsb' 0 11))
  | 2 => .ok (.stw (w.extractLsb' 21 5) (w.extractLsb' 16 5) (w.extractLsb' 14 2) (w.extractLsb' 0 11))
  | 3 => .ok (.std (w.extractLsb' 21 5) (w.extractLsb' 16 5) (w.extractLsb' 14 2) (w.extractLsb' 0 11))
  | _ => .error .reservedCode

/-- Major 0x18 (R71). -/
def decodeScalarFp (w : BitVec 32) : Except Reject Instr :=
  match (w.extractLsb' 6 5).toNat with
  | 0 => Reject.unless ((w.extractLsb' 0 2) = 0#2) .unusedField (Reject.field (FRound.ofCode (w.extractLsb' 2 3)) fun r => .ok (.fadd (w.extractLsb' 21 5) (w.extractLsb' 16 5) (w.extractLsb' 11 5) (Prec.ofCode (w.extractLsb' 5 1)) r))
  | 1 => Reject.unless ((w.extractLsb' 0 2) = 0#2) .unusedField (Reject.field (FRound.ofCode (w.extractLsb' 2 3)) fun r => .ok (.fsub (w.extractLsb' 21 5) (w.extractLsb' 16 5) (w.extractLsb' 11 5) (Prec.ofCode (w.extractLsb' 5 1)) r))
  | 2 => Reject.unless ((w.extractLsb' 0 2) = 0#2) .unusedField (Reject.field (FRound.ofCode (w.extractLsb' 2 3)) fun r => .ok (.fmul (w.extractLsb' 21 5) (w.extractLsb' 16 5) (w.extractLsb' 11 5) (Prec.ofCode (w.extractLsb' 5 1)) r))
  | 3 => Reject.unless ((w.extractLsb' 0 2) = 0#2) .unusedField (Reject.field (FRound.ofCode (w.extractLsb' 2 3)) fun r => .ok (.fdiv (w.extractLsb' 21 5) (w.extractLsb' 16 5) (w.extractLsb' 11 5) (Prec.ofCode (w.extractLsb' 5 1)) r))
  | 4 => Reject.unless ((w.extractLsb' 11 5) = 0#5) .unusedField (Reject.unless ((w.extractLsb' 0 2) = 0#2) .unusedField (Reject.field (FRound.ofCode (w.extractLsb' 2 3)) fun r => .ok (.fsqrt (w.extractLsb' 21 5) (w.extractLsb' 16 5) (Prec.ofCode (w.extractLsb' 5 1)) r)))
  | 5 => Reject.unless ((w.extractLsb' 0 5) = 0#5) .unusedField (.ok (.fmin (w.extractLsb' 21 5) (w.extractLsb' 16 5) (w.extractLsb' 11 5) (Prec.ofCode (w.extractLsb' 5 1))))
  | 6 => Reject.unless ((w.extractLsb' 0 5) = 0#5) .unusedField (.ok (.fmax (w.extractLsb' 21 5) (w.extractLsb' 16 5) (w.extractLsb' 11 5) (Prec.ofCode (w.extractLsb' 5 1))))
  | 7 => Reject.unless ((w.extractLsb' 0 2) = 0#2) .unusedField (Reject.field (FRound.ofCode (w.extractLsb' 2 3)) fun r => .ok (.fma (w.extractLsb' 21 5) (w.extractLsb' 16 5) (w.extractLsb' 11 5) (Prec.ofCode (w.extractLsb' 5 1)) r))
  | 8 => Reject.unless ((w.extractLsb' 0 5) = 0#5) .unusedField (.ok (.feq (w.extractLsb' 21 5) (w.extractLsb' 16 5) (w.extractLsb' 11 5) (Prec.ofCode (w.extractLsb' 5 1))))
  | 9 => Reject.unless ((w.extractLsb' 0 5) = 0#5) .unusedField (.ok (.flt (w.extractLsb' 21 5) (w.extractLsb' 16 5) (w.extractLsb' 11 5) (Prec.ofCode (w.extractLsb' 5 1))))
  | 10 => Reject.unless ((w.extractLsb' 0 5) = 0#5) .unusedField (.ok (.fle (w.extractLsb' 21 5) (w.extractLsb' 16 5) (w.extractLsb' 11 5) (Prec.ofCode (w.extractLsb' 5 1))))
  | 11 => Reject.unless ((w.extractLsb' 11 5) = 0#5) .unusedField (Reject.unless ((w.extractLsb' 0 5) = 0#5) .unusedField (.ok (.fclass (w.extractLsb' 21 5) (w.extractLsb' 16 5) (Prec.ofCode (w.extractLsb' 5 1)))))
  | 12 => Reject.unless ((w.extractLsb' 0 2) = 0#2) .unusedField (Reject.field (FRound.ofCode (w.extractLsb' 2 3)) fun r => .ok (.fcvt (w.extractLsb' 21 5) (w.extractLsb' 16 5) (w.extractLsb' 11 5) (Prec.ofCode (w.extractLsb' 5 1)) r))
  | 13 => Reject.unless ((w.extractLsb' 2 3) = 0#3) .unusedField (Reject.field (SgnKind.ofCode (w.extractLsb' 0 2)) fun v => .ok (.fsgnj (w.extractLsb' 21 5) (w.extractLsb' 16 5) (w.extractLsb' 11 5) (Prec.ofCode (w.extractLsb' 5 1)) v))
  | _ => .error .reservedCode

/-- Major 0x19 (R71). -/
def decodeAtomic (w : BitVec 32) : Except Reject Instr :=
  match (w.extractLsb' 6 5).toNat with
  | 0 => Reject.unless ((w.extractLsb' 0 1) = 0#1) .unusedField (.ok (.amoswap (w.extractLsb' 21 5) (w.extractLsb' 16 5) (w.extractLsb' 11 5) ((w.extractLsb' 5 1) == 1#1) ((w.extractLsb' 4 1) == 1#1) (AtomSize.ofCode (w.extractLsb' 3 1)) (Scope.ofCode (w.extractLsb' 1 2))))
  | 1 => Reject.unless ((w.extractLsb' 0 1) = 0#1) .unusedField (.ok (.amoadd (w.extractLsb' 21 5) (w.extractLsb' 16 5) (w.extractLsb' 11 5) ((w.extractLsb' 5 1) == 1#1) ((w.extractLsb' 4 1) == 1#1) (AtomSize.ofCode (w.extractLsb' 3 1)) (Scope.ofCode (w.extractLsb' 1 2))))
  | 2 => Reject.unless ((w.extractLsb' 0 1) = 0#1) .unusedField (.ok (.amoand (w.extractLsb' 21 5) (w.extractLsb' 16 5) (w.extractLsb' 11 5) ((w.extractLsb' 5 1) == 1#1) ((w.extractLsb' 4 1) == 1#1) (AtomSize.ofCode (w.extractLsb' 3 1)) (Scope.ofCode (w.extractLsb' 1 2))))
  | 3 => Reject.unless ((w.extractLsb' 0 1) = 0#1) .unusedField (.ok (.amoor (w.extractLsb' 21 5) (w.extractLsb' 16 5) (w.extractLsb' 11 5) ((w.extractLsb' 5 1) == 1#1) ((w.extractLsb' 4 1) == 1#1) (AtomSize.ofCode (w.extractLsb' 3 1)) (Scope.ofCode (w.extractLsb' 1 2))))
  | 4 => Reject.unless ((w.extractLsb' 0 1) = 0#1) .unusedField (.ok (.amoxor (w.extractLsb' 21 5) (w.extractLsb' 16 5) (w.extractLsb' 11 5) ((w.extractLsb' 5 1) == 1#1) ((w.extractLsb' 4 1) == 1#1) (AtomSize.ofCode (w.extractLsb' 3 1)) (Scope.ofCode (w.extractLsb' 1 2))))
  | 5 => Reject.unless ((w.extractLsb' 0 1) = 0#1) .unusedField (.ok (.amomin (w.extractLsb' 21 5) (w.extractLsb' 16 5) (w.extractLsb' 11 5) ((w.extractLsb' 5 1) == 1#1) ((w.extractLsb' 4 1) == 1#1) (AtomSize.ofCode (w.extractLsb' 3 1)) (Scope.ofCode (w.extractLsb' 1 2))))
  | 6 => Reject.unless ((w.extractLsb' 0 1) = 0#1) .unusedField (.ok (.amomax (w.extractLsb' 21 5) (w.extractLsb' 16 5) (w.extractLsb' 11 5) ((w.extractLsb' 5 1) == 1#1) ((w.extractLsb' 4 1) == 1#1) (AtomSize.ofCode (w.extractLsb' 3 1)) (Scope.ofCode (w.extractLsb' 1 2))))
  | 7 => Reject.unless ((w.extractLsb' 0 1) = 0#1) .unusedField (.ok (.amocas (w.extractLsb' 21 5) (w.extractLsb' 16 5) (w.extractLsb' 11 5) ((w.extractLsb' 5 1) == 1#1) ((w.extractLsb' 4 1) == 1#1) (AtomSize.ofCode (w.extractLsb' 3 1)) (Scope.ofCode (w.extractLsb' 1 2))))
  | 8 => Reject.unless ((w.extractLsb' 11 5) = 0#5) .unusedField (Reject.unless ((w.extractLsb' 4 2) = 2#2) .reservedField (Reject.unless ((w.extractLsb' 0 1) = 0#1) .unusedField (.ok (.ldaq (w.extractLsb' 21 5) (w.extractLsb' 16 5) (AtomSize.ofCode (w.extractLsb' 3 1)) (Scope.ofCode (w.extractLsb' 1 2))))))
  | 9 => Reject.unless ((w.extractLsb' 21 5) = 0#5) .unusedField (Reject.unless ((w.extractLsb' 4 2) = 1#2) .reservedField (Reject.unless ((w.extractLsb' 0 1) = 0#1) .unusedField (.ok (.strl (w.extractLsb' 16 5) (w.extractLsb' 11 5) (AtomSize.ofCode (w.extractLsb' 3 1)) (Scope.ofCode (w.extractLsb' 1 2))))))
  | _ => .error .reservedCode

/-- Major 0x1A (R71). -/
def decodeSystem (w : BitVec 32) : Except Reject Instr :=
  match (w.extractLsb' 0 11).toNat with
  | 0 => Reject.unless ((w.extractLsb' 11 15) = 0#15) .unusedField (.ok (.syscall))
  | 1 => Reject.unless ((w.extractLsb' 11 15) = 0#15) .unusedField (.ok (.brk))
  | 2 => Reject.unless ((w.extractLsb' 11 15) = 0#15) .unusedField (.ok (.eret))
  | 3 => Reject.unless ((w.extractLsb' 11 15) = 0#15) .unusedField (.ok (.claim))
  | 4 => Reject.unless ((w.extractLsb' 11 15) = 0#15) .unusedField (.ok (.unclaim))
  | 5 => Reject.unless ((w.extractLsb' 11 15) = 0#15) .unusedField (.ok (.exitThread))
  | 6 => Reject.unless ((w.extractLsb' 11 15) = 0#15) .unusedField (.ok (.yield))
  | 7 => Reject.unless ((w.extractLsb' 11 5) = 0#5) .unusedField (.ok (.launch (w.extractLsb' 21 5) (w.extractLsb' 16 5)))
  | 8 => Reject.unless ((w.extractLsb' 11 15) = 0#15) .unusedField (.ok (.trigger))
  | _ => .error .reservedCode

/-- Major 0x1B (R71). -/
def decodeCsr (w : BitVec 32) : Except Reject Instr :=
  match (w.extractLsb' 12 4).toNat with
  | 0 => Reject.unless ((w.extractLsb' 16 5) = 0#5) .unusedField (.ok (.csrr (w.extractLsb' 21 5) (w.extractLsb' 0 12)))
  | 1 => .ok (.csrw (w.extractLsb' 21 5) (w.extractLsb' 16 5) (w.extractLsb' 0 12))
  | 2 => .ok (.csrset (w.extractLsb' 21 5) (w.extractLsb' 16 5) (w.extractLsb' 0 12))
  | 3 => .ok (.csrclr (w.extractLsb' 21 5) (w.extractLsb' 16 5) (w.extractLsb' 0 12))
  | _ => .error .reservedCode

/-- Major 0x1C (R71). -/
def decodeSync (w : BitVec 32) : Except Reject Instr :=
  match (w.extractLsb' 0 11).toNat with
  | 0 => Reject.unless ((w.extractLsb' 21 5) = 0#5) .unusedField (Reject.field (FenceKind.ofCode (w.extractLsb' 16 5)) fun k => Reject.field (Scope.ofCode5 (w.extractLsb' 11 5)) fun e => .ok (.fence k e))
  | 1 => Reject.unless ((w.extractLsb' 21 5) = 0#5) .unusedField (Reject.unless ((w.extractLsb' 11 5) = 0#5) .unusedField (.ok (.gjoin (w.extractLsb' 16 5))))
  | 2 => Reject.unless ((w.extractLsb' 21 5) = 0#5) .unusedField (Reject.unless ((w.extractLsb' 11 5) = 0#5) .unusedField (.ok (.gleave (w.extractLsb' 16 5))))
  | 3 => Reject.unless ((w.extractLsb' 21 5) = 0#5) .unusedField (Reject.unless ((w.extractLsb' 11 5) = 0#5) .unusedField (.ok (.gbar (w.extractLsb' 16 5))))
  | 4 => Reject.unless ((w.extractLsb' 11 5) = 0#5) .unusedField (.ok (.garrive (w.extractLsb' 21 5) (w.extractLsb' 16 5)))
  | 5 => Reject.unless ((w.extractLsb' 21 5) = 0#5) .unusedField (.ok (.gwait (w.extractLsb' 16 5) (w.extractLsb' 11 5)))
  | 6 => Reject.unless ((w.extractLsb' 21 5) = 0#5) .unusedField (.ok (.qpush (w.extractLsb' 16 5) (w.extractLsb' 11 5)))
  | 7 => Reject.unless ((w.extractLsb' 11 5) = 0#5) .unusedField (.ok (.qpop (w.extractLsb' 21 5) (w.extractLsb' 16 5)))
  | 8 => Reject.unless ((w.extractLsb' 11 5) = 0#5) .unusedField (.ok (.qtry (w.extractLsb' 21 5) (w.extractLsb' 16 5)))
  | 9 => .ok (.hreg (w.extractLsb' 21 5) (w.extractLsb' 16 5) (w.extractLsb' 11 5))
  | 10 => Reject.unless ((w.extractLsb' 21 5) = 0#5) .unusedField (Reject.unless ((w.extractLsb' 11 5) = 0#5) .unusedField (.ok (.hunreg (w.extractLsb' 16 5))))
  | _ => .error .reservedCode

/-- Major 0x1D (R71). -/
def decodeTether (w : BitVec 32) : Except Reject Instr :=
  match (w.extractLsb' 0 7).toNat with
  | 0 => .ok (.mma (w.extractLsb' 21 5) (w.extractLsb' 16 5) (w.extractLsb' 11 5) (w.extractLsb' 8 3) ((w.extractLsb' 7 1) == 1#1))
  | 1 => .ok (.bload (w.extractLsb' 21 5) (w.extractLsb' 16 5) (w.extractLsb' 11 5) (w.extractLsb' 8 3) ((w.extractLsb' 7 1) == 1#1))
  | 2 => .ok (.copy (w.extractLsb' 21 5) (w.extractLsb' 16 5) (w.extractLsb' 11 5) (w.extractLsb' 8 3) ((w.extractLsb' 7 1) == 1#1))
  | 3 => .ok (.coll (w.extractLsb' 21 5) (w.extractLsb' 16 5) (w.extractLsb' 11 5) (w.extractLsb' 8 3) ((w.extractLsb' 7 1) == 1#1))
  | 4 => Reject.unless ((w.extractLsb' 7 9) = 0#9) .unusedField (.ok (.twait (w.extractLsb' 21 5) (w.extractLsb' 16 5)))
  | 5 => Reject.unless ((w.extractLsb' 7 9) = 0#9) .unusedField (.ok (.ttest (w.extractLsb' 21 5) (w.extractLsb' 16 5)))
  | 6 => Reject.unless ((w.extractLsb' 21 5) = 0#5) .unusedField (Reject.unless ((w.extractLsb' 7 9) = 0#9) .unusedField (.ok (.tcancel (w.extractLsb' 16 5))))
  | 7 => Reject.unless ((w.extractLsb' 7 9) = 0#9) .unusedField (.ok (.tdetach (w.extractLsb' 21 5) (w.extractLsb' 16 5)))
  | 8 => Reject.unless ((w.extractLsb' 7 9) = 0#9) .unusedField (.ok (.tadopt (w.extractLsb' 21 5) (w.extractLsb' 16 5)))
  | 9 => Reject.unless ((w.extractLsb' 21 5) = 0#5) .unusedField (Reject.unless ((w.extractLsb' 7 4) = 0#4) .unusedField (.ok (.tafter (w.extractLsb' 16 5) (w.extractLsb' 11 5))))
  | 10 => Reject.unless ((w.extractLsb' 7 4) = 0#4) .unusedField (.ok (.tstat (w.extractLsb' 21 5) (w.extractLsb' 16 5) (w.extractLsb' 11 5)))
  | 11 => Reject.unless ((w.extractLsb' 21 5) = 0#5) .unusedField (Reject.unless ((w.extractLsb' 11 5) = 0#5) .unusedField (Reject.unless ((w.extractLsb' 7 1) = 0#1) .unusedField (.ok (.tsetpri (w.extractLsb' 16 5) (w.extractLsb' 8 3)))))
  | _ => .error .reservedCode

/-- Major 0x1E (R71). -/
def decodeTile (w : BitVec 32) : Except Reject Instr :=
  match (w.extractLsb' 0 6).toNat with
  | 0 => Reject.unless ((w.extractLsb' 6 10) = 0#10) .unusedField (.ok (.tcfg (w.extractLsb' 21 5) (w.extractLsb' 16 5)))
  | 1 => Reject.unless ((w.extractLsb' 6 15) = 0#15) .unusedField (.ok (.tzero (w.extractLsb' 21 5)))
  | 2 => .ok (.tld (w.extractLsb' 21 5) (w.extractLsb' 16 5) (w.extractLsb' 11 5) (w.extractLsb' 6 5))
  | 3 => .ok (.tst (w.extractLsb' 21 5) (w.extractLsb' 16 5) (w.extractLsb' 11 5) (w.extractLsb' 6 5))
  | 4 => .ok (.tmvrv (w.extractLsb' 21 5) (w.extractLsb' 16 5) (w.extractLsb' 11 5) (w.extractLsb' 6 5))
  | 5 => .ok (.tmvcv (w.extractLsb' 21 5) (w.extractLsb' 16 5) (w.extractLsb' 11 5) (w.extractLsb' 6 5))
  | 6 => .ok (.tmvvr (w.extractLsb' 21 5) (w.extractLsb' 16 5) (w.extractLsb' 11 5) (w.extractLsb' 6 5))
  | 7 => .ok (.tmvvc (w.extractLsb' 21 5) (w.extractLsb' 16 5) (w.extractLsb' 11 5) (w.extractLsb' 6 5))
  | 8 => .ok (.touter (w.extractLsb' 21 5) (w.extractLsb' 16 5) (w.extractLsb' 11 5) (w.extractLsb' 6 5))
  | 9 => Reject.unless ((w.extractLsb' 6 15) = 0#15) .unusedField (.ok (.trelease (w.extractLsb' 21 5)))
  | _ => .error .reservedCode

/-- Major 0x20 (R71). -/
def decodeVset (w : BitVec 32) : Except Reject Instr :=
  match (w.extractLsb' 0 11).toNat with
  | 0 => .ok (.vsetvl (w.extractLsb' 21 5) (w.extractLsb' 16 5) (w.extractLsb' 11 5))
  | 1 => Reject.unless ((w.extractLsb' 11 5) = 0#5) .unusedField (.ok (.vsetvlb (w.extractLsb' 21 5) (w.extractLsb' 16 5)))
  | _ => .error .reservedCode

/-- Major 0x21 (R71). -/
def decodeIntVV (w : BitVec 32) : Except Reject Instr :=
  match (w.extractLsb' 0 6).toNat with
  | 0 => .ok (.vaddVv (w.extractLsb' 21 5) (w.extractLsb' 16 5) (w.extractLsb' 11 5) (w.extractLsb' 6 5))
  | 1 => .ok (.vsubVv (w.extractLsb' 21 5) (w.extractLsb' 16 5) (w.extractLsb' 11 5) (w.extractLsb' 6 5))
  | 2 => .ok (.vmulVv (w.extractLsb' 21 5) (w.extractLsb' 16 5) (w.extractLsb' 11 5) (w.extractLsb' 6 5))
  | 3 => .ok (.vmulhVv (w.extractLsb' 21 5) (w.extractLsb' 16 5) (w.extractLsb' 11 5) (w.extractLsb' 6 5))
  | 4 => .ok (.vmulhuVv (w.extractLsb' 21 5) (w.extractLsb' 16 5) (w.extractLsb' 11 5) (w.extractLsb' 6 5))
  | 5 => .ok (.vdivVv (w.extractLsb' 21 5) (w.extractLsb' 16 5) (w.extractLsb' 11 5) (w.extractLsb' 6 5))
  | 6 => .ok (.vdivuVv (w.extractLsb' 21 5) (w.extractLsb' 16 5) (w.extractLsb' 11 5) (w.extractLsb' 6 5))
  | 7 => .ok (.vremVv (w.extractLsb' 21 5) (w.extractLsb' 16 5) (w.extractLsb' 11 5) (w.extractLsb' 6 5))
  | 8 => .ok (.vremuVv (w.extractLsb' 21 5) (w.extractLsb' 16 5) (w.extractLsb' 11 5) (w.extractLsb' 6 5))
  | 9 => .ok (.vandVv (w.extractLsb' 21 5) (w.extractLsb' 16 5) (w.extractLsb' 11 5) (w.extractLsb' 6 5))
  | 10 => .ok (.vorVv (w.extractLsb' 21 5) (w.extractLsb' 16 5) (w.extractLsb' 11 5) (w.extractLsb' 6 5))
  | 11 => .ok (.vxorVv (w.extractLsb' 21 5) (w.extractLsb' 16 5) (w.extractLsb' 11 5) (w.extractLsb' 6 5))
  | 12 => .ok (.vshlVv (w.extractLsb' 21 5) (w.extractLsb' 16 5) (w.extractLsb' 11 5) (w.extractLsb' 6 5))
  | 13 => .ok (.vshrVv (w.extractLsb' 21 5) (w.extractLsb' 16 5) (w.extractLsb' 11 5) (w.extractLsb' 6 5))
  | 14 => .ok (.vsraVv (w.extractLsb' 21 5) (w.extractLsb' 16 5) (w.extractLsb' 11 5) (w.extractLsb' 6 5))
  | 15 => .ok (.vminVv (w.extractLsb' 21 5) (w.extractLsb' 16 5) (w.extractLsb' 11 5) (w.extractLsb' 6 5))
  | 16 => .ok (.vmaxVv (w.extractLsb' 21 5) (w.extractLsb' 16 5) (w.extractLsb' 11 5) (w.extractLsb' 6 5))
  | 17 => .ok (.vminuVv (w.extractLsb' 21 5) (w.extractLsb' 16 5) (w.extractLsb' 11 5) (w.extractLsb' 6 5))
  | 18 => .ok (.vmaxuVv (w.extractLsb' 21 5) (w.extractLsb' 16 5) (w.extractLsb' 11 5) (w.extractLsb' 6 5))
  | 19 => .ok (.vmaccVv (w.extractLsb' 21 5) (w.extractLsb' 16 5) (w.extractLsb' 11 5) (w.extractLsb' 6 5))
  | 20 => .ok (.vsaddVv (w.extractLsb' 21 5) (w.extractLsb' 16 5) (w.extractLsb' 11 5) (w.extractLsb' 6 5))
  | 21 => .ok (.vssubVv (w.extractLsb' 21 5) (w.extractLsb' 16 5) (w.extractLsb' 11 5) (w.extractLsb' 6 5))
  | 22 => .ok (.vmergeVv (w.extractLsb' 21 5) (w.extractLsb' 16 5) (w.extractLsb' 11 5) (w.extractLsb' 6 5))
  | 23 => Reject.unless ((w.extractLsb' 16 5) = 0#5) .unusedField (.ok (.vmvVv (w.extractLsb' 21 5) (w.extractLsb' 11 5) (w.extractLsb' 6 5)))
  | _ => .error .reservedCode

/-- Major 0x22 (R71). -/
def decodeIntVX (w : BitVec 32) : Except Reject Instr :=
  match (w.extractLsb' 0 6).toNat with
  | 0 => .ok (.vaddVx (w.extractLsb' 21 5) (w.extractLsb' 16 5) (w.extractLsb' 11 5) (w.extractLsb' 6 5))
  | 1 => .ok (.vsubVx (w.extractLsb' 21 5) (w.extractLsb' 16 5) (w.extractLsb' 11 5) (w.extractLsb' 6 5))
  | 2 => .ok (.vmulVx (w.extractLsb' 21 5) (w.extractLsb' 16 5) (w.extractLsb' 11 5) (w.extractLsb' 6 5))
  | 3 => .ok (.vmulhVx (w.extractLsb' 21 5) (w.extractLsb' 16 5) (w.extractLsb' 11 5) (w.extractLsb' 6 5))
  | 4 => .ok (.vmulhuVx (w.extractLsb' 21 5) (w.extractLsb' 16 5) (w.extractLsb' 11 5) (w.extractLsb' 6 5))
  | 5 => .ok (.vdivVx (w.extractLsb' 21 5) (w.extractLsb' 16 5) (w.extractLsb' 11 5) (w.extractLsb' 6 5))
  | 6 => .ok (.vdivuVx (w.extractLsb' 21 5) (w.extractLsb' 16 5) (w.extractLsb' 11 5) (w.extractLsb' 6 5))
  | 7 => .ok (.vremVx (w.extractLsb' 21 5) (w.extractLsb' 16 5) (w.extractLsb' 11 5) (w.extractLsb' 6 5))
  | 8 => .ok (.vremuVx (w.extractLsb' 21 5) (w.extractLsb' 16 5) (w.extractLsb' 11 5) (w.extractLsb' 6 5))
  | 9 => .ok (.vandVx (w.extractLsb' 21 5) (w.extractLsb' 16 5) (w.extractLsb' 11 5) (w.extractLsb' 6 5))
  | 10 => .ok (.vorVx (w.extractLsb' 21 5) (w.extractLsb' 16 5) (w.extractLsb' 11 5) (w.extractLsb' 6 5))
  | 11 => .ok (.vxorVx (w.extractLsb' 21 5) (w.extractLsb' 16 5) (w.extractLsb' 11 5) (w.extractLsb' 6 5))
  | 12 => .ok (.vshlVx (w.extractLsb' 21 5) (w.extractLsb' 16 5) (w.extractLsb' 11 5) (w.extractLsb' 6 5))
  | 13 => .ok (.vshrVx (w.extractLsb' 21 5) (w.extractLsb' 16 5) (w.extractLsb' 11 5) (w.extractLsb' 6 5))
  | 14 => .ok (.vsraVx (w.extractLsb' 21 5) (w.extractLsb' 16 5) (w.extractLsb' 11 5) (w.extractLsb' 6 5))
  | 15 => .ok (.vminVx (w.extractLsb' 21 5) (w.extractLsb' 16 5) (w.extractLsb' 11 5) (w.extractLsb' 6 5))
  | 16 => .ok (.vmaxVx (w.extractLsb' 21 5) (w.extractLsb' 16 5) (w.extractLsb' 11 5) (w.extractLsb' 6 5))
  | 17 => .ok (.vminuVx (w.extractLsb' 21 5) (w.extractLsb' 16 5) (w.extractLsb' 11 5) (w.extractLsb' 6 5))
  | 18 => .ok (.vmaxuVx (w.extractLsb' 21 5) (w.extractLsb' 16 5) (w.extractLsb' 11 5) (w.extractLsb' 6 5))
  | 19 => .ok (.vmaccVx (w.extractLsb' 21 5) (w.extractLsb' 16 5) (w.extractLsb' 11 5) (w.extractLsb' 6 5))
  | 20 => .ok (.vsaddVx (w.extractLsb' 21 5) (w.extractLsb' 16 5) (w.extractLsb' 11 5) (w.extractLsb' 6 5))
  | 21 => .ok (.vssubVx (w.extractLsb' 21 5) (w.extractLsb' 16 5) (w.extractLsb' 11 5) (w.extractLsb' 6 5))
  | 22 => .ok (.vmergeVx (w.extractLsb' 21 5) (w.extractLsb' 16 5) (w.extractLsb' 11 5) (w.extractLsb' 6 5))
  | 23 => Reject.unless ((w.extractLsb' 16 5) = 0#5) .unusedField (.ok (.vmvVx (w.extractLsb' 21 5) (w.extractLsb' 11 5) (w.extractLsb' 6 5)))
  | _ => .error .reservedCode

/-- Major 0x23 (R71). -/
def decodeIntVI (w : BitVec 32) : Except Reject Instr :=
  match (w.extractLsb' 0 6).toNat with
  | 0 => .ok (.vaddVi (w.extractLsb' 21 5) (w.extractLsb' 16 5) (w.extractLsb' 11 5) (w.extractLsb' 6 5))
  | 1 => .ok (.vsubVi (w.extractLsb' 21 5) (w.extractLsb' 16 5) (w.extractLsb' 11 5) (w.extractLsb' 6 5))
  | 2 => .ok (.vmulVi (w.extractLsb' 21 5) (w.extractLsb' 16 5) (w.extractLsb' 11 5) (w.extractLsb' 6 5))
  | 3 => .ok (.vmulhVi (w.extractLsb' 21 5) (w.extractLsb' 16 5) (w.extractLsb' 11 5) (w.extractLsb' 6 5))
  | 4 => .ok (.vmulhuVi (w.extractLsb' 21 5) (w.extractLsb' 16 5) (w.extractLsb' 11 5) (w.extractLsb' 6 5))
  | 5 => .ok (.vdivVi (w.extractLsb' 21 5) (w.extractLsb' 16 5) (w.extractLsb' 11 5) (w.extractLsb' 6 5))
  | 6 => .ok (.vdivuVi (w.extractLsb' 21 5) (w.extractLsb' 16 5) (w.extractLsb' 11 5) (w.extractLsb' 6 5))
  | 7 => .ok (.vremVi (w.extractLsb' 21 5) (w.extractLsb' 16 5) (w.extractLsb' 11 5) (w.extractLsb' 6 5))
  | 8 => .ok (.vremuVi (w.extractLsb' 21 5) (w.extractLsb' 16 5) (w.extractLsb' 11 5) (w.extractLsb' 6 5))
  | 9 => .ok (.vandVi (w.extractLsb' 21 5) (w.extractLsb' 16 5) (w.extractLsb' 11 5) (w.extractLsb' 6 5))
  | 10 => .ok (.vorVi (w.extractLsb' 21 5) (w.extractLsb' 16 5) (w.extractLsb' 11 5) (w.extractLsb' 6 5))
  | 11 => .ok (.vxorVi (w.extractLsb' 21 5) (w.extractLsb' 16 5) (w.extractLsb' 11 5) (w.extractLsb' 6 5))
  | 12 => .ok (.vshlVi (w.extractLsb' 21 5) (w.extractLsb' 16 5) (w.extractLsb' 11 5) (w.extractLsb' 6 5))
  | 13 => .ok (.vshrVi (w.extractLsb' 21 5) (w.extractLsb' 16 5) (w.extractLsb' 11 5) (w.extractLsb' 6 5))
  | 14 => .ok (.vsraVi (w.extractLsb' 21 5) (w.extractLsb' 16 5) (w.extractLsb' 11 5) (w.extractLsb' 6 5))
  | 15 => .ok (.vminVi (w.extractLsb' 21 5) (w.extractLsb' 16 5) (w.extractLsb' 11 5) (w.extractLsb' 6 5))
  | 16 => .ok (.vmaxVi (w.extractLsb' 21 5) (w.extractLsb' 16 5) (w.extractLsb' 11 5) (w.extractLsb' 6 5))
  | 17 => .ok (.vminuVi (w.extractLsb' 21 5) (w.extractLsb' 16 5) (w.extractLsb' 11 5) (w.extractLsb' 6 5))
  | 18 => .ok (.vmaxuVi (w.extractLsb' 21 5) (w.extractLsb' 16 5) (w.extractLsb' 11 5) (w.extractLsb' 6 5))
  | 19 => .ok (.vmaccVi (w.extractLsb' 21 5) (w.extractLsb' 16 5) (w.extractLsb' 11 5) (w.extractLsb' 6 5))
  | 20 => .ok (.vsaddVi (w.extractLsb' 21 5) (w.extractLsb' 16 5) (w.extractLsb' 11 5) (w.extractLsb' 6 5))
  | 21 => .ok (.vssubVi (w.extractLsb' 21 5) (w.extractLsb' 16 5) (w.extractLsb' 11 5) (w.extractLsb' 6 5))
  | 22 => .ok (.vmergeVi (w.extractLsb' 21 5) (w.extractLsb' 16 5) (w.extractLsb' 11 5) (w.extractLsb' 6 5))
  | 23 => Reject.unless ((w.extractLsb' 16 5) = 0#5) .unusedField (.ok (.vmvVi (w.extractLsb' 21 5) (w.extractLsb' 11 5) (w.extractLsb' 6 5)))
  | _ => .error .reservedCode

/-- Major 0x24 (R71). -/
def decodeFpVV (w : BitVec 32) : Except Reject Instr :=
  match (w.extractLsb' 0 6).toNat with
  | 0 => .ok (.vfaddVv (w.extractLsb' 21 5) (w.extractLsb' 16 5) (w.extractLsb' 11 5) (w.extractLsb' 6 5))
  | 1 => .ok (.vfsubVv (w.extractLsb' 21 5) (w.extractLsb' 16 5) (w.extractLsb' 11 5) (w.extractLsb' 6 5))
  | 2 => .ok (.vfmulVv (w.extractLsb' 21 5) (w.extractLsb' 16 5) (w.extractLsb' 11 5) (w.extractLsb' 6 5))
  | 3 => .ok (.vfdivVv (w.extractLsb' 21 5) (w.extractLsb' 16 5) (w.extractLsb' 11 5) (w.extractLsb' 6 5))
  | 4 => .ok (.vfminVv (w.extractLsb' 21 5) (w.extractLsb' 16 5) (w.extractLsb' 11 5) (w.extractLsb' 6 5))
  | 5 => .ok (.vfmaxVv (w.extractLsb' 21 5) (w.extractLsb' 16 5) (w.extractLsb' 11 5) (w.extractLsb' 6 5))
  | 6 => .ok (.vfmaccVv (w.extractLsb' 21 5) (w.extractLsb' 16 5) (w.extractLsb' 11 5) (w.extractLsb' 6 5))
  | 7 => .ok (.vfnmaccVv (w.extractLsb' 21 5) (w.extractLsb' 16 5) (w.extractLsb' 11 5) (w.extractLsb' 6 5))
  | 8 => .ok (.vfmsacVv (w.extractLsb' 21 5) (w.extractLsb' 16 5) (w.extractLsb' 11 5) (w.extractLsb' 6 5))
  | 9 => .ok (.vfnmsacVv (w.extractLsb' 21 5) (w.extractLsb' 16 5) (w.extractLsb' 11 5) (w.extractLsb' 6 5))
  | 10 => .ok (.vfsgnjVv (w.extractLsb' 21 5) (w.extractLsb' 16 5) (w.extractLsb' 11 5) (w.extractLsb' 6 5))
  | 11 => .ok (.vfsgnjnVv (w.extractLsb' 21 5) (w.extractLsb' 16 5) (w.extractLsb' 11 5) (w.extractLsb' 6 5))
  | 12 => .ok (.vfsgnjxVv (w.extractLsb' 21 5) (w.extractLsb' 16 5) (w.extractLsb' 11 5) (w.extractLsb' 6 5))
  | _ => .error .reservedCode

/-- Major 0x25 (R71). -/
def decodeFpVX (w : BitVec 32) : Except Reject Instr :=
  match (w.extractLsb' 0 6).toNat with
  | 0 => .ok (.vfaddVx (w.extractLsb' 21 5) (w.extractLsb' 16 5) (w.extractLsb' 11 5) (w.extractLsb' 6 5))
  | 1 => .ok (.vfsubVx (w.extractLsb' 21 5) (w.extractLsb' 16 5) (w.extractLsb' 11 5) (w.extractLsb' 6 5))
  | 2 => .ok (.vfmulVx (w.extractLsb' 21 5) (w.extractLsb' 16 5) (w.extractLsb' 11 5) (w.extractLsb' 6 5))
  | 3 => .ok (.vfdivVx (w.extractLsb' 21 5) (w.extractLsb' 16 5) (w.extractLsb' 11 5) (w.extractLsb' 6 5))
  | 4 => .ok (.vfminVx (w.extractLsb' 21 5) (w.extractLsb' 16 5) (w.extractLsb' 11 5) (w.extractLsb' 6 5))
  | 5 => .ok (.vfmaxVx (w.extractLsb' 21 5) (w.extractLsb' 16 5) (w.extractLsb' 11 5) (w.extractLsb' 6 5))
  | 6 => .ok (.vfmaccVx (w.extractLsb' 21 5) (w.extractLsb' 16 5) (w.extractLsb' 11 5) (w.extractLsb' 6 5))
  | 7 => .ok (.vfnmaccVx (w.extractLsb' 21 5) (w.extractLsb' 16 5) (w.extractLsb' 11 5) (w.extractLsb' 6 5))
  | 8 => .ok (.vfmsacVx (w.extractLsb' 21 5) (w.extractLsb' 16 5) (w.extractLsb' 11 5) (w.extractLsb' 6 5))
  | 9 => .ok (.vfnmsacVx (w.extractLsb' 21 5) (w.extractLsb' 16 5) (w.extractLsb' 11 5) (w.extractLsb' 6 5))
  | 10 => .ok (.vfsgnjVx (w.extractLsb' 21 5) (w.extractLsb' 16 5) (w.extractLsb' 11 5) (w.extractLsb' 6 5))
  | 11 => .ok (.vfsgnjnVx (w.extractLsb' 21 5) (w.extractLsb' 16 5) (w.extractLsb' 11 5) (w.extractLsb' 6 5))
  | 12 => .ok (.vfsgnjxVx (w.extractLsb' 21 5) (w.extractLsb' 16 5) (w.extractLsb' 11 5) (w.extractLsb' 6 5))
  | _ => .error .reservedCode

/-- Major 0x26 (R71). -/
def decodeUnary (w : BitVec 32) : Except Reject Instr :=
  match (w.extractLsb' 0 6).toNat with
  | 0 => Reject.unless ((w.extractLsb' 11 5) = 0#5) .unusedField (.ok (.vfsqrt (w.extractLsb' 21 5) (w.extractLsb' 16 5) (w.extractLsb' 6 5)))
  | 1 => Reject.unless ((w.extractLsb' 11 5) = 0#5) .unusedField (.ok (.vfrsqrte (w.extractLsb' 21 5) (w.extractLsb' 16 5) (w.extractLsb' 6 5)))
  | 2 => Reject.unless ((w.extractLsb' 11 5) = 0#5) .unusedField (.ok (.vfrece (w.extractLsb' 21 5) (w.extractLsb' 16 5) (w.extractLsb' 6 5)))
  | 3 => Reject.unless ((w.extractLsb' 11 5) = 0#5) .unusedField (.ok (.vfclass (w.extractLsb' 21 5) (w.extractLsb' 16 5) (w.extractLsb' 6 5)))
  | 4 => .ok (.vfcvt (w.extractLsb' 21 5) (w.extractLsb' 16 5) (w.extractLsb' 11 5) (w.extractLsb' 6 5))
  | 5 => Reject.unless ((w.extractLsb' 15 1) = 0#1) .unusedField (Reject.field (MxFmt.ofCode ((w.extractLsb' 11 3).zeroExtend 5)) fun f => .ok (.vmxcvt (w.extractLsb' 21 5) (w.extractLsb' 16 5) ((w.extractLsb' 14 1) == 1#1) f (w.extractLsb' 6 5)))
  | 6 => Reject.unless ((w.extractLsb' 11 5) = 0#5) .unusedField (.ok (.vsext (w.extractLsb' 21 5) (w.extractLsb' 16 5) (w.extractLsb' 6 5)))
  | 7 => Reject.unless ((w.extractLsb' 11 5) = 0#5) .unusedField (.ok (.vzext (w.extractLsb' 21 5) (w.extractLsb' 16 5) (w.extractLsb' 6 5)))
  | 8 => .ok (.vnarrow (w.extractLsb' 21 5) (w.extractLsb' 16 5) (w.extractLsb' 11 5) (w.extractLsb' 6 5))
  | _ => .error .reservedCode

/-- Major 0x27 (R71). -/
def decodeCompare (w : BitVec 32) : Except Reject Instr :=
  match (w.extractLsb' 1 2).toNat with
  | 0 => Reject.field (CmpCond.ofCode (w.extractLsb' 3 3)) fun c => .ok (.vcmpVv (w.extractLsb' 21 5) (w.extractLsb' 16 5) (w.extractLsb' 11 5) (w.extractLsb' 6 5) c ((w.extractLsb' 0 1) == 1#1))
  | 1 => Reject.field (CmpCond.ofCode (w.extractLsb' 3 3)) fun c => .ok (.vcmpVx (w.extractLsb' 21 5) (w.extractLsb' 16 5) (w.extractLsb' 11 5) (w.extractLsb' 6 5) c ((w.extractLsb' 0 1) == 1#1))
  | 2 => Reject.unless ((w.extractLsb' 0 1) = 0#1) .unusedField (Reject.field (CmpCond.ofCode (w.extractLsb' 3 3)) fun c => .ok (.vfcmpVv (w.extractLsb' 21 5) (w.extractLsb' 16 5) (w.extractLsb' 11 5) (w.extractLsb' 6 5) c))
  | 3 => Reject.unless ((w.extractLsb' 0 1) = 0#1) .unusedField (Reject.field (CmpCond.ofCode (w.extractLsb' 3 3)) fun c => .ok (.vfcmpVx (w.extractLsb' 21 5) (w.extractLsb' 16 5) (w.extractLsb' 11 5) (w.extractLsb' 6 5) c))
  | _ => .error .reservedCode

/-- Major 0x28 (R71). -/
def decodePred (w : BitVec 32) : Except Reject Instr :=
  match (w.extractLsb' 0 6).toNat with
  | 0 => .ok (.pand (w.extractLsb' 21 5) (w.extractLsb' 16 5) (w.extractLsb' 11 5) (w.extractLsb' 6 5))
  | 1 => .ok (.por (w.extractLsb' 21 5) (w.extractLsb' 16 5) (w.extractLsb' 11 5) (w.extractLsb' 6 5))
  | 2 => .ok (.pxor (w.extractLsb' 21 5) (w.extractLsb' 16 5) (w.extractLsb' 11 5) (w.extractLsb' 6 5))
  | 3 => Reject.unless ((w.extractLsb' 11 5) = 0#5) .unusedField (.ok (.pnot (w.extractLsb' 21 5) (w.extractLsb' 16 5) (w.extractLsb' 6 5)))
  | 4 => Reject.unless ((w.extractLsb' 11 10) = 0#10) .unusedField (.ok (.pset (w.extractLsb' 21 5) (w.extractLsb' 6 5)))
  | 5 => Reject.unless ((w.extractLsb' 11 10) = 0#10) .unusedField (.ok (.pclr (w.extractLsb' 21 5) (w.extractLsb' 6 5)))
  | 6 => Reject.unless ((w.extractLsb' 11 5) = 0#5) .unusedField (.ok (.pmsbf (w.extractLsb' 21 5) (w.extractLsb' 16 5) (w.extractLsb' 6 5)))
  | 7 => Reject.unless ((w.extractLsb' 11 5) = 0#5) .unusedField (.ok (.pmsif (w.extractLsb' 21 5) (w.extractLsb' 16 5) (w.extractLsb' 6 5)))
  | 8 => Reject.unless ((w.extractLsb' 11 5) = 0#5) .unusedField (.ok (.pfirst (w.extractLsb' 21 5) (w.extractLsb' 16 5) (w.extractLsb' 6 5)))
  | 9 => Reject.unless ((w.extractLsb' 11 5) = 0#5) .unusedField (.ok (.pcount (w.extractLsb' 21 5) (w.extractLsb' 16 5) (w.extractLsb' 6 5)))
  | 10 => Reject.unless ((w.extractLsb' 6 10) = 0#10) .unusedField (.ok (.pld (w.extractLsb' 21 5) (w.extractLsb' 16 5)))
  | 11 => Reject.unless ((w.extractLsb' 6 10) = 0#10) .unusedField (.ok (.pst (w.extractLsb' 21 5) (w.extractLsb' 16 5)))
  | _ => .error .reservedCode

/-- Major 0x29 (R71). -/
def decodePermute (w : BitVec 32) : Except Reject Instr :=
  match (w.extractLsb' 0 6).toNat with
  | 0 => .ok (.vslideup (w.extractLsb' 21 5) (w.extractLsb' 16 5) (w.extractLsb' 11 5) (w.extractLsb' 6 5))
  | 1 => .ok (.vslidedown (w.extractLsb' 21 5) (w.extractLsb' 16 5) (w.extractLsb' 11 5) (w.extractLsb' 6 5))
  | 2 => .ok (.vrgather (w.extractLsb' 21 5) (w.extractLsb' 16 5) (w.extractLsb' 11 5) (w.extractLsb' 6 5))
  | 3 => Reject.unless ((w.extractLsb' 11 5) = 0#5) .unusedField (.ok (.vcompress (w.extractLsb' 21 5) (w.extractLsb' 16 5) (w.extractLsb' 6 5)))
  | 4 => Reject.unless ((w.extractLsb' 11 5) = 0#5) .unusedField (.ok (.vexpand (w.extractLsb' 21 5) (w.extractLsb' 16 5) (w.extractLsb' 6 5)))
  | 5 => .ok (.vbcast (w.extractLsb' 21 5) (w.extractLsb' 16 5) (w.extractLsb' 11 5) (w.extractLsb' 6 5))
  | 6 => Reject.unless ((w.extractLsb' 6 5) = 0#5) .unusedField (.ok (.vextract (w.extractLsb' 21 5) (w.extractLsb' 16 5) (w.extractLsb' 11 5)))
  | 7 => Reject.unless ((w.extractLsb' 6 5) = 0#5) .unusedField (.ok (.vinsert (w.extractLsb' 21 5) (w.extractLsb' 16 5) (w.extractLsb' 11 5)))
  | 8 => Reject.unless ((w.extractLsb' 11 10) = 0#10) .unusedField (.ok (.vid (w.extractLsb' 21 5) (w.extractLsb' 6 5)))
  | _ => .error .reservedCode

/-- Major 0x2A (R71). -/
def decodeReduce (w : BitVec 32) : Except Reject Instr :=
  match (w.extractLsb' 0 6).toNat with
  | 0 => .ok (.vredsum (w.extractLsb' 21 5) (w.extractLsb' 16 5) (w.extractLsb' 11 5) (w.extractLsb' 6 5))
  | 1 => .ok (.vredmax (w.extractLsb' 21 5) (w.extractLsb' 16 5) (w.extractLsb' 11 5) (w.extractLsb' 6 5))
  | 2 => .ok (.vredmin (w.extractLsb' 21 5) (w.extractLsb' 16 5) (w.extractLsb' 11 5) (w.extractLsb' 6 5))
  | 3 => .ok (.vredand (w.extractLsb' 21 5) (w.extractLsb' 16 5) (w.extractLsb' 11 5) (w.extractLsb' 6 5))
  | 4 => .ok (.vredor (w.extractLsb' 21 5) (w.extractLsb' 16 5) (w.extractLsb' 11 5) (w.extractLsb' 6 5))
  | 5 => .ok (.vfredsum (w.extractLsb' 21 5) (w.extractLsb' 16 5) (w.extractLsb' 11 5) (w.extractLsb' 6 5))
  | 6 => .ok (.vfredosum (w.extractLsb' 21 5) (w.extractLsb' 16 5) (w.extractLsb' 11 5) (w.extractLsb' 6 5))
  | 7 => .ok (.vfredmax (w.extractLsb' 21 5) (w.extractLsb' 16 5) (w.extractLsb' 11 5) (w.extractLsb' 6 5))
  | 8 => .ok (.vfredmin (w.extractLsb' 21 5) (w.extractLsb' 16 5) (w.extractLsb' 11 5) (w.extractLsb' 6 5))
  | _ => .error .reservedCode

/-- Major 0x2B (R71). -/
def decodeResidue (w : BitVec 32) : Except Reject Instr :=
  match (w.extractLsb' 0 6).toNat with
  | 0 => Reject.unless ((w.extractLsb' 11 5) = 0#5) .unusedField (.ok (.vrenc (w.extractLsb' 21 5) (w.extractLsb' 16 5) (w.extractLsb' 6 5)))
  | 1 => .ok (.vradd (w.extractLsb' 21 5) (w.extractLsb' 16 5) (w.extractLsb' 11 5) (w.extractLsb' 6 5))
  | 2 => .ok (.vrsub (w.extractLsb' 21 5) (w.extractLsb' 16 5) (w.extractLsb' 11 5) (w.extractLsb' 6 5))
  | 3 => .ok (.vrmul (w.extractLsb' 21 5) (w.extractLsb' 16 5) (w.extractLsb' 11 5) (w.extractLsb' 6 5))
  | 4 => .ok (.vrmacc (w.extractLsb' 21 5) (w.extractLsb' 16 5) (w.extractLsb' 11 5) (w.extractLsb' 6 5))
  | 5 => Reject.unless ((w.extractLsb' 11 5) = 0#5) .unusedField (.ok (.vrdec (w.extractLsb' 21 5) (w.extractLsb' 16 5) (w.extractLsb' 6 5)))
  | 6 => Reject.unless ((w.extractLsb' 11 5) = 0#5) .unusedField (.ok (.vrchk (w.extractLsb' 21 5) (w.extractLsb' 16 5) (w.extractLsb' 6 5)))
  | 7 => .ok (.vslice (w.extractLsb' 21 5) (w.extractLsb' 16 5) (w.extractLsb' 11 5) (w.extractLsb' 6 5))
  | 8 => Reject.unless ((w.extractLsb' 11 5) = 0#5) .unusedField (.ok (.vunslice (w.extractLsb' 21 5) (w.extractLsb' 16 5) (w.extractLsb' 6 5)))
  | _ => .error .reservedCode

/-- Major 0x2C (R71). -/
def decodeMixed (w : BitVec 32) : Except Reject Instr :=
  match (w.extractLsb' 0 6).toNat with
  | 0 => .ok (.vwadd (w.extractLsb' 21 5) (w.extractLsb' 16 5) (w.extractLsb' 11 5) (w.extractLsb' 6 5))
  | 1 => .ok (.vwsub (w.extractLsb' 21 5) (w.extractLsb' 16 5) (w.extractLsb' 11 5) (w.extractLsb' 6 5))
  | 2 => .ok (.vwmul (w.extractLsb' 21 5) (w.extractLsb' 16 5) (w.extractLsb' 11 5) (w.extractLsb' 6 5))
  | 3 => .ok (.vwmacc (w.extractLsb' 21 5) (w.extractLsb' 16 5) (w.extractLsb' 11 5) (w.extractLsb' 6 5))
  | 4 => .ok (.vwfmacc (w.extractLsb' 21 5) (w.extractLsb' 16 5) (w.extractLsb' 11 5) (w.extractLsb' 6 5))
  | 5 => .ok (.vqdot (w.extractLsb' 21 5) (w.extractLsb' 16 5) (w.extractLsb' 11 5) (w.extractLsb' 6 5))
  | _ => .error .reservedCode

/-- Major 0x2D (R71). -/
def decodeVLoad (w : BitVec 32) : Except Reject Instr :=
  match (w.extractLsb' 2 2).toNat with
  | 0 => Reject.unless ((w.extractLsb' 11 5) = 0#5) .unusedField (.ok (.vld (w.extractLsb' 21 5) (w.extractLsb' 16 5) (w.extractLsb' 6 5) (w.extractLsb' 4 2) (ElemWidth.ofCode (w.extractLsb' 0 2))))
  | 1 => .ok (.vlds (w.extractLsb' 21 5) (w.extractLsb' 16 5) (w.extractLsb' 11 5) (w.extractLsb' 6 5) (w.extractLsb' 4 2) (ElemWidth.ofCode (w.extractLsb' 0 2)))
  | 2 => Reject.unless ((w.extractLsb' 11 5) = 0#5) .unusedField (.ok (.vldff (w.extractLsb' 21 5) (w.extractLsb' 16 5) (w.extractLsb' 6 5) (w.extractLsb' 4 2) (ElemWidth.ofCode (w.extractLsb' 0 2))))
  | 3 => Reject.unless ((w.extractLsb' 16 5) = 0#5) .unusedField (Reject.unless ((w.extractLsb' 4 2) = 0#2) .unusedField (.ok (.vldq (w.extractLsb' 21 5) (w.extractLsb' 11 5) (w.extractLsb' 6 5) (ElemWidth.ofCode (w.extractLsb' 0 2)))))
  | _ => .error .reservedCode

/-- Major 0x2E (R71). -/
def decodeVStore (w : BitVec 32) : Except Reject Instr :=
  match (w.extractLsb' 2 2).toNat with
  | 0 => Reject.unless ((w.extractLsb' 11 5) = 0#5) .unusedField (.ok (.vst (w.extractLsb' 21 5) (w.extractLsb' 16 5) (w.extractLsb' 6 5) (w.extractLsb' 4 2) (ElemWidth.ofCode (w.extractLsb' 0 2))))
  | 1 => .ok (.vsts (w.extractLsb' 21 5) (w.extractLsb' 16 5) (w.extractLsb' 11 5) (w.extractLsb' 6 5) (w.extractLsb' 4 2) (ElemWidth.ofCode (w.extractLsb' 0 2)))
  | _ => .error .reservedCode

/-- Major 0x2F (R71). -/
def decodeVLoadX (w : BitVec 32) : Except Reject Instr :=
  match (w.extractLsb' 2 2).toNat with
  | 0 => .ok (.vldx (w.extractLsb' 21 5) (w.extractLsb' 16 5) (w.extractLsb' 11 5) (w.extractLsb' 6 5) (w.extractLsb' 4 2) (ElemWidth.ofCode (w.extractLsb' 0 2)))
  | 1 => .ok (.vlseg (w.extractLsb' 21 5) (w.extractLsb' 16 5) (w.extractLsb' 11 5) (w.extractLsb' 6 5) (w.extractLsb' 4 2) (ElemWidth.ofCode (w.extractLsb' 0 2)))
  | 2 => Reject.unless ((w.extractLsb' 0 2) = 0#2) .unusedField (Reject.field (MxFmt.ofCode (w.extractLsb' 11 5)) fun f => .ok (.vlsegmx (w.extractLsb' 21 5) (w.extractLsb' 16 5) f (w.extractLsb' 6 5) (w.extractLsb' 4 2)))
  | _ => .error .reservedCode

/-- Major 0x30 (R71). -/
def decodeVStoreX (w : BitVec 32) : Except Reject Instr :=
  match (w.extractLsb' 2 2).toNat with
  | 0 => .ok (.vstx (w.extractLsb' 21 5) (w.extractLsb' 16 5) (w.extractLsb' 11 5) (w.extractLsb' 6 5) (w.extractLsb' 4 2) (ElemWidth.ofCode (w.extractLsb' 0 2)))
  | 1 => .ok (.vsseg (w.extractLsb' 21 5) (w.extractLsb' 16 5) (w.extractLsb' 11 5) (w.extractLsb' 6 5) (w.extractLsb' 4 2) (ElemWidth.ofCode (w.extractLsb' 0 2)))
  | 2 => Reject.unless ((w.extractLsb' 0 2) = 0#2) .unusedField (Reject.field (MxFmt.ofCode (w.extractLsb' 11 5)) fun f => .ok (.vssegmx (w.extractLsb' 21 5) (w.extractLsb' 16 5) f (w.extractLsb' 6 5) (w.extractLsb' 4 2)))
  | _ => .error .reservedCode

/-- Major 0x31 (R71). -/
def decodeVAtomic (w : BitVec 32) : Except Reject Instr :=
  match (w.extractLsb' 3 3).toNat with
  | 7 => Reject.unless ((w.extractLsb' 21 5) = 0#5) .unusedField (Reject.field (WaitCond.ofCode (w.extractLsb' 0 3)) fun c => .ok (.vwait (w.extractLsb' 16 5) (w.extractLsb' 11 5) (w.extractLsb' 6 5) c))
  | _ => Reject.field (VAmoOp.ofCode (w.extractLsb' 3 3)) fun o => .ok (.vamo (w.extractLsb' 21 5) (w.extractLsb' 16 5) (w.extractLsb' 11 5) (w.extractLsb' 6 5) o ((w.extractLsb' 2 1) == 1#1) ((w.extractLsb' 1 1) == 1#1) ((w.extractLsb' 0 1) == 1#1))

/-- Major 0x32 (R71). -/
def decodeChurn (w : BitVec 32) : Except Reject Instr :=
  match (w.extractLsb' 0 6).toNat with
  | 0 => Reject.unless ((w.extractLsb' 6 5) = 0#5) .unusedField (Reject.field (ChOp.ofCode (w.extractLsb' 21 5)) fun o => .ok (.chwin o (w.extractLsb' 16 5) (w.extractLsb' 11 5)))
  | 1 => Reject.unless ((w.extractLsb' 21 5) = 0#5) .unusedField (.ok (.vchadd (w.extractLsb' 16 5) (w.extractLsb' 11 5) (w.extractLsb' 6 5)))
  | 2 => Reject.unless ((w.extractLsb' 21 5) = 0#5) .unusedField (.ok (.vchmin (w.extractLsb' 16 5) (w.extractLsb' 11 5) (w.extractLsb' 6 5)))
  | 3 => Reject.unless ((w.extractLsb' 21 5) = 0#5) .unusedField (.ok (.vchmax (w.extractLsb' 16 5) (w.extractLsb' 11 5) (w.extractLsb' 6 5)))
  | 4 => Reject.unless ((w.extractLsb' 21 5) = 0#5) .unusedField (.ok (.vchfadd (w.extractLsb' 16 5) (w.extractLsb' 11 5) (w.extractLsb' 6 5)))
  | 5 => Reject.unless ((w.extractLsb' 6 20) = 0#20) .unusedField (.ok (.churn))
  | 6 => Reject.unless ((w.extractLsb' 6 20) = 0#20) .unusedField (.ok (.chdrop))
  | _ => .error .reservedCode

/-- Major 0x33 (R71). -/
def decodeFop (w : BitVec 32) : Except Reject Instr :=
  match (w.extractLsb' 0 2).toNat with
  | 0 => .ok (.fop (w.extractLsb' 21 5) (w.extractLsb' 16 5) (w.extractLsb' 11 5) (w.extractLsb' 6 5) (w.extractLsb' 2 4))
  | 2 => .ok (.fopVlb (w.extractLsb' 21 5) (w.extractLsb' 16 5) (w.extractLsb' 11 5) (w.extractLsb' 6 5) (w.extractLsb' 2 4))
  | _ => .error .reservedCode

/-- Major 0x34 (R71). -/
def decodeBind (w : BitVec 32) : Except Reject Instr :=
  match (w.extractLsb' 0 11).toNat with
  | 0 => .ok (.fbind (w.extractLsb' 21 5) (w.extractLsb' 16 5) (w.extractLsb' 11 5))
  | 1 => Reject.unless ((w.extractLsb' 21 5) = 0#5) .unusedField (Reject.unless ((w.extractLsb' 11 5) = 0#5) .unusedField (.ok (.funbind (w.extractLsb' 16 5))))
  | 2 => Reject.unless ((w.extractLsb' 21 5) = 0#5) .unusedField (Reject.unless ((w.extractLsb' 11 5) = 0#5) .unusedField (.ok (.fprefetch (w.extractLsb' 16 5))))
  | 3 => Reject.unless ((w.extractLsb' 11 5) = 0#5) .unusedField (.ok (.fquery (w.extractLsb' 21 5) (w.extractLsb' 16 5)))
  | _ => .error .reservedCode

/-- Major 0x35 (R71). -/
def decodeStream (w : BitVec 32) : Except Reject Instr :=
  match (w.extractLsb' 0 11).toNat with
  | 0 => .ok (.qbind (w.extractLsb' 21 5) (w.extractLsb' 16 5) (w.extractLsb' 11 5))
  | 1 => Reject.unless ((w.extractLsb' 21 5) = 0#5) .unusedField (Reject.unless ((w.extractLsb' 11 5) = 0#5) .unusedField (.ok (.qunbind (w.extractLsb' 16 5))))
  | 2 => Reject.unless ((w.extractLsb' 11 5) = 0#5) .unusedField (.ok (.qget (w.extractLsb' 21 5) (w.extractLsb' 16 5)))
  | 3 => Reject.unless ((w.extractLsb' 11 5) = 0#5) .unusedField (.ok (.qavail (w.extractLsb' 21 5) (w.extractLsb' 16 5)))
  | _ => .error .reservedCode

/-- Major 0x3E (R71). -/
def decodeDeprecated (w : BitVec 32) : Except Reject Instr :=
  match (w.extractLsb' 0 11).toNat with
  | 0 => .ok (.dvdot (w.extractLsb' 21 5) (w.extractLsb' 16 5) (w.extractLsb' 11 5))
  | 1 => Reject.unless ((w.extractLsb' 11 5) = 0#5) .unusedField (.ok (.dvsum (w.extractLsb' 21 5) (w.extractLsb' 16 5)))
  | 2 => .ok (.dvperm (w.extractLsb' 21 5) (w.extractLsb' 16 5) (w.extractLsb' 11 5))
  | _ => .error .reservedCode

/-- One instruction word, before the checks of `Instr.wf` (R63, R64, R71). -/
def decodeRaw (w : BitVec 32) : Except Reject Instr :=
  match (w.extractLsb' 26 6).toNat with
  | 0x01 => decodeIntReg w
  | 0x02 => .ok (.addi (w.extractLsb' 21 5) (w.extractLsb' 16 5) (w.extractLsb' 0 16))
  | 0x03 => .ok (.andi (w.extractLsb' 21 5) (w.extractLsb' 16 5) (w.extractLsb' 0 16))
  | 0x04 => .ok (.ori (w.extractLsb' 21 5) (w.extractLsb' 16 5) (w.extractLsb' 0 16))
  | 0x05 => .ok (.xori (w.extractLsb' 21 5) (w.extractLsb' 16 5) (w.extractLsb' 0 16))
  | 0x06 => .ok (.slti (w.extractLsb' 21 5) (w.extractLsb' 16 5) (w.extractLsb' 0 16))
  | 0x07 => .ok (.sltiu (w.extractLsb' 21 5) (w.extractLsb' 16 5) (w.extractLsb' 0 16))
  | 0x08 => decodeShiftImm w
  | 0x09 => Reject.unless ((w.extractLsb' 12 4) = 0#4) .unusedField (.ok (.bfx (w.extractLsb' 21 5) (w.extractLsb' 16 5) (w.extractLsb' 6 6) (w.extractLsb' 0 6)))
  | 0x0A => Reject.unless ((w.extractLsb' 12 4) = 0#4) .unusedField (.ok (.bfi (w.extractLsb' 21 5) (w.extractLsb' 16 5) (w.extractLsb' 6 6) (w.extractLsb' 0 6)))
  | 0x0B => Reject.unless ((w.extractLsb' 16 5) = 0#5) .unusedField (.ok (.addpc (w.extractLsb' 21 5) (w.extractLsb' 0 16)))
  | 0x0C => Reject.unless ((w.extractLsb' 16 5) = 0#5) .unusedField (.ok (.li (w.extractLsb' 21 5) (w.extractLsb' 0 16)))
  | 0x0D => decodeLoad w
  | 0x0E => decodeStore w
  | 0x0F => .ok (.beq (w.extractLsb' 21 5) (w.extractLsb' 16 5) (w.extractLsb' 0 16))
  | 0x10 => .ok (.bne (w.extractLsb' 21 5) (w.extractLsb' 16 5) (w.extractLsb' 0 16))
  | 0x11 => .ok (.blt (w.extractLsb' 21 5) (w.extractLsb' 16 5) (w.extractLsb' 0 16))
  | 0x12 => .ok (.bge (w.extractLsb' 21 5) (w.extractLsb' 16 5) (w.extractLsb' 0 16))
  | 0x13 => .ok (.bltu (w.extractLsb' 21 5) (w.extractLsb' 16 5) (w.extractLsb' 0 16))
  | 0x14 => .ok (.bgeu (w.extractLsb' 21 5) (w.extractLsb' 16 5) (w.extractLsb' 0 16))
  | 0x15 => .ok (.jal (w.extractLsb' 0 26))
  | 0x16 => .ok (.jump (w.extractLsb' 0 26))
  | 0x17 => .ok (.jalr (w.extractLsb' 21 5) (w.extractLsb' 16 5) (w.extractLsb' 0 16))
  | 0x18 => decodeScalarFp w
  | 0x19 => decodeAtomic w
  | 0x1A => decodeSystem w
  | 0x1B => decodeCsr w
  | 0x1C => decodeSync w
  | 0x1D => decodeTether w
  | 0x1E => decodeTile w
  | 0x1F => .ok (.vsetvli (w.extractLsb' 21 5) (w.extractLsb' 16 5) (w.extractLsb' 0 16))
  | 0x20 => decodeVset w
  | 0x21 => decodeIntVV w
  | 0x22 => decodeIntVX w
  | 0x23 => decodeIntVI w
  | 0x24 => decodeFpVV w
  | 0x25 => decodeFpVX w
  | 0x26 => decodeUnary w
  | 0x27 => decodeCompare w
  | 0x28 => decodePred w
  | 0x29 => decodePermute w
  | 0x2A => decodeReduce w
  | 0x2B => decodeResidue w
  | 0x2C => decodeMixed w
  | 0x2D => decodeVLoad w
  | 0x2E => decodeVStore w
  | 0x2F => decodeVLoadX w
  | 0x30 => decodeVStoreX w
  | 0x31 => decodeVAtomic w
  | 0x32 => decodeChurn w
  | 0x33 => decodeFop w
  | 0x34 => decodeBind w
  | 0x35 => decodeStream w
  | 0x3E => decodeDeprecated w
  | _ => .error .reservedMajor

/-- An instruction that is one word long. -/
def decodeWord (w : BitVec 32) : Except Reject Instr :=
  match decodeRaw w with
  | .ok i => if i.wf then .ok i else .error .badOperand
  | .error r => .error r

/-- The word after a prefix with its joined field (R69): format I takes IMM42, M OFF37, B OFF42 and J OFF52. -/
def decodeLong (px w : BitVec 32) : Except Reject LongInstr :=
  let pay := px.extractLsb' 0 26
  let d := w.extractLsb' 21 5
  let a := w.extractLsb' 16 5
  let imm : BitVec 42 := pay ++ w.extractLsb' 0 16
  let off : BitVec 37 := pay ++ w.extractLsb' 0 11
  let c := w.extractLsb' 14 2
  match (w.extractLsb' 26 6).toNat with
  | 0x02 => .ok (.imm .addi d a imm)
  | 0x03 => .ok (.imm .andi d a imm)
  | 0x04 => .ok (.imm .ori d a imm)
  | 0x05 => .ok (.imm .xori d a imm)
  | 0x06 => .ok (.imm .slti d a imm)
  | 0x07 => .ok (.imm .sltiu d a imm)
  | 0x0B => Reject.unless (a = 0) .unusedField (.ok (.addpc d imm))
  | 0x0C => Reject.unless (a = 0) .unusedField (.ok (.li d imm))
  | 0x0D => Reject.field (LoadOp.ofCode (w.extractLsb' 11 3)) fun op => .ok (.load op d a c off)
  | 0x0E => Reject.field (StoreOp.ofCode (w.extractLsb' 11 3)) fun op => .ok (.store op d a c off)
  | 0x0F => .ok (.branch .beq d a imm)
  | 0x10 => .ok (.branch .bne d a imm)
  | 0x11 => .ok (.branch .blt d a imm)
  | 0x12 => .ok (.branch .bge d a imm)
  | 0x13 => .ok (.branch .bltu d a imm)
  | 0x14 => .ok (.branch .bgeu d a imm)
  | 0x15 => .ok (.jal (pay ++ w.extractLsb' 0 26))
  | 0x16 => .ok (.jump (pay ++ w.extractLsb' 0 26))
  | 0x17 => .ok (.jalr d a imm)
  | _ => .error .misplacedPrefix

/-- True of a prefix word, major 0x3F (R69). -/
def isPrefix (w : BitVec 32) : Bool := w.extractLsb' 26 6 == 0x3F#6

/-- The first instruction of a list of words and the words after it. -/
def decodeWords : List (BitVec 32) → Except Reject (Instr × List (BitVec 32))
  | [] => .error .truncated
  | w :: ws =>
    if isPrefix w then
      match ws with
      | [] => .error .truncated
      | w2 :: rest =>
        match decodeLong w w2 with
        | .ok l => .ok (.lpxPair l, rest)
        | .error r => .error r
    else
      match decodeWord w with
      | .ok i => .ok (i, ws)
      | .error r => .error r

/-- A little-endian word from four bytes (R63). -/
def wordOfBytes (b0 b1 b2 b3 : Byte) : BitVec 32 := b3 ++ b2 ++ b1 ++ b0

/-- The words of a list of bytes, lowest address first; bytes short of a word are dropped. -/
def wordsOfBytes : List Byte → List (BitVec 32)
  | b0 :: b1 :: b2 :: b3 :: rest => wordOfBytes b0 b1 b2 b3 :: wordsOfBytes rest
  | _ => []

/-- The bytes of a word, lowest address first (R5, R63). -/
def bytesOfWord (w : BitVec 32) : List Byte :=
  [w.extractLsb' 0 8, w.extractLsb' 8 8, w.extractLsb' 16 8, w.extractLsb' 24 8]

/-- The bytes of a list of words. -/
def bytesOfWords : List (BitVec 32) → List Byte
  | [] => []
  | w :: ws => bytesOfWord w ++ bytesOfWords ws

/-- The first instruction of a list of bytes. -/
def decodeBytes (bs : List Byte) : Except Reject (Instr × List (BitVec 32)) := decodeWords (wordsOfBytes bs)

/-- The little-endian bytes of the number `w`, `n` of them. -/
def bytesOfNat : Nat → Nat → List Byte
  | 0, _ => []
  | n + 1, w => BitVec.ofNat 8 w :: bytesOfNat n (w / 256)

/-- The instruction the decoder reads from a table word of `nbits` bits, words of zeros after it: no instruction is
longer than 8 bytes (R69). -/
def decodeTableWord (nbits w : Nat) : Option Instr :=
  match decodeBytes (bytesOfNat 8 (w % 2 ^ nbits)) with
  | .ok (i, _) => some i
  | .error _ => none

end

/-- The word of ADD (R101). -/
def wordAdd (d : BitVec 5) (a : BitVec 5) (b : BitVec 5) : BitVec 32 := 1#6 ++ d ++ a ++ b ++ 0#11
/-- The word of SUB (R101). -/
def wordSub (d : BitVec 5) (a : BitVec 5) (b : BitVec 5) : BitVec 32 := 1#6 ++ d ++ a ++ b ++ 1#11
/-- The word of MUL (R101). -/
def wordMul (d : BitVec 5) (a : BitVec 5) (b : BitVec 5) : BitVec 32 := 1#6 ++ d ++ a ++ b ++ 2#11
/-- The word of MULH (R101). -/
def wordMulh (d : BitVec 5) (a : BitVec 5) (b : BitVec 5) : BitVec 32 := 1#6 ++ d ++ a ++ b ++ 3#11
/-- The word of MULHU (R101). -/
def wordMulhu (d : BitVec 5) (a : BitVec 5) (b : BitVec 5) : BitVec 32 := 1#6 ++ d ++ a ++ b ++ 4#11
/-- The word of DIV (R102). -/
def wordDiv (d : BitVec 5) (a : BitVec 5) (b : BitVec 5) : BitVec 32 := 1#6 ++ d ++ a ++ b ++ 5#11
/-- The word of DIVU (R102). -/
def wordDivu (d : BitVec 5) (a : BitVec 5) (b : BitVec 5) : BitVec 32 := 1#6 ++ d ++ a ++ b ++ 6#11
/-- The word of REM (R102). -/
def wordRem (d : BitVec 5) (a : BitVec 5) (b : BitVec 5) : BitVec 32 := 1#6 ++ d ++ a ++ b ++ 7#11
/-- The word of REMU (R102). -/
def wordRemu (d : BitVec 5) (a : BitVec 5) (b : BitVec 5) : BitVec 32 := 1#6 ++ d ++ a ++ b ++ 8#11
/-- The word of AND (R101). -/
def wordAndr (d : BitVec 5) (a : BitVec 5) (b : BitVec 5) : BitVec 32 := 1#6 ++ d ++ a ++ b ++ 9#11
/-- The word of OR (R101). -/
def wordOrr (d : BitVec 5) (a : BitVec 5) (b : BitVec 5) : BitVec 32 := 1#6 ++ d ++ a ++ b ++ 10#11
/-- The word of XOR (R101). -/
def wordXorr (d : BitVec 5) (a : BitVec 5) (b : BitVec 5) : BitVec 32 := 1#6 ++ d ++ a ++ b ++ 11#11
/-- The word of SHL (R101). -/
def wordShl (d : BitVec 5) (a : BitVec 5) (b : BitVec 5) : BitVec 32 := 1#6 ++ d ++ a ++ b ++ 12#11
/-- The word of SHR (R101). -/
def wordShr (d : BitVec 5) (a : BitVec 5) (b : BitVec 5) : BitVec 32 := 1#6 ++ d ++ a ++ b ++ 13#11
/-- The word of SRA (R101). -/
def wordSra (d : BitVec 5) (a : BitVec 5) (b : BitVec 5) : BitVec 32 := 1#6 ++ d ++ a ++ b ++ 14#11
/-- The word of SLT (R101). -/
def wordSlt (d : BitVec 5) (a : BitVec 5) (b : BitVec 5) : BitVec 32 := 1#6 ++ d ++ a ++ b ++ 15#11
/-- The word of SLTU (R101). -/
def wordSltu (d : BitVec 5) (a : BitVec 5) (b : BitVec 5) : BitVec 32 := 1#6 ++ d ++ a ++ b ++ 16#11
/-- The word of MIN (R101). -/
def wordMinr (d : BitVec 5) (a : BitVec 5) (b : BitVec 5) : BitVec 32 := 1#6 ++ d ++ a ++ b ++ 17#11
/-- The word of MAX (R101). -/
def wordMaxr (d : BitVec 5) (a : BitVec 5) (b : BitVec 5) : BitVec 32 := 1#6 ++ d ++ a ++ b ++ 18#11
/-- The word of CLZ (R101). -/
def wordClz (d : BitVec 5) (a : BitVec 5) : BitVec 32 := 1#6 ++ d ++ a ++ 19#16
/-- The word of CTZ (R101). -/
def wordCtz (d : BitVec 5) (a : BitVec 5) : BitVec 32 := 1#6 ++ d ++ a ++ 20#16
/-- The word of POPC (R101). -/
def wordPopc (d : BitVec 5) (a : BitVec 5) : BitVec 32 := 1#6 ++ d ++ a ++ 21#16
/-- The word of ADDI (R103). -/
def wordAddi (d : BitVec 5) (a : BitVec 5) (imm : BitVec 16) : BitVec 32 := 2#6 ++ d ++ a ++ imm
/-- The word of ANDI (R103). -/
def wordAndi (d : BitVec 5) (a : BitVec 5) (imm : BitVec 16) : BitVec 32 := 3#6 ++ d ++ a ++ imm
/-- The word of ORI (R103). -/
def wordOri (d : BitVec 5) (a : BitVec 5) (imm : BitVec 16) : BitVec 32 := 4#6 ++ d ++ a ++ imm
/-- The word of XORI (R103). -/
def wordXori (d : BitVec 5) (a : BitVec 5) (imm : BitVec 16) : BitVec 32 := 5#6 ++ d ++ a ++ imm
/-- The word of SLTI (R103). -/
def wordSlti (d : BitVec 5) (a : BitVec 5) (imm : BitVec 16) : BitVec 32 := 6#6 ++ d ++ a ++ imm
/-- The word of SLTIU (R103). -/
def wordSltiu (d : BitVec 5) (a : BitVec 5) (imm : BitVec 16) : BitVec 32 := 7#6 ++ d ++ a ++ imm
/-- The word of SHLI (R104). -/
def wordShli (d : BitVec 5) (a : BitVec 5) (n : BitVec 6) : BitVec 32 := 8#6 ++ d ++ a ++ 0#10 ++ n
/-- The word of SHRI (R104). -/
def wordShri (d : BitVec 5) (a : BitVec 5) (n : BitVec 6) : BitVec 32 := 8#6 ++ d ++ a ++ 1#10 ++ n
/-- The word of SRAI (R104). -/
def wordSrai (d : BitVec 5) (a : BitVec 5) (n : BitVec 6) : BitVec 32 := 8#6 ++ d ++ a ++ 2#10 ++ n
/-- The word of BFX (R105). -/
def wordBfx (d : BitVec 5) (a : BitVec 5) (l : BitVec 6) (w : BitVec 6) : BitVec 32 := 9#6 ++ d ++ a ++ 0#4 ++ l ++ w
/-- The word of BFI (R105). -/
def wordBfi (d : BitVec 5) (a : BitVec 5) (l : BitVec 6) (w : BitVec 6) : BitVec 32 := 10#6 ++ d ++ a ++ 0#4 ++ l ++ w
/-- The word of ADDPC (R106). -/
def wordAddpc (d : BitVec 5) (imm : BitVec 16) : BitVec 32 := 11#6 ++ d ++ 0#5 ++ imm
/-- The word of LI (R106). -/
def wordLi (d : BitVec 5) (imm : BitVec 16) : BitVec 32 := 12#6 ++ d ++ 0#5 ++ imm
/-- The word of LDB (R107). -/
def wordLdb (d : BitVec 5) (a : BitVec 5) (c : BitVec 2) (o : BitVec 11) : BitVec 32 := 13#6 ++ d ++ a ++ c ++ 0#3 ++ o
/-- The word of LDBU (R107). -/
def wordLdbu (d : BitVec 5) (a : BitVec 5) (c : BitVec 2) (o : BitVec 11) : BitVec 32 := 13#6 ++ d ++ a ++ c ++ 1#3 ++ o
/-- The word of LDH (R107). -/
def wordLdh (d : BitVec 5) (a : BitVec 5) (c : BitVec 2) (o : BitVec 11) : BitVec 32 := 13#6 ++ d ++ a ++ c ++ 2#3 ++ o
/-- The word of LDHU (R107). -/
def wordLdhu (d : BitVec 5) (a : BitVec 5) (c : BitVec 2) (o : BitVec 11) : BitVec 32 := 13#6 ++ d ++ a ++ c ++ 3#3 ++ o
/-- The word of LDW (R107). -/
def wordLdw (d : BitVec 5) (a : BitVec 5) (c : BitVec 2) (o : BitVec 11) : BitVec 32 := 13#6 ++ d ++ a ++ c ++ 4#3 ++ o
/-- The word of LDWU (R107). -/
def wordLdwu (d : BitVec 5) (a : BitVec 5) (c : BitVec 2) (o : BitVec 11) : BitVec 32 := 13#6 ++ d ++ a ++ c ++ 5#3 ++ o
/-- The word of LDD (R107). -/
def wordLdd (d : BitVec 5) (a : BitVec 5) (c : BitVec 2) (o : BitVec 11) : BitVec 32 := 13#6 ++ d ++ a ++ c ++ 6#3 ++ o
/-- The word of STB (R107). -/
def wordStb (s : BitVec 5) (a : BitVec 5) (c : BitVec 2) (o : BitVec 11) : BitVec 32 := 14#6 ++ s ++ a ++ c ++ 0#3 ++ o
/-- The word of STH (R107). -/
def wordSth (s : BitVec 5) (a : BitVec 5) (c : BitVec 2) (o : BitVec 11) : BitVec 32 := 14#6 ++ s ++ a ++ c ++ 1#3 ++ o
/-- The word of STW (R107). -/
def wordStw (s : BitVec 5) (a : BitVec 5) (c : BitVec 2) (o : BitVec 11) : BitVec 32 := 14#6 ++ s ++ a ++ c ++ 2#3 ++ o
/-- The word of STD (R107). -/
def wordStd (s : BitVec 5) (a : BitVec 5) (c : BitVec 2) (o : BitVec 11) : BitVec 32 := 14#6 ++ s ++ a ++ c ++ 3#3 ++ o
/-- The word of BEQ (R110). -/
def wordBeq (a : BitVec 5) (b : BitVec 5) (o : BitVec 16) : BitVec 32 := 15#6 ++ a ++ b ++ o
/-- The word of BNE (R110). -/
def wordBne (a : BitVec 5) (b : BitVec 5) (o : BitVec 16) : BitVec 32 := 16#6 ++ a ++ b ++ o
/-- The word of BLT (R110). -/
def wordBlt (a : BitVec 5) (b : BitVec 5) (o : BitVec 16) : BitVec 32 := 17#6 ++ a ++ b ++ o
/-- The word of BGE (R110). -/
def wordBge (a : BitVec 5) (b : BitVec 5) (o : BitVec 16) : BitVec 32 := 18#6 ++ a ++ b ++ o
/-- The word of BLTU (R110). -/
def wordBltu (a : BitVec 5) (b : BitVec 5) (o : BitVec 16) : BitVec 32 := 19#6 ++ a ++ b ++ o
/-- The word of BGEU (R110). -/
def wordBgeu (a : BitVec 5) (b : BitVec 5) (o : BitVec 16) : BitVec 32 := 20#6 ++ a ++ b ++ o
/-- The word of JAL (R111). -/
def wordJal (o : BitVec 26) : BitVec 32 := 21#6 ++ o
/-- The word of J (R111). -/
def wordJump (o : BitVec 26) : BitVec 32 := 22#6 ++ o
/-- The word of JALR (R111). -/
def wordJalr (d : BitVec 5) (a : BitVec 5) (imm : BitVec 16) : BitVec 32 := 23#6 ++ d ++ a ++ imm
/-- The word of FADD (R114). -/
def wordFadd (d : BitVec 5) (a : BitVec 5) (b : BitVec 5) (p : Prec) (r : FRound) : BitVec 32 := 24#6 ++ d ++ a ++ b ++ 0#5 ++ p.code ++ r.code ++ 0#2
/-- The word of FSUB (R114). -/
def wordFsub (d : BitVec 5) (a : BitVec 5) (b : BitVec 5) (p : Prec) (r : FRound) : BitVec 32 := 24#6 ++ d ++ a ++ b ++ 1#5 ++ p.code ++ r.code ++ 0#2
/-- The word of FMUL (R114). -/
def wordFmul (d : BitVec 5) (a : BitVec 5) (b : BitVec 5) (p : Prec) (r : FRound) : BitVec 32 := 24#6 ++ d ++ a ++ b ++ 2#5 ++ p.code ++ r.code ++ 0#2
/-- The word of FDIV (R114). -/
def wordFdiv (d : BitVec 5) (a : BitVec 5) (b : BitVec 5) (p : Prec) (r : FRound) : BitVec 32 := 24#6 ++ d ++ a ++ b ++ 3#5 ++ p.code ++ r.code ++ 0#2
/-- The word of FSQRT (R114). -/
def wordFsqrt (d : BitVec 5) (a : BitVec 5) (p : Prec) (r : FRound) : BitVec 32 := 24#6 ++ d ++ a ++ 4#10 ++ p.code ++ r.code ++ 0#2
/-- The word of FMIN (R115). -/
def wordFmin (d : BitVec 5) (a : BitVec 5) (b : BitVec 5) (p : Prec) : BitVec 32 := 24#6 ++ d ++ a ++ b ++ 5#5 ++ p.code ++ 0#5
/-- The word of FMAX (R115). -/
def wordFmax (d : BitVec 5) (a : BitVec 5) (b : BitVec 5) (p : Prec) : BitVec 32 := 24#6 ++ d ++ a ++ b ++ 6#5 ++ p.code ++ 0#5
/-- The word of FMA (R114). -/
def wordFma (d : BitVec 5) (a : BitVec 5) (b : BitVec 5) (p : Prec) (r : FRound) : BitVec 32 := 24#6 ++ d ++ a ++ b ++ 7#5 ++ p.code ++ r.code ++ 0#2
/-- The word of FEQ (R115). -/
def wordFeq (d : BitVec 5) (a : BitVec 5) (b : BitVec 5) (p : Prec) : BitVec 32 := 24#6 ++ d ++ a ++ b ++ 8#5 ++ p.code ++ 0#5
/-- The word of FLT (R115). -/
def wordFlt (d : BitVec 5) (a : BitVec 5) (b : BitVec 5) (p : Prec) : BitVec 32 := 24#6 ++ d ++ a ++ b ++ 9#5 ++ p.code ++ 0#5
/-- The word of FLE (R115). -/
def wordFle (d : BitVec 5) (a : BitVec 5) (b : BitVec 5) (p : Prec) : BitVec 32 := 24#6 ++ d ++ a ++ b ++ 10#5 ++ p.code ++ 0#5
/-- The word of FCLASS (R115). -/
def wordFclass (d : BitVec 5) (a : BitVec 5) (p : Prec) : BitVec 32 := 24#6 ++ d ++ a ++ 11#10 ++ p.code ++ 0#5
/-- The word of FCVT (R117). -/
def wordFcvt (d : BitVec 5) (a : BitVec 5) (k : BitVec 5) (p : Prec) (r : FRound) : BitVec 32 := 24#6 ++ d ++ a ++ k ++ 12#5 ++ p.code ++ r.code ++ 0#2
/-- The word of FSGNJ (R116). -/
def wordFsgnj (d : BitVec 5) (a : BitVec 5) (b : BitVec 5) (p : Prec) (v : SgnKind) : BitVec 32 := 24#6 ++ d ++ a ++ b ++ 13#5 ++ p.code ++ 0#3 ++ v.code
/-- The word of AMOSWAP (R156). -/
def wordAmoswap (d : BitVec 5) (a : BitVec 5) (b : BitVec 5) (q : Bool) (l : Bool) (z : AtomSize) (e : Scope) : BitVec 32 := 25#6 ++ d ++ a ++ b ++ 0#5 ++ (boolCode q) ++ (boolCode l) ++ z.code ++ e.code ++ 0#1
/-- The word of AMOADD (R156). -/
def wordAmoadd (d : BitVec 5) (a : BitVec 5) (b : BitVec 5) (q : Bool) (l : Bool) (z : AtomSize) (e : Scope) : BitVec 32 := 25#6 ++ d ++ a ++ b ++ 1#5 ++ (boolCode q) ++ (boolCode l) ++ z.code ++ e.code ++ 0#1
/-- The word of AMOAND (R156). -/
def wordAmoand (d : BitVec 5) (a : BitVec 5) (b : BitVec 5) (q : Bool) (l : Bool) (z : AtomSize) (e : Scope) : BitVec 32 := 25#6 ++ d ++ a ++ b ++ 2#5 ++ (boolCode q) ++ (boolCode l) ++ z.code ++ e.code ++ 0#1
/-- The word of AMOOR (R156). -/
def wordAmoor (d : BitVec 5) (a : BitVec 5) (b : BitVec 5) (q : Bool) (l : Bool) (z : AtomSize) (e : Scope) : BitVec 32 := 25#6 ++ d ++ a ++ b ++ 3#5 ++ (boolCode q) ++ (boolCode l) ++ z.code ++ e.code ++ 0#1
/-- The word of AMOXOR (R156). -/
def wordAmoxor (d : BitVec 5) (a : BitVec 5) (b : BitVec 5) (q : Bool) (l : Bool) (z : AtomSize) (e : Scope) : BitVec 32 := 25#6 ++ d ++ a ++ b ++ 4#5 ++ (boolCode q) ++ (boolCode l) ++ z.code ++ e.code ++ 0#1
/-- The word of AMOMIN (R156). -/
def wordAmomin (d : BitVec 5) (a : BitVec 5) (b : BitVec 5) (q : Bool) (l : Bool) (z : AtomSize) (e : Scope) : BitVec 32 := 25#6 ++ d ++ a ++ b ++ 5#5 ++ (boolCode q) ++ (boolCode l) ++ z.code ++ e.code ++ 0#1
/-- The word of AMOMAX (R156). -/
def wordAmomax (d : BitVec 5) (a : BitVec 5) (b : BitVec 5) (q : Bool) (l : Bool) (z : AtomSize) (e : Scope) : BitVec 32 := 25#6 ++ d ++ a ++ b ++ 6#5 ++ (boolCode q) ++ (boolCode l) ++ z.code ++ e.code ++ 0#1
/-- The word of AMOCAS (R156). -/
def wordAmocas (d : BitVec 5) (a : BitVec 5) (b : BitVec 5) (q : Bool) (l : Bool) (z : AtomSize) (e : Scope) : BitVec 32 := 25#6 ++ d ++ a ++ b ++ 7#5 ++ (boolCode q) ++ (boolCode l) ++ z.code ++ e.code ++ 0#1
/-- The word of LDAQ (R156). -/
def wordLdaq (d : BitVec 5) (a : BitVec 5) (z : AtomSize) (e : Scope) : BitVec 32 := 25#6 ++ d ++ a ++ 34#12 ++ z.code ++ e.code ++ 0#1
/-- The word of STRL (R156). -/
def wordStrl (a : BitVec 5) (b : BitVec 5) (z : AtomSize) (e : Scope) : BitVec 32 := 25#6 ++ 0#5 ++ a ++ b ++ 37#7 ++ z.code ++ e.code ++ 0#1
/-- The word of SYSCALL (R215). -/
def wordSyscall : BitVec 32 := 26#6 ++ 0#26
/-- The word of BRK (R215). -/
def wordBrk : BitVec 32 := 26#6 ++ 1#26
/-- The word of ERET (R216). -/
def wordEret : BitVec 32 := 26#6 ++ 2#26
/-- The word of CLAIM (R217). -/
def wordClaim : BitVec 32 := 26#6 ++ 3#26
/-- The word of UNCLAIM (R217). -/
def wordUnclaim : BitVec 32 := 26#6 ++ 4#26
/-- The word of EXIT (R218). -/
def wordExitThread : BitVec 32 := 26#6 ++ 5#26
/-- The word of YIELD (R215). -/
def wordYield : BitVec 32 := 26#6 ++ 6#26
/-- The word of LAUNCH (R219). -/
def wordLaunch (d : BitVec 5) (a : BitVec 5) : BitVec 32 := 26#6 ++ d ++ a ++ 7#16
/-- The word of TRIGGER (R220). -/
def wordTrigger : BitVec 32 := 26#6 ++ 8#26
/-- The word of CSRR (R222). -/
def wordCsrr (d : BitVec 5) (c : BitVec 12) : BitVec 32 := 27#6 ++ d ++ 0#9 ++ c
/-- The word of CSRW (R222). -/
def wordCsrw (d : BitVec 5) (a : BitVec 5) (c : BitVec 12) : BitVec 32 := 27#6 ++ d ++ a ++ 1#4 ++ c
/-- The word of CSRSET (R222). -/
def wordCsrset (d : BitVec 5) (a : BitVec 5) (c : BitVec 12) : BitVec 32 := 27#6 ++ d ++ a ++ 2#4 ++ c
/-- The word of CSRCLR (R222). -/
def wordCsrclr (d : BitVec 5) (a : BitVec 5) (c : BitVec 12) : BitVec 32 := 27#6 ++ d ++ a ++ 3#4 ++ c
/-- The word of FENCE (R160). -/
def wordFence (k : FenceKind) (e : Scope) : BitVec 32 := 28#6 ++ 0#5 ++ k.code ++ (Scope.code5 e) ++ 0#11
/-- The word of GJOIN (R161). -/
def wordGjoin (a : BitVec 5) : BitVec 32 := 28#6 ++ 0#5 ++ a ++ 1#16
/-- The word of GLEAVE (R161). -/
def wordGleave (a : BitVec 5) : BitVec 32 := 28#6 ++ 0#5 ++ a ++ 2#16
/-- The word of GBAR (R161). -/
def wordGbar (a : BitVec 5) : BitVec 32 := 28#6 ++ 0#5 ++ a ++ 3#16
/-- The word of GARRIVE (R162). -/
def wordGarrive (d : BitVec 5) (a : BitVec 5) : BitVec 32 := 28#6 ++ d ++ a ++ 4#16
/-- The word of GWAIT (R161). -/
def wordGwait (a : BitVec 5) (b : BitVec 5) : BitVec 32 := 28#6 ++ 0#5 ++ a ++ b ++ 5#11
/-- The word of QPUSH (R165). -/
def wordQpush (a : BitVec 5) (b : BitVec 5) : BitVec 32 := 28#6 ++ 0#5 ++ a ++ b ++ 6#11
/-- The word of QPOP (R165). -/
def wordQpop (d : BitVec 5) (a : BitVec 5) : BitVec 32 := 28#6 ++ d ++ a ++ 7#16
/-- The word of QTRY (R164). -/
def wordQtry (d : BitVec 5) (a : BitVec 5) : BitVec 32 := 28#6 ++ d ++ a ++ 8#16
/-- The word of HREG (R166). -/
def wordHreg (d : BitVec 5) (a : BitVec 5) (b : BitVec 5) : BitVec 32 := 28#6 ++ d ++ a ++ b ++ 9#11
/-- The word of HUNREG (R166). -/
def wordHunreg (a : BitVec 5) : BitVec 32 := 28#6 ++ 0#5 ++ a ++ 10#16
/-- The word of MMA (R187). -/
def wordMma (d : BitVec 5) (a : BitVec 5) (b : BitVec 5) (p : BitVec 3) (t : Bool) : BitVec 32 := 29#6 ++ d ++ a ++ b ++ p ++ (boolCode t) ++ 0#7
/-- The word of BLOAD (R186). -/
def wordBload (d : BitVec 5) (a : BitVec 5) (b : BitVec 5) (p : BitVec 3) (t : Bool) : BitVec 32 := 29#6 ++ d ++ a ++ b ++ p ++ (boolCode t) ++ 1#7
/-- The word of COPY (R185). -/
def wordCopy (d : BitVec 5) (a : BitVec 5) (b : BitVec 5) (p : BitVec 3) (t : Bool) : BitVec 32 := 29#6 ++ d ++ a ++ b ++ p ++ (boolCode t) ++ 2#7
/-- The word of COLL (R188). -/
def wordColl (d : BitVec 5) (a : BitVec 5) (b : BitVec 5) (p : BitVec 3) (t : Bool) : BitVec 32 := 29#6 ++ d ++ a ++ b ++ p ++ (boolCode t) ++ 3#7
/-- The word of TWAIT (R189). -/
def wordTwait (d : BitVec 5) (a : BitVec 5) : BitVec 32 := 29#6 ++ d ++ a ++ 4#16
/-- The word of TTEST (R189). -/
def wordTtest (d : BitVec 5) (a : BitVec 5) : BitVec 32 := 29#6 ++ d ++ a ++ 5#16
/-- The word of TCANCEL (R191). -/
def wordTcancel (a : BitVec 5) : BitVec 32 := 29#6 ++ 0#5 ++ a ++ 6#16
/-- The word of TDETACH (R192). -/
def wordTdetach (d : BitVec 5) (a : BitVec 5) : BitVec 32 := 29#6 ++ d ++ a ++ 7#16
/-- The word of TADOPT (R192). -/
def wordTadopt (d : BitVec 5) (a : BitVec 5) : BitVec 32 := 29#6 ++ d ++ a ++ 8#16
/-- The word of TAFTER (R193). -/
def wordTafter (a : BitVec 5) (b : BitVec 5) : BitVec 32 := 29#6 ++ 0#5 ++ a ++ b ++ 9#11
/-- The word of TSTAT (R190). -/
def wordTstat (d : BitVec 5) (a : BitVec 5) (s : BitVec 5) : BitVec 32 := 29#6 ++ d ++ a ++ s ++ 10#11
/-- The word of TSETPRI (R194). -/
def wordTsetpri (a : BitVec 5) (p : BitVec 3) : BitVec 32 := 29#6 ++ 0#5 ++ a ++ 0#5 ++ p ++ 11#8
/-- The word of TCFG (R179). -/
def wordTcfg (d : BitVec 5) (a : BitVec 5) : BitVec 32 := 30#6 ++ d ++ a ++ 0#16
/-- The word of TZERO (R180). -/
def wordTzero (d : BitVec 5) : BitVec 32 := 30#6 ++ d ++ 1#21
/-- The word of TLD (R180). -/
def wordTld (d : BitVec 5) (a : BitVec 5) (b : BitVec 5) (p : BitVec 5) : BitVec 32 := 30#6 ++ d ++ a ++ b ++ p ++ 2#6
/-- The word of TST (R180). -/
def wordTst (s : BitVec 5) (a : BitVec 5) (b : BitVec 5) (p : BitVec 5) : BitVec 32 := 30#6 ++ s ++ a ++ b ++ p ++ 3#6
/-- The word of TMVRV (R181). -/
def wordTmvrv (d : BitVec 5) (a : BitVec 5) (b : BitVec 5) (p : BitVec 5) : BitVec 32 := 30#6 ++ d ++ a ++ b ++ p ++ 4#6
/-- The word of TMVCV (R181). -/
def wordTmvcv (d : BitVec 5) (a : BitVec 5) (b : BitVec 5) (p : BitVec 5) : BitVec 32 := 30#6 ++ d ++ a ++ b ++ p ++ 5#6
/-- The word of TMVVR (R181). -/
def wordTmvvr (d : BitVec 5) (a : BitVec 5) (b : BitVec 5) (p : BitVec 5) : BitVec 32 := 30#6 ++ d ++ a ++ b ++ p ++ 6#6
/-- The word of TMVVC (R181). -/
def wordTmvvc (d : BitVec 5) (a : BitVec 5) (b : BitVec 5) (p : BitVec 5) : BitVec 32 := 30#6 ++ d ++ a ++ b ++ p ++ 7#6
/-- The word of TOUTER (R182). -/
def wordTouter (d : BitVec 5) (a : BitVec 5) (b : BitVec 5) (p : BitVec 5) : BitVec 32 := 30#6 ++ d ++ a ++ b ++ p ++ 8#6
/-- The word of TRELEASE (R179). -/
def wordTrelease (d : BitVec 5) : BitVec 32 := 30#6 ++ d ++ 9#21
/-- The word of VSETVLI (R125). -/
def wordVsetvli (d : BitVec 5) (a : BitVec 5) (imm : BitVec 16) : BitVec 32 := 31#6 ++ d ++ a ++ imm
/-- The word of VSETVL (R125). -/
def wordVsetvl (d : BitVec 5) (a : BitVec 5) (b : BitVec 5) : BitVec 32 := 32#6 ++ d ++ a ++ b ++ 0#11
/-- The word of VSETVLB (R125). -/
def wordVsetvlb (d : BitVec 5) (a : BitVec 5) : BitVec 32 := 32#6 ++ d ++ a ++ 1#16
/-- The word of VADD_VV (R127). -/
def wordVaddVv (d : BitVec 5) (a : BitVec 5) (b : BitVec 5) (p : BitVec 5) : BitVec 32 := 33#6 ++ d ++ a ++ b ++ p ++ 0#6
/-- The word of VSUB_VV (R127). -/
def wordVsubVv (d : BitVec 5) (a : BitVec 5) (b : BitVec 5) (p : BitVec 5) : BitVec 32 := 33#6 ++ d ++ a ++ b ++ p ++ 1#6
/-- The word of VMUL_VV (R127). -/
def wordVmulVv (d : BitVec 5) (a : BitVec 5) (b : BitVec 5) (p : BitVec 5) : BitVec 32 := 33#6 ++ d ++ a ++ b ++ p ++ 2#6
/-- The word of VMULH_VV (R127). -/
def wordVmulhVv (d : BitVec 5) (a : BitVec 5) (b : BitVec 5) (p : BitVec 5) : BitVec 32 := 33#6 ++ d ++ a ++ b ++ p ++ 3#6
/-- The word of VMULHU_VV (R127). -/
def wordVmulhuVv (d : BitVec 5) (a : BitVec 5) (b : BitVec 5) (p : BitVec 5) : BitVec 32 := 33#6 ++ d ++ a ++ b ++ p ++ 4#6
/-- The word of VDIV_VV (R127). -/
def wordVdivVv (d : BitVec 5) (a : BitVec 5) (b : BitVec 5) (p : BitVec 5) : BitVec 32 := 33#6 ++ d ++ a ++ b ++ p ++ 5#6
/-- The word of VDIVU_VV (R127). -/
def wordVdivuVv (d : BitVec 5) (a : BitVec 5) (b : BitVec 5) (p : BitVec 5) : BitVec 32 := 33#6 ++ d ++ a ++ b ++ p ++ 6#6
/-- The word of VREM_VV (R127). -/
def wordVremVv (d : BitVec 5) (a : BitVec 5) (b : BitVec 5) (p : BitVec 5) : BitVec 32 := 33#6 ++ d ++ a ++ b ++ p ++ 7#6
/-- The word of VREMU_VV (R127). -/
def wordVremuVv (d : BitVec 5) (a : BitVec 5) (b : BitVec 5) (p : BitVec 5) : BitVec 32 := 33#6 ++ d ++ a ++ b ++ p ++ 8#6
/-- The word of VAND_VV (R127). -/
def wordVandVv (d : BitVec 5) (a : BitVec 5) (b : BitVec 5) (p : BitVec 5) : BitVec 32 := 33#6 ++ d ++ a ++ b ++ p ++ 9#6
/-- The word of VOR_VV (R127). -/
def wordVorVv (d : BitVec 5) (a : BitVec 5) (b : BitVec 5) (p : BitVec 5) : BitVec 32 := 33#6 ++ d ++ a ++ b ++ p ++ 10#6
/-- The word of VXOR_VV (R127). -/
def wordVxorVv (d : BitVec 5) (a : BitVec 5) (b : BitVec 5) (p : BitVec 5) : BitVec 32 := 33#6 ++ d ++ a ++ b ++ p ++ 11#6
/-- The word of VSHL_VV (R127). -/
def wordVshlVv (d : BitVec 5) (a : BitVec 5) (b : BitVec 5) (p : BitVec 5) : BitVec 32 := 33#6 ++ d ++ a ++ b ++ p ++ 12#6
/-- The word of VSHR_VV (R127). -/
def wordVshrVv (d : BitVec 5) (a : BitVec 5) (b : BitVec 5) (p : BitVec 5) : BitVec 32 := 33#6 ++ d ++ a ++ b ++ p ++ 13#6
/-- The word of VSRA_VV (R127). -/
def wordVsraVv (d : BitVec 5) (a : BitVec 5) (b : BitVec 5) (p : BitVec 5) : BitVec 32 := 33#6 ++ d ++ a ++ b ++ p ++ 14#6
/-- The word of VMIN_VV (R127). -/
def wordVminVv (d : BitVec 5) (a : BitVec 5) (b : BitVec 5) (p : BitVec 5) : BitVec 32 := 33#6 ++ d ++ a ++ b ++ p ++ 15#6
/-- The word of VMAX_VV (R127). -/
def wordVmaxVv (d : BitVec 5) (a : BitVec 5) (b : BitVec 5) (p : BitVec 5) : BitVec 32 := 33#6 ++ d ++ a ++ b ++ p ++ 16#6
/-- The word of VMINU_VV (R127). -/
def wordVminuVv (d : BitVec 5) (a : BitVec 5) (b : BitVec 5) (p : BitVec 5) : BitVec 32 := 33#6 ++ d ++ a ++ b ++ p ++ 17#6
/-- The word of VMAXU_VV (R127). -/
def wordVmaxuVv (d : BitVec 5) (a : BitVec 5) (b : BitVec 5) (p : BitVec 5) : BitVec 32 := 33#6 ++ d ++ a ++ b ++ p ++ 18#6
/-- The word of VMACC_VV (R127). -/
def wordVmaccVv (d : BitVec 5) (a : BitVec 5) (b : BitVec 5) (p : BitVec 5) : BitVec 32 := 33#6 ++ d ++ a ++ b ++ p ++ 19#6
/-- The word of VSADD_VV (R127). -/
def wordVsaddVv (d : BitVec 5) (a : BitVec 5) (b : BitVec 5) (p : BitVec 5) : BitVec 32 := 33#6 ++ d ++ a ++ b ++ p ++ 20#6
/-- The word of VSSUB_VV (R127). -/
def wordVssubVv (d : BitVec 5) (a : BitVec 5) (b : BitVec 5) (p : BitVec 5) : BitVec 32 := 33#6 ++ d ++ a ++ b ++ p ++ 21#6
/-- The word of VMERGE_VV (R129). -/
def wordVmergeVv (d : BitVec 5) (a : BitVec 5) (b : BitVec 5) (p : BitVec 5) : BitVec 32 := 33#6 ++ d ++ a ++ b ++ p ++ 22#6
/-- The word of VMV_VV (R127). -/
def wordVmvVv (d : BitVec 5) (b : BitVec 5) (p : BitVec 5) : BitVec 32 := 33#6 ++ d ++ 0#5 ++ b ++ p ++ 23#6
/-- The word of VADD_VX (R127). -/
def wordVaddVx (d : BitVec 5) (a : BitVec 5) (b : BitVec 5) (p : BitVec 5) : BitVec 32 := 34#6 ++ d ++ a ++ b ++ p ++ 0#6
/-- The word of VSUB_VX (R127). -/
def wordVsubVx (d : BitVec 5) (a : BitVec 5) (b : BitVec 5) (p : BitVec 5) : BitVec 32 := 34#6 ++ d ++ a ++ b ++ p ++ 1#6
/-- The word of VMUL_VX (R127). -/
def wordVmulVx (d : BitVec 5) (a : BitVec 5) (b : BitVec 5) (p : BitVec 5) : BitVec 32 := 34#6 ++ d ++ a ++ b ++ p ++ 2#6
/-- The word of VMULH_VX (R127). -/
def wordVmulhVx (d : BitVec 5) (a : BitVec 5) (b : BitVec 5) (p : BitVec 5) : BitVec 32 := 34#6 ++ d ++ a ++ b ++ p ++ 3#6
/-- The word of VMULHU_VX (R127). -/
def wordVmulhuVx (d : BitVec 5) (a : BitVec 5) (b : BitVec 5) (p : BitVec 5) : BitVec 32 := 34#6 ++ d ++ a ++ b ++ p ++ 4#6
/-- The word of VDIV_VX (R127). -/
def wordVdivVx (d : BitVec 5) (a : BitVec 5) (b : BitVec 5) (p : BitVec 5) : BitVec 32 := 34#6 ++ d ++ a ++ b ++ p ++ 5#6
/-- The word of VDIVU_VX (R127). -/
def wordVdivuVx (d : BitVec 5) (a : BitVec 5) (b : BitVec 5) (p : BitVec 5) : BitVec 32 := 34#6 ++ d ++ a ++ b ++ p ++ 6#6
/-- The word of VREM_VX (R127). -/
def wordVremVx (d : BitVec 5) (a : BitVec 5) (b : BitVec 5) (p : BitVec 5) : BitVec 32 := 34#6 ++ d ++ a ++ b ++ p ++ 7#6
/-- The word of VREMU_VX (R127). -/
def wordVremuVx (d : BitVec 5) (a : BitVec 5) (b : BitVec 5) (p : BitVec 5) : BitVec 32 := 34#6 ++ d ++ a ++ b ++ p ++ 8#6
/-- The word of VAND_VX (R127). -/
def wordVandVx (d : BitVec 5) (a : BitVec 5) (b : BitVec 5) (p : BitVec 5) : BitVec 32 := 34#6 ++ d ++ a ++ b ++ p ++ 9#6
/-- The word of VOR_VX (R127). -/
def wordVorVx (d : BitVec 5) (a : BitVec 5) (b : BitVec 5) (p : BitVec 5) : BitVec 32 := 34#6 ++ d ++ a ++ b ++ p ++ 10#6
/-- The word of VXOR_VX (R127). -/
def wordVxorVx (d : BitVec 5) (a : BitVec 5) (b : BitVec 5) (p : BitVec 5) : BitVec 32 := 34#6 ++ d ++ a ++ b ++ p ++ 11#6
/-- The word of VSHL_VX (R127). -/
def wordVshlVx (d : BitVec 5) (a : BitVec 5) (b : BitVec 5) (p : BitVec 5) : BitVec 32 := 34#6 ++ d ++ a ++ b ++ p ++ 12#6
/-- The word of VSHR_VX (R127). -/
def wordVshrVx (d : BitVec 5) (a : BitVec 5) (b : BitVec 5) (p : BitVec 5) : BitVec 32 := 34#6 ++ d ++ a ++ b ++ p ++ 13#6
/-- The word of VSRA_VX (R127). -/
def wordVsraVx (d : BitVec 5) (a : BitVec 5) (b : BitVec 5) (p : BitVec 5) : BitVec 32 := 34#6 ++ d ++ a ++ b ++ p ++ 14#6
/-- The word of VMIN_VX (R127). -/
def wordVminVx (d : BitVec 5) (a : BitVec 5) (b : BitVec 5) (p : BitVec 5) : BitVec 32 := 34#6 ++ d ++ a ++ b ++ p ++ 15#6
/-- The word of VMAX_VX (R127). -/
def wordVmaxVx (d : BitVec 5) (a : BitVec 5) (b : BitVec 5) (p : BitVec 5) : BitVec 32 := 34#6 ++ d ++ a ++ b ++ p ++ 16#6
/-- The word of VMINU_VX (R127). -/
def wordVminuVx (d : BitVec 5) (a : BitVec 5) (b : BitVec 5) (p : BitVec 5) : BitVec 32 := 34#6 ++ d ++ a ++ b ++ p ++ 17#6
/-- The word of VMAXU_VX (R127). -/
def wordVmaxuVx (d : BitVec 5) (a : BitVec 5) (b : BitVec 5) (p : BitVec 5) : BitVec 32 := 34#6 ++ d ++ a ++ b ++ p ++ 18#6
/-- The word of VMACC_VX (R127). -/
def wordVmaccVx (d : BitVec 5) (a : BitVec 5) (b : BitVec 5) (p : BitVec 5) : BitVec 32 := 34#6 ++ d ++ a ++ b ++ p ++ 19#6
/-- The word of VSADD_VX (R127). -/
def wordVsaddVx (d : BitVec 5) (a : BitVec 5) (b : BitVec 5) (p : BitVec 5) : BitVec 32 := 34#6 ++ d ++ a ++ b ++ p ++ 20#6
/-- The word of VSSUB_VX (R127). -/
def wordVssubVx (d : BitVec 5) (a : BitVec 5) (b : BitVec 5) (p : BitVec 5) : BitVec 32 := 34#6 ++ d ++ a ++ b ++ p ++ 21#6
/-- The word of VMERGE_VX (R129). -/
def wordVmergeVx (d : BitVec 5) (a : BitVec 5) (b : BitVec 5) (p : BitVec 5) : BitVec 32 := 34#6 ++ d ++ a ++ b ++ p ++ 22#6
/-- The word of VMV_VX (R127). -/
def wordVmvVx (d : BitVec 5) (b : BitVec 5) (p : BitVec 5) : BitVec 32 := 34#6 ++ d ++ 0#5 ++ b ++ p ++ 23#6
/-- The word of VADD_VI (R127). -/
def wordVaddVi (d : BitVec 5) (a : BitVec 5) (imm : BitVec 5) (p : BitVec 5) : BitVec 32 := 35#6 ++ d ++ a ++ imm ++ p ++ 0#6
/-- The word of VSUB_VI (R127). -/
def wordVsubVi (d : BitVec 5) (a : BitVec 5) (imm : BitVec 5) (p : BitVec 5) : BitVec 32 := 35#6 ++ d ++ a ++ imm ++ p ++ 1#6
/-- The word of VMUL_VI (R127). -/
def wordVmulVi (d : BitVec 5) (a : BitVec 5) (imm : BitVec 5) (p : BitVec 5) : BitVec 32 := 35#6 ++ d ++ a ++ imm ++ p ++ 2#6
/-- The word of VMULH_VI (R127). -/
def wordVmulhVi (d : BitVec 5) (a : BitVec 5) (imm : BitVec 5) (p : BitVec 5) : BitVec 32 := 35#6 ++ d ++ a ++ imm ++ p ++ 3#6
/-- The word of VMULHU_VI (R127). -/
def wordVmulhuVi (d : BitVec 5) (a : BitVec 5) (imm : BitVec 5) (p : BitVec 5) : BitVec 32 := 35#6 ++ d ++ a ++ imm ++ p ++ 4#6
/-- The word of VDIV_VI (R127). -/
def wordVdivVi (d : BitVec 5) (a : BitVec 5) (imm : BitVec 5) (p : BitVec 5) : BitVec 32 := 35#6 ++ d ++ a ++ imm ++ p ++ 5#6
/-- The word of VDIVU_VI (R127). -/
def wordVdivuVi (d : BitVec 5) (a : BitVec 5) (imm : BitVec 5) (p : BitVec 5) : BitVec 32 := 35#6 ++ d ++ a ++ imm ++ p ++ 6#6
/-- The word of VREM_VI (R127). -/
def wordVremVi (d : BitVec 5) (a : BitVec 5) (imm : BitVec 5) (p : BitVec 5) : BitVec 32 := 35#6 ++ d ++ a ++ imm ++ p ++ 7#6
/-- The word of VREMU_VI (R127). -/
def wordVremuVi (d : BitVec 5) (a : BitVec 5) (imm : BitVec 5) (p : BitVec 5) : BitVec 32 := 35#6 ++ d ++ a ++ imm ++ p ++ 8#6
/-- The word of VAND_VI (R127). -/
def wordVandVi (d : BitVec 5) (a : BitVec 5) (imm : BitVec 5) (p : BitVec 5) : BitVec 32 := 35#6 ++ d ++ a ++ imm ++ p ++ 9#6
/-- The word of VOR_VI (R127). -/
def wordVorVi (d : BitVec 5) (a : BitVec 5) (imm : BitVec 5) (p : BitVec 5) : BitVec 32 := 35#6 ++ d ++ a ++ imm ++ p ++ 10#6
/-- The word of VXOR_VI (R127). -/
def wordVxorVi (d : BitVec 5) (a : BitVec 5) (imm : BitVec 5) (p : BitVec 5) : BitVec 32 := 35#6 ++ d ++ a ++ imm ++ p ++ 11#6
/-- The word of VSHL_VI (R128). -/
def wordVshlVi (d : BitVec 5) (a : BitVec 5) (imm : BitVec 5) (p : BitVec 5) : BitVec 32 := 35#6 ++ d ++ a ++ imm ++ p ++ 12#6
/-- The word of VSHR_VI (R128). -/
def wordVshrVi (d : BitVec 5) (a : BitVec 5) (imm : BitVec 5) (p : BitVec 5) : BitVec 32 := 35#6 ++ d ++ a ++ imm ++ p ++ 13#6
/-- The word of VSRA_VI (R128). -/
def wordVsraVi (d : BitVec 5) (a : BitVec 5) (imm : BitVec 5) (p : BitVec 5) : BitVec 32 := 35#6 ++ d ++ a ++ imm ++ p ++ 14#6
/-- The word of VMIN_VI (R127). -/
def wordVminVi (d : BitVec 5) (a : BitVec 5) (imm : BitVec 5) (p : BitVec 5) : BitVec 32 := 35#6 ++ d ++ a ++ imm ++ p ++ 15#6
/-- The word of VMAX_VI (R127). -/
def wordVmaxVi (d : BitVec 5) (a : BitVec 5) (imm : BitVec 5) (p : BitVec 5) : BitVec 32 := 35#6 ++ d ++ a ++ imm ++ p ++ 16#6
/-- The word of VMINU_VI (R127). -/
def wordVminuVi (d : BitVec 5) (a : BitVec 5) (imm : BitVec 5) (p : BitVec 5) : BitVec 32 := 35#6 ++ d ++ a ++ imm ++ p ++ 17#6
/-- The word of VMAXU_VI (R127). -/
def wordVmaxuVi (d : BitVec 5) (a : BitVec 5) (imm : BitVec 5) (p : BitVec 5) : BitVec 32 := 35#6 ++ d ++ a ++ imm ++ p ++ 18#6
/-- The word of VMACC_VI (R127). -/
def wordVmaccVi (d : BitVec 5) (a : BitVec 5) (imm : BitVec 5) (p : BitVec 5) : BitVec 32 := 35#6 ++ d ++ a ++ imm ++ p ++ 19#6
/-- The word of VSADD_VI (R127). -/
def wordVsaddVi (d : BitVec 5) (a : BitVec 5) (imm : BitVec 5) (p : BitVec 5) : BitVec 32 := 35#6 ++ d ++ a ++ imm ++ p ++ 20#6
/-- The word of VSSUB_VI (R127). -/
def wordVssubVi (d : BitVec 5) (a : BitVec 5) (imm : BitVec 5) (p : BitVec 5) : BitVec 32 := 35#6 ++ d ++ a ++ imm ++ p ++ 21#6
/-- The word of VMERGE_VI (R129). -/
def wordVmergeVi (d : BitVec 5) (a : BitVec 5) (imm : BitVec 5) (p : BitVec 5) : BitVec 32 := 35#6 ++ d ++ a ++ imm ++ p ++ 22#6
/-- The word of VMV_VI (R127). -/
def wordVmvVi (d : BitVec 5) (imm : BitVec 5) (p : BitVec 5) : BitVec 32 := 35#6 ++ d ++ 0#5 ++ imm ++ p ++ 23#6
/-- The word of VFADD_VV (R130). -/
def wordVfaddVv (d : BitVec 5) (a : BitVec 5) (b : BitVec 5) (p : BitVec 5) : BitVec 32 := 36#6 ++ d ++ a ++ b ++ p ++ 0#6
/-- The word of VFSUB_VV (R130). -/
def wordVfsubVv (d : BitVec 5) (a : BitVec 5) (b : BitVec 5) (p : BitVec 5) : BitVec 32 := 36#6 ++ d ++ a ++ b ++ p ++ 1#6
/-- The word of VFMUL_VV (R130). -/
def wordVfmulVv (d : BitVec 5) (a : BitVec 5) (b : BitVec 5) (p : BitVec 5) : BitVec 32 := 36#6 ++ d ++ a ++ b ++ p ++ 2#6
/-- The word of VFDIV_VV (R130). -/
def wordVfdivVv (d : BitVec 5) (a : BitVec 5) (b : BitVec 5) (p : BitVec 5) : BitVec 32 := 36#6 ++ d ++ a ++ b ++ p ++ 3#6
/-- The word of VFMIN_VV (R130). -/
def wordVfminVv (d : BitVec 5) (a : BitVec 5) (b : BitVec 5) (p : BitVec 5) : BitVec 32 := 36#6 ++ d ++ a ++ b ++ p ++ 4#6
/-- The word of VFMAX_VV (R130). -/
def wordVfmaxVv (d : BitVec 5) (a : BitVec 5) (b : BitVec 5) (p : BitVec 5) : BitVec 32 := 36#6 ++ d ++ a ++ b ++ p ++ 5#6
/-- The word of VFMACC_VV (R130). -/
def wordVfmaccVv (d : BitVec 5) (a : BitVec 5) (b : BitVec 5) (p : BitVec 5) : BitVec 32 := 36#6 ++ d ++ a ++ b ++ p ++ 6#6
/-- The word of VFNMACC_VV (R130). -/
def wordVfnmaccVv (d : BitVec 5) (a : BitVec 5) (b : BitVec 5) (p : BitVec 5) : BitVec 32 := 36#6 ++ d ++ a ++ b ++ p ++ 7#6
/-- The word of VFMSAC_VV (R130). -/
def wordVfmsacVv (d : BitVec 5) (a : BitVec 5) (b : BitVec 5) (p : BitVec 5) : BitVec 32 := 36#6 ++ d ++ a ++ b ++ p ++ 8#6
/-- The word of VFNMSAC_VV (R130). -/
def wordVfnmsacVv (d : BitVec 5) (a : BitVec 5) (b : BitVec 5) (p : BitVec 5) : BitVec 32 := 36#6 ++ d ++ a ++ b ++ p ++ 9#6
/-- The word of VFSGNJ_VV (R130). -/
def wordVfsgnjVv (d : BitVec 5) (a : BitVec 5) (b : BitVec 5) (p : BitVec 5) : BitVec 32 := 36#6 ++ d ++ a ++ b ++ p ++ 10#6
/-- The word of VFSGNJN_VV (R130). -/
def wordVfsgnjnVv (d : BitVec 5) (a : BitVec 5) (b : BitVec 5) (p : BitVec 5) : BitVec 32 := 36#6 ++ d ++ a ++ b ++ p ++ 11#6
/-- The word of VFSGNJX_VV (R130). -/
def wordVfsgnjxVv (d : BitVec 5) (a : BitVec 5) (b : BitVec 5) (p : BitVec 5) : BitVec 32 := 36#6 ++ d ++ a ++ b ++ p ++ 12#6
/-- The word of VFADD_VX (R130). -/
def wordVfaddVx (d : BitVec 5) (a : BitVec 5) (b : BitVec 5) (p : BitVec 5) : BitVec 32 := 37#6 ++ d ++ a ++ b ++ p ++ 0#6
/-- The word of VFSUB_VX (R130). -/
def wordVfsubVx (d : BitVec 5) (a : BitVec 5) (b : BitVec 5) (p : BitVec 5) : BitVec 32 := 37#6 ++ d ++ a ++ b ++ p ++ 1#6
/-- The word of VFMUL_VX (R130). -/
def wordVfmulVx (d : BitVec 5) (a : BitVec 5) (b : BitVec 5) (p : BitVec 5) : BitVec 32 := 37#6 ++ d ++ a ++ b ++ p ++ 2#6
/-- The word of VFDIV_VX (R130). -/
def wordVfdivVx (d : BitVec 5) (a : BitVec 5) (b : BitVec 5) (p : BitVec 5) : BitVec 32 := 37#6 ++ d ++ a ++ b ++ p ++ 3#6
/-- The word of VFMIN_VX (R130). -/
def wordVfminVx (d : BitVec 5) (a : BitVec 5) (b : BitVec 5) (p : BitVec 5) : BitVec 32 := 37#6 ++ d ++ a ++ b ++ p ++ 4#6
/-- The word of VFMAX_VX (R130). -/
def wordVfmaxVx (d : BitVec 5) (a : BitVec 5) (b : BitVec 5) (p : BitVec 5) : BitVec 32 := 37#6 ++ d ++ a ++ b ++ p ++ 5#6
/-- The word of VFMACC_VX (R130). -/
def wordVfmaccVx (d : BitVec 5) (a : BitVec 5) (b : BitVec 5) (p : BitVec 5) : BitVec 32 := 37#6 ++ d ++ a ++ b ++ p ++ 6#6
/-- The word of VFNMACC_VX (R130). -/
def wordVfnmaccVx (d : BitVec 5) (a : BitVec 5) (b : BitVec 5) (p : BitVec 5) : BitVec 32 := 37#6 ++ d ++ a ++ b ++ p ++ 7#6
/-- The word of VFMSAC_VX (R130). -/
def wordVfmsacVx (d : BitVec 5) (a : BitVec 5) (b : BitVec 5) (p : BitVec 5) : BitVec 32 := 37#6 ++ d ++ a ++ b ++ p ++ 8#6
/-- The word of VFNMSAC_VX (R130). -/
def wordVfnmsacVx (d : BitVec 5) (a : BitVec 5) (b : BitVec 5) (p : BitVec 5) : BitVec 32 := 37#6 ++ d ++ a ++ b ++ p ++ 9#6
/-- The word of VFSGNJ_VX (R130). -/
def wordVfsgnjVx (d : BitVec 5) (a : BitVec 5) (b : BitVec 5) (p : BitVec 5) : BitVec 32 := 37#6 ++ d ++ a ++ b ++ p ++ 10#6
/-- The word of VFSGNJN_VX (R130). -/
def wordVfsgnjnVx (d : BitVec 5) (a : BitVec 5) (b : BitVec 5) (p : BitVec 5) : BitVec 32 := 37#6 ++ d ++ a ++ b ++ p ++ 11#6
/-- The word of VFSGNJX_VX (R130). -/
def wordVfsgnjxVx (d : BitVec 5) (a : BitVec 5) (b : BitVec 5) (p : BitVec 5) : BitVec 32 := 37#6 ++ d ++ a ++ b ++ p ++ 12#6
/-- The word of VFSQRT (R131). -/
def wordVfsqrt (d : BitVec 5) (a : BitVec 5) (p : BitVec 5) : BitVec 32 := 38#6 ++ d ++ a ++ 0#5 ++ p ++ 0#6
/-- The word of VFRSQRTE (R131). -/
def wordVfrsqrte (d : BitVec 5) (a : BitVec 5) (p : BitVec 5) : BitVec 32 := 38#6 ++ d ++ a ++ 0#5 ++ p ++ 1#6
/-- The word of VFRECE (R131). -/
def wordVfrece (d : BitVec 5) (a : BitVec 5) (p : BitVec 5) : BitVec 32 := 38#6 ++ d ++ a ++ 0#5 ++ p ++ 2#6
/-- The word of VFCLASS (R131). -/
def wordVfclass (d : BitVec 5) (a : BitVec 5) (p : BitVec 5) : BitVec 32 := 38#6 ++ d ++ a ++ 0#5 ++ p ++ 3#6
/-- The word of VFCVT (R132). -/
def wordVfcvt (d : BitVec 5) (a : BitVec 5) (k : BitVec 5) (p : BitVec 5) : BitVec 32 := 38#6 ++ d ++ a ++ k ++ p ++ 4#6
/-- The word of VMXCVT (R133). -/
def wordVmxcvt (d : BitVec 5) (a : BitVec 5) (t : Bool) (f : MxFmt) (p : BitVec 5) : BitVec 32 := 38#6 ++ d ++ a ++ 0#1 ++ (boolCode t) ++ (f.code.extractLsb' 0 3) ++ p ++ 5#6
/-- The word of VSEXT (R134). -/
def wordVsext (d : BitVec 5) (a : BitVec 5) (p : BitVec 5) : BitVec 32 := 38#6 ++ d ++ a ++ 0#5 ++ p ++ 6#6
/-- The word of VZEXT (R134). -/
def wordVzext (d : BitVec 5) (a : BitVec 5) (p : BitVec 5) : BitVec 32 := 38#6 ++ d ++ a ++ 0#5 ++ p ++ 7#6
/-- The word of VNARROW (R134). -/
def wordVnarrow (d : BitVec 5) (a : BitVec 5) (k : BitVec 5) (p : BitVec 5) : BitVec 32 := 38#6 ++ d ++ a ++ k ++ p ++ 8#6
/-- The word of VCMP_VV (R135). -/
def wordVcmpVv (d : BitVec 5) (a : BitVec 5) (b : BitVec 5) (p : BitVec 5) (c : CmpCond) (u : Bool) : BitVec 32 := 39#6 ++ d ++ a ++ b ++ p ++ c.code ++ 0#2 ++ (boolCode u)
/-- The word of VCMP_VX (R135). -/
def wordVcmpVx (d : BitVec 5) (a : BitVec 5) (b : BitVec 5) (p : BitVec 5) (c : CmpCond) (u : Bool) : BitVec 32 := 39#6 ++ d ++ a ++ b ++ p ++ c.code ++ 1#2 ++ (boolCode u)
/-- The word of VFCMP_VV (R135). -/
def wordVfcmpVv (d : BitVec 5) (a : BitVec 5) (b : BitVec 5) (p : BitVec 5) (c : CmpCond) : BitVec 32 := 39#6 ++ d ++ a ++ b ++ p ++ c.code ++ 4#3
/-- The word of VFCMP_VX (R135). -/
def wordVfcmpVx (d : BitVec 5) (a : BitVec 5) (b : BitVec 5) (p : BitVec 5) (c : CmpCond) : BitVec 32 := 39#6 ++ d ++ a ++ b ++ p ++ c.code ++ 6#3
/-- The word of PAND (R137). -/
def wordPand (d : BitVec 5) (a : BitVec 5) (b : BitVec 5) (p : BitVec 5) : BitVec 32 := 40#6 ++ d ++ a ++ b ++ p ++ 0#6
/-- The word of POR (R137). -/
def wordPor (d : BitVec 5) (a : BitVec 5) (b : BitVec 5) (p : BitVec 5) : BitVec 32 := 40#6 ++ d ++ a ++ b ++ p ++ 1#6
/-- The word of PXOR (R137). -/
def wordPxor (d : BitVec 5) (a : BitVec 5) (b : BitVec 5) (p : BitVec 5) : BitVec 32 := 40#6 ++ d ++ a ++ b ++ p ++ 2#6
/-- The word of PNOT (R137). -/
def wordPnot (d : BitVec 5) (a : BitVec 5) (p : BitVec 5) : BitVec 32 := 40#6 ++ d ++ a ++ 0#5 ++ p ++ 3#6
/-- The word of PSET (R137). -/
def wordPset (d : BitVec 5) (p : BitVec 5) : BitVec 32 := 40#6 ++ d ++ 0#10 ++ p ++ 4#6
/-- The word of PCLR (R137). -/
def wordPclr (d : BitVec 5) (p : BitVec 5) : BitVec 32 := 40#6 ++ d ++ 0#10 ++ p ++ 5#6
/-- The word of PMSBF (R137). -/
def wordPmsbf (d : BitVec 5) (a : BitVec 5) (p : BitVec 5) : BitVec 32 := 40#6 ++ d ++ a ++ 0#5 ++ p ++ 6#6
/-- The word of PMSIF (R137). -/
def wordPmsif (d : BitVec 5) (a : BitVec 5) (p : BitVec 5) : BitVec 32 := 40#6 ++ d ++ a ++ 0#5 ++ p ++ 7#6
/-- The word of PFIRST (R137). -/
def wordPfirst (d : BitVec 5) (a : BitVec 5) (p : BitVec 5) : BitVec 32 := 40#6 ++ d ++ a ++ 0#5 ++ p ++ 8#6
/-- The word of PCOUNT (R137). -/
def wordPcount (d : BitVec 5) (a : BitVec 5) (p : BitVec 5) : BitVec 32 := 40#6 ++ d ++ a ++ 0#5 ++ p ++ 9#6
/-- The word of PLD (R138). -/
def wordPld (d : BitVec 5) (a : BitVec 5) : BitVec 32 := 40#6 ++ d ++ a ++ 10#16
/-- The word of PST (R138). -/
def wordPst (s : BitVec 5) (a : BitVec 5) : BitVec 32 := 40#6 ++ s ++ a ++ 11#16
/-- The word of VSLIDEUP (R139). -/
def wordVslideup (d : BitVec 5) (a : BitVec 5) (b : BitVec 5) (p : BitVec 5) : BitVec 32 := 41#6 ++ d ++ a ++ b ++ p ++ 0#6
/-- The word of VSLIDEDOWN (R139). -/
def wordVslidedown (d : BitVec 5) (a : BitVec 5) (b : BitVec 5) (p : BitVec 5) : BitVec 32 := 41#6 ++ d ++ a ++ b ++ p ++ 1#6
/-- The word of VRGATHER (R139). -/
def wordVrgather (d : BitVec 5) (a : BitVec 5) (b : BitVec 5) (p : BitVec 5) : BitVec 32 := 41#6 ++ d ++ a ++ b ++ p ++ 2#6
/-- The word of VCOMPRESS (R140). -/
def wordVcompress (d : BitVec 5) (a : BitVec 5) (p : BitVec 5) : BitVec 32 := 41#6 ++ d ++ a ++ 0#5 ++ p ++ 3#6
/-- The word of VEXPAND (R140). -/
def wordVexpand (d : BitVec 5) (a : BitVec 5) (p : BitVec 5) : BitVec 32 := 41#6 ++ d ++ a ++ 0#5 ++ p ++ 4#6
/-- The word of VBCAST (R139). -/
def wordVbcast (d : BitVec 5) (a : BitVec 5) (b : BitVec 5) (p : BitVec 5) : BitVec 32 := 41#6 ++ d ++ a ++ b ++ p ++ 5#6
/-- The word of VEXTRACT (R139). -/
def wordVextract (d : BitVec 5) (a : BitVec 5) (b : BitVec 5) : BitVec 32 := 41#6 ++ d ++ a ++ b ++ 6#11
/-- The word of VINSERT (R139). -/
def wordVinsert (d : BitVec 5) (a : BitVec 5) (b : BitVec 5) : BitVec 32 := 41#6 ++ d ++ a ++ b ++ 7#11
/-- The word of VID (R139). -/
def wordVid (d : BitVec 5) (p : BitVec 5) : BitVec 32 := 41#6 ++ d ++ 0#10 ++ p ++ 8#6
/-- The word of VREDSUM (R141). -/
def wordVredsum (d : BitVec 5) (a : BitVec 5) (b : BitVec 5) (p : BitVec 5) : BitVec 32 := 42#6 ++ d ++ a ++ b ++ p ++ 0#6
/-- The word of VREDMAX (R141). -/
def wordVredmax (d : BitVec 5) (a : BitVec 5) (b : BitVec 5) (p : BitVec 5) : BitVec 32 := 42#6 ++ d ++ a ++ b ++ p ++ 1#6
/-- The word of VREDMIN (R141). -/
def wordVredmin (d : BitVec 5) (a : BitVec 5) (b : BitVec 5) (p : BitVec 5) : BitVec 32 := 42#6 ++ d ++ a ++ b ++ p ++ 2#6
/-- The word of VREDAND (R141). -/
def wordVredand (d : BitVec 5) (a : BitVec 5) (b : BitVec 5) (p : BitVec 5) : BitVec 32 := 42#6 ++ d ++ a ++ b ++ p ++ 3#6
/-- The word of VREDOR (R141). -/
def wordVredor (d : BitVec 5) (a : BitVec 5) (b : BitVec 5) (p : BitVec 5) : BitVec 32 := 42#6 ++ d ++ a ++ b ++ p ++ 4#6
/-- The word of VFREDSUM (R43). -/
def wordVfredsum (d : BitVec 5) (a : BitVec 5) (b : BitVec 5) (p : BitVec 5) : BitVec 32 := 42#6 ++ d ++ a ++ b ++ p ++ 5#6
/-- The word of VFREDOSUM (R141). -/
def wordVfredosum (d : BitVec 5) (a : BitVec 5) (b : BitVec 5) (p : BitVec 5) : BitVec 32 := 42#6 ++ d ++ a ++ b ++ p ++ 6#6
/-- The word of VFREDMAX (R141). -/
def wordVfredmax (d : BitVec 5) (a : BitVec 5) (b : BitVec 5) (p : BitVec 5) : BitVec 32 := 42#6 ++ d ++ a ++ b ++ p ++ 7#6
/-- The word of VFREDMIN (R141). -/
def wordVfredmin (d : BitVec 5) (a : BitVec 5) (b : BitVec 5) (p : BitVec 5) : BitVec 32 := 42#6 ++ d ++ a ++ b ++ p ++ 8#6
/-- The word of VRENC (R142). -/
def wordVrenc (d : BitVec 5) (a : BitVec 5) (p : BitVec 5) : BitVec 32 := 43#6 ++ d ++ a ++ 0#5 ++ p ++ 0#6
/-- The word of VRADD (R142). -/
def wordVradd (d : BitVec 5) (a : BitVec 5) (b : BitVec 5) (p : BitVec 5) : BitVec 32 := 43#6 ++ d ++ a ++ b ++ p ++ 1#6
/-- The word of VRSUB (R142). -/
def wordVrsub (d : BitVec 5) (a : BitVec 5) (b : BitVec 5) (p : BitVec 5) : BitVec 32 := 43#6 ++ d ++ a ++ b ++ p ++ 2#6
/-- The word of VRMUL (R142). -/
def wordVrmul (d : BitVec 5) (a : BitVec 5) (b : BitVec 5) (p : BitVec 5) : BitVec 32 := 43#6 ++ d ++ a ++ b ++ p ++ 3#6
/-- The word of VRMACC (R142). -/
def wordVrmacc (d : BitVec 5) (a : BitVec 5) (b : BitVec 5) (p : BitVec 5) : BitVec 32 := 43#6 ++ d ++ a ++ b ++ p ++ 4#6
/-- The word of VRDEC (R143). -/
def wordVrdec (d : BitVec 5) (a : BitVec 5) (p : BitVec 5) : BitVec 32 := 43#6 ++ d ++ a ++ 0#5 ++ p ++ 5#6
/-- The word of VRCHK (R143). -/
def wordVrchk (d : BitVec 5) (a : BitVec 5) (p : BitVec 5) : BitVec 32 := 43#6 ++ d ++ a ++ 0#5 ++ p ++ 6#6
/-- The word of VSLICE (R144). -/
def wordVslice (d : BitVec 5) (a : BitVec 5) (k : BitVec 5) (p : BitVec 5) : BitVec 32 := 43#6 ++ d ++ a ++ k ++ p ++ 7#6
/-- The word of VUNSLICE (R144). -/
def wordVunslice (d : BitVec 5) (a : BitVec 5) (p : BitVec 5) : BitVec 32 := 43#6 ++ d ++ a ++ 0#5 ++ p ++ 8#6
/-- The word of VWADD (R145). -/
def wordVwadd (d : BitVec 5) (a : BitVec 5) (b : BitVec 5) (p : BitVec 5) : BitVec 32 := 44#6 ++ d ++ a ++ b ++ p ++ 0#6
/-- The word of VWSUB (R145). -/
def wordVwsub (d : BitVec 5) (a : BitVec 5) (b : BitVec 5) (p : BitVec 5) : BitVec 32 := 44#6 ++ d ++ a ++ b ++ p ++ 1#6
/-- The word of VWMUL (R145). -/
def wordVwmul (d : BitVec 5) (a : BitVec 5) (b : BitVec 5) (p : BitVec 5) : BitVec 32 := 44#6 ++ d ++ a ++ b ++ p ++ 2#6
/-- The word of VWMACC (R145). -/
def wordVwmacc (d : BitVec 5) (a : BitVec 5) (b : BitVec 5) (p : BitVec 5) : BitVec 32 := 44#6 ++ d ++ a ++ b ++ p ++ 3#6
/-- The word of VWFMACC (R145). -/
def wordVwfmacc (d : BitVec 5) (a : BitVec 5) (b : BitVec 5) (p : BitVec 5) : BitVec 32 := 44#6 ++ d ++ a ++ b ++ p ++ 4#6
/-- The word of VQDOT (R146). -/
def wordVqdot (d : BitVec 5) (a : BitVec 5) (b : BitVec 5) (p : BitVec 5) : BitVec 32 := 44#6 ++ d ++ a ++ b ++ p ++ 5#6
/-- The word of VLD (R149). -/
def wordVld (d : BitVec 5) (a : BitVec 5) (p : BitVec 5) (c : BitVec 2) (e : ElemWidth) : BitVec 32 := 45#6 ++ d ++ a ++ 0#5 ++ p ++ c ++ 0#2 ++ e.code
/-- The word of VLDS (R149). -/
def wordVlds (d : BitVec 5) (a : BitVec 5) (b : BitVec 5) (p : BitVec 5) (c : BitVec 2) (e : ElemWidth) : BitVec 32 := 45#6 ++ d ++ a ++ b ++ p ++ c ++ 1#2 ++ e.code
/-- The word of VLDFF (R150). -/
def wordVldff (d : BitVec 5) (a : BitVec 5) (p : BitVec 5) (c : BitVec 2) (e : ElemWidth) : BitVec 32 := 45#6 ++ d ++ a ++ 0#5 ++ p ++ c ++ 2#2 ++ e.code
/-- The word of VLDQ (R151). -/
def wordVldq (d : BitVec 5) (q : BitVec 5) (p : BitVec 5) (e : ElemWidth) : BitVec 32 := 45#6 ++ d ++ 0#5 ++ q ++ p ++ 3#4 ++ e.code
/-- The word of VST (R149). -/
def wordVst (s : BitVec 5) (a : BitVec 5) (p : BitVec 5) (c : BitVec 2) (e : ElemWidth) : BitVec 32 := 46#6 ++ s ++ a ++ 0#5 ++ p ++ c ++ 0#2 ++ e.code
/-- The word of VSTS (R149). -/
def wordVsts (s : BitVec 5) (a : BitVec 5) (b : BitVec 5) (p : BitVec 5) (c : BitVec 2) (e : ElemWidth) : BitVec 32 := 46#6 ++ s ++ a ++ b ++ p ++ c ++ 1#2 ++ e.code
/-- The word of VLDX (R152). -/
def wordVldx (d : BitVec 5) (a : BitVec 5) (b : BitVec 5) (p : BitVec 5) (c : BitVec 2) (e : ElemWidth) : BitVec 32 := 47#6 ++ d ++ a ++ b ++ p ++ c ++ 0#2 ++ e.code
/-- The word of VLSEG (R153). -/
def wordVlseg (d : BitVec 5) (a : BitVec 5) (n : BitVec 5) (p : BitVec 5) (c : BitVec 2) (e : ElemWidth) : BitVec 32 := 47#6 ++ d ++ a ++ n ++ p ++ c ++ 1#2 ++ e.code
/-- The word of VLSEGMX (R154). -/
def wordVlsegmx (d : BitVec 5) (a : BitVec 5) (f : MxFmt) (p : BitVec 5) (c : BitVec 2) : BitVec 32 := 47#6 ++ d ++ a ++ f.code ++ p ++ c ++ 8#4
/-- The word of VSTX (R152). -/
def wordVstx (s : BitVec 5) (a : BitVec 5) (b : BitVec 5) (p : BitVec 5) (c : BitVec 2) (e : ElemWidth) : BitVec 32 := 48#6 ++ s ++ a ++ b ++ p ++ c ++ 0#2 ++ e.code
/-- The word of VSSEG (R153). -/
def wordVsseg (s : BitVec 5) (a : BitVec 5) (n : BitVec 5) (p : BitVec 5) (c : BitVec 2) (e : ElemWidth) : BitVec 32 := 48#6 ++ s ++ a ++ n ++ p ++ c ++ 1#2 ++ e.code
/-- The word of VSSEGMX (R154). -/
def wordVssegmx (s : BitVec 5) (a : BitVec 5) (f : MxFmt) (p : BitVec 5) (c : BitVec 2) : BitVec 32 := 48#6 ++ s ++ a ++ f.code ++ p ++ c ++ 8#4
/-- The word of VAMO (R167). -/
def wordVamo (d : BitVec 5) (a : BitVec 5) (b : BitVec 5) (p : BitVec 5) (o : VAmoOp) (q : Bool) (l : Bool) (u : Bool) : BitVec 32 := 49#6 ++ d ++ a ++ b ++ p ++ o.code ++ (boolCode q) ++ (boolCode l) ++ (boolCode u)
/-- The word of VWAIT (R168). -/
def wordVwait (a : BitVec 5) (b : BitVec 5) (p : BitVec 5) (c : WaitCond) : BitVec 32 := 49#6 ++ 0#5 ++ a ++ b ++ p ++ 7#3 ++ c.code
/-- The word of CHWIN (R169). -/
def wordChwin (o : ChOp) (a : BitVec 5) (b : BitVec 5) : BitVec 32 := 50#6 ++ o.code ++ a ++ b ++ 0#11
/-- The word of VCHADD (R170). -/
def wordVchadd (a : BitVec 5) (b : BitVec 5) (p : BitVec 5) : BitVec 32 := 50#6 ++ 0#5 ++ a ++ b ++ p ++ 1#6
/-- The word of VCHMIN (R170). -/
def wordVchmin (a : BitVec 5) (b : BitVec 5) (p : BitVec 5) : BitVec 32 := 50#6 ++ 0#5 ++ a ++ b ++ p ++ 2#6
/-- The word of VCHMAX (R170). -/
def wordVchmax (a : BitVec 5) (b : BitVec 5) (p : BitVec 5) : BitVec 32 := 50#6 ++ 0#5 ++ a ++ b ++ p ++ 3#6
/-- The word of VCHFADD (R170). -/
def wordVchfadd (a : BitVec 5) (b : BitVec 5) (p : BitVec 5) : BitVec 32 := 50#6 ++ 0#5 ++ a ++ b ++ p ++ 4#6
/-- The word of CHURN (R171). -/
def wordChurn : BitVec 32 := 50#6 ++ 5#26
/-- The word of CHDROP (R172). -/
def wordChdrop : BitVec 32 := 50#6 ++ 6#26
/-- The word of FOP (R202). -/
def wordFop (d : BitVec 5) (a : BitVec 5) (b : BitVec 5) (p : BitVec 5) (s : BitVec 4) : BitVec 32 := 51#6 ++ d ++ a ++ b ++ p ++ s ++ 0#2
/-- The word of FOP_VLB (R202). -/
def wordFopVlb (d : BitVec 5) (a : BitVec 5) (b : BitVec 5) (p : BitVec 5) (s : BitVec 4) : BitVec 32 := 51#6 ++ d ++ a ++ b ++ p ++ s ++ 2#2
/-- The word of FBIND (R196). -/
def wordFbind (d : BitVec 5) (a : BitVec 5) (b : BitVec 5) : BitVec 32 := 52#6 ++ d ++ a ++ b ++ 0#11
/-- The word of FUNBIND (R196). -/
def wordFunbind (a : BitVec 5) : BitVec 32 := 52#6 ++ 0#5 ++ a ++ 1#16
/-- The word of FPREFETCH (R196). -/
def wordFprefetch (a : BitVec 5) : BitVec 32 := 52#6 ++ 0#5 ++ a ++ 2#16
/-- The word of FQUERY (R196). -/
def wordFquery (d : BitVec 5) (a : BitVec 5) : BitVec 32 := 52#6 ++ d ++ a ++ 3#16
/-- The word of QBIND (R173). -/
def wordQbind (d : BitVec 5) (a : BitVec 5) (b : BitVec 5) : BitVec 32 := 53#6 ++ d ++ a ++ b ++ 0#11
/-- The word of QUNBIND (R174). -/
def wordQunbind (a : BitVec 5) : BitVec 32 := 53#6 ++ 0#5 ++ a ++ 1#16
/-- The word of QGET (R174). -/
def wordQget (d : BitVec 5) (a : BitVec 5) : BitVec 32 := 53#6 ++ d ++ a ++ 2#16
/-- The word of QAVAIL (R174). -/
def wordQavail (d : BitVec 5) (a : BitVec 5) : BitVec 32 := 53#6 ++ d ++ a ++ 3#16
/-- The word of DVDOT (R223). -/
def wordDvdot (d : BitVec 5) (a : BitVec 5) (b : BitVec 5) : BitVec 32 := 62#6 ++ d ++ a ++ b ++ 0#11
/-- The word of DVSUM (R223). -/
def wordDvsum (d : BitVec 5) (a : BitVec 5) : BitVec 32 := 62#6 ++ d ++ a ++ 1#16
/-- The word of DVPERM (R223). -/
def wordDvperm (d : BitVec 5) (a : BitVec 5) (b : BitVec 5) : BitVec 32 := 62#6 ++ d ++ a ++ b ++ 2#11

/-- The words of an `lpx` pair: the prefix carries the upper 26 bits of the joined field (R69). -/
def encodeLong : LongInstr → List (BitVec 32)
  | .imm op d a imm => [0x3F#6 ++ imm.extractLsb' 16 26, op.major ++ d ++ a ++ imm.extractLsb' 0 16]
  | .addpc d imm => [0x3F#6 ++ imm.extractLsb' 16 26, 0x0B#6 ++ d ++ 0#5 ++ imm.extractLsb' 0 16]
  | .li d imm => [0x3F#6 ++ imm.extractLsb' 16 26, 0x0C#6 ++ d ++ 0#5 ++ imm.extractLsb' 0 16]
  | .load op d a c o => [0x3F#6 ++ o.extractLsb' 11 26, 0x0D#6 ++ d ++ a ++ c ++ op.code ++ o.extractLsb' 0 11]
  | .store op s a c o => [0x3F#6 ++ o.extractLsb' 11 26, 0x0E#6 ++ s ++ a ++ c ++ op.code ++ o.extractLsb' 0 11]
  | .branch op a b o => [0x3F#6 ++ o.extractLsb' 16 26, op.major ++ a ++ b ++ o.extractLsb' 0 16]
  | .jal o => [0x3F#6 ++ o.extractLsb' 26 26, 0x15#6 ++ o.extractLsb' 0 26]
  | .jump o => [0x3F#6 ++ o.extractLsb' 26 26, 0x16#6 ++ o.extractLsb' 0 26]
  | .jalr d a imm => [0x3F#6 ++ imm.extractLsb' 16 26, 0x17#6 ++ d ++ a ++ imm.extractLsb' 0 16]

/-- The words of an instruction; the device's own steps have none. -/
def encode (i : Instr) : List (BitVec 32) :=
  match i with
  | .add d a b => [wordAdd d a b]
  | .sub d a b => [wordSub d a b]
  | .mul d a b => [wordMul d a b]
  | .mulh d a b => [wordMulh d a b]
  | .mulhu d a b => [wordMulhu d a b]
  | .div d a b => [wordDiv d a b]
  | .divu d a b => [wordDivu d a b]
  | .rem d a b => [wordRem d a b]
  | .remu d a b => [wordRemu d a b]
  | .andr d a b => [wordAndr d a b]
  | .orr d a b => [wordOrr d a b]
  | .xorr d a b => [wordXorr d a b]
  | .shl d a b => [wordShl d a b]
  | .shr d a b => [wordShr d a b]
  | .sra d a b => [wordSra d a b]
  | .slt d a b => [wordSlt d a b]
  | .sltu d a b => [wordSltu d a b]
  | .minr d a b => [wordMinr d a b]
  | .maxr d a b => [wordMaxr d a b]
  | .clz d a => [wordClz d a]
  | .ctz d a => [wordCtz d a]
  | .popc d a => [wordPopc d a]
  | .addi d a imm => [wordAddi d a imm]
  | .andi d a imm => [wordAndi d a imm]
  | .ori d a imm => [wordOri d a imm]
  | .xori d a imm => [wordXori d a imm]
  | .slti d a imm => [wordSlti d a imm]
  | .sltiu d a imm => [wordSltiu d a imm]
  | .shli d a n => [wordShli d a n]
  | .shri d a n => [wordShri d a n]
  | .srai d a n => [wordSrai d a n]
  | .bfx d a l w => [wordBfx d a l w]
  | .bfi d a l w => [wordBfi d a l w]
  | .addpc d imm => [wordAddpc d imm]
  | .li d imm => [wordLi d imm]
  | .ldb d a c o => [wordLdb d a c o]
  | .ldbu d a c o => [wordLdbu d a c o]
  | .ldh d a c o => [wordLdh d a c o]
  | .ldhu d a c o => [wordLdhu d a c o]
  | .ldw d a c o => [wordLdw d a c o]
  | .ldwu d a c o => [wordLdwu d a c o]
  | .ldd d a c o => [wordLdd d a c o]
  | .stb s a c o => [wordStb s a c o]
  | .sth s a c o => [wordSth s a c o]
  | .stw s a c o => [wordStw s a c o]
  | .std s a c o => [wordStd s a c o]
  | .beq a b o => [wordBeq a b o]
  | .bne a b o => [wordBne a b o]
  | .blt a b o => [wordBlt a b o]
  | .bge a b o => [wordBge a b o]
  | .bltu a b o => [wordBltu a b o]
  | .bgeu a b o => [wordBgeu a b o]
  | .jal o => [wordJal o]
  | .jump o => [wordJump o]
  | .jalr d a imm => [wordJalr d a imm]
  | .fadd d a b p r => [wordFadd d a b p r]
  | .fsub d a b p r => [wordFsub d a b p r]
  | .fmul d a b p r => [wordFmul d a b p r]
  | .fdiv d a b p r => [wordFdiv d a b p r]
  | .fsqrt d a p r => [wordFsqrt d a p r]
  | .fmin d a b p => [wordFmin d a b p]
  | .fmax d a b p => [wordFmax d a b p]
  | .fma d a b p r => [wordFma d a b p r]
  | .feq d a b p => [wordFeq d a b p]
  | .flt d a b p => [wordFlt d a b p]
  | .fle d a b p => [wordFle d a b p]
  | .fclass d a p => [wordFclass d a p]
  | .fcvt d a k p r => [wordFcvt d a k p r]
  | .fsgnj d a b p v => [wordFsgnj d a b p v]
  | .amoswap d a b q l z e => [wordAmoswap d a b q l z e]
  | .amoadd d a b q l z e => [wordAmoadd d a b q l z e]
  | .amoand d a b q l z e => [wordAmoand d a b q l z e]
  | .amoor d a b q l z e => [wordAmoor d a b q l z e]
  | .amoxor d a b q l z e => [wordAmoxor d a b q l z e]
  | .amomin d a b q l z e => [wordAmomin d a b q l z e]
  | .amomax d a b q l z e => [wordAmomax d a b q l z e]
  | .amocas d a b q l z e => [wordAmocas d a b q l z e]
  | .ldaq d a z e => [wordLdaq d a z e]
  | .strl a b z e => [wordStrl a b z e]
  | .syscall => [wordSyscall]
  | .brk => [wordBrk]
  | .eret => [wordEret]
  | .claim => [wordClaim]
  | .unclaim => [wordUnclaim]
  | .exitThread => [wordExitThread]
  | .yield => [wordYield]
  | .launch d a => [wordLaunch d a]
  | .trigger => [wordTrigger]
  | .csrr d c => [wordCsrr d c]
  | .csrw d a c => [wordCsrw d a c]
  | .csrset d a c => [wordCsrset d a c]
  | .csrclr d a c => [wordCsrclr d a c]
  | .fence k e => [wordFence k e]
  | .gjoin a => [wordGjoin a]
  | .gleave a => [wordGleave a]
  | .gbar a => [wordGbar a]
  | .garrive d a => [wordGarrive d a]
  | .gwait a b => [wordGwait a b]
  | .qpush a b => [wordQpush a b]
  | .qpop d a => [wordQpop d a]
  | .qtry d a => [wordQtry d a]
  | .hreg d a b => [wordHreg d a b]
  | .hunreg a => [wordHunreg a]
  | .mma d a b p t => [wordMma d a b p t]
  | .bload d a b p t => [wordBload d a b p t]
  | .copy d a b p t => [wordCopy d a b p t]
  | .coll d a b p t => [wordColl d a b p t]
  | .twait d a => [wordTwait d a]
  | .ttest d a => [wordTtest d a]
  | .tcancel a => [wordTcancel a]
  | .tdetach d a => [wordTdetach d a]
  | .tadopt d a => [wordTadopt d a]
  | .tafter a b => [wordTafter a b]
  | .tstat d a s => [wordTstat d a s]
  | .tsetpri a p => [wordTsetpri a p]
  | .tcfg d a => [wordTcfg d a]
  | .tzero d => [wordTzero d]
  | .tld d a b p => [wordTld d a b p]
  | .tst s a b p => [wordTst s a b p]
  | .tmvrv d a b p => [wordTmvrv d a b p]
  | .tmvcv d a b p => [wordTmvcv d a b p]
  | .tmvvr d a b p => [wordTmvvr d a b p]
  | .tmvvc d a b p => [wordTmvvc d a b p]
  | .touter d a b p => [wordTouter d a b p]
  | .trelease d => [wordTrelease d]
  | .vsetvli d a imm => [wordVsetvli d a imm]
  | .vsetvl d a b => [wordVsetvl d a b]
  | .vsetvlb d a => [wordVsetvlb d a]
  | .vaddVv d a b p => [wordVaddVv d a b p]
  | .vsubVv d a b p => [wordVsubVv d a b p]
  | .vmulVv d a b p => [wordVmulVv d a b p]
  | .vmulhVv d a b p => [wordVmulhVv d a b p]
  | .vmulhuVv d a b p => [wordVmulhuVv d a b p]
  | .vdivVv d a b p => [wordVdivVv d a b p]
  | .vdivuVv d a b p => [wordVdivuVv d a b p]
  | .vremVv d a b p => [wordVremVv d a b p]
  | .vremuVv d a b p => [wordVremuVv d a b p]
  | .vandVv d a b p => [wordVandVv d a b p]
  | .vorVv d a b p => [wordVorVv d a b p]
  | .vxorVv d a b p => [wordVxorVv d a b p]
  | .vshlVv d a b p => [wordVshlVv d a b p]
  | .vshrVv d a b p => [wordVshrVv d a b p]
  | .vsraVv d a b p => [wordVsraVv d a b p]
  | .vminVv d a b p => [wordVminVv d a b p]
  | .vmaxVv d a b p => [wordVmaxVv d a b p]
  | .vminuVv d a b p => [wordVminuVv d a b p]
  | .vmaxuVv d a b p => [wordVmaxuVv d a b p]
  | .vmaccVv d a b p => [wordVmaccVv d a b p]
  | .vsaddVv d a b p => [wordVsaddVv d a b p]
  | .vssubVv d a b p => [wordVssubVv d a b p]
  | .vmergeVv d a b p => [wordVmergeVv d a b p]
  | .vmvVv d b p => [wordVmvVv d b p]
  | .vaddVx d a b p => [wordVaddVx d a b p]
  | .vsubVx d a b p => [wordVsubVx d a b p]
  | .vmulVx d a b p => [wordVmulVx d a b p]
  | .vmulhVx d a b p => [wordVmulhVx d a b p]
  | .vmulhuVx d a b p => [wordVmulhuVx d a b p]
  | .vdivVx d a b p => [wordVdivVx d a b p]
  | .vdivuVx d a b p => [wordVdivuVx d a b p]
  | .vremVx d a b p => [wordVremVx d a b p]
  | .vremuVx d a b p => [wordVremuVx d a b p]
  | .vandVx d a b p => [wordVandVx d a b p]
  | .vorVx d a b p => [wordVorVx d a b p]
  | .vxorVx d a b p => [wordVxorVx d a b p]
  | .vshlVx d a b p => [wordVshlVx d a b p]
  | .vshrVx d a b p => [wordVshrVx d a b p]
  | .vsraVx d a b p => [wordVsraVx d a b p]
  | .vminVx d a b p => [wordVminVx d a b p]
  | .vmaxVx d a b p => [wordVmaxVx d a b p]
  | .vminuVx d a b p => [wordVminuVx d a b p]
  | .vmaxuVx d a b p => [wordVmaxuVx d a b p]
  | .vmaccVx d a b p => [wordVmaccVx d a b p]
  | .vsaddVx d a b p => [wordVsaddVx d a b p]
  | .vssubVx d a b p => [wordVssubVx d a b p]
  | .vmergeVx d a b p => [wordVmergeVx d a b p]
  | .vmvVx d b p => [wordVmvVx d b p]
  | .vaddVi d a imm p => [wordVaddVi d a imm p]
  | .vsubVi d a imm p => [wordVsubVi d a imm p]
  | .vmulVi d a imm p => [wordVmulVi d a imm p]
  | .vmulhVi d a imm p => [wordVmulhVi d a imm p]
  | .vmulhuVi d a imm p => [wordVmulhuVi d a imm p]
  | .vdivVi d a imm p => [wordVdivVi d a imm p]
  | .vdivuVi d a imm p => [wordVdivuVi d a imm p]
  | .vremVi d a imm p => [wordVremVi d a imm p]
  | .vremuVi d a imm p => [wordVremuVi d a imm p]
  | .vandVi d a imm p => [wordVandVi d a imm p]
  | .vorVi d a imm p => [wordVorVi d a imm p]
  | .vxorVi d a imm p => [wordVxorVi d a imm p]
  | .vshlVi d a imm p => [wordVshlVi d a imm p]
  | .vshrVi d a imm p => [wordVshrVi d a imm p]
  | .vsraVi d a imm p => [wordVsraVi d a imm p]
  | .vminVi d a imm p => [wordVminVi d a imm p]
  | .vmaxVi d a imm p => [wordVmaxVi d a imm p]
  | .vminuVi d a imm p => [wordVminuVi d a imm p]
  | .vmaxuVi d a imm p => [wordVmaxuVi d a imm p]
  | .vmaccVi d a imm p => [wordVmaccVi d a imm p]
  | .vsaddVi d a imm p => [wordVsaddVi d a imm p]
  | .vssubVi d a imm p => [wordVssubVi d a imm p]
  | .vmergeVi d a imm p => [wordVmergeVi d a imm p]
  | .vmvVi d imm p => [wordVmvVi d imm p]
  | .vfaddVv d a b p => [wordVfaddVv d a b p]
  | .vfsubVv d a b p => [wordVfsubVv d a b p]
  | .vfmulVv d a b p => [wordVfmulVv d a b p]
  | .vfdivVv d a b p => [wordVfdivVv d a b p]
  | .vfminVv d a b p => [wordVfminVv d a b p]
  | .vfmaxVv d a b p => [wordVfmaxVv d a b p]
  | .vfmaccVv d a b p => [wordVfmaccVv d a b p]
  | .vfnmaccVv d a b p => [wordVfnmaccVv d a b p]
  | .vfmsacVv d a b p => [wordVfmsacVv d a b p]
  | .vfnmsacVv d a b p => [wordVfnmsacVv d a b p]
  | .vfsgnjVv d a b p => [wordVfsgnjVv d a b p]
  | .vfsgnjnVv d a b p => [wordVfsgnjnVv d a b p]
  | .vfsgnjxVv d a b p => [wordVfsgnjxVv d a b p]
  | .vfaddVx d a b p => [wordVfaddVx d a b p]
  | .vfsubVx d a b p => [wordVfsubVx d a b p]
  | .vfmulVx d a b p => [wordVfmulVx d a b p]
  | .vfdivVx d a b p => [wordVfdivVx d a b p]
  | .vfminVx d a b p => [wordVfminVx d a b p]
  | .vfmaxVx d a b p => [wordVfmaxVx d a b p]
  | .vfmaccVx d a b p => [wordVfmaccVx d a b p]
  | .vfnmaccVx d a b p => [wordVfnmaccVx d a b p]
  | .vfmsacVx d a b p => [wordVfmsacVx d a b p]
  | .vfnmsacVx d a b p => [wordVfnmsacVx d a b p]
  | .vfsgnjVx d a b p => [wordVfsgnjVx d a b p]
  | .vfsgnjnVx d a b p => [wordVfsgnjnVx d a b p]
  | .vfsgnjxVx d a b p => [wordVfsgnjxVx d a b p]
  | .vfsqrt d a p => [wordVfsqrt d a p]
  | .vfrsqrte d a p => [wordVfrsqrte d a p]
  | .vfrece d a p => [wordVfrece d a p]
  | .vfclass d a p => [wordVfclass d a p]
  | .vfcvt d a k p => [wordVfcvt d a k p]
  | .vmxcvt d a t f p => [wordVmxcvt d a t f p]
  | .vsext d a p => [wordVsext d a p]
  | .vzext d a p => [wordVzext d a p]
  | .vnarrow d a k p => [wordVnarrow d a k p]
  | .vcmpVv d a b p c u => [wordVcmpVv d a b p c u]
  | .vcmpVx d a b p c u => [wordVcmpVx d a b p c u]
  | .vfcmpVv d a b p c => [wordVfcmpVv d a b p c]
  | .vfcmpVx d a b p c => [wordVfcmpVx d a b p c]
  | .pand d a b p => [wordPand d a b p]
  | .por d a b p => [wordPor d a b p]
  | .pxor d a b p => [wordPxor d a b p]
  | .pnot d a p => [wordPnot d a p]
  | .pset d p => [wordPset d p]
  | .pclr d p => [wordPclr d p]
  | .pmsbf d a p => [wordPmsbf d a p]
  | .pmsif d a p => [wordPmsif d a p]
  | .pfirst d a p => [wordPfirst d a p]
  | .pcount d a p => [wordPcount d a p]
  | .pld d a => [wordPld d a]
  | .pst s a => [wordPst s a]
  | .vslideup d a b p => [wordVslideup d a b p]
  | .vslidedown d a b p => [wordVslidedown d a b p]
  | .vrgather d a b p => [wordVrgather d a b p]
  | .vcompress d a p => [wordVcompress d a p]
  | .vexpand d a p => [wordVexpand d a p]
  | .vbcast d a b p => [wordVbcast d a b p]
  | .vextract d a b => [wordVextract d a b]
  | .vinsert d a b => [wordVinsert d a b]
  | .vid d p => [wordVid d p]
  | .vredsum d a b p => [wordVredsum d a b p]
  | .vredmax d a b p => [wordVredmax d a b p]
  | .vredmin d a b p => [wordVredmin d a b p]
  | .vredand d a b p => [wordVredand d a b p]
  | .vredor d a b p => [wordVredor d a b p]
  | .vfredsum d a b p => [wordVfredsum d a b p]
  | .vfredosum d a b p => [wordVfredosum d a b p]
  | .vfredmax d a b p => [wordVfredmax d a b p]
  | .vfredmin d a b p => [wordVfredmin d a b p]
  | .vrenc d a p => [wordVrenc d a p]
  | .vradd d a b p => [wordVradd d a b p]
  | .vrsub d a b p => [wordVrsub d a b p]
  | .vrmul d a b p => [wordVrmul d a b p]
  | .vrmacc d a b p => [wordVrmacc d a b p]
  | .vrdec d a p => [wordVrdec d a p]
  | .vrchk d a p => [wordVrchk d a p]
  | .vslice d a k p => [wordVslice d a k p]
  | .vunslice d a p => [wordVunslice d a p]
  | .vwadd d a b p => [wordVwadd d a b p]
  | .vwsub d a b p => [wordVwsub d a b p]
  | .vwmul d a b p => [wordVwmul d a b p]
  | .vwmacc d a b p => [wordVwmacc d a b p]
  | .vwfmacc d a b p => [wordVwfmacc d a b p]
  | .vqdot d a b p => [wordVqdot d a b p]
  | .vld d a p c e => [wordVld d a p c e]
  | .vlds d a b p c e => [wordVlds d a b p c e]
  | .vldff d a p c e => [wordVldff d a p c e]
  | .vldq d q p e => [wordVldq d q p e]
  | .vst s a p c e => [wordVst s a p c e]
  | .vsts s a b p c e => [wordVsts s a b p c e]
  | .vldx d a b p c e => [wordVldx d a b p c e]
  | .vlseg d a n p c e => [wordVlseg d a n p c e]
  | .vlsegmx d a f p c => [wordVlsegmx d a f p c]
  | .vstx s a b p c e => [wordVstx s a b p c e]
  | .vsseg s a n p c e => [wordVsseg s a n p c e]
  | .vssegmx s a f p c => [wordVssegmx s a f p c]
  | .vamo d a b p o q l u => [wordVamo d a b p o q l u]
  | .vwait a b p c => [wordVwait a b p c]
  | .chwin o a b => [wordChwin o a b]
  | .vchadd a b p => [wordVchadd a b p]
  | .vchmin a b p => [wordVchmin a b p]
  | .vchmax a b p => [wordVchmax a b p]
  | .vchfadd a b p => [wordVchfadd a b p]
  | .churn => [wordChurn]
  | .chdrop => [wordChdrop]
  | .fop d a b p s => [wordFop d a b p s]
  | .fopVlb d a b p s => [wordFopVlb d a b p s]
  | .fbind d a b => [wordFbind d a b]
  | .funbind a => [wordFunbind a]
  | .fprefetch a => [wordFprefetch a]
  | .fquery d a => [wordFquery d a]
  | .qbind d a b => [wordQbind d a b]
  | .qunbind a => [wordQunbind a]
  | .qget d a => [wordQget d a]
  | .qavail d a => [wordQavail d a]
  | .dvdot d a b => [wordDvdot d a b]
  | .dvsum d a => [wordDvsum d a]
  | .dvperm d a b => [wordDvperm d a b]
  | .lpxPair l => encodeLong l
  | .vectorCommit _ => []
  | .trapEntry _ _ _ => []
  | .threadWake _ => []
  | .issueBoost _ => []
  | .threadSpawn _ _ => []
  | .threadResume _ _ => []
  | .handlerSpawn _ _ => []
  | .threadPreemption _ => []
  | .quantumBoundary _ _ => []
  | .passedThreadHold _ _ => []
  | .launchEligible _ => []
  | .tetherStart _ => []
  | .mmaKblock _ _ _ _ => []
  | .bloadColumn _ => []
  | .copyBurst _ _ => []
  | .collStep _ _ => []
  | .feFire _ _ => []
  | .endOfRoundArrival _ _ => []
  | .fabricLdReturn _ _ => []
  | .fopComplete _ => []
  | .fopStop _ => []
  | .planeLoad _ _ => []
  | .memoryAccessPerformed _ => []
  | .tableWalk _ _ _ => []
  | .invalidationComplete _ => []
  | .peerAck _ _ => []
  | .peerTimeout _ => []
  | .inboundPeerRequest _ _ => []
  | .portBurstArrival _ _ _ _ => []
  | .laneCheckTest _ _ _ _ => []
  | .columnGroupRetirement _ => []
  | .lineWriteBack _ _ => []
  | .partitionSwap _ _ => []
  | .killComplete _ => []
  | .clockThrottle _ _ => []
  | .clockRaise _ _ => []
  | .overtemperature _ => []
  | .lifetimeRefresh => []
  | .lifetimeFlashWrite => []
  | .powerOn _ => []
  | .deviceReset => []
  | .firmwareUpdate _ _ => []
  | .liveActivation _ => []
  | .securityVersionRaise _ _ => []
  | .getVersion => []
  | .getCapabilities => []
  | .negotiateAlgorithms _ _ => []
  | .getDigests _ _ => []
  | .getCertificate _ _ => []
  | .challenge _ _ _ => []
  | .getMeasurements _ _ _ => []
  | .lissue _ => []
  | .fpop _ => []
  | .queueConfigure _ _ => []
  | .queueDestroy _ => []
  | .preempt _ => []
  | .resume _ => []
  | .kill _ => []
  | .cancel _ => []
  | .destroy _ => []
  | .coreAssign _ _ => []
  | .coreRelease _ _ => []
  | .coreReleaseComplete _ _ => []
  | .partitionKill _ => []
  | .partitionHalt _ => []
  | .partitionRun _ => []
  | .invalidation _ _ => []
  | .codeRegister _ _ => []
  | .codeUnregister _ _ => []
  | .quotaWrite _ _ => []
  | .corestateCret _ _ => []
  | .corestateLret _ _ => []
  | .corestateCap _ _ => []
  | .rpop => []
  | .rcountRead => []
  | .devselWrite _ _ _ => []
  | .pevselWrite _ _ _ => []
  | .registerWrite _ _ => []
  | .powerLoss => []
  | .linkRetrain _ => []
  | .linkLevelRetry _ => []
  | .peerMemberFailure _ _ _ => []

/-- True of the instructions that have an encoding. -/
def Instr.isEncoded (i : Instr) : Bool := !(encode i).isEmpty

/-- The value TVAL takes for ILLEGAL and UNDECLARED: the word in [31:0], and for a pair the prefix in [31:0] and the
following word in [63:32] (R79, R226). -/
def tvalOfWords : List (BitVec 32) → Word
  | [] => 0
  | [w] => w.zeroExtend 64
  | w :: w2 :: _ => w2 ++ w

/-- An instruction's length in bytes: 4, or 8 for a prefixed pair (R63, R69). -/
def Instr.len (i : Instr) : Nat := 4 * (encode i).length

end Sys2Proof
end

