-- ==== Sys2Proof/Config.lean ====
section
/-! DEFINITION. What the spec leaves open, as constants without a body: free values and free choices. Nothing in Lean
can evaluate them, so a statement that mentions one holds whatever it is. -/
namespace Sys2Proof.Config

/-- A free 64-bit value: TVCP.DISCARD (R235), event counts that depend on time or caches (R403), and bytes a spec rule
leaves old or new. Indexed by the free-value counter of the state (DESIGN CHOICE, log 5). -/
opaque freeWord (n : Nat) : Word

/-- A free byte: what a home holds after a lost write-back (R390, R391). Indexed as `freeWord` (DESIGN CHOICE, log 5). -/
opaque freeByte (n : Nat) : Byte

/-- A free choice among several: a tether entry (R272), a thread slot (R420), a core or lane group (R227, R345), the
element that a granule keeps (R152). The choice is this number modulo the count of candidates (DESIGN CHOICE, log 6). -/
opaque pick (n : Nat) : Nat

/-- SHAKE256 of a list of numbers, as a number (R407, R408, R410). FIPS 202 is outside the spec (DESIGN CHOICE, log 11). -/
opaque shake (data : List Nat) : Nat

/-- A signature by the device identity key, as a number (R408, R409). FIPS 205 is outside the spec (DESIGN CHOICE, log 11). -/
opaque sign (data : List Nat) : Nat

/-- The certificate chain kept in flash, as a number (R408). -/
opaque certificate : Nat

end Sys2Proof.Config
end

