-- ==== Sys2Proof/Machine/State.lean ====
section
/-! DEFINITION. The state of the CV-4 as plain data: threads, cores, partitions, processes, tethers, memory and the
device's own registers, and the state after reset. Each piece is listed in INVENTORY.md with its rule. -/
namespace Sys2Proof.Machine

/-- The ways a step can stop for good. The spec names none: every event it describes is a trap, a park or a state of the
thread, so this type has no constructor and no step ends in a fault. -/
inductive Fault where
  deriving DecidableEq, Repr

/-- Why an instruction has no meaning. -/
inductive Refusal where
  /-- raised by an arm of `exec` whose instruction has no meaning yet; safe: nothing is claimed of it -/
  | notModelled (mnemonic : String)
  deriving DecidableEq, Repr

/-- Data by key. A key that is not listed holds its default. -/
abbrev Assoc (κ ν : Type) := List (κ × ν)

/-- Memory: bytes by address, addresses rising, no byte that an unlisted address reads as (0; DESIGN CHOICE, log 1). -/
abbrev Memory := List Host.Cell

/-- Memory that an address names. -/
inductive Place where
  | device (dpa : Nat)
  | localStore (off : Nat)
  | csa (off : Nat)
  deriving DecidableEq, Repr

/-- A range of virtual addresses. -/
structure Range where
  base : Nat
  len : Nat
  deriving DecidableEq, Repr

/-- What wakes a parked or blocked thread (R177, R184, R189, R205, R218, R219, R233, R255, R324, R380). -/
inductive Wait where
  /-- all bytes of the range lie outside every stalled part of a watermark (R255) -/
  | watermark (ranges : List Range)
  /-- the phase of the group differs (R161) -/
  | phase (gid : Nat) (old : BitVec 32)
  /-- the thread's arrived flag in the group is clear (R162) -/
  | arrived (gid : Nat)
  /-- the queue is not full, or is gone (R164) -/
  | queueRoom (q : Nat)
  /-- the queue holds an entry, or is gone (R164) -/
  | queueEntry (q : Nat)
  /-- the stamp of the held entry has drained (R165) -/
  | stamp
  /-- one of the watched bytes differs from what was seen (R168) -/
  | watch (seen : List Host.Cell)
  /-- the stream's next elements have arrived, or its tether is final (R175) -/
  | stream (q : Nat) (n : Nat)
  /-- the tether is final or STALE (R189) -/
  | tether (token : Word)
  /-- a tether entry of the partition is free on the die (R273) -/
  | entry (die : Nat)
  /-- the registered text's resident prefix reaches past the offset, or has failed (R324) -/
  | text (slot : Nat) (upTo : Nat)
  /-- the fabric of the core runs no `fop`, and a plane is free (R205, R298) -/
  | fabric
  /-- the thread's own `fop` has completed or stopped (R206) -/
  | fop
  /-- the thread's stores have been performed (R160) -/
  | drain
  /-- the request to a peer has been answered (R380) -/
  | peer (req : Nat)
  /-- every attached tether is final (R218) -/
  | attached
  /-- the vector queue has room (R233) -/
  | vectorQueue
  /-- nothing: another agent's step comes between two parts of the instruction (R261, R268, R271) -/
  | again
  deriving DecidableEq, Repr

/-- Life of a thread (R231). TRAPPED is `ready` in supervisor mode. -/
inductive Life where
  | ready | parked (w : Wait) | blocked | preempted | halted | ended
  deriving DecidableEq, Repr

/-- What the kernel header declares of a thread (R321). -/
structure Header where
  usemask : Word
  entry : Nat
  lstore : Nat
  churnb : Nat
  stack : Nat
  fslots : BitVec 16
  order : Nat
  vregs : Nat
  pregs : Nat
  tiles : Nat
  groups : Nat
  width : Nat
  deriving DecidableEq, Repr

/-- An open churn window (R169): `copies` holds the touched locations, by lane and index. `flags` and `told` belong to a `churn`
that has not completed: the flags of its folds, and the granules whose refused folds have been reported (R171). -/
structure ChurnWin where
  op : ChOp
  bits : Nat
  base : Word
  n : Nat
  copies : Assoc (Nat × Nat) Word
  flags : BitVec 5
  told : List Nat
  deriving DecidableEq, Repr

/-- A bound stream register (R173). -/
structure StreamBind where
  token : Word
  base : Nat
  len : Nat
  bytes : Nat
  pos : Nat
  /-- the bytes that had arrived when the tether retired -/
  final : Option Nat
  deriving DecidableEq, Repr

/-- An entry of a hardware queue with its stamp (R165). -/
structure QEntry where
  value : Word
  producer : ThreadKey
  stamp : Nat
  deriving DecidableEq, Repr

/-- A hardware queue (R341). -/
structure HwQueue where
  cap : Nat
  scope : Scope
  entries : List QEntry
  deriving DecidableEq, Repr

/-- A store that its thread has issued and that is not yet performed, or one element or segment of a vector store (R100, R236,
R257, R259): bytes by device-physical address, alias class, kind, place in the thread's count, whether it has been sent to
the peer that holds its bytes (R380), the later reads of the thread that it comes before by an edge of R259, by their alias classes
and bytes, and the earlier stores that such reads put before it. A store is named by its place in the count and its number among the units of its instruction. -/
structure PendStore where
  cells : List Host.Cell
  cls : BitVec 2
  vector : Bool
  seq : Nat
  unit : Nat
  sent : Bool
  reads : List (BitVec 2 × List Range)
  after : List (Nat × Nat)
  deriving DecidableEq, Repr

/-- A deprecated instruction between two micro-steps (R223): its word, the step to come and the temporary of the steps
done. -/
structure Micro where
  word : BitVec 32
  step : Nat
  temp : List Nat
  deriving DecidableEq, Repr

/-- A running value of a fabric element (R294, R305): the sum of `acc` or `facc`, whether a token was added since the last
send, and the count of `count`, `dup` and `agen`. -/
structure RunVal where
  val : Word
  added : Bool
  k : Nat
  deriving DecidableEq, Repr

/-- The part of a fabric fault record that no instruction reads (R305). -/
structure FabricHidden where
  gen : BitVec 32
  vals : Assoc Nat RunVal
  /-- nothing but its completion is left of the `fop` (R203, R302) -/
  closing : Bool
  deriving DecidableEq, Repr

/-- What a peer has answered to a request of an instruction: the PC and mode of the instruction, which request of it, and the
bytes that came back, none where the peer rejected it (R380). -/
structure PeerAnswer where
  pc : Word
  supervisor : Bool
  slot : Nat
  dpa : Nat
  len : Nat
  data : Option (List Byte)
  deriving DecidableEq, Repr

/-- An instruction that has begun to perform and goes on to its end: its word, and the places that its checks found (R148, R159,
R171). -/
structure Begun where
  word : BitVec 32
  places : Assoc Nat Place
  deriving DecidableEq, Repr

/-- A thread and its context (R44 to R58, R228 to R231). -/
structure Thread where
  key : ThreadKey
  -- registers
  x : Vector Word 32
  pc : Word
  v : Vector (BitVec 16384) 32
  p : Vector (BitVec 2048) 24
  m : Vector (BitVec 32768) 8
  fcsr : BitVec 8
  vl : Nat
  vlb : Nat
  vtype : BitVec 16
  tshape : Vector (BitVec 16) 8
  tdirty : BitVec 8
  prio : BitVec 3
  ffcause : Word
  ffaddr : Word
  ffidx : Vector Word 8
  ffhidden : Option FabricHidden
  tcause : Word
  tpc : Word
  tval : Word
  telem : Word
  tvcp : Word
  tstep : Word
  evsel : Vector (BitVec 9) 8
  evcnt : Vector Word 8
  -- mode and life
  supervisor : Bool
  claimed : Bool
  life : Life
  held : Bool
  /-- a pre-emption request that waits for `unclaim` or `eret` (R365), and whether the thread is then held (R370) -/
  wish : Option Bool
  triggered : Bool
  migrated : Bool
  /-- a HALTED thread that RESUME sends back: it enters its handler afresh (R370) -/
  afresh : Bool
  -- placement
  core : CoreId
  lanes : List Nat
  cls : Nat
  vlen : Nat
  mcols : Nat
  capmask : BitVec 25
  fver : Word
  /-- DFVER at the last save (R366, R399) -/
  savedVer : Word
  avoid : List CoreId
  slot : Nat
  placed : Nat
  queued : Nat
  /-- an UNPLACEABLE entry has said that no core qualifies for it (R397) -/
  told : Bool
  -- launch
  hdr : Header
  launchPrio : BitVec 3
  -- private storage
  localStore : Memory
  csa : Memory
  binds : Assoc Nat StreamBind
  window : Option ChurnWin
  preds : Option (Word × Word)
  /-- the groups and phases that the `gbar` at a PC in a mode awaits, and the entries that the `qpop` there holds (R163, R165) -/
  awaiting : Assoc (Word × Bool) (Nat × BitVec 32)
  popped : Assoc (Word × Bool) QEntry
  micro : Option Micro
  -- in flight
  /-- uncommitted vector instructions, each with the scalar ones that the front end has executed after it (R233) -/
  vq : List (Word × Nat)
  sq : List PendStore
  stores : Nat
  peerData : List PeerAnswer
  /-- the instruction at the PC, when it has begun to perform: an atomic at a peer, a `vamo` or a `churn` (R159, R167, R171) -/
  begun : Option Begun
  /-- the prefix word that has been read at a PC in a mode, while the word after it has not (R271) -/
  half : Option (Word × Bool × BitVec 32)
  /-- the instruction at the PC has started: it has passed its checks and parked (R396) -/
  started : Bool
  /-- the micro-step at which the thread last left its core (R224) -/
  leftStep : Nat
  passed : Nat
  boosted : Option Nat
  deriving DecidableEq, Repr

/-- States of a tether (R183). -/
inductive TState where | queued | running | done | faulted | cancelled
  deriving DecidableEq, Repr

/-- Kinds of a tether (R183). -/
inductive TKind where | kernel | mma | bload | copy | coll
  deriving DecidableEq, Repr

/-- Causes in a tether's record (R190). -/
inductive TCause where
  | none | xlate | protect | align | bounds | dataErr | format | residue | peer | pred | cancel
  deriving DecidableEq, Repr

/-- The launch that a KERNEL tether stands for (R219, R336 to R347). -/
structure Launch where
  obj : Nat
  hdrAddr : Nat
  hdr : Header
  textBase : Nat
  linkTable : Nat
  prio : BitVec 3
  indirect : Bool
  early : Bool
  n : Nat
  args : Word
  countAddr : Word
  deps : List Word
  fromFifo : Bool
  eligible : Option Nat
  spawned : Nat
  ended : Nat
  triggered : Nat
  killed : Option (Nat × Word)
  spawnFault : Option (Nat × Word)
  deriving DecidableEq, Repr

/-- A tether and its record (R184, R190, R272 to R280). -/
structure Tether where
  die : Nat
  index : Nat
  gen : BitVec 16
  kind : TKind
  state : TState
  cause : TCause
  prio : BitVec 3
  detached : Bool
  /-- the thread that detached it (R192) -/
  detacher : Option ThreadKey
  owner : Option ThreadKey
  delivered : Bool
  part : Nat
  proc : Nat
  issuer : ThreadKey
  core : CoreId
  ops : Word × Word × Word
  layout : List (BitVec 40 × BitVec 24)
  preds : List Word
  arrival : Nat
  cancelling : Bool
  fenced : Bool
  suspended : Bool
  /-- MMA: a row has ended, and what waits for that boundary takes it once the writes of later rows are acknowledged (R277) -/
  rowEnded : Bool
  /-- COLL: the cancel that is pending is that of another member of the set (R274) -/
  byPeer : Bool
  progress : Nat
  addr : Word
  flags : BitVec 5
  clamps : Nat
  node : Nat
  /-- MMA: next K-block by row and column; COPY: bursts done, under row 0 -/
  work : Assoc (Nat × Nat) Nat
  /-- COLL: the partial chunk that the next step sends -/
  partialChunk : List Byte
  /-- MMA: the packets of the rows in the array (R281) -/
  packets : Assoc Nat (List Byte)
  /-- what peers have answered to the unit under way (R380) -/
  peerData : List Host.Cell
  launch : Option Launch
  deriving DecidableEq, Repr

/-- A group of one launch: its members with their arrived flags, and its phase (R161). M and N are counts over them. -/
structure Group where
  members : Assoc ThreadKey Bool
  phase : BitVec 32
  deriving DecidableEq, Repr

/-- A block of the B store with its header (R286). -/
structure BBlock where
  proc : Nat
  fmt : Nat
  mxb : Bool
  slices : Nat
  k : Nat
  scale : Byte
  /-- per K-block: the alignment exponent and whether a value is a NaN or an infinity -/
  exps : List (Int × Bool)
  /-- per element, its digits from the lowest weight -/
  digits : List (List Int)
  deriving DecidableEq, Repr

/-- A copy channel (R56, R252). -/
inductive ChannelState where | idle | filling | kept
  deriving DecidableEq, Repr

structure Channel where
  state : ChannelState
  base : Nat
  len : Nat
  mark : Nat
  token : Word
  part : Nat
  proc : Nat
  deriving DecidableEq, Repr

/-- A handler-table entry (R166, R349). -/
structure HandlerEntry where
  part : Nat
  proc : Nat
  queue : Nat
  prio : BitVec 3
  header : Word
  deriving DecidableEq, Repr

/-- What a plane holds: a graph, tagged by process, slot and generation (R298). -/
structure Plane where
  part : Nat
  proc : Nat
  slot : Nat
  gen : BitVec 32
  graph : List Word
  used : Nat
  deriving DecidableEq, Repr

/-- What a fabric token derives from (R306). -/
inductive Source where
  | elem (stream i : Nat)
  | step (fe n : Nat)
  deriving DecidableEq, Repr

/-- A token on the fabric: data or end-of-stream, its sources and its plane (R207, R299, R306). -/
structure Token where
  data : Option Word
  src : List Source
  plane : Nat
  deriving DecidableEq, Repr

/-- A memory access of a fabric element: a store that is held, with its bytes, or a load that has not returned, which has none.
`num` is its place among the accesses that the load-store queue has accepted (R206, R303, R307). -/
structure FabricAccess where
  num : Nat
  fe : Nat
  addr : Word
  cells : List Host.Cell
  src : List Source
  deriving DecidableEq, Repr

/-- A step that an `agen` has sent: its counter, the number of its run, and what the token that started the run derives
from (R212, R306). -/
structure AgenStep where
  k : Nat
  run : Nat
  src : List Source
  deriving DecidableEq, Repr

/-- A failing access of a running graph (R308). -/
structure FabricFail where
  cause : TrapCause
  addr : Word
  record : Option (Word × Word)
  seq : Nat
  fe : Nat
  src : List Source
  /-- its place among the accesses that the queue has accepted -/
  num : Nat
  deriving DecidableEq, Repr

/-- Stop events of a running graph other than a failing access (R308). -/
inductive FabricEvent where | mismatch | range | overflow | preempt
  deriving DecidableEq, Repr

/-- The `fop` that runs on a core (R202, R294 to R308). -/
structure FabricRun where
  thread : ThreadKey
  slot : Nat
  plane : Nat
  gen : BitVec 32
  graph : List Word
  vd : Nat
  va : Nat
  vb : Nat
  mask : Nat
  len0 : Nat
  len1 : Nat
  byVlb : Bool
  next0 : Nat
  next1 : Nat
  /-- elements whose end-of-stream has been sent or consumed -/
  ended : List Nat
  bufs : Assoc (Nat × Nat) (List Token)
  vals : Assoc Nat RunVal
  /-- per element, the sources of each firing that changed its running value and the value before it -/
  hist : Assoc Nat (List (List Source × RunVal))
  /-- per `agen`, the steps it has sent and the number of its current run -/
  steps : Assoc Nat (List AgenStep)
  runs : Assoc Nat Nat
  outBase : Nat
  outs : List (Nat × List Source)
  /-- the sources of data tokens that a firing has consumed and sent nothing for -/
  dropped : List (List Source)
  stores : List FabricAccess
  loads : List FabricAccess
  issued : Assoc Nat Nat
  /-- per chain, the stores of it that have been issued to the thread (R303) -/
  chained : Assoc Nat (List Nat)
  round : Bool
  reached : List Nat
  flags : BitVec 5
  fails : List FabricFail
  events : List FabricEvent
  /-- the thread's count of stores at the start -/
  firstSeq : Nat
  /-- every access has been issued, and the `fop` waits until they are performed (R302) -/
  closing : Bool
  deriving DecidableEq, Repr

/-- A core site (R3, R229, R376, R400). -/
structure Core where
  enabled : Bool
  cret : BitVec 8
  lret : BitVec 16
  cap : BitVec 25
  banks : Vector (Option Nat) 4
  blocks : Assoc (Nat × Nat) BBlock
  channels : Assoc Nat Channel
  handlers : Assoc Nat HandlerEntry
  planes : Assoc Nat Plane
  /-- planes that a graph is being loaded into -/
  loading : Assoc Nat Plane
  run : Option FabricRun
  order : List ThreadKey
  confirmed : List CheckUnit
  /-- column groups whose retirement has begun (R394) -/
  retiring : List Nat
  changed : Word
  deriving DecidableEq, Repr

/-- A text registration (R324): the largest P read, and FAILED. -/
structure TextReg where
  base : Nat
  len : Nat
  mark : Nat
  upTo : Nat
  failed : Bool
  deriving DecidableEq, Repr

/-- A fabric slot of a process (R197, R199). -/
structure FabricSlot where
  graph : Option (List Word)
  gen : BitVec 32
  deriving DecidableEq, Repr

/-- A process (R279, R375, R420). -/
structure Process where
  live : Bool
  root : Word
  area : Word
  areaCfg : Word
  slots : List Nat
  fabric : Assoc Nat FabricSlot
  queues : Assoc Nat HwQueue
  texts : Assoc Nat TextReg
  reel : Nat
  deriving DecidableEq, Repr

/-- A fault FIFO entry (R351). -/
structure FifoEntry where
  w0 : Word
  w1 : Word
  w2 : Word
  w3 : Word
  deriving DecidableEq, Repr

/-- A partition's registers (R338 to R341, R370, R375). -/
structure Partition where
  cores : Vector (BitVec 64) 4
  releasing : List CoreId
  root : Word
  hentry : Word
  quantum : Word
  quota : Word
  inc : BitVec 8
  killBusy : Bool
  /-- the kill waits before its incarnation advances (R369) -/
  killWait : Bool
  run : Bool
  /-- the invalidation in progress and those that wait: what was written, INVLO and INVHI (R359, R376) -/
  invBusy : Option (Word × Word × Word)
  invNext : List (Word × Word × Word)
  invLo : Word
  invHi : Word
  crText : Word
  crLen : Word
  crMark : Word
  ports : BitVec 48
  inbound : Vector (Word × Word) 16
  lrec : Vector Word 8
  lctl : Word
  lissue : Word
  fifo : List FifoEntry
  fifoWait : List FifoEntry
  qsel : Word
  qans : Word
  tsel0 : Word
  tsel1 : Word
  /-- the command that has not completed: its thread, and its CMD code, or 8 for a KILL whose HANDLER_END entry waits (R352, R370) -/
  tcmd : Option (ThreadKey × Nat)
  tans : Word
  swappedOut : Bool
  /-- what the shadow storage holds of a swapped-out partition, or of one whose places are taken: FILLING channels and
  handler-table entries, by core and number (R367) -/
  savedChannels : List (CoreId × Nat × Channel)
  savedHandlers : List (CoreId × Nat × HandlerEntry)
  deriving DecidableEq, Repr

/-- A combined translation (R358): the TLB that holds it, page base and size, the addresses it gives, the two leaf levels and
permissions. -/
structure TlbEntry where
  home : TlbHome
  part : Nat
  proc : Nat
  base : Nat
  size : Nat
  ppa : Nat
  dpa : Nat
  level1 : Nat
  level2 : Nat
  perm1 : BitVec 4
  perm2 : BitVec 4
  deriving DecidableEq, Repr

/-- An entry of a die's cache of non-leaf entries (R358): the stage and level it was read at, the part of the address above
that level's page, and the node it points to. Stage 2 has process 0. -/
structure NodeEntry where
  die : Nat
  part : Nat
  proc : Nat
  stage2 : Bool
  level : Nat
  tag : Nat
  next : Nat
  deriving DecidableEq, Repr

/-- Who waits for a peer's answer (R380). -/
inductive Requester where
  /-- an instruction by its PC and mode; `slot` tells apart its requests -/
  | thread (t : ThreadKey) (pc : Word) (supervisor : Bool) (slot : Nat)
  | store (t : ThreadKey) (seq : Nat)
  /-- a read of a thread that a trap has ended: its instruction asks again (R109) -/
  | stale (t : ThreadKey)
  | tether (token : Word) (unit : Nat)
  /-- a dispatcher's read, by what it reads for: the token of a launch, a spawn of it, a queue with a handler, or a partition's LISSUE
  (R276) -/
  | dispatcher (reader : Word)
  /-- an access of the control complex (R374) -/
  | control
  deriving DecidableEq, Repr

/-- What a peer has answered to a dispatcher's read, none where it rejected it (R276, R380). -/
structure DispatchAnswer where
  reader : Word
  part : Nat
  dpa : Nat
  data : Option (List Byte)
  deriving DecidableEq, Repr

/-- A request sent to a peer and not answered (R368, R380). -/
structure PeerReq where
  id : Nat
  who : Requester
  part : Nat
  inc : BitVec 8
  /-- none when no port reached the peer as the request was sent (R379) -/
  port : Option Nat
  write : Bool
  dpa : Nat
  len : Nat
  data : List Byte
  va : Word
  /-- the core that sent it; none for a dispatcher and the control complex (R368) -/
  core : Option CoreId
  /-- what the reading instruction takes from the device at the instant of the answer: addresses and lengths (R155) -/
  near : List (Nat × Nat)
  deriving DecidableEq, Repr

/-- A scale-up port (R378, R381, R404). -/
structure Port where
  cfg : BitVec 2
  /-- bursts that wait for earlier ones: tether, number, data -/
  reseq : List (Word × Nat × List Byte)
  sel : Vector Word 4
  cnt : Vector Word 4
  deriving DecidableEq, Repr

/-- The lifetime record (R405). -/
structure Lifetime where
  seq : Nat
  hours : Nat
  dfver : Word
  tjHours : Assoc (Nat × Nat) Nat
  railHours : Assoc (Nat × Nat) Nat
  corrected : Assoc (Nat × Nat) Nat
  uncorrected : Assoc (Nat × Nat) Nat
  laneGroups : Nat
  columnGroups : Nat
  fences : Nat
  retrains : Assoc Nat Nat
  cores : Assoc CoreId Word
  deriving DecidableEq, Repr

/-- The last answer on the management port to an SPDM request (R409). -/
inductive SpdmAnswer where
  | none
  | version
  | capabilities
  | algorithms (asym hash : Nat)
  | digests (digest : Nat)
  | certificate (chain : Nat)
  | challengeAuth (signature : Nat)
  | measurements (values : List Nat) (signature : Nat)
  | unsupported
  deriving DecidableEq, Repr

/-- Firmware and identity (R407 to R410): images in the two slots of each of the four, the fused minimum versions, the
images that run, and their measurements. -/
structure Firmware where
  slots : Assoc (Nat × Nat) FwImage
  active : Assoc Nat Nat
  /-- the slot of each image that an update has written last (R410) -/
  written : Assoc Nat Nat
  fused : Assoc Nat Nat
  running : Assoc Nat FwImage
  /-- the image being activated, and the partitions that run again after it (R410) -/
  activating : Option (Nat × List Nat)
  recovery : Bool
  answer : SpdmAnswer
  deriving DecidableEq, Repr

/-- Power and clock registers (R414). -/
structure Power where
  pwr : BitVec 16
  tjmax : BitVec 8
  clk : Nat
  tlim : Bool
  plim : Bool
  limit : Nat
  deriving DecidableEq, Repr

/-- An entry of the repair log (R401). -/
structure RepairEntry where
  w0 : Word
  w1 : Word
  deriving DecidableEq, Repr

/-- The machine. `thr` is the thread that has the turn; `others` are all the others. -/
structure State where
  thr : Thread
  others : List Thread
  mem : Memory
  /-- what the homes hold of granules that have been written since their last write-back, by device-physical address (R390) -/
  homes : Assoc Nat (List Byte)
  /-- uncorrectable granules: device-physical address, a multiple of 8, and structure class (R388, R390) -/
  badMem : Assoc Nat Nat
  /-- uncorrectable errors in a thread's registers and local store: thread, class, register or offset, and which 64 bits (R388, R390) -/
  badReg : List (ThreadKey × Nat × Nat × Nat)
  /-- uncorrectable granules of context shadow storage, class 11: thread and offset, a multiple of 8 (R388, R390) -/
  badCsa : List (ThreadKey × Nat)
  cores : Assoc CoreId Core
  parts : Vector Partition 16
  procs : Assoc (Nat × Nat) Process
  tethers : List Tether
  gens : Assoc (Nat × Nat) (BitVec 16)
  groups : Assoc (ThreadKey × Nat) Group
  tlb : List TlbEntry
  nodes : List NodeEntry
  ports : Assoc Nat Port
  peers : Assoc Nat Word
  peerSets : Assoc Nat (Word × Word)
  requests : List PeerReq
  /-- what peers have answered to dispatchers (R380) -/
  dispatched : List DispatchAnswer
  /-- channels that memory training left unmapped (R417) -/
  untrained : List Nat
  dfver : Word
  /-- DFVER after the latest firmware update (R399) -/
  fwver : Word
  repairs : List RepairEntry
  dropped : Nat
  devSel : Assoc (Nat × Nat) Word
  devCnt : Assoc (Nat × Nat) Word
  lifetime : Lifetime
  snapshot : Lifetime
  flash : Lifetime
  firmware : Firmware
  power : Power
  off : Bool
  holds : List (Nat × Waiting)
  /-- the value of the control complex's last register read (R374) -/
  cpuRead : Word
  /-- the last completion that a port returned to a peer: the port and the bytes, none for an error completion (R379) -/
  completion : Option (Nat × Option (List Byte))
  /-- the model's own: numbers events in device order -/
  clock : Nat
  /-- the model's own: numbers free values (DESIGN CHOICE, log 5) -/
  freeCtr : Nat
  /-- the model's own: device steps that an outside choice puts next, with what comes from outside (DESIGN CHOICE, logs 4 and 62) -/
  agenda : List Instr
  /-- the model's own: how many more parts of instructions are performed before each break, in which other agents may act (DESIGN
  CHOICE, log 4) -/
  breaks : List Nat
  /-- the model's own: the cores that take the next issue cycles (DESIGN CHOICE, log 4) -/
  turns : List CoreId
  /-- the model's own: instructions issued since the last device step (DESIGN CHOICE, log 4) -/
  pulse : Nat
  /-- the model's own: whose turn it is among the device steps that are due (DESIGN CHOICE, log 4) -/
  duty : Nat
  deriving DecidableEq, Repr

/-- No thread: what holds the turn when no thread does. -/
def Header.empty : Header :=
  { usemask := 0, entry := 0, lstore := 0, churnb := 0, stack := 0, fslots := 0, order := 0, vregs := 0, pregs := 0,
    tiles := 0, groups := 0, width := 0 }

/-- A thread with the register values of R228 and class Q figures, ended and on no core (DESIGN CHOICE, log 3). -/
def Thread.fresh : Thread :=
  { key := ⟨0, 0, 0, 0⟩, x := Vector.replicate 32 0, pc := 0, v := Vector.replicate 32 0, p := Vector.replicate 24 0,
    m := Vector.replicate 8 0, fcsr := 0, vl := 0, vlb := 0, vtype := 0, tshape := Vector.replicate 8 0, tdirty := 0,
    prio := 0, ffcause := 0, ffaddr := 0, ffidx := Vector.replicate 8 0, ffhidden := none, tcause := 0, tpc := 0,
    tval := 0, telem := 0, tvcp := 0, tstep := 0, evsel := Vector.replicate 8 0, evcnt := Vector.replicate 8 0,
    supervisor := false, claimed := false, life := .ended, held := false, wish := none, triggered := false,
    migrated := false, afresh := false, core := ⟨0, 0⟩, lanes := [], cls := 0, vlen := 1024, mcols := 128, capmask := 0x1FFFFFF, fver := 1,
    savedVer := 1, avoid := [], slot := 0, placed := 0, queued := 0, told := false, hdr := Header.empty, launchPrio := 0, localStore := [], csa := [],
    binds := [], window := none, preds := none, awaiting := [], popped := [], micro := none, vq := [], sq := [],
    stores := 0, peerData := [], begun := none, half := none, started := false, leftStep := 0, passed := 0, boosted := none }

/-- A core site at device reset (R376, R400, R417); sites 0 to 59 of each die are enabled (DESIGN CHOICE, log 10). -/
def Core.fresh (c : CoreId) : Core :=
  { enabled := decide (c.die < 4 ∧ c.site < 60), cret := 0, lret := 0, cap := 0x1FFFFFF, banks := Vector.replicate 4 none,
    blocks := [], channels := [], handlers := [], planes := [], loading := [], run := none, order := [], confirmed := [],
    retiring := [], changed := 0 }

/-- A partition's registers at reset (R339, R341, R370, R375). -/
def Partition.fresh : Partition :=
  { cores := Vector.replicate 4 0, releasing := [], root := 0, hentry := 0, quantum := 0x1001, quota := 0, inc := 0,
    killBusy := false, killWait := false, run := false, invBusy := none, invNext := [], invLo := 0, invHi := 0, crText := 0, crLen := 0,
    crMark := 0, ports := 0, inbound := Vector.replicate 16 (0, 0), lrec := Vector.replicate 8 0, lctl := 0, lissue := 0,
    fifo := [], fifoWait := [], qsel := 0, qans := 0, tsel0 := 0, tsel1 := 0, tcmd := none, tans := 0,
    swappedOut := false, savedChannels := [], savedHandlers := [] }

/-- A process that nothing has set up (R375). -/
def Process.fresh : Process :=
  { live := false, root := 0, area := 0, areaCfg := 0, slots := [], fabric := [], queues := [], texts := [], reel := 0 }

/-- A port at reset (R378). -/
def Port.fresh : Port := { cfg := 0, reseq := [], sel := Vector.replicate 4 0, cnt := Vector.replicate 4 0 }

/-- The lifetime record of a new part (DESIGN CHOICE, log 10). -/
def Lifetime.fresh : Lifetime :=
  { seq := 0, hours := 0, dfver := 1, tjHours := [], railHours := [], corrected := [], uncorrected := [],
    laneGroups := 0, columnGroups := 0, fences := 0, retrains := [], cores := [] }

/-- The firmware of a new part: one valid image of version 1 in slot 0 of each of the four (DESIGN CHOICE, log 11). -/
def Firmware.fresh : Firmware :=
  { slots := [((1, 0), ⟨1, 1, true⟩), ((2, 0), ⟨1, 2, true⟩), ((3, 0), ⟨1, 3, true⟩), ((4, 0), ⟨1, 4, true⟩)],
    active := [(1, 0), (2, 0), (3, 0), (4, 0)], written := [], fused := [],
    running := [(1, ⟨1, 1, true⟩), (2, ⟨1, 2, true⟩), (3, ⟨1, 3, true⟩), (4, ⟨1, 4, true⟩)], activating := none, recovery := false,
    answer := .none }

/-- Power registers at reset (R414). -/
def Power.fresh : Power := { pwr := 0, tjmax := 0, clk := 24, tlim := false, plim := false, limit := 3200 }

/-- The machine after bring-up (R417): no partition runs, no thread exists, memory lists nothing (logs 1 to 3, 10, 11). -/
def State.reset : State :=
  { thr := Thread.fresh, others := [], mem := [], homes := [], badMem := [], badReg := [], badCsa := [], cores := [],
    parts := Vector.replicate 16 Partition.fresh, procs := [], tethers := [], gens := [], groups := [], tlb := [], nodes := [],
    ports := [], peers := [], peerSets := [], requests := [], dispatched := [], untrained := [], dfver := 1, fwver := 1, repairs := [], dropped := 0,
    devSel := [], devCnt := [], lifetime := Lifetime.fresh, snapshot := Lifetime.fresh, flash := Lifetime.fresh,
    firmware := Firmware.fresh, power := Power.fresh, off := false, holds := [], cpuRead := 0, completion := none, clock := 0, freeCtr := 0,
    agenda := [], breaks := [], turns := [], pulse := 0, duty := 0 }

end Sys2Proof.Machine
end

