-- ==== Sys2Proof/Machine/Bits.lean ====
section
/-! DEFINITION. Numbers and bits (R10, R11), lists of bytes (R5), data by key, and memory as sorted cells. -/
namespace Sys2Proof.Machine

/-- The low `w` bits of `n` read as a signed number (R10). -/
def sext (w n : Nat) : Int := if n % 2 ^ w < 2 ^ (w - 1) then ((n % 2 ^ w : Nat) : Int) else ((n % 2 ^ w : Nat) : Int) - 2 ^ w

/-- The low `w` bits of `n` read as an unsigned number (R10). -/
def zext (w n : Nat) : Nat := n % 2 ^ w

/-- An integer wrapped to `w` bits (R11). -/
def wrap (w : Nat) (i : Int) : Nat := (i % (2 ^ w : Nat)).toNat

/-- An integer as a 64-bit word. -/
def wordOfInt (i : Int) : Word := BitVec.ofInt 64 i

/-- Clamp to a range (R11). -/
def clampInt (lo hi i : Int) : Int := if i < lo then lo else if hi < i then hi else i

/-- `SignExtend(n, w)` as a 64-bit word. -/
def sextWord (w n : Nat) : Word := wordOfInt (sext w n)

/-- True when bit `i` of `n` is 1. -/
def bit (n i : Nat) : Bool := n.testBit i

/-- The number of one bits among the low `k` bits. -/
def popCount : Nat → Nat → Nat
  | 0, _ => 0
  | k + 1, n => n % 2 + popCount k (n / 2)

/-- The number of leading zeros of the low `k` bits. -/
def leadingZeros : Nat → Nat → Nat
  | 0, _ => 0
  | k + 1, n => if n.testBit k then 0 else 1 + leadingZeros k n

/-- The number of trailing zeros of the low `k` bits. -/
def trailingZeros : Nat → Nat → Nat
  | 0, _ => 0
  | k + 1, n => if n % 2 = 1 then 0 else 1 + trailingZeros k (n / 2)

/-- Bits `[lo + len - 1 : lo]` of a number. -/
def bitsAt (n lo len : Nat) : Nat := n / 2 ^ lo % 2 ^ len

/-- A number with bits `[lo + len - 1 : lo]` replaced. -/
def setBitsAt (n lo len v : Nat) : Nat := n - bitsAt n lo len * 2 ^ lo + v % 2 ^ len * 2 ^ lo

/-- The little-endian number of a list of bytes (R5). -/
def natOfBytes : List Byte → Nat
  | [] => 0
  | b :: bs => b.toNat + 256 * natOfBytes bs

/-- The low `n` bytes of a number, lowest first (R5). -/
def bytesOf : Nat → Nat → List Byte
  | 0, _ => []
  | n + 1, v => BitVec.ofNat 8 v :: bytesOf n (v / 256)

/-! ### Data by key -/

/-- What a key holds, if it is listed. -/
def Assoc.get? {κ ν : Type} [DecidableEq κ] : Assoc κ ν → κ → Option ν
  | [], _ => none
  | (k, v) :: r, key => if k = key then some v else Assoc.get? r key

/-- What a key holds, `d` when it is not listed. -/
def Assoc.getD {κ ν : Type} [DecidableEq κ] (l : Assoc κ ν) (key : κ) (d : ν) : ν := (Assoc.get? l key).getD d

/-- The list with `key` holding `v`. -/
def Assoc.put {κ ν : Type} [DecidableEq κ] : Assoc κ ν → κ → ν → Assoc κ ν
  | [], key, v => [(key, v)]
  | (k, w) :: r, key, v => if k = key then (key, v) :: r else (k, w) :: Assoc.put r key v

/-- The list without `key`. -/
def Assoc.drop {κ ν : Type} [DecidableEq κ] (l : Assoc κ ν) (key : κ) : Assoc κ ν := l.filter fun e => decide (e.1 ≠ key)

/-! ### Memory -/

/-- One byte of memory; an unlisted address reads 0 (DESIGN CHOICE, log 1). -/
def Memory.byte : Memory → Nat → Byte
  | [], _ => 0
  | (k, b) :: r, a => if k = a then b else Memory.byte r a

/-- The cells that bytes from address `a` on give, none for a byte 0. -/
def Memory.cellsFrom : Nat → List Byte → Memory
  | _, [] => []
  | a, b :: bs => if b = 0 then Memory.cellsFrom (a + 1) bs else (a, b) :: Memory.cellsFrom (a + 1) bs

/-- Memory with the bytes `bs` stored from address `a` on. -/
def Memory.put (m : Memory) (a : Nat) (bs : List Byte) : Memory :=
  m.filter (fun c => decide (c.1 < a)) ++ (Memory.cellsFrom a bs ++ m.filter fun c => decide (a + bs.length ≤ c.1))

/-- Memory with each cell stored, later ones over earlier ones. -/
def Memory.putCells (m : Memory) : List Host.Cell → Memory
  | [] => m
  | c :: cs => Memory.putCells (m.put c.1 [c.2]) cs

/-- The `n` bytes from address `a` on. -/
def Memory.bytes (m : Memory) (a : Nat) : Nat → List Byte
  | 0 => []
  | n + 1 => m.byte a :: Memory.bytes m (a + 1) n

/-- The little-endian number in the `n` bytes from address `a` on. -/
def Memory.load (m : Memory) (a n : Nat) : Nat := natOfBytes (m.bytes a n)

/-- The canonical form: addresses rise, and no byte is 0. -/
def Memory.wf : Memory → Bool
  | [] => true
  | (a, b) :: r => decide (b ≠ 0) && r.all (fun c => decide (a < c.1)) && Memory.wf r

/-- Bytes paired with the addresses they go to. -/
def cellsAt : Nat → List Byte → List Host.Cell
  | _, [] => []
  | a, b :: bs => (a, b) :: cellsAt (a + 1) bs

end Sys2Proof.Machine
end

