-- ==== Sys2Proof/Machine/Translate.lean ====
section
/-! DEFINITION. Two-stage translation (R353 to R359), the device-physical map (R244), and where an access of a thread or an
engine goes (R108, R246, R360). -/
namespace Sys2Proof.Machine

/-! ### The tables of data by key that translation reads -/

def State.proc (s : State) (part pr : Nat) : Process := Assoc.getD s.procs (part, pr) Process.fresh
def State.setProc (s : State) (part pr : Nat) (p : Process) : State := { s with procs := Assoc.put s.procs (part, pr) p }
def State.part (s : State) (n : Nat) : Partition := s.parts[n]?.getD Partition.fresh
def State.setPart (s : State) (n : Nat) (p : Partition) : State := { s with parts := s.parts.setIfInBounds n p }
def State.core (s : State) (c : CoreId) : Core := Assoc.getD s.cores c (Core.fresh c)
def State.setCore (s : State) (c : CoreId) (k : Core) : State := { s with cores := Assoc.put s.cores c k }

/-! ### The device-physical map (R244) -/

/-- What lies at a device-physical address. -/
inductive Home where
  | lpddr (die : Nat)
  | sram (die : Nat)
  | peer (p : Nat)
  | none
  deriving DecidableEq, Repr

/-- R244. -/
def homeOf (a : Nat) : Home :=
  if a < 0x10000000000 then .lpddr (a / 2 ^ 38)
  else if a < 0x10400000000 then
    let d := (a - 0x10000000000) / 0x100000000
    if (a - 0x10000000000) % 0x100000000 < 0xC0000000 then .sram d else .none
  else if 0x8000000000000 ≤ a ∧ a < 0x8000000000000 + 1024 * 0x20000000000 then .peer ((a - 0x8000000000000) / 0x20000000000)
  else .none

/-- The LPDDR channel of an address: consecutive 4 KiB blocks fall on the eight channels of the die in rotation. -/
def channelOf (a : Nat) : Nat := a / 2 ^ 38 * 8 + a / 4096 % 8

/-- True of an address that memory answers; a channel that failed training is unmapped (R417). -/
def State.mapped (s : State) (a : Nat) : Bool :=
  match homeOf a with
  | .lpddr _ => !s.untrained.contains (channelOf a)
  | .sram _ => true
  | .peer _ => true
  | .none => false

/-! ### Peers (R379) -/

/-- The control complex among those who send requests to peers: no partition, and every port is its own (R374; DESIGN CHOICE, log 18). -/
def controlPart : Nat := 16

/-- The port through which a partition reaches a peer: owned, enabled, in the mask of the peer's valid entry, and in mode 0
or, for bursts of COPY and COLL, in either mode; the lowest of several (R378, R379). -/
def State.peerPort (s : State) (part p : Nat) (bulk : Bool) : Option Nat :=
  let e := Assoc.getD s.peers p 0
  if e.getLsbD 63 then
    (List.range 48).find? fun q =>
      let cfg := (Assoc.getD s.ports q Port.fresh).cfg
      e.getLsbD (10 + q) && (decide (part = controlPart) || (s.part part).ports.getLsbD q) && cfg.getLsbD 1 && (bulk || !cfg.getLsbD 0)
  else none

/-- True of a device-physical address that no port reaches (R379). -/
def State.unreachable (s : State) (part dpa : Nat) (bulk : Bool) : Bool :=
  match homeOf dpa with
  | .peer p => (s.peerPort part p bulk).isNone
  | _ => false

/-! ### Walks (R353 to R355) -/

/-- The die of a TLB. -/
def dieOf : TlbHome → Nat
  | .core c => c.die
  | .die d => d

/-- Permission bits of an entry: S, X, W, R from bit 3 down to bit 0. -/
def entryPerm (e : Nat) : BitVec 4 := BitVec.ofNat 4 (bitsAt e 2 4)

/-- A failed or refused translation: the trap, and STAGE, LEVEL, PERM and PPA of the translation record (R357). `ask` is the address of
a table entry that a peer holds and has not been read yet: the walk goes on once the peer has answered (R379, R380). -/
structure XlateFail where
  cause : TrapCause
  stage : Nat
  level : Nat
  perm : Bool
  ppa : Nat
  ask : Option Nat := none
  deriving DecidableEq, Repr

/-- A walk that waits for a peer's answer. -/
def XlateFail.waits (dpa : Nat) : XlateFail := { cause := .xlate, stage := 0, level := 0, perm := false, ppa := 0, ask := some dpa }

/-- A leaf: its page base and size, level and permissions. -/
structure Leaf where
  base : Nat
  size : Nat
  level : Nat
  perm : BitVec 4
  deriving DecidableEq, Repr

/-- What one entry says at a level whose leaves are of 2^shift bytes: a leaf, the next node, or a fault (R354, R355). -/
inductive EntryKind where
  | leaf (l : Leaf)
  | node (addr : Nat)
  | fault

/-- R355, one entry; `stage2` is where S must be 0 (R354). -/
def readEntry (stage2 : Bool) (level shift e : Nat) : EntryKind :=
  let addr := bitsAt e 14 38 * 2 ^ 14
  let reserved := bitsAt e 52 12 ≠ 0 ∨ bitsAt e 6 8 ≠ 0 ∨ (stage2 = true ∧ bit e 5 = true)
  if bit e 0 = false then .fault
  else if reserved then .fault
  else if bit e 3 = true ∧ bit e 2 = false then .fault
  else if bit e 1 = true then
    if addr % 2 ^ shift = 0 then .leaf ⟨addr, 2 ^ shift, level, entryPerm e⟩ else .fault
  else if level = 2 then .fault
  else .node addr

/-- The shift of a level: L0 38, L1 27, L2 16 (R353). -/
def levelShift (level : Nat) : Nat := 38 - 11 * level

/-- Who walks: the die whose walker it is, and the partition and process whose tables it reads (R358); `known` are the bytes that
peers have answered to the access that walks (R380). -/
structure Walker where
  die : Nat
  part : Nat
  proc : Nat
  known : List Host.Cell
  deriving DecidableEq, Repr

/-- Eight bytes among those that peers have answered. -/
def knownWord (known : List Host.Cell) (a : Nat) : Option Nat :=
  let l := (List.range 8).filterMap fun i => (known.find? fun c => decide (c.1 = a + i)).map Prod.snd
  if l.length = 8 then some (natOfBytes l) else none

/-- What a walker finds where a table entry lies: its value, no memory that answers, or a peer that is to be asked. -/
inductive EntryAt where
  | value (e : Nat)
  | nothing
  | ask
  deriving DecidableEq, Repr

/-- The table entry at a device-physical address: that of a peer is read on an owned, enabled port (R355, R379). -/
def State.entryAt (mem : Memory) (s : State) (w : Walker) (a : Nat) : EntryAt :=
  match homeOf a with
  | .peer p =>
    if (s.peerPort w.part p false).isNone then .nothing
    else match knownWord w.known a with | some e => .value e | none => .ask
  | .none => .nothing
  | _ => if s.mapped a then .value (mem.load a 8) else .nothing

/-- How a walk of one stage ends without a leaf: at a level, or at an entry that a peer is to be asked for. -/
inductive WalkStop where
  | level (n : Nat)
  | ask (dpa : Nat)
  deriving DecidableEq, Repr

/-- The node that the die's cache of non-leaf entries gives for an address at a level, if it has one (R358); stage 2 is kept
under process 0. -/
def State.nodeKept (s : State) (w : Walker) (stage2 : Bool) (level a : Nat) : Option Nat :=
  (s.nodes.find? fun e => decide (e.die = w.die ∧ e.part = w.part ∧ e.proc = (if stage2 then 0 else w.proc) ∧
    e.stage2 = stage2 ∧ e.level = level ∧ e.tag = a / 2 ^ levelShift level)).map NodeEntry.next

/-- A stage-2 walk of `a` from a node on, `fuel` levels (R355). -/
def walkStage2 (mem : Memory) (s : State) (w : Walker) (a : Nat) : Nat → Nat → Nat → Except WalkStop Leaf
  | 0, level, _ => .error (.level level)
  | fuel + 1, level, node =>
    match s.nodeKept w true level a with
    | some n => walkStage2 mem s w a fuel (level + 1) n
    | none =>
      let at_ := node + 8 * bitsAt a (levelShift level) 11
      match s.entryAt mem w at_ with
      | .nothing => .error (.level level)
      | .ask => .error (.ask at_)
      | .value e =>
        match readEntry true level (levelShift level) e with
        | .fault => .error (.level level)
        | .leaf l => .ok l
        | .node n => walkStage2 mem s w a fuel (level + 1) n

/-- Stage 2 of a partition-physical address: its device-physical address and leaf (R353, R355). -/
def stage2 (mem : Memory) (s : State) (w : Walker) (a : Nat) : Except XlateFail (Nat × Leaf) :=
  let root := (s.part w.part).root
  let fail (level : Nat) : XlateFail := { cause := .xlate, stage := 2, level := level, perm := false, ppa := a }
  if root.getLsbD 0 = false ∨ 2 ^ 49 ≤ a then .error (fail 0)
  else
    match walkStage2 mem s w a 3 0 (bitsAt root.toNat 14 38 * 2 ^ 14) with
    | .error (.level level) => .error (fail level)
    | .error (.ask d) => .error (.waits d)
    | .ok l =>
      let dpa := l.base + a % l.size
      if s.mapped dpa then .ok (dpa, l) else .error (fail l.level)

/-- A failed walk of stage 1 at a level. -/
def XlateFail.first (level : Nat) : XlateFail := { cause := .xlate, stage := 1, level := level, perm := false, ppa := 0 }

/-- A stage-1 walk from a node on; each node address goes through stage 2 before the node is read (R355) (DEDUCED, log 31). -/
def walkStage1 (mem : Memory) (s : State) (w : Walker) (a : Nat) : Nat → Nat → Nat → Except XlateFail Leaf
  | 0, level, _ => .error (.first level)
  | fuel + 1, level, node =>
    match s.nodeKept w false level a with
    | some n => walkStage1 mem s w a fuel (level + 1) n
    | none =>
      match stage2 mem s w (node + 8 * bitsAt a (levelShift level) 11) with
      | .error f => .error f
      | .ok (at_, _) =>
        match s.entryAt mem w at_ with
        | .nothing => .error (.first level)
        | .ask => .error (.waits at_)
        | .value e =>
          match readEntry false level (levelShift level) e with
          | .fault => .error (.first level)
          | .leaf l => .ok l
          | .node n => walkStage1 mem s w a fuel (level + 1) n

/-- Both stages of a virtual address below 2^49 (R353). -/
def walkBoth (mem : Memory) (s : State) (home : TlbHome) (part pr va : Nat) (known : List Host.Cell := []) : Except XlateFail TlbEntry :=
  let w : Walker := ⟨dieOf home, part, pr, known⟩
  let root1 := (s.proc part pr).root
  if root1.getLsbD 0 = false then .error (.first 0)
  else
    match walkStage1 mem s w va 3 0 (bitsAt root1.toNat 14 38 * 2 ^ 14) with
    | .error f => .error f
    | .ok l1 =>
      let ppa := l1.base + va % l1.size
      if 2 ^ 49 ≤ ppa then .error (.first l1.level)
      else
        match stage2 mem s w ppa with
        | .error f => .error f
        | .ok (dpa, l2) =>
          let size := min l1.size l2.size
          .ok { home := home, part := part, proc := pr, base := va - va % size, size := size, ppa := ppa - va % size,
                dpa := dpa - va % size, level1 := l1.level, level2 := l2.level, perm1 := l1.perm, perm2 := l2.perm }

/-- The value of a table entry that a walk has read. -/
def State.entryRead (mem : Memory) (s : State) (w : Walker) (a : Nat) : Nat := match s.entryAt mem w a with | .value e => e | _ => 0

/-- The non-leaf entries that a stage-2 walk reads, from a node on. -/
def nodesStage2 (mem : Memory) (s : State) (w : Walker) (a : Nat) : Nat → Nat → Nat → List NodeEntry
  | 0, _, _ => []
  | fuel + 1, level, node =>
    match s.nodeKept w true level a with
    | some n => nodesStage2 mem s w a fuel (level + 1) n
    | none =>
      match readEntry true level (levelShift level) (s.entryRead mem w (node + 8 * bitsAt a (levelShift level) 11)) with
      | .node n => ⟨w.die, w.part, 0, true, level, a / 2 ^ levelShift level, n⟩ :: nodesStage2 mem s w a fuel (level + 1) n
      | _ => []

/-- The non-leaf entries that stage 2 of a partition-physical address reads. -/
def nodesFrom (mem : Memory) (s : State) (w : Walker) (a : Nat) : List NodeEntry :=
  nodesStage2 mem s w a 3 0 (bitsAt (s.part w.part).root.toNat 14 38 * 2 ^ 14)

/-- The non-leaf entries of both stages that a stage-1 walk reads, from a node on. -/
def nodesStage1 (mem : Memory) (s : State) (w : Walker) (a : Nat) : Nat → Nat → Nat → List NodeEntry
  | 0, _, _ => []
  | fuel + 1, level, node =>
    match s.nodeKept w false level a with
    | some n => nodesStage1 mem s w a fuel (level + 1) n
    | none =>
      let ppa := node + 8 * bitsAt a (levelShift level) 11
      match stage2 mem s w ppa with
      | .error _ => []
      | .ok (at_, _) =>
        nodesFrom mem s w ppa ++
        match readEntry false level (levelShift level) (s.entryRead mem w at_) with
        | .node n => ⟨w.die, w.part, w.proc, false, level, a / 2 ^ levelShift level, n⟩ :: nodesStage1 mem s w a fuel (level + 1) n
        | .leaf l => nodesFrom mem s w (l.base + a % l.size)
        | .fault => []

/-- A TLB entry that covers an address (R358). -/
def TlbEntry.covers (e : TlbEntry) (part pr va : Nat) : Bool :=
  decide (e.part = part ∧ e.proc = pr ∧ e.base ≤ va ∧ va < e.base + e.size)

/-- True of a TLB that serves an agent: its own core's, and the shared one of its die (R358). -/
def tlbServes (h agent : TlbHome) : Bool := decide (h = agent ∨ h = .die (dieOf agent))

/-- A kept translation if there is one, otherwise a walk (R358). What a kept one gives in a "none" row of R244, or in a channel
that is not mapped, is no output of stage 2 either (R355). -/
def findPage (mem : Memory) (s : State) (home : TlbHome) (part pr va : Nat) (known : List Host.Cell) : Except XlateFail TlbEntry :=
  match s.tlb.find? (fun e => tlbServes e.home home && e.covers part pr va) with
  | some e =>
    if s.mapped (e.dpa + (va - e.base)) then .ok e
    else .error { cause := .xlate, stage := 2, level := e.level2, perm := false, ppa := e.ppa + (va - e.base) }
  | none => walkBoth mem s home part pr va known

/-! ### Permissions (R356) -/

/-- Accesses by what they need (R356) and how the translation record codes them (R357). -/
inductive Access where
  | load | store | atomic | atomicRead | fetch | image
  deriving DecidableEq, Repr

def Access.code : Access → Nat
  | .load => 0 | .store => 1 | .atomic => 2 | .atomicRead => 2 | .fetch => 3 | .image => 4

/-- Whether permissions cover an access (R356). -/
def Access.allowed (a : Access) (perm : BitVec 4) : Bool :=
  match a with
  | .load | .atomicRead | .image => perm.getLsbD 0
  | .store => perm.getLsbD 1
  | .atomic => perm.getLsbD 0 && perm.getLsbD 1
  | .fetch => perm.getLsbD 2

/-- The rule on S at stage 1 (R356). -/
def Access.sAllowed (a : Access) (supervisor : Bool) (perm : BitVec 4) : Bool :=
  match a with
  | .fetch => perm.getLsbD 3 == supervisor
  | _ => supervisor || !perm.getLsbD 3

/-- The translation of a virtual address below 2^49 for an access: the device-physical address, or the first failure of
R108 steps 4 and 5. -/
def translate (mem : Memory) (s : State) (home : TlbHome) (part pr : Nat) (supervisor : Bool) (acc : Access) (va : Nat)
    (known : List Host.Cell) : Except XlateFail Nat :=
  match findPage mem s home part pr va known with
  | .error f => .error f
  | .ok e =>
    let off := va - e.base
    if !(acc.allowed e.perm1 && acc.sAllowed supervisor e.perm1) then
      .error { cause := .protect, stage := 1, level := e.level1, perm := true, ppa := 0 }
    else if !acc.allowed e.perm2 then
      .error { cause := .protect, stage := 2, level := e.level2, perm := true, ppa := e.ppa + off }
    else .ok (e.dpa + off)

/-- The two words of the translation record (R357). -/
def XlateFail.record (f : XlateFail) (acc : Access) : Word × Word :=
  (BitVec.ofNat 64 (f.stage + 4 * f.level + 16 * acc.code + (if f.perm then 128 else 0)),
   BitVec.ofNat 64 (if f.stage = 2 then f.ppa else 0))

/-! ### Where an access goes -/

/-- The local-store window and the context save area window (R246, R360). -/
def localBase : Nat := 0x1FFFFFFF80000
def csaBase : Nat := 0x1FFFFFFF60000

/-- A fault of R108 before the data are read: the trap and, for XLATE and PROTECT, the translation record. `ask` is no fault: a peer
is to be asked for the table entry at that address. -/
structure AccessFault where
  cause : TrapCause
  record : Option (Word × Word)
  ask : Option Nat := none
  deriving DecidableEq, Repr

/-- The failures of R108 step 2 and of the window check: STAGE 0 (R357). -/
def plainBounds (acc : Access) : AccessFault := { cause := .bounds, record := some (BitVec.ofNat 64 (16 * acc.code), 0) }
def plainXlate (acc : Access) : AccessFault := { cause := .xlate, record := some (BitVec.ofNat 64 (16 * acc.code), 0) }

/-- Who accesses: through the TLBs of a core or a die, a partition's process, in a mode, with a declared local-store size;
engines have no CSA (R358, R360). `bulk` marks COPY and COLL, whose bursts mode-1 ports carry too (R378); `known` is what peers have
answered to the access so far (R380). -/
structure Actor where
  home : TlbHome
  part : Nat
  proc : Nat
  supervisor : Bool
  lstore : Nat
  bulk : Bool
  known : List Host.Cell := []
  deriving DecidableEq, Repr

/-- R108 steps 2 to 5 for `n` bytes within one page; step 1, the alignment, is the caller's (DEDUCED, log 30). -/
def place (mem : Memory) (s : State) (w : Actor) (acc : Access) (ea : Word) (n : Nat) : Except AccessFault Place :=
  let a := ea.toNat
  if 2 ^ 49 ≤ a then .error (plainXlate acc)
  else if localBase ≤ a then
    if acc = .fetch then .error (plainXlate acc)
    else if a - localBase + n ≤ w.lstore then .ok (.localStore (a - localBase)) else .error (plainBounds acc)
  else if csaBase ≤ a then
    if w.supervisor && decide (acc ≠ .fetch) then .ok (.csa (a - csaBase)) else .error (plainXlate acc)
  else
    match translate mem s w.home w.part w.proc w.supervisor acc a w.known with
    | .ok d => if s.unreachable w.part d w.bulk then .error (plainXlate acc) else .ok (.device d)
    | .error f => .error { cause := f.cause, record := some (f.record acc), ask := f.ask }

end Sys2Proof.Machine
end

