-- ==== Sys2Proof/Machine/Access.lean ====
section
/-! DEFINITION. Loads, stores and atomic accesses of a thread: its own view of memory, its issued stores, the watermark
stall, uncorrectable errors and accesses to peers (R56, R100, R108, R236, R248, R253, R259, R379, R380, R390). -/
namespace Sys2Proof.Machine

/-- How an instruction stops short of completing: it traps, or its thread parks. `s` holds the effects that stay. -/
inductive Stop where
  | trap (s : State) (cause : TrapCause) (tval telem : Word) (record : Option (Word × Word))
  | park (s : State) (w : Wait)

/-- The outcome of the body of an instruction. -/
abbrev Run (α : Type) := Except Stop α

/-- A trap that leaves no effect. -/
def raise {α : Type} (s : State) (c : TrapCause) (tval : Word) (telem : Nat := 0) : Run α :=
  .error (.trap s c tval (BitVec.ofNat 64 telem) none)

/-- Go on only when the condition holds, trapping otherwise. -/
def need (s : State) (b : Bool) (c : TrapCause) (tval : Word) (telem : Nat := 0) : Run Unit :=
  if b then .ok () else raise s c tval telem

/-! ### The thread that has the turn -/

def State.mapThr (s : State) (f : Thread → Thread) : State := { s with thr := f s.thr }

/-- The bytes that peers have answered to reads of the instruction at the PC. -/
def Thread.known (t : Thread) : List Host.Cell :=
  (t.peerData.filter fun a => decide (a.pc = t.pc ∧ a.supervisor = t.supervisor ∧ a.slot = 0)).flatMap fun a => cellsAt a.dpa (a.data.getD [])

/-- Who accesses when a thread does (R356). -/
def Thread.actor (t : Thread) : Actor :=
  { home := .core t.core, part := t.key.part, proc := t.key.proc, supervisor := t.supervisor, lstore := t.hdr.lstore, bulk := false,
    known := t.known }

/-- Memory as a thread sees it: its own issued stores over what has been performed (R109, R155, R259). -/
def Thread.view (t : Thread) (mem : Memory) : Memory := t.sq.foldl (fun m p => m.putCells p.cells) mem

/-- R108 steps 2 to 5 for an access of the thread that has the turn. -/
def State.place (s : State) (acc : Access) (ea : Word) (n : Nat) : Except AccessFault Place :=
  Machine.place (s.thr.view s.mem) s s.thr.actor acc ea n

/-! ### Watermarks (R56, R253, R255) -/

/-- True when some byte of `[a, a + n)` lies in a FILLING range above its watermark, for a thread of the range's process
on the channel's core (R253). -/
def State.stalled (s : State) (t : Thread) (a n : Nat) : Bool :=
  (s.core t.core).channels.any fun (_, c) =>
    decide (c.state = .filling ∧ c.part = t.key.part ∧ c.proc = t.key.proc ∧ c.base + c.mark < a + n ∧ a < c.base + c.len ∧
      c.mark < c.len)

/-- True of an address of the local-store or CSA window, which no watermark stalls (R248). -/
def inWindow (a : Nat) : Bool := decide (csaBase ≤ a ∧ a < 2 ^ 49)

/-- Park while a byte of the ranges is stalled (R255). -/
def State.passWatermark (s : State) (rs : List Range) : Run Unit :=
  if rs.any (fun r => !inWindow r.base && s.stalled s.thr r.base r.len) then .error (.park s (.watermark rs)) else .ok ()

/-! ### Uncorrectable errors (R108, R388, R390) -/

/-- The granules that `n` bytes from `a` touch. -/
def granules (a n : Nat) : List Nat := if n = 0 then [] else (List.range ((a + n - 1) / 8 - a / 8 + 1)).map fun i => (a / 8 + i) * 8

/-- True when the thread's own issued stores cover a whole granule. -/
def Thread.covers (t : Thread) (g : Nat) : Bool :=
  (List.range 8).all fun i => t.sq.any fun p => p.cells.any fun c => decide (c.1 = g + i)

/-- True of a granule of the thread's local store that holds an uncorrectable error. -/
def Thread.badLocal (t : Thread) (bad : List (ThreadKey × Nat × Nat × Nat)) (g : Nat) : Bool :=
  bad.any fun e => decide (e.1 = t.key ∧ e.2.1 = 3 ∧ e.2.2.1 = g)

/-- True of a granule of the thread's context save area that holds an uncorrectable error. -/
def State.badSaved (s : State) (t : Thread) (g : Nat) : Bool := s.badCsa.any fun e => decide (e.1 = t.key ∧ e.2 = g)

/-- True when data at a place cannot be read (R390). -/
def State.badData (s : State) (t : Thread) (pl : Place) (n : Nat) : Bool :=
  match pl with
  | .device d => !s.badMem.isEmpty && (granules d n).any fun g => (Assoc.get? s.badMem g).isSome && !t.covers g
  | .localStore o => (granules o n).any (t.badLocal s.badReg)
  | .csa o => (granules o n).any (s.badSaved t)

/-- True when a store writes only part of a granule whose kept bytes cannot be read (R108). -/
def State.badStore (s : State) (t : Thread) (pl : Place) (n : Nat) : Bool :=
  match pl with
  | .device d =>
    !s.badMem.isEmpty && (granules d n).any fun g =>
      (Assoc.get? s.badMem g).isSome && !t.covers g && !decide (d ≤ g ∧ g + 8 ≤ d + n)
  | .localStore o =>
    (granules o n).any fun g => t.badLocal s.badReg g && !decide (o ≤ g ∧ g + 8 ≤ o + n)
  | .csa o => (granules o n).any fun g => s.badSaved t g && !decide (o ≤ g ∧ g + 8 ≤ o + n)

/-! ### Reading -/

/-- The device-physical address of a place, or its offset in its window. -/
def Place.offset : Place → Nat
  | .device d | .localStore d | .csa d => d

/-- The die whose memory or SRAM holds a granule (R244). -/
def granuleDie (g : Nat) : Nat := match homeOf g with | .lpddr d => d | .sram d => d | _ => 0

/-- True of a place that a peer holds (R244). -/
def Place.remote : Place → Bool
  | .device d => match homeOf d with | .peer _ => true | _ => false
  | _ => false

/-- The bits that a byte of the CSA holds, for a thread of a VLEN; the others read 0 and ignore writes. The slot of x0, unused
bytes and the device state hold none (R362); the word of IN_HANDLER holds two bits; the breakpoint registers and the
translation record hold their fields (R7, R357, R373); predicates and vector registers take as many bytes as VLEN gives them. -/
def csaMask (vlen o : Nat) : Byte :=
  if o < 8 then 0
  else if o = 0x118 then 3
  else if 0x119 ≤ o ∧ o < 0x120 then 0
  else if 0x220 ≤ o ∧ o < 0x260 then (match o % 8 with | 0 => 0xFD | 6 => 1 | 7 => 0 | _ => 0xFF)
  else if 0x269 ≤ o ∧ o < 0x270 then 0
  else if (0x278 ≤ o ∧ o < 0x280) ∨ (0x2B0 ≤ o ∧ o < 0x300) ∨ (0x1C00 ≤ o ∧ o < 0x2000) then 0
  else if 0x400 ≤ o ∧ o < 0x1C00 then (if o % 256 < vlen / 64 then 0xFF else 0)
  else if 0x2000 ≤ o ∧ o < 0x12000 then (if o % 2048 < vlen / 8 then 0xFF else 0)
  else if 0x1A000 ≤ o ∧ o < 0x1C000 then 0
  else 0xFF

/-- Bytes of the CSA as the handler sees them. -/
def Thread.csaBytes (t : Thread) (o n : Nat) : List Byte :=
  (List.range n).map fun i => t.csa.byte (o + i) &&& csaMask t.vlen (o + i)

/-- Bytes at a place that is not remote. -/
def State.bytesAt (s : State) (pl : Place) (n : Nat) : List Byte :=
  match pl with
  | .device d => (s.thr.view s.mem).bytes d n
  | .localStore o => s.thr.localStore.bytes o n
  | .csa o => s.thr.csaBytes o n

/-- True of what a COPY or a COLL sends, by the kind in its token (R183, R378). -/
def Requester.bulk : Requester → Bool
  | .tether tok _ => decide (3 ≤ tok.toNat / 2 ^ 32 % 8)
  | _ => false

/-- Send a request to a peer on an owned, enabled port of its mask, if there is one; without one no answer can come (R379,
R380). `core` is the core that sends it; a dispatcher and the control complex have none (R368). -/
def State.sendPeer (s : State) (who : Requester) (core : Option CoreId) (part dpa len : Nat) (write : Bool) (data : List Byte)
    (va : Word) (near : List (Nat × Nat) := []) : State :=
  let port := match homeOf dpa with | .peer p => s.peerPort part p who.bulk | _ => none
  { s with requests := s.requests ++ [{ id := s.clock, who := who, part := part, inc := (s.part part).inc, port := port,
                                        write := write, dpa := dpa, len := len, data := data, va := va, core := core,
                                        near := near }],
           clock := s.clock + 1 }

/-- What a peer has answered to the instruction at the PC, for `n` bytes of one of its requests. -/
def Thread.answer? (t : Thread) (slot dpa n : Nat) : Option PeerAnswer :=
  t.peerData.find? fun a =>
    decide (a.pc = t.pc ∧ a.supervisor = t.supervisor ∧ a.slot = slot ∧ a.dpa ≤ dpa ∧ dpa + n ≤ a.dpa + a.len)

/-- What a peer answers to a request of the instruction at the PC: its bytes, DATA_ERR when it rejects, and otherwise a park until
the answer (R380). A request that is still open is not sent again (DEDUCED, log 63). Slot 0 is a read; what changes memory has a
slot above. -/
def State.askPeer (s : State) (slot dpa n : Nat) (write : Bool) (data : List Byte) (ea : Word) (telem : Nat)
    (near : List (Nat × Nat) := []) : Run (List Byte) :=
  match s.thr.answer? slot dpa n with
  | some a =>
    (match a.data with
    | some bs => .ok ((bs.drop (dpa - a.dpa)).take n)
    | none => raise s .dataErr ea telem)
  | none =>
    let who := Requester.thread s.thr.key s.thr.pc s.thr.supervisor slot
    match s.requests.find? (fun r => decide (r.who = who ∧ r.dpa = dpa)) with
    | some r => .error (.park s (.peer r.id))
    | none => .error (.park (s.sendPeer who (some s.thr.core) s.thr.key.part dpa n write data ea near) (.peer s.clock))

/-! ### Instructions performed in parts (R148, R171, R261, R268) -/

/-- The places that the instruction at the PC found as it began to perform. -/
def Thread.begun? (t : Thread) : Option (Assoc Nat Place) := t.begun.map Begun.places

/-- The instruction of a word, at the PC, begins to perform at these places: it goes on to its end from there, and nothing is
taken before it (R235; DEDUCED, log 16). -/
def Thread.begin (t : Thread) (w : BitVec 32) (places : Assoc Nat Place) : Thread := { t with begun := some ⟨w, places⟩ }

/-- Between two parts of an instruction: it stops short there when a break has been asked for, and goes on otherwise (DESIGN CHOICE,
log 4). -/
def State.breakHere (s : State) : Run State :=
  match s.breaks with
  | [] => .ok s
  | 0 :: r => .error (.park { s with breaks := r } .again)
  | (n + 1) :: r => .ok { s with breaks := n :: r }

/-! ### Order among the stores of a thread (R259) -/

/-- Compatible alias classes (R256). -/
def compatible (a b : BitVec 2) : Bool := decide (a = b ∨ a = 0 ∨ b = 0)

/-- An edge from an earlier store to a later one of the same thread: of one kind and compatible classes, to some of the same
bytes in compatible classes, or through a read between them (R259). Elements of one instruction have none (R155). -/
def PendStore.before (a b : PendStore) : Bool :=
  (decide (a.seq ≠ b.seq ∧ a.vector = b.vector) && compatible a.cls b.cls) ||
  (compatible a.cls b.cls && a.cells.any fun c => b.cells.any fun d => decide (c.1 = d.1)) ||
  b.after.contains (a.seq, a.unit)

/-- What names a store among those of its thread: its place in the count and its number among the units of its instruction. -/
def PendStore.name (p : PendStore) : Nat × Nat := (p.seq, p.unit)

/-- True of a store that a read has taken in. -/
def PendStore.read (p : PendStore) : Bool := !p.reads.isEmpty

/-- True of ranges that share a byte. -/
def Range.meets (a b : Range) : Bool := decide (a.base < b.base + b.len ∧ b.base < a.base + a.len)

/-- True of an address in one of some ranges. -/
def inRanges (rs : List Range) (a : Nat) : Bool := rs.any fun r => decide (r.base ≤ a ∧ a < r.base + r.len)

/-- True of a store with bytes in the ranges. -/
def PendStore.meets (p : PendStore) (rs : List Range) : Bool := p.cells.any fun c => inRanges rs c.1

/-- True when two stores share a byte of the ranges. -/
def PendStore.shares (p q : PendStore) (rs : List Range) : Bool :=
  p.cells.any fun c => inRanges rs c.1 && q.cells.any fun d => decide (c.1 = d.1)

/-- True of a store that holds every byte of the ranges. -/
def PendStore.holds (p : PendStore) (rs : List Range) : Bool :=
  rs.all fun r => (List.range r.len).all fun i => p.cells.any fun c => decide (c.1 = r.base + i)

/-- True of a store that an earlier read of the thread took in, when a read of the ranges in an alias class follows that one: they
share bytes in compatible classes (R259). -/
def PendStore.readBefore (cls : BitVec 2) (rs : List Range) (p : PendStore) : Bool :=
  p.reads.any fun r => compatible r.1 cls && rs.any fun a => r.2.any a.meets

/-- True of a store whose bytes a read of the ranges in an alias class cannot miss: one of a compatible class (R155), and one that
comes before the read through an earlier read (R261). -/
def PendStore.visible (cls : BitVec 2) (rs : List Range) (p : PendStore) : Bool := compatible p.cls cls || p.readBefore cls rs

/-- The thread's own stores that a read of the ranges in an alias class waits for, since it is one read of one instant: none where
the youngest of those it sees holds all its bytes, and otherwise each of them. It sees those that it cannot miss, and with
`all` the others too (R257 to R261, R267). -/
def Thread.joined (t : Thread) (cls : BitVec 2) (all : Bool) (rs : List Range) (p : PendStore) : Bool :=
  let sees (q : PendStore) : Bool := (all || q.visible cls rs) && q.meets rs
  sees p && match (t.sq.filter sees).getLast? with | some q => !q.holds rs | none => false

/-- The issued stores after a read of the ranges in an alias class; `all` when it saw those that it could miss too. A store that the
read follows keeps it, so that what follows the read follows the store; and a store that the read saw follows every
earlier one to the same bytes that it could not miss (R259, R261). `seen` are those met so far. -/
def noteReads (cls : BitVec 2) (all : Bool) (rs : List Range) : List PendStore → List PendStore → List PendStore
  | _, [] => []
  | seen, p :: ps =>
    let kept := if (p.readBefore cls rs || (compatible p.cls cls && p.meets rs)) && !p.reads.contains (cls, rs)
      then (cls, rs) :: p.reads else p.reads
    if !p.meets rs then { p with reads := kept } :: noteReads cls all rs seen ps
    else
      let c := p.visible cls rs
      let front := (seen.filter fun q => decide (q.seq ≠ p.seq) && q.shares p rs).map PendStore.name
      { p with reads := kept, after := if c || all then p.after ++ front else p.after } ::
        noteReads cls all rs (if c then seen ++ [p] else seen) ps

/-- The thread after such a read. -/
def Thread.noteRead (t : Thread) (cls : BitVec 2) (all : Bool) (rs : List Range) : Thread :=
  { t with sq := noteReads cls all rs [] t.sq }

/-! ### Performing stores (R258, R259) -/

/-- The uncorrectable granules that cells leave: those they overwrite whole are cleared (R108) (DEDUCED, log 55). -/
def clearBad (bad : Assoc Nat Nat) (cells : List Host.Cell) : Assoc Nat Nat :=
  bad.filter fun (g, _) => !((List.range 8).all fun i => cells.any fun c => decide (c.1 = g + i))

/-- What the homes hold of granules that are about to be written: what was there before the first write since their last
write-back (R390). -/
def keepHomes (mem : Memory) : Assoc Nat (List Byte) → List Host.Cell → Assoc Nat (List Byte)
  | h, [] => h
  | h, c :: cs =>
    let g := c.1 / 8 * 8
    keepHomes mem (if (Assoc.get? h g).isSome then h else (g, mem.bytes g 8) :: h) cs

/-- Write cells to device memory (R258). -/
def State.perform (s : State) (cells : List Host.Cell) : State :=
  { s with mem := s.mem.putCells cells, homes := keepHomes s.mem s.homes cells,
           badMem := if s.badMem.isEmpty then [] else clearBad s.badMem cells }

/-- Cells split into those a peer holds and the others. -/
def remoteCells (cells : List Host.Cell) : List Host.Cell × List Host.Cell :=
  cells.partition fun c => (Place.device c.1).remote

/-- Cells cut into runs of neighbouring addresses: the first address and the bytes. -/
def cellRuns : List Host.Cell → List (Nat × List Byte)
  | [] => []
  | c :: cs =>
    match cellRuns cs with
    | (a, bs) :: r => if a = c.1 + 1 then (c.1, c.2 :: bs) :: r else (c.1, [c.2]) :: (a, bs) :: r
    | [] => [(c.1, [c.2])]

/-- Send runs of bytes of a store to their peer, one request for each (R257, R380). -/
def State.sendRuns (s : State) (t : Thread) (seq : Nat) : List (Nat × List Byte) → State
  | [] => s
  | (a, bs) :: r => State.sendRuns (s.sendPeer (.store t.key seq) (some t.core) t.key.part a bs.length true bs (BitVec.ofNat 64 a)) t seq r

/-- Perform those of a thread's issued stores that are asked for, in order: each waits for the unperformed ones that come
before it, and one that a peer holds in part is sent there and stays until that is answered, its other bytes with it (R155, R259,
R380). `kept` are those left so far. -/
def State.drainMarked (s : State) (t : Thread) : List PendStore → List (PendStore × Bool) → State × List PendStore
  | kept, [] => (s, kept)
  | kept, (p, wanted) :: ps =>
    if !wanted || kept.any (fun q => q.before p) then s.drainMarked t (kept ++ [p]) ps
    else
      let far := (remoteCells p.cells).1
      if far.isEmpty then (s.perform p.cells).drainMarked t kept ps
      else if p.sent then s.drainMarked t (kept ++ [p]) ps
      else (s.sendRuns t p.seq (cellRuns far)).drainMarked t (kept ++ [{ p with sent := true }]) ps

/-- Perform every issued store of a thread, as far as its peers answer. -/
def State.drainList (s : State) (t : Thread) (l : List PendStore) : State × List PendStore :=
  s.drainMarked t [] (l.map fun p => (p, true))

/-- The stores that satisfy `f`, and those that come before one of them (R259). -/
def neededStores (f : PendStore → Bool) : List PendStore → List (PendStore × Bool)
  | [] => []
  | p :: ps =>
    let r := neededStores f ps
    (p, f p || r.any fun e => e.2 && p.before e.1) :: r

/-- Perform the stores of the running thread that satisfy `f` with all that come before them; park while a peer has not
answered. -/
def State.drainWhere (s : State) (f : PendStore → Bool) : Run State :=
  if !s.thr.sq.any f then .ok s
  else
    let (s1, rest) := s.drainMarked s.thr [] (neededStores f s.thr.sq)
    let s2 := s1.mapThr fun t => { t with sq := rest }
    if rest.any f then .error (.park s2 .drain) else .ok s2

/-- Perform every store of the thread that has the turn; park while a peer has not answered (DEDUCED, log 32). -/
def State.drain (s : State) : Run State := s.drainWhere fun _ => true

/-- Read `n` bytes at a place: DATA_ERR for an uncorrectable error (R108 step 6), and for a peer its answer (R380), which is
asked for once the thread's own earlier stores of those bytes, in a compatible class, have been performed (R109, R155). -/
def State.readAt (s : State) (cls : BitVec 2) (pl : Place) (n : Nat) (ea : Word) (telem : Nat) : Run (List Byte) :=
  match pl with
  | .device d =>
    if pl.remote then do
      let s1 ← s.drainWhere fun p => p.visible cls [⟨d, n⟩] && p.meets [⟨d, n⟩]
      s1.askPeer 0 d n false [] ea telem
    else if s.badData s.thr pl n then raise s .dataErr ea telem
    else .ok (s.bytesAt pl n)
  | _ => if s.badData s.thr pl n then raise s .dataErr ea telem else .ok (s.bytesAt pl n)

/-- A failed access traps with its translation record (R357). One whose walk needs a table entry of a peer asks for it, after the
thread's earlier stores there (R359, R379, R380). -/
def raiseAccess {α : Type} (s : State) (f : AccessFault) (tval : Word) (telem : Nat := 0) : Run α :=
  match f.ask with
  | none => .error (.trap s f.cause tval (BitVec.ofNat 64 telem) f.record)
  | some d => do
    let s1 ← s.drainWhere fun p => p.meets [⟨d, 8⟩]
    let _ ← s1.askPeer 0 d 8 false [] tval telem
    raise s1 .dataErr tval telem

/-- One aligned read of the thread: R108 in order, the watermark stall, then the data (DESIGN CHOICE, log 7). -/
def State.read (s : State) (cls : BitVec 2) (acc : Access) (ea : Word) (n : Nat) (telem : Nat := 0) : Run (List Byte) :=
  if ea.toNat % n ≠ 0 then raise s .align ea telem
  else
    match s.place acc ea n with
    | .error f => raiseAccess s f ea telem
    | .ok pl => do
      s.passWatermark [⟨ea.toNat, n⟩]
      s.readAt cls pl n ea telem

/-! ### Loads beside stores of another alias class (R155, R256, R259) -/

/-- The state without the running thread's issued stores that a read of some ranges in a class may miss (DESIGN CHOICE, log 26). -/
def State.seeing (s : State) (cls : BitVec 2) (rs : List Range) : State :=
  s.mapThr fun t => { t with sq := t.sq.filter (PendStore.visible cls rs) }

/-- True when a read of some ranges in a class meets bytes of the thread's own issued stores that it may miss, in memory of the
device that holds no error. -/
def State.split (s : State) (cls : BitVec 2) (rs : List Range) : Bool :=
  (s.thr.sq.any fun p => !p.visible cls rs && p.meets rs) &&
    rs.all fun r => !(Place.device r.base).remote && !(granules r.base r.len).any fun g => (Assoc.get? s.badMem g).isSome

/-- True when a read sees the stores that it may miss, a free choice numbered `k` (R155, R265). -/
def State.seesAll (s : State) (cls : BitVec 2) (k : Nat) (rs : List Range) : Bool :=
  !(s.split cls rs && decide (Config.pick (s.freeCtr + k) % 2 = 1))

/-- What a read of some ranges in a class sees: every store of the thread, or those alone that it cannot miss. -/
def State.sight (s : State) (cls : BitVec 2) (all : Bool) (rs : List Range) : State := if all then s else s.seeing cls rs

/-- The state with the free choices of a load used up, if it made any; no load makes more. -/
def State.spend (s : State) (used : Bool) : State := if used then { s with freeCtr := s.freeCtr + 65536 } else s

/-- The bytes of the device at a place, as a range. -/
def Place.range (pl : Place) (n : Nat) : List Range := match pl with | .device d => [⟨d, n⟩] | _ => []

/-- One aligned load of the thread, of an alias class. Where it needs bytes of more than one of the thread's stores, or of one and
of memory, those stores are performed first, and the load reads what is there then (R257, R261). -/
def State.readClass (s : State) (cls : BitVec 2) (ea : Word) (n : Nat) : Run (List Byte × State) := do
  let bs ← s.read cls .load ea n
  match s.place .load ea n with
  | .error _ => .ok (bs, s)
  | .ok pl =>
    let rs := pl.range n
    if pl.remote then .ok (bs, s.mapThr fun t => t.noteRead cls false rs)
    else
      let all := s.seesAll cls 0 rs
      let s1 ← s.drainWhere (s.thr.joined cls all rs)
      .ok ((s1.sight cls all rs).bytesAt pl n, (s1.spend (s.split cls rs)).mapThr fun t => t.noteRead cls all rs)

/-! ### Writing -/

/-- The cell that a byte at a place is in device memory, in the local store, and in the CSA of a thread of a VLEN, which keeps
the bits it has there (R362). -/
def deviceCell : Place × Byte → Option Host.Cell
  | (.device d, b) => some (d, b)
  | _ => none
def localCell : Place × Byte → Option Host.Cell
  | (.localStore o, b) => some (o, b)
  | _ => none
def csaCell (vlen : Nat) : Place × Byte → Option Host.Cell
  | (.csa o, b) => if csaMask vlen o = 0 then none else some (o, b &&& csaMask vlen o)
  | _ => none

/-- A list of issued stores with one more, the `n`th of its thread, for each of some units that has cells in the device. They
follow the stores that an earlier read of the thread takes in (R259). -/
def addStores (sq : List PendStore) (n : Nat) (cls : BitVec 2) (vector : Bool) (units : List (List Host.Cell)) : List PendStore :=
  let front := (sq.filter PendStore.read).map PendStore.name
  sq ++ ((units.filter fun u => !u.isEmpty).zipIdx.map fun u =>
    { cells := u.1, cls := cls, vector := vector, seq := n, unit := u.2, sent := false, reads := [], after := front })

/-- Errors in a thread's local store, but for those in granules that cells overwrite whole (R108). -/
def clearLocal (bad : List (ThreadKey × Nat × Nat × Nat)) (k : ThreadKey) (cells : List Host.Cell) : List (ThreadKey × Nat × Nat × Nat) :=
  bad.filter fun e => !(decide (e.1 = k ∧ e.2.1 = 3) && (List.range 8).all fun i => cells.any fun c => decide (c.1 = e.2.2.1 + i))

/-- The offset of a byte that a store writes in the CSA. -/
def csaWhole : Place × Byte → Option Nat
  | (.csa o, _) => some o
  | _ => none

/-- Errors in context shadow storage, but for those in granules of a thread that a store overwrites whole (R108). -/
def clearSaved (bad : List (ThreadKey × Nat)) (k : ThreadKey) (offs : List Nat) : List (ThreadKey × Nat) :=
  bad.filter fun e => !(decide (e.1 = k) && (List.range 8).all fun i => offs.contains (e.2 + i))

/-- The stores of one instruction as issued, unit by unit: device bytes join the store list, window bytes are written (R100,
R236, R248). -/
def State.issueUnits (s : State) (units : List (List (Place × Byte))) (cls : BitVec 2) (vector : Bool) : State :=
  let cells := units.flatten
  { s with
    badReg := clearLocal s.badReg s.thr.key (cells.filterMap localCell)
    badCsa := clearSaved s.badCsa s.thr.key (cells.filterMap csaWhole)
    thr := { s.thr with
      stores := s.thr.stores + 1
      localStore := s.thr.localStore.putCells (cells.filterMap localCell)
      csa := s.thr.csa.putCells (cells.filterMap (csaCell s.thr.vlen))
      sq := addStores s.thr.sq (s.thr.stores + 1) cls vector (units.map fun u => u.filterMap deviceCell) } }

/-- One store as issued. -/
def State.issueStore (s : State) (cells : List (Place × Byte)) (cls : BitVec 2) (vector : Bool) : State :=
  s.issueUnits [cells] cls vector

/-- The place of byte `i` of an access whose first byte is at `pl`. -/
def Place.plus (pl : Place) (i : Nat) : Place :=
  match pl with
  | .device d => .device (d + i)
  | .localStore o => .localStore (o + i)
  | .csa o => .csa (o + i)

/-- Bytes with their places. -/
def placeCells (pl : Place) : Nat → List Byte → List (Place × Byte)
  | _, [] => []
  | i, b :: bs => (pl.plus i, b) :: placeCells pl (i + 1) bs

/-- One aligned store of the thread: R108 in order, the watermark stall, then the store is issued. -/
def State.write (s : State) (ea : Word) (bs : List Byte) (cls : BitVec 2) : Run State :=
  let n := bs.length
  if ea.toNat % n ≠ 0 then raise s .align ea
  else
    match s.place .store ea n with
    | .error f => raiseAccess s f ea
    | .ok pl => do
      s.passWatermark [⟨ea.toNat, n⟩]
      need s (!s.badStore s.thr pl n) .dataErr ea
      .ok (s.issueStore (placeCells pl 0 bs) cls false)

/-! ### Reads of many bytes by one instruction (R197) -/

/-- `[ea, ea + n)` cut at 8-byte boundaries, which no page boundary crosses. -/
def pieces : Nat → Word → Nat → List (Word × Nat)
  | 0, _, _ => []
  | fuel + 1, ea, n =>
    if n = 0 then []
    else
      let k := min n (8 - ea.toNat % 8)
      (ea, k) :: pieces fuel (ea + BitVec.ofNat 64 k) (n - k)

/-- The places of the pieces, or the first failure of R108 steps 2 to 5 with its address: the lowest failing address
decides (R197). -/
def placePieces (f : Word → Nat → Except AccessFault Place) : List (Word × Nat) → Except (AccessFault × Word) (List (Place × Nat × Word))
  | [] => .ok []
  | (a, k) :: r =>
    match f a k with
    | .error e => .error (e, a)
    | .ok pl =>
      match placePieces f r with
      | .error e => .error e
      | .ok l => .ok ((pl, k, a) :: l)

/-- Read the pieces one after another: the lowest address that fails a check of R108 decides the trap (R197). -/
def State.readPieces (s : State) (acc : Access) (telem : Nat) : List (Word × Nat) → Run (List Byte)
  | [] => .ok []
  | (a, k) :: r =>
    match s.place acc a k with
    | .error f => raiseAccess s f a telem
    | .ok pl => do
      s.passWatermark [⟨a.toNat, k⟩]
      let bs ← s.readAt 0 pl k a telem
      let rest ← State.readPieces s acc telem r
      .ok (bs ++ rest)

/-- Read `n` bytes with the checks of R108 on every byte; the alignment is the caller's. -/
def State.readSpan (s : State) (acc : Access) (ea : Word) (n : Nat) (telem : Nat := 0) : Run (List Byte) :=
  s.readPieces acc telem (pieces (n + 1) ea n)

end Sys2Proof.Machine
end

