-- ==== Sys2Proof/Machine/Flags.lean ====
section
/-! DEFINITION. The five exception flags and the FCSR (R24, R25). -/
namespace Sys2Proof.Machine

/-- Exception flags in FCSR bits [4:0]: NV, DZ, OF, UF, NX (R24). -/
abbrev Flags := BitVec 5

namespace Flags
def none : Flags := 0
def nv : Flags := 16
def dz : Flags := 8
def of : Flags := 4
def uf : Flags := 2
def nx : Flags := 1
end Flags

/-- The OR of a list of flags (R25). -/
def orFlags (l : List Flags) : Flags := l.foldl (· ||| ·) 0

/-- FCSR with flags ORed in (R25). -/
def fcsrRaise (fcsr : BitVec 8) (f : Flags) : BitVec 8 := fcsr ||| f.zeroExtend 8

/-- FCSR after a write of `w`: a rounding mode of 5 to 7 leaves FRM unchanged (R24). -/
def fcsrWrite (fcsr : BitVec 8) (w : Word) : BitVec 8 :=
  let frm : BitVec 3 := w.extractLsb' 5 3
  (if frm.toNat < 5 then frm else fcsr.extractLsb' 5 3) ++ w.extractLsb' 0 5

/-- FCSR.FRM (R24). -/
def fcsrFrm (fcsr : BitVec 8) : BitVec 3 := fcsr.extractLsb' 5 3

end Sys2Proof.Machine
end

