-- ==== Sys2Proof/Machine/Ops.lean ====
section
/-! DEFINITION. The named operations over the state: registers, threads, event counts, the context save area, taking a
trap and returning from one, halting, and issuing an instruction with the checks of R80. -/
namespace Sys2Proof.Machine

/-! ### Scalar registers (R44, R99) -/

/-- What an x register reads: x0 reads 0. -/
def Thread.xr (t : Thread) (r : Reg) : Word := if r = 0 then 0 else t.x[r.toNat]'(by omega)

/-- The thread with an x register written; a write to x0 is discarded. -/
def Thread.setX (t : Thread) (r : Reg) (w : Word) : Thread :=
  if r = 0 then t else { t with x := t.x.set r.toNat w (by omega) }

def State.xr (s : State) (r : Reg) : Word := s.thr.xr r
def State.setX (s : State) (r : Reg) (w : Word) : State := { s with thr := s.thr.setX r w }

/-! ### Free values and event numbers (logs 4 to 6) -/

/-- The next free 64-bit value. -/
def State.free (s : State) : Word × State := (Config.freeWord s.freeCtr, { s with freeCtr := s.freeCtr + 1 })

/-- A free choice from a list; a single candidate is taken without one. -/
def State.choose {α : Type} (s : State) (l : List α) (d : α) : α × State :=
  match l with
  | [] => (d, s)
  | [a] => (a, s)
  | _ => (l.getD (Config.pick s.freeCtr % l.length) d, { s with freeCtr := s.freeCtr + 1 })

/-! ### Threads by name -/

/-- True of a thread that holds a place on a core (R231). -/
def Thread.resident (t : Thread) : Bool :=
  match t.life with
  | .ready | .parked _ | .blocked => true
  | _ => false

/-- True of a thread that has been spawned and has not ended. -/
def Thread.live (t : Thread) : Bool := decide (t.life ≠ .ended)

/-- Every thread. -/
def State.threads (s : State) : List Thread := s.thr :: s.others

/-- The live thread of a name. -/
def State.thread? (s : State) (k : ThreadKey) : Option Thread := s.threads.find? fun t => t.live && decide (t.key = k)

/-- The state with the live thread of a name changed. -/
def State.mapThread (s : State) (k : ThreadKey) (f : Thread → Thread) : State :=
  if s.thr.live && decide (s.thr.key = k) then { s with thr := f s.thr }
  else { s with others := s.others.map fun t => if t.live && decide (t.key = k) then f t else t }

/-- The state with a thread given the turn, so that operations on the thread that has the turn act on it. -/
def State.giveTurn (s : State) (k : ThreadKey) : State :=
  if s.thr.live && decide (s.thr.key = k) then s
  else
    match s.others.find? (fun t => t.live && decide (t.key = k)) with
    | none => s
    | some t =>
      let rest := s.others.filter fun u => !(u.live && decide (u.key = k))
      { s with thr := t, others := if s.thr.live then s.thr :: rest else rest }

/-! ### Event counts of a thread (R402, R403) -/

/-- Count `k` events of a source; those of a handler count only with SUP. -/
def Thread.count (t : Thread) (source k : Nat) : Thread :=
  let one (sel : BitVec 9) (c : Word) : Word :=
    if sel.toNat % 256 = source ∧ (t.supervisor = false ∨ sel.getLsbD 8 = true) then c + BitVec.ofNat 64 k else c
  { t with evcnt := Vector.zipWith one t.evsel t.evcnt }

/-- Every uncommitted vector instruction commits (R100, R234, R236). -/
def Thread.commitAll (t : Thread) : Thread := { (t.count 3 t.vq.length) with vq := [] }

/-! ### The fault FIFO (R351, R352) -/

/-- W0 of an entry. -/
def fifoW0 (kind die : Nat) (pr : Option Nat) (site : Option Nat) : Word :=
  BitVec.ofNat 64 (kind + die * 2 ^ 8 +
    (match pr with | some p => p * 2 ^ 16 + 2 ^ 31 | none => 0) +
    (match site with | some c => c * 2 ^ 24 + 2 ^ 30 | none => 0))

/-- Append an entry; at 256 entries it waits in device order (R352). -/
def State.report (s : State) (part : Nat) (e : FifoEntry) : State :=
  let p := s.part part
  s.setPart part (if p.fifo.length < 256 && p.fifoWait.isEmpty then { p with fifo := p.fifo ++ [e] }
                  else { p with fifoWait := p.fifoWait ++ [e] })

/-! ### The context save area (R360 to R362) -/

/-- CSA doubleword access by the core. -/
def Thread.csaWord (t : Thread) (o : Nat) : Word := BitVec.ofNat 64 (t.csa.load o 8)
def Thread.setCsa (t : Thread) (o n : Nat) (v : Nat) : Thread := { t with csa := t.csa.put o (bytesOf n v) }

/-- A list of doublewords as bytes. -/
def wordsToBytes : List Word → List Byte
  | [] => []
  | w :: ws => bytesOf 8 w.toNat ++ wordsToBytes ws

/-- x1 to x31 into the CSA at an offset; the slot of x0 is ignored (R362). -/
def Thread.saveX (t : Thread) (o : Nat) : Thread :=
  { t with csa := t.csa.put (o + 8) (wordsToBytes (t.x.toList.drop 1)) }

/-- x1 to x31 from the CSA. -/
def Thread.loadX (t : Thread) (o : Nat) : Thread :=
  { t with x := Vector.ofFn fun i : Fin 32 => if i.val = 0 then 0 else t.csaWord (o + 8 * i.val) }

/-- The fields of TCAUSE and of TVCP; their other bits read 0 (R7, R225). -/
def tcauseFields (w : Word) : Word := w &&& 0xFF
def tvcpFields (w : Word) : Word := w &&& 0x800000000000FFFF

/-- The six trap CSRs into and from the CSA (R362, R365). -/
def Thread.saveTrap (t : Thread) : Thread :=
  { t with csa := t.csa.put 0x280 (wordsToBytes [t.tcause, t.tpc, t.tval, t.telem, t.tvcp, t.tstep]) }
def Thread.loadTrap (t : Thread) : Thread :=
  { t with tcause := tcauseFields (t.csaWord 0x280), tpc := t.csaWord 0x288, tval := t.csaWord 0x290, telem := t.csaWord 0x298,
           tvcp := tvcpFields (t.csaWord 0x2A0), tstep := t.csaWord 0x2A8 }

/-- The two halves of TSHAPE (R54). -/
def tshapeHalf (sh : Vector (BitVec 16) 8) (hi : Bool) : Word :=
  let b := if hi then 4 else 0
  (sh[b + 3]?.getD 0) ++ (sh[b + 2]?.getD 0) ++ (sh[b + 1]?.getD 0) ++ (sh[b]?.getD 0)

/-- The 32 control doublewords at CSA 0x120, in order (R362). -/
def Thread.controlWords (t : Thread) : List Word :=
  [BitVec.ofNat 64 t.vl, BitVec.ofNat 64 t.vlb, t.vtype.zeroExtend 64, tshapeHalf t.tshape false, tshapeHalf t.tshape true,
   t.tdirty.zeroExtend 64, t.ffcause, t.ffaddr] ++ t.ffidx.toList ++ (t.evsel.toList.map fun e => e.zeroExtend 64) ++
   t.evcnt.toList

/-- True of a configured tile whose TDIRTY bit is set (R55). -/
def Thread.dirtyTile (t : Thread) (i : Nat) : Bool := (t.tshape[i]?.getD 0).getLsbD 15 && t.tdirty.getLsbD i

/-- Vector registers into the CSA: 2 KiB a slot, low VLEN bits used, the rest 0. -/
def saveV (m : Memory) : Nat → List (BitVec 16384) → Memory
  | _, [] => m
  | i, r :: rs => saveV (if r = 0 then m.put (0x2000 + 2048 * i) (List.replicate 2048 0)
                         else m.put (0x2000 + 2048 * i) (bytesOf 2048 r.toNat)) (i + 1) rs

/-- Predicates into the CSA: 256 bytes a slot. -/
def saveP (m : Memory) : Nat → List (BitVec 2048) → Memory
  | _, [] => m
  | i, r :: rs => saveP (m.put (0x400 + 256 * i) (bytesOf 256 r.toNat)) (i + 1) rs

/-- The dirty tiles among the first `n` into the CSA: 4 KiB a slot. -/
def Thread.saveM (t : Thread) (m : Memory) : Nat → Memory
  | 0 => m
  | i + 1 =>
    let m1 := t.saveM m i
    if t.dirtyTile i then m1.put (0x12000 + 4096 * i) (bytesOf 4096 (t.m[i]?.getD 0).toNat) else m1

/-- Vector, predicate, tile and control state into the CSA (R217, R362). -/
def Thread.saveVector (t : Thread) : Thread :=
  let m0 := t.csa.put 0x120 (wordsToBytes t.controlWords)
  let ones : BitVec 2048 := BitVec.ofNat 2048 (2 ^ (t.vlen / 8) - 1)
  let m1 := saveP m0 0 (ones :: t.p.toList.drop 1)
  { t with csa := t.saveM (saveV m1 0 t.v.toList) 8 }

/-! ### VTYPE figures (R46 to R51) -/

/-- Fields of VTYPE (R50). -/
def vtSew (vt : BitVec 16) : Nat := 8 * 2 ^ (vt.toNat % 4)
def vtSew2 (vt : BitVec 16) : Nat := 8 * 2 ^ (vt.toNat / 4 % 4)
def vtH16 (vt : BitVec 16) : Bool := vt.getLsbD 4
def vtGrp (vt : BitVec 16) : Nat := 2 ^ (vt.toNat / 32 % 4)
def vtSlices (vt : BitVec 16) : Nat := vt.toNat / 128 % 8 + 1
def vtFrm (vt : BitVec 16) : Nat := vt.toNat / 1024 % 8
def vtTz (vt : BitVec 16) : Bool := vt.getLsbD 13
def vtMz (vt : BitVec 16) : Bool := vt.getLsbD 14

/-- A legal VTYPE (R51). -/
def vtLegal (vt : BitVec 16) : Bool := decide (vtGrp vt * 8 ≤ vtSew vt ∧ vtFrm vt < 5) && !vt.getLsbD 15

/-- VLMAX of a VTYPE under a VLEN (R51). -/
def vlmaxOf (vt : BitVec 16) (vlen : Nat) : Nat := vlen * vtGrp vt / vtSew vt
def Thread.vlmax (t : Thread) : Nat := vlmaxOf t.vtype t.vlen

/-- LANES and WIDTH (R47, R58). -/
def Thread.lanesCount (t : Thread) : Nat := t.vlen / 128
def Thread.widthCsr (t : Thread) : Word := BitVec.ofNat 64 (t.cls % 4 + t.vlen / 256 * 256)

/-- Tiles of a width class (R46). -/
def classTiles (cls : Nat) : Nat := match cls with | 0 => 0 | 1 => 2 | 2 => 4 | _ => 8

/-! ### Restoring from the CSA (R366, R418) -/

/-- Element width in bits of a tile type; 0 for a reserved one (R54). -/
def tileTypeBits (ty : Nat) : Nat :=
  match ty with
  | 0 => 8 | 1 => 16 | 2 => 32 | 3 => 64 | 4 => 16 | 5 => 16 | 6 => 32 | 7 => 64 | 8 => 8 | 9 => 8 | _ => 0

/-- Fields of a TSHAPE entry (R54). -/
def shapeCfg (e : BitVec 16) : Bool := e.getLsbD 15
def shapeType (e : BitVec 16) : Nat := e.toNat / 1024 % 16
def shapeRowBytes (e : BitVec 16) : Nat := 4 * (e.toNat / 64 % 16 + 1)
def shapeRows (e : BitVec 16) : Nat := e.toNat % 64

/-- An entry of TSHAPE that a restore accepts for tile `i` (R418). -/
def shapeOk (cls i : Nat) (e : BitVec 16) : Bool :=
  !shapeCfg e || (decide (0 < tileTypeBits (shapeType e) ∧ i < classTiles cls ∧
    shapeRowBytes e % (tileTypeBits (shapeType e) / 8) = 0) && !e.getLsbD 14)

/-- TSHAPE as the CSA holds it. -/
def Thread.csaShapes (t : Thread) : Vector (BitVec 16) 8 := Vector.ofFn fun i : Fin 8 => BitVec.ofNat 16 (t.csa.load (0x138 + 2 * i.val) 2)

/-- TSHAPE as a restore takes it from the CSA: the entries of tiles that the class lacks are 0, and bit 14 reads 0 (R7, R54). -/
def Thread.restoredShapes (t : Thread) : Vector (BitVec 16) 8 :=
  Vector.ofFn fun i : Fin 8 => if i.val < classTiles t.cls then t.csaShapes[i] &&& 0xBFFF else 0

/-- The first CSA doubleword that a restore cannot take, if any: VTYPE, TSHAPE, TDIRTY (R418). -/
def Thread.badRestore (t : Thread) : Option Word :=
  let vt := t.csaWord 0x130
  let lo := t.csaWord 0x138
  let hi := t.csaWord 0x140
  let td := t.csaWord 0x148
  let sh := t.csaShapes
  let okHalf (b : Nat) : Bool := (List.range 4).all fun i => shapeOk t.cls (b + i) (sh[b + i]?.getD 0)
  if vt.toNat ≥ 2 ^ 16 ∨ vtLegal (vt.truncate 16) = false then some vt
  else if okHalf 0 = false then some lo
  else if okHalf 4 = false then some hi
  else if (List.range 8).any (fun i => td.getLsbD i && decide (classTiles t.cls ≤ i)) then some td
  else none

/-- Vector registers, predicates and tiles from the CSA under the thread's VLEN (R366): low bits, added bits 0. -/
def Thread.loadVector (t : Thread) : Thread :=
  let vt : BitVec 16 := (t.csaWord 0x130).truncate 16
  let sh := t.restoredShapes
  let mx := vlmaxOf vt t.vlen
  { t with
    vtype := vt
    vl := min (t.csaWord 0x120).toNat mx
    vlb := min (t.csaWord 0x128).toNat mx
    tshape := sh
    tdirty := (t.csaWord 0x148).truncate 8
    v := Vector.ofFn fun i : Fin 32 => BitVec.ofNat 16384 (t.csa.load (0x2000 + 2048 * i.val) (t.vlen / 8))
    p := Vector.ofFn fun i : Fin 24 =>
      if i.val = 0 then 0 else BitVec.ofNat 2048 (t.csa.load (0x400 + 256 * i.val) 256 % 2 ^ (t.vlen / 8))
    m := Vector.ofFn fun i : Fin 8 =>
      if shapeCfg (sh[i.val]) then BitVec.ofNat 32768 (t.csa.load (0x12000 + 4096 * i.val) 4096) else 0 }

/-! ### Claim (R217) -/

/-- `claim`: the victim's vector state goes to the CSA, and the handler starts with none (DEDUCED, log 34). Vector registers, predicates
and the unconfigured tiles' bits stay as they are for the handler (DESIGN CHOICE, log 90). -/
def Thread.claim (t : Thread) : Thread :=
  let t1 := t.saveVector
  { (t1.setCsa 0x118 8 ((t.csaWord 0x118).toNat % 2 + 2)) with claimed := true, vtype := 0, vl := 0, vlb := 0, tshape := Vector.replicate 8 0, tdirty := 0 }

/-- `unclaim`: the victim's vector state as the handler left it, under the checks of R418, TDIRTY as `claim` found it. -/
def Thread.unclaim (t : Thread) : Except Word Thread :=
  match t.badRestore with
  | some w => .error w
  | none => .ok { (t.loadVector.setCsa 0x118 8 ((t.csaWord 0x118).toNat % 2)) with claimed := false }

/-! ### Counts that depend on time or on caches (R402, R403) -/

/-- Event sources whose counts depend on time or on caches (R403; DESIGN CHOICE, log 5). -/
def freeSources : List Nat := [1, 4, 5, 6, 7, 8, 9, 10, 15]

/-- True of a selector that counts such a source in the thread's mode (R402). -/
def Thread.drifts (t : Thread) (sel : BitVec 9) : Bool :=
  freeSources.contains (sel.toNat % 256) && (!t.supervisor || sel.getLsbD 8)

/-- Such counters hold free values from now on. -/
def State.drift (s : State) : State :=
  let t := s.thr
  if t.evsel.toList.any t.drifts then
    { s with thr := { t with evcnt := Vector.ofFn fun i : Fin 8 => if t.drifts t.evsel[i] then Config.freeWord (s.freeCtr + i) else t.evcnt[i] },
             freeCtr := s.freeCtr + 8 }
  else s

/-! ### Errors in saved contexts (R388, R390) -/

/-- Where a save puts the 64 bits of a register that an error names: x registers from an offset on, and with `vec` the others; none
for what it does not save (R362). -/
def Thread.savedAt (t : Thread) (x : Option Nat) (vec : Bool) (e : ThreadKey × Nat × Nat × Nat) : Option Nat :=
  let (_, cls, r, i) := e
  if cls = 1 then (if vec && t.dirtyTile r then some (0x12000 + 4096 * r + 8 * i) else none)
  else if cls ≠ 0 ∨ r = 0 ∨ r = 64 then none
  else if r < 32 then x.map fun b => b + 8 * r
  else if !vec then none
  else if r < 64 then some (0x2000 + 2048 * (r - 32) + 8 * i)
  else some (0x400 + 256 * (r - 64) + 8 * i)

/-- What such a save writes in the CSA. -/
def Thread.savedRanges (t : Thread) (x : Option Nat) (vec : Bool) : List Range :=
  (match x with | some b => [⟨b + 8, 248⟩] | none => []) ++
  if vec then [⟨0x120, 0x100⟩, ⟨0x400, 0x1800⟩, ⟨0x2000, 0x10000⟩] ++
    ((List.range 8).filter t.dirtyTile).map fun i => ⟨0x12000 + 4096 * i, 4096⟩
  else []

/-- The errors of the CSA after a save by the core, which writes `more` beside the registers: the granules that it writes hold none,
but those that take a register's failed bits (DESIGN CHOICE, log 101). -/
def State.saveErrors (s : State) (x : Option Nat) (vec : Bool) (more : List Range) : State :=
  if s.badReg.isEmpty && s.badCsa.isEmpty then s
  else
    let k := s.thr.key
    let rs := s.thr.savedRanges x vec ++ more
    let moved := (s.badReg.filter fun e => decide (e.1 = k)).filterMap (s.thr.savedAt x vec)
    { s with badCsa := moved.map (k, ·) ++ s.badCsa.filter fun e => !(decide (e.1 = k) && inRanges rs e.2) }

/-- The registers of the thread that has the turn are written by the core, the x registers, the others with `vec`: they hold no error
any more. -/
def State.dropErrors (s : State) (x vec : Bool) : State :=
  if s.badReg.isEmpty then s
  else { s with badReg := s.badReg.filter fun e =>
    !(decide (e.1 = s.thr.key ∧ e.2.1 ≤ 1) && if e.2.1 = 0 ∧ e.2.2.1 < 32 then x else vec) }

/-- What a restore of the vector state reads of the CSA (R362, R366). -/
def Thread.vectorRanges (t : Thread) : List Range :=
  ⟨0x120, 48⟩ :: (((List.range 32).map fun i => ⟨0x2000 + 2048 * i, t.vlen / 8⟩) ++
    ((List.range 23).map fun i => ⟨0x500 + 256 * i, t.vlen / 64⟩) ++
    ((List.range 8).filter fun i => shapeCfg (t.restoredShapes[i]?.getD 0)).map fun i => ⟨0x12000 + 4096 * i, 4096⟩)

/-- True when a restore of a thread reads a granule of its CSA that holds an uncorrectable error (R390). -/
def State.badRestored (s : State) (k : ThreadKey) (rs : List Range) : Bool :=
  s.badCsa.any fun e => decide (e.1 = k) && rs.any (Range.meets ⟨e.2, 8⟩)

/-! ### Leaving a core (R221, R231, R364) -/

/-- Save everything of a thread that leaves its core: as the victim of nothing, or in its handler (R362, R365). A handler's
own vector state is discarded and the victim's spilled one stays, beside which the fabric record and the event counters, which
`claim` does not spill, are saved as they stand (R217, R221, R402; DEDUCED, log 34). A thread that its handler's trap halts keeps the
victim's trap CSRs in the CSA as they stood (R221). -/
def Thread.saveAll (t : Thread) (halt : Bool) : Thread :=
  let t1 := if t.supervisor then (if halt then t.saveX 0x300 else (t.saveX 0x300).saveTrap)
            else { (t.saveX 0) with csa := (t.saveX 0).csa.put 0x100 (bytesOf 8 t.fcsr.toNat) }
  let t2 := if t.claimed then { t1 with csa := t1.csa.put 0x150 (wordsToBytes (t.controlWords.drop 6)) }
            else { (t1.saveVector) with tdirty := 0 }
  let words := bytesOf 8 t.pc.toNat ++ bytesOf 8 t.prio.toNat ++ bytesOf 8 (if t.supervisor then 1 else 0)
  { t2 with csa := t2.csa.put 0x108 words, claimed := false }

/-- Take a thread off its core's list and free its lane groups. -/
def State.removeFromCore (s : State) (t : Thread) : State :=
  let c := s.core t.core
  s.setCore t.core { c with order := c.order.filter fun k => decide (k ≠ t.key) }

/-- True when a lane group that serves a thread has been retired under it (R230, R393). -/
def State.lostLane (s : State) (t : Thread) : Bool := t.lanes.any fun n => (s.core t.core).lret.getLsbD n

/-- What peers have answered to the code of the other mode: an instruction that ends uses up the answers to its own (R380). -/
def Thread.otherAnswers (t : Thread) : List PeerAnswer := t.peerData.filter fun a => a.supervisor != t.supervisor

/-- What `saveAll` writes in the CSA beside the x registers and the vector state. -/
def Thread.leftRanges (t : Thread) (halt : Bool) : List Range :=
  ⟨0x108, 24⟩ :: ((if !t.supervisor then [⟨0x100, 8⟩] else if halt then [] else [⟨0x280, 48⟩]) ++
    if t.claimed then [⟨0x150, 0xD0⟩] else [])

/-- The thread that has the turn leaves its core with its context saved, in the given life (R221, R231). Its uncommitted
vector work is complete, so its PC is the VCP (R232, R364; DEDUCED, log 65), and its issued stores stay with it until
performed. A lane group that was retired under it counts as a change since the save (R230). -/
def State.leave (s : State) (life : Life) : State :=
  let gone (t : Thread) : Thread :=
    { (t.commitAll.saveAll (decide (life = .halted))) with
      life := life, lanes := [], queued := s.clock, savedVer := if s.lostLane t then 0 else s.dfver, micro := none, boosted := none,
      passed := 0, started := false, half := none, begun := none,
      peerData := if life = .halted then t.otherAnswers else t.peerData, leftStep := match t.micro with | some m => m.step | none => 0 }
  let s0 := s.drift
  let s0 := (s0.saveErrors (some (if s0.thr.supervisor then 0x300 else 0)) (!s0.thr.claimed)
    (s0.thr.leftRanges (decide (life = .halted)))).dropErrors true true
  let s1 := (s0.removeFromCore s0.thr).mapThr gone
  { s1 with clock := s1.clock + 1 }

/-- A trap in handler code halts the thread (R221): the cause and the PC go to the HANDLER_FAULT entry alone (R351). -/
def State.haltHandler (s : State) (cause : Nat) : State :=
  let t := s.thr
  let w2 := t.key.index % 2 ^ 24 + cause * 2 ^ 24
  (s.leave Life.halted).report t.key.part
    { w0 := fifoW0 2 t.core.die (some t.key.proc) (some t.core.site), w1 := t.key.launch, w2 := BitVec.ofNat 64 w2,
      w3 := t.pc }

/-- A handler whose victim cannot be restored from context shadow storage is HALTED (R390). -/
def State.haltRestore (s : State) : State :=
  let t := s.thr
  (s.leave Life.halted).report t.key.part
    { w0 := fifoW0 3 t.core.die (some t.key.proc) (some t.core.site), w1 := 0, w2 := 0, w3 := 11 }

/-! ### Taking a trap (R225, R226, R363, R397) and returning from one (R216) -/

/-- Trap codes (R226). -/
def causeCode : TrapCause → Nat
  | .illegal => 1 | .undeclared => 2 | .fenced => 3 | .align => 4 | .xlate => 5 | .protect => 6 | .bounds => 7
  | .dataErr => 8 | .tileUncfg => 9 | .fslotUnbound => 10 | .fabricErr => 11 | .tetherFault => 12 | .brk => 13
  | .syscall => 14 | .migrated => 15

/-- TSTEP of a trap: the micro-step of the deprecated instruction under way, and for MIGRATED that at which the thread left its
core (R224). -/
def Thread.trapStep (t : Thread) (cause : TrapCause) : Nat :=
  if cause = .migrated then t.leftStep else match t.micro with | some m => m.step | none => 0

/-- The trap CSRs of a trap at `tpc` (R225, R226). -/
def Thread.setTrap (t : Thread) (cause : TrapCause) (tpc tval telem : Word) (vec : Bool) (discard : Word) : Thread :=
  { t with tcause := BitVec.ofNat 64 (causeCode cause), tpc := tpc, tval := tval, telem := telem,
           tvcp := (if vec then 0x8000000000000000 else 0) + (discard &&& 0xFFFF),
           tstep := BitVec.ofNat 64 (t.trapStep cause) }

/-- x registers of a handler at entry: sp the top of the CSA, th its base, the others 0 (R363). -/
def handlerX : Vector Word 32 :=
  ((Vector.replicate 32 (0 : Word)).set 2 (BitVec.ofNat 64 localBase)).set 4 (BitVec.ofNat 64 csaBase)

/-- Entry to the handler with the trap CSRs set: the victim's x registers and FCSR go to the CSA (R363). -/
def Thread.enterHandler (t : Thread) (hentry : Word) : Thread :=
  let t1 := (t.saveX 0).saveTrap
  { t1 with csa := t1.csa.put 0x100 (bytesOf 8 t.fcsr.toNat), x := handlerX, pc := hentry,
            fcsr := fcsrFrm t.fcsr ++ (0 : BitVec 5), supervisor := true, claimed := false, life := .ready,
            micro := none, started := false, leftStep := 0, half := none }

/-- A trap ends the instruction, which starts again later: what peers have answered to its reads is asked for again, after the
handler's stores (R109, R380). An instruction whose effects have begun to be performed is taken to its end before any trap but
one of its own (R235; DEDUCED, log 16). -/
def Thread.interrupt (t : Thread) : Thread := { t with peerData := t.otherAnswers, begun := none }

/-- The reads that the user code of the thread that has the turn has sent to peers serve it no more (R109). -/
def State.dropReads (s : State) : State :=
  { s with requests := s.requests.map fun r =>
      match r.who with
      | .thread t _ false _ => if t = s.thr.key ∧ r.write = false then { r with who := .stale t } else r
      | _ => r }

/-- HENTRY of a partition: bits [48:2] (R375) (DEDUCED, log 60). -/
def Partition.entry (p : Partition) : Word := p.hentry &&& 0x1FFFFFFFFFFFC

/-- True of a core that holds a bank of a partition (R345). -/
def Core.ownedBy (c : Core) (part : Nat) : Bool := c.banks.toList.any fun b => decide (b = some part)

/-- True when a core's mask covers a USEMASK (R345). -/
def Core.covers (c : Core) (usemask : Word) : Bool := decide (usemask &&& c.cap.zeroExtend 64 = usemask)

/-- True when a core is left on which a dispatcher could place a thread again: enabled, owned and not being released, its mask
covers USEMASK, and the thread was not fenced there (R345, R397). -/
def State.coreLeft (s : State) (t : Thread) : Bool :=
  s.cores.any fun e => e.2.enabled && e.2.ownedBy t.key.part && e.2.covers t.hdr.usemask && !t.avoid.contains e.1 &&
    !(s.part t.key.part).releasing.contains e.1

/-- The UNPLACEABLE entry of a thread that was fenced on a core (R351, R397). -/
def unplaceable (t : Thread) (fenced : CoreId) : FifoEntry :=
  { w0 := fifoW0 6 fenced.die (some t.key.proc) (some fenced.site), w1 := t.key.launch, w2 := t.hdr.usemask, w3 := 0 }

/-- The thread that has the turn is fenced off its core: it is pre-empted and never placed there again, and when no other
core of its partition qualifies an UNPLACEABLE entry says so (R397). A pre-emption that was asked for is over with it, and holds the
thread where that one does (R370). -/
def State.leaveFenced (s : State) : State :=
  let t := s.thr
  let gone := (s.mapThr fun t =>
    { (t.saveTrap) with avoid := t.core :: t.avoid, held := t.wish.getD t.held, wish := none }).leave .preempted
  if gone.coreLeft gone.thr then gone
  else (gone.mapThr fun u => { u with told := true }).report t.key.part (unplaceable t t.core)

/-- Threads that were fenced and wait for a core, when the last that qualifies has been lost: an UNPLACEABLE entry says so,
once for each wait (R397; DEDUCED, log 59). -/
def State.tellUnplaceable (s : State) : List Thread → State
  | [] => s
  | t :: ts =>
    match t.avoid with
    | [] => s.tellUnplaceable ts
    | c :: _ =>
      if t.life = .preempted ∧ t.told = false ∧ s.coreLeft t = false then
        ((s.mapThread t.key fun u => { u with told := true }).report t.key.part (unplaceable t c)).tellUnplaceable ts
      else s.tellUnplaceable ts

/-- BPSKIP is cleared for the first instruction after `eret`, whether it completes or traps (R373; DEDUCED, log 28). -/
def Thread.clearSkip (t : Thread) : Memory :=
  if t.supervisor = false ∧ (t.csa.byte 0x260).getLsbD 0 = true then t.csa.put 0x260 (List.replicate 8 0) else t.csa

/-- TAKING A TRAP at the instruction that has the turn. Every older vector instruction has committed. In user mode the trap
CSRs are written, the translation record is stored (R357), the vector unit freezes, and the handler is entered. FENCED
does not enter the handler: the thread is pre-empted and never returns to this core (R397). In a handler the thread
halts (R221). An XLATE or PROTECT that no translation raised records STAGE 0 and no address, the other fields being free (R357;
DEDUCED, log 98). MIGRATED gives the thread its new FVER (R366, R399). -/
def State.takeTrap (s : State) (cause : TrapCause) (tval telem : Word) (record : Option (Word × Word)) (vec : Bool) : State :=
  if s.thr.supervisor then s.haltHandler (causeCode cause)
  else
    let (d, s0) := s.drift.free
    let tpc := if cause = .syscall then s.thr.pc + 4 else s.thr.pc
    let s1 := s0.mapThr fun t =>
      let t1 := (t.commitAll.count 14 1).setTrap cause tpc tval telem vec d
      let record := if record.isNone && decide (cause = .xlate ∨ cause = .protect) then some ((d >>> 16) &&& 0xFC, 0) else record
      let t2 := match record with
        | some (r0, r1) => { t1 with csa := t1.csa.put 0x268 (bytesOf 8 r0.toNat ++ bytesOf 8 r1.toNat) }
        | none => t1
      let t2 := if cause = .migrated then t2 else { t2 with csa := t2.clearSkip }
      (if cause = .migrated then { t2 with fver := s.dfver, migrated := false } else t2).interrupt
    let s1 := s1.dropReads
    let record := if record.isSome ∨ cause = .xlate ∨ cause = .protect then [⟨0x268, 16⟩] else []
    if cause = .fenced then
      (s1.saveErrors none false (⟨0x280, 48⟩ :: record)).leaveFenced
    else
      ((s1.saveErrors (some 0) false (⟨0x100, 8⟩ :: ⟨0x280, 48⟩ :: record)).dropErrors true false).mapThr fun t =>
        t.enterHandler (s.part t.key.part).entry

/-- The awaited phases that stay when a thread goes on at its PC: that of the `gbar` there, and in a handler those of user code
(R163). -/
def Thread.keepAwaited (t : Thread) : Thread :=
  { t with awaiting := t.awaiting.filter fun e => decide (e.1 = (t.pc, t.supervisor)) || (t.supervisor && !e.1.2) }

/-- What `eret` restores from the CSA. -/
def Thread.eretRanges (t : Thread) : List Range := ⟨8, 248⟩ :: ⟨0x100, 8⟩ :: if t.claimed then t.vectorRanges else []

/-- RETURNING FROM A TRAP (`eret`, R216): `unclaim` first when claimed, then x1 to x31 and FCSR from the CSA, PC := TPC, user
mode. The error is the CSA doubleword that R418 refuses. -/
def Thread.eret (t : Thread) : Except Word Thread := do
  let t1 ← if t.claimed then t.unclaim else .ok t
  let t2 := t1.loadX 0
  .ok { t2 with fcsr := fcsrWrite t1.fcsr (t1.csaWord 0x100), pc := t1.tpc, supervisor := false,
                peerData := t1.otherAnswers, begun := none, started := false, leftStep := 0 }.keepAwaited

/-! ### Checks and issue (R80) -/

/-- A register that an instruction reads (R390): its class, 1 for a tile; its number (x 0 to 31, v 32 to 63, p 64 and above);
and the elements it reads of its operand, by their width and the number of the first that the register holds. Width 0 says that
all of it is read. For a tile the elements are the 64 bits read, eight to a row. -/
structure RegRead where
  cls : Nat := 0
  reg : Nat
  w : Nat := 0
  first : Nat := 0
  elems : List Nat := []
  deriving DecidableEq, Repr

/-- The element of its operand that lies in 64 bits and that the instruction reads, the lowest such, or the row of a tile, of which
`elems` are the 64 bits read. -/
def RegRead.hit (r : RegRead) (i : Nat) : Option Nat :=
  if r.cls = 1 then (if r.elems.contains i then some (i / 8) else none)
  else if r.w = 0 then some 0
  else r.elems.find? fun j => decide (r.first + 64 * i / r.w ≤ j ∧ j ≤ r.first + (64 * i + 63) / r.w)

/-- What an instruction asks for before its own faults: its word or words for TVAL (R79), whether its fields, registers and
groups are legal, whether the registers it names are declared, the capabilities it requires, and the registers it reads. -/
structure Req where
  word : Word
  legal : Bool := true
  declared : Bool := true
  caps : List Nat := []
  reads : List RegRead := []

/-- The lowest capability of a list that a mask lacks. -/
def lowestMissing (caps : List Nat) (mask : Nat) : Option Nat :=
  (List.range 25).find? fun c => caps.contains c && !mask.testBit c

/-- TELEM of an error of a thread's register that the instruction reads: the element of its operand, the bit of a predicate, or
the row of a tile, whose bits failed (R390). -/
def badElem (k : ThreadKey) (reads : List RegRead) (e : ThreadKey × Nat × Nat × Nat) : Option Nat :=
  if e.1 = k then reads.findSome? fun r => if r.cls = e.2.1 ∧ r.reg = e.2.2.1 then r.hit e.2.2.2 else none else none

/-- An uncorrectable error in a register that the instruction reads: the element or row of the bits that failed (R390). -/
def State.badSource (s : State) (reads : List RegRead) : Option Nat := s.badReg.findSome? (badElem s.thr.key reads)

/-- What a register holds in the 64 bits of an error. -/
def Thread.badBits (t : Thread) (e : ThreadKey × Nat × Nat × Nat) : Nat :=
  let r := e.2.2.1
  if e.2.1 = 1 then bitsAt (t.m[r]?.getD 0).toNat (64 * e.2.2.2) 64
  else if r < 32 then (t.x[r]?.getD 0).toNat
  else if r < 64 then bitsAt (t.v[r - 32]?.getD 0).toNat (64 * e.2.2.2) 64
  else bitsAt (t.p[r - 64]?.getD 0).toNat (64 * e.2.2.2) 64

/-- The errors in registers after an instruction: a register whose failed bits have been written holds none (R390; DEDUCED,
log 66). -/
def State.afterWrites (s t : State) : State :=
  if s.badReg.isEmpty then t
  else
    { t with badReg := t.badReg.filter fun e =>
        !(decide (e.1 = s.thr.key ∧ e.2.1 ≤ 1 ∧ t.thr.key = s.thr.key ∧ t.thr.badBits e ≠ s.thr.badBits e)) }

/-- Capabilities (R80 steps 3 and 4, R396): UNDECLARED against USEMASK, FENCED against the core's current mask (DEDUCED, log 29).
An instruction that has started completes whatever has been fenced since (R396). -/
def State.checkCaps (s : State) (word : Word) (caps : List Nat) : Run Unit :=
  if (lowestMissing caps s.thr.hdr.usemask.toNat).isSome then raise s .undeclared word
  else if s.thr.started then .ok ()
  else
    match lowestMissing caps (s.core s.thr.core).cap.toNat with
    | some c => raise s .fenced (BitVec.ofNat 64 c)
    | none => .ok ()

/-- Errors in the registers read (R390). -/
def State.checkSources (s : State) (reads : List RegRead) : Run Unit :=
  match s.badSource reads with
  | some e => raise s .dataErr 0 e
  | none => .ok ()

/-- R80 steps 2 to 4, then errors in the registers read: of the faults of step 6, these come first (DESIGN CHOICE, log 100). An
instruction that has begun to perform has passed its checks. -/
def State.check (s : State) (r : Req) : Run Unit := if s.thr.begun.isSome then .ok () else do
  need s r.legal .illegal r.word
  need s r.declared .undeclared r.word
  s.checkCaps r.word r.caps
  s.checkSources r.reads

/-- One more scalar instruction that the front end has executed after the youngest uncommitted vector one (R233). -/
def ranOn : List (Word × Nat) → List (Word × Nat)
  | [] => []
  | [e] => [(e.1, e.2 + 1)]
  | e :: es => e :: ranOn es

/-- The scalar instructions in the run-ahead window: those younger than the VCP instruction (R233). -/
def Thread.ahead (t : Thread) : Nat := (t.vq.map Prod.snd).foldl (· + ·) 0

/-- True when the vector queue and the run-ahead window have room (R233). -/
def Thread.vectorRoom (t : Thread) : Bool := decide (t.vq.length < 64 ∧ t.ahead < 64)

/-- An instruction completes: the count of R403 code 2, the answers of peers that it used are dropped, and BPSKIP is
cleared. A scalar one takes its place in the run-ahead window (R233). -/
def Thread.retire (t : Thread) (vec : Bool) (pc : Word) : Thread :=
  let t1 := t.count 2 1
  { t1 with pc := pc, peerData := t.otherAnswers, begun := none, micro := none, started := false,
            vq := if vec then t.vq else ranOn t.vq,
            csa := t.clearSkip }

/-- The thread gives up its issue slot with its instruction started, or keeps it when it waits on its own vector work (R231,
R396). -/
def Thread.park (t : Thread) (w : Wait) : Thread :=
  match w with
  | .vectorQueue => { t with life := .blocked }
  | .fop => { t with life := .blocked, started := true }
  | .again => { t with life := .ready, started := true }
  | _ => { t with life := .parked w, started := true }

/-- True of a thread that waits for its own `fop`, which has started (R231). -/
def Thread.onFop (t : Thread) : Bool := decide (t.life = .blocked) && t.started

/-- What the outcome of an instruction's body makes of the machine `s`; `vec` marks a vector instruction (R225). -/
def conclude (vec : Bool) (s : State) (r : Run (State × Word)) : Host.Outcome State Fault Refusal :=
  match r with
  | .ok (t, pc) => .next ((s.afterWrites t).mapThr fun u => u.retire vec pc)
  | .error (.trap t c tv te rec) => .next (t.takeTrap c tv te rec vec)
  | .error (.park t w) => .next (t.mapThr fun u => u.park w)

/-- The vector queue and the run-ahead window have room: the thread is BLOCKED while either is full (R231, R233). -/
def State.window (s : State) : Run Unit := if s.thr.vectorRoom then .ok () else .error (.park s .vectorQueue)

/-- Issue a scalar instruction that goes on at the next word, `len` bytes on. -/
def issue (len : Nat) (r : Req) (s : State) (body : State → Run State) : Host.Outcome State Fault Refusal :=
  conclude false s do
    s.window
    s.check r
    let s' ← body s
    .ok (s', s.thr.pc + BitVec.ofNat 64 len)

/-- Issue a scalar instruction that gives its next PC. -/
def issueTo (r : Req) (s : State) (body : State → Run (State × Word)) : Host.Outcome State Fault Refusal :=
  conclude false s do
    s.window
    s.check r
    body s

/-- Issue a scalar instruction whose effect waits until every older vector instruction has committed (R236). -/
def issueHeld (r : Req) (s : State) (body : State → Run State) : Host.Outcome State Fault Refusal :=
  issue 4 r s fun s => body (s.mapThr Thread.commitAll)

/-- Legal outside a handler, and in a handler only after `claim` (R217). -/
def Thread.vectorOpen (t : Thread) : Bool := !t.supervisor || t.claimed

/-- Issue a vector instruction: it takes an entry of the vector queue until it commits (R233). In a handler it is ILLEGAL before
`claim` (R217) (DEDUCED, log 8). -/
def issueVector (r : Req) (s : State) (body : State → Run State) : Host.Outcome State Fault Refusal :=
  conclude true s do
    s.window
    s.check { r with legal := r.legal && s.thr.vectorOpen }
    let s' ← body s
    .ok (s'.mapThr fun t => { t with vq := t.vq ++ [(s.thr.pc, 0)] }, s.thr.pc + 4)

end Sys2Proof.Machine
end

