-- ==== Sys2Proof/Machine/Scalar.lean ====
section
/-! DEFINITION. Scalar integer instructions, immediates, loads and stores, branches, jumps and the prefix pair (R99 to R112,
R119). -/
namespace Sys2Proof.Machine

/-- One word for TVAL (R79). -/
def tv (w : BitVec 32) : Word := w.zeroExtend 64

/-- x registers as sources. -/
def xs (l : List Reg) : List RegRead := l.map fun r => { reg := r.toNat }

/-! ### Values (R101 to R105) -/

/-- Signed division: truncates, all ones by 0, and −2^63 / −1 wraps (R102). -/
def divS (a b : Word) : Word := if b = 0 then BitVec.allOnes 64 else wordOfInt (Int.tdiv a.toInt b.toInt)
def divU (a b : Word) : Word := if b = 0 then BitVec.allOnes 64 else BitVec.ofNat 64 (a.toNat / b.toNat)
/-- Signed remainder: the sign of the dividend, the dividend itself by 0 (R102). -/
def remS (a b : Word) : Word := if b = 0 then a else wordOfInt (Int.tmod a.toInt b.toInt)
def remU (a b : Word) : Word := if b = 0 then a else BitVec.ofNat 64 (a.toNat % b.toNat)
/-- High halves of the 128-bit products (R101). -/
def mulHigh (a b : Word) : Word := wordOfInt (a.toInt * b.toInt / 2 ^ 64)
def mulHighU (a b : Word) : Word := BitVec.ofNat 64 (a.toNat * b.toNat / 2 ^ 64)
/-- Shifts by the low six bits (R101). -/
def shl64 (a b : Word) : Word := a <<< (b.toNat % 64)
def shr64 (a b : Word) : Word := a >>> (b.toNat % 64)
def sra64 (a b : Word) : Word := a.sshiftRight (b.toNat % 64)
/-- A truth value in an x register. -/
def truth (b : Bool) : Word := if b then 1 else 0
def minS (a b : Word) : Word := if a.toInt ≤ b.toInt then a else b
def maxS (a b : Word) : Word := if b.toInt ≤ a.toInt then a else b
/-- Bit counts (R101). -/
def clz64 (a : Word) : Word := BitVec.ofNat 64 (leadingZeros 64 a.toNat)
def ctz64 (a : Word) : Word := BitVec.ofNat 64 (trailingZeros 64 a.toNat)
def popc64 (a : Word) : Word := BitVec.ofNat 64 (popCount 64 a.toNat)
/-- Bit-field extract and insert with lowest bit L and width W (R105). -/
def fieldExtract (a : Word) (l w : Nat) : Word := BitVec.ofNat 64 (bitsAt a.toNat l w)
def fieldInsert (d a : Word) (l w : Nat) : Word := BitVec.ofNat 64 (setBitsAt d.toNat l w a.toNat)

/-- Immediate operations on a widened immediate (R103). -/
def immValue (op : ImmOp) (a imm : Word) : Word :=
  match op with
  | .addi => a + imm
  | .andi => a &&& imm
  | .ori => a ||| imm
  | .xori => a ^^^ imm
  | .slti => truth (decide (a.toInt < imm.toInt))
  | .sltiu => truth (decide (a.toNat < imm.toNat))

/-- The immediate of an operation at `n` bits: logical ones are zero-extended (R67, R69). -/
def widenImm {n : Nat} (op : ImmOp) (imm : BitVec n) : Word :=
  match op with
  | .andi | .ori | .xori => imm.zeroExtend 64
  | _ => imm.signExtend 64

/-! ### Shapes -/

/-- Write a value to an x register. -/
def aluOp (w : BitVec 32) (caps : List Nat) (src : List Reg) (d : Reg) (v : Word) (s : State) : Host.Outcome State Fault Refusal :=
  issue 4 { word := tv w, caps := caps, reads := xs src } s fun s => .ok (s.setX d v)

/-- An immediate operation of `len` bytes (R103, R119). -/
def immOp (len : Nat) (tval : Word) (op : ImmOp) (d a : Reg) (imm : Word) (s : State) : Host.Outcome State Fault Refusal :=
  issue len { word := tval, caps := [0], reads := xs [a] } s fun s => .ok (s.setX d (immValue op (s.xr a) imm))

/-- `li` and `addpc` with their widened values (R106). -/
def setOp (len : Nat) (tval : Word) (d : Reg) (v : Word) (s : State) : Host.Outcome State Fault Refusal :=
  issue len { word := tval, caps := [0] } s fun s => .ok (s.setX d v)

/-- Access sizes (R68). -/
def LoadOp.bytes : LoadOp → Nat | .ldb => 1 | .ldbu => 1 | .ldh => 2 | .ldhu => 2 | .ldw => 4 | .ldwu => 4 | .ldd => 8
def StoreOp.bytes : StoreOp → Nat | .stb => 1 | .sth => 2 | .stw => 4 | .std => 8

/-- The value a load writes (R107). -/
def LoadOp.value (op : LoadOp) (bs : List Byte) : Word :=
  match op with
  | .ldb | .ldh | .ldw => sextWord (8 * LoadOp.bytes op) (natOfBytes bs)
  | _ => BitVec.ofNat 64 (natOfBytes bs)

/-- The effective address: base plus the offset in units of the access size (R107). -/
def effAddr {n : Nat} (base : Word) (off : BitVec n) (size : Nat) : Word := base + off.signExtend 64 * BitVec.ofNat 64 size

/-- A load (R107 to R109). -/
def loadOp (len : Nat) (tval : Word) (op : LoadOp) (d a : Reg) (cls : BitVec 2) (ea : Word) (s : State) :
    Host.Outcome State Fault Refusal :=
  issue len { word := tval, caps := [0], reads := xs [a] } s fun s => do
    let (bs, s1) ← s.readClass cls ea (LoadOp.bytes op)
    .ok (s1.setX d (LoadOp.value op bs))

/-- A store: held until every older vector instruction has committed (R107, R108, R236). -/
def storeOp (len : Nat) (tval : Word) (op : StoreOp) (src a : Reg) (cls : BitVec 2) (ea : Word) (s : State) :
    Host.Outcome State Fault Refusal :=
  issue len { word := tval, caps := [0], reads := xs [src, a] } s fun s =>
    let s1 := s.mapThr Thread.commitAll
    s1.write ea (bytesOf (StoreOp.bytes op) (s.xr src).toNat) cls

/-- Branch conditions (R110). -/
def BranchOp.holds (op : BranchOp) (a b : Word) : Bool :=
  match op with
  | .beq => decide (a = b)
  | .bne => decide (a ≠ b)
  | .blt => decide (a.toInt < b.toInt)
  | .bge => decide (b.toInt ≤ a.toInt)
  | .bltu => decide (a.toNat < b.toNat)
  | .bgeu => decide (b.toNat ≤ a.toNat)

/-- A PC-relative target (R67, R69). -/
def target {n : Nat} (pc : Word) (off : BitVec n) : Word := pc + off.signExtend 64 * 4

/-- A branch (R110). -/
def branchOp (len : Nat) (tval : Word) (op : BranchOp) (a b : Reg) (target : Word) (s : State) : Host.Outcome State Fault Refusal :=
  issueTo { word := tval, caps := [0], reads := xs [a, b] } s fun s =>
    .ok (s, if BranchOp.holds op (s.xr a) (s.xr b) then target else s.thr.pc + BitVec.ofNat 64 len)

/-- `jal` links ra, `j` links nothing (R111). -/
def jumpOp (len : Nat) (tval : Word) (link : Bool) (target : Word) (s : State) : Host.Outcome State Fault Refusal :=
  issueTo { word := tval, caps := [0] } s fun s =>
    .ok (if link then s.setX 1 (s.thr.pc + BitVec.ofNat 64 len) else s, target)

/-- `jalr`: a misaligned target raises ALIGN and writes nothing (R63, R111). -/
def jalrOp (len : Nat) (tval : Word) (d a : Reg) (imm : Word) (s : State) : Host.Outcome State Fault Refusal :=
  issueTo { word := tval, caps := [0], reads := xs [a] } s fun s =>
    let target := s.xr a + imm
    if target.toNat % 4 ≠ 0 then raise s .align target
    else .ok (s.setX d (s.thr.pc + BitVec.ofNat 64 len), target)

/-! ### One definition per instruction -/

/-- ADD (R101). -/
def execAdd (d a b : Reg) (s : State) : Host.Outcome State Fault Refusal :=
  aluOp (wordAdd d a b) [0] [a, b] d (s.xr a + s.xr b) s

/-- SUB (R101). -/
def execSub (d a b : Reg) (s : State) : Host.Outcome State Fault Refusal :=
  aluOp (wordSub d a b) [0] [a, b] d (s.xr a - s.xr b) s

/-- MUL (R101). -/
def execMul (d a b : Reg) (s : State) : Host.Outcome State Fault Refusal :=
  aluOp (wordMul d a b) [1] [a, b] d (s.xr a * s.xr b) s

/-- MULH (R101). -/
def execMulh (d a b : Reg) (s : State) : Host.Outcome State Fault Refusal :=
  aluOp (wordMulh d a b) [1] [a, b] d (mulHigh (s.xr a) (s.xr b)) s

/-- MULHU (R101). -/
def execMulhu (d a b : Reg) (s : State) : Host.Outcome State Fault Refusal :=
  aluOp (wordMulhu d a b) [1] [a, b] d (mulHighU (s.xr a) (s.xr b)) s

/-- DIV (R102). -/
def execDiv (d a b : Reg) (s : State) : Host.Outcome State Fault Refusal :=
  aluOp (wordDiv d a b) [1] [a, b] d (divS (s.xr a) (s.xr b)) s

/-- DIVU (R102). -/
def execDivu (d a b : Reg) (s : State) : Host.Outcome State Fault Refusal :=
  aluOp (wordDivu d a b) [1] [a, b] d (divU (s.xr a) (s.xr b)) s

/-- REM (R102). -/
def execRem (d a b : Reg) (s : State) : Host.Outcome State Fault Refusal :=
  aluOp (wordRem d a b) [1] [a, b] d (remS (s.xr a) (s.xr b)) s

/-- REMU (R102). -/
def execRemu (d a b : Reg) (s : State) : Host.Outcome State Fault Refusal :=
  aluOp (wordRemu d a b) [1] [a, b] d (remU (s.xr a) (s.xr b)) s

/-- AND (R101). -/
def execAndr (d a b : Reg) (s : State) : Host.Outcome State Fault Refusal :=
  aluOp (wordAndr d a b) [0] [a, b] d (s.xr a &&& s.xr b) s

/-- OR (R101). -/
def execOrr (d a b : Reg) (s : State) : Host.Outcome State Fault Refusal :=
  aluOp (wordOrr d a b) [0] [a, b] d (s.xr a ||| s.xr b) s

/-- XOR (R101). -/
def execXorr (d a b : Reg) (s : State) : Host.Outcome State Fault Refusal :=
  aluOp (wordXorr d a b) [0] [a, b] d (s.xr a ^^^ s.xr b) s

/-- SHL (R101). -/
def execShl (d a b : Reg) (s : State) : Host.Outcome State Fault Refusal :=
  aluOp (wordShl d a b) [0] [a, b] d (shl64 (s.xr a) (s.xr b)) s

/-- SHR (R101). -/
def execShr (d a b : Reg) (s : State) : Host.Outcome State Fault Refusal :=
  aluOp (wordShr d a b) [0] [a, b] d (shr64 (s.xr a) (s.xr b)) s

/-- SRA (R101). -/
def execSra (d a b : Reg) (s : State) : Host.Outcome State Fault Refusal :=
  aluOp (wordSra d a b) [0] [a, b] d (sra64 (s.xr a) (s.xr b)) s

/-- SLT (R101). -/
def execSlt (d a b : Reg) (s : State) : Host.Outcome State Fault Refusal :=
  aluOp (wordSlt d a b) [0] [a, b] d (truth (decide ((s.xr a).toInt < (s.xr b).toInt))) s

/-- SLTU (R101). -/
def execSltu (d a b : Reg) (s : State) : Host.Outcome State Fault Refusal :=
  aluOp (wordSltu d a b) [0] [a, b] d (truth (decide ((s.xr a).toNat < (s.xr b).toNat))) s

/-- MIN (R101). -/
def execMinr (d a b : Reg) (s : State) : Host.Outcome State Fault Refusal :=
  aluOp (wordMinr d a b) [0] [a, b] d (minS (s.xr a) (s.xr b)) s

/-- MAX (R101). -/
def execMaxr (d a b : Reg) (s : State) : Host.Outcome State Fault Refusal :=
  aluOp (wordMaxr d a b) [0] [a, b] d (maxS (s.xr a) (s.xr b)) s

/-- CLZ (R101). -/
def execClz (d a : Reg) (s : State) : Host.Outcome State Fault Refusal :=
  aluOp (wordClz d a) [0] [a] d (clz64 (s.xr a)) s

/-- CTZ (R101). -/
def execCtz (d a : Reg) (s : State) : Host.Outcome State Fault Refusal :=
  aluOp (wordCtz d a) [0] [a] d (ctz64 (s.xr a)) s

/-- POPC (R101). -/
def execPopc (d a : Reg) (s : State) : Host.Outcome State Fault Refusal :=
  aluOp (wordPopc d a) [0] [a] d (popc64 (s.xr a)) s

/-- ADDI (R103). -/
def execAddi (d a : Reg) (imm : BitVec 16) (s : State) : Host.Outcome State Fault Refusal :=
  immOp 4 (tv (wordAddi d a imm)) .addi d a (widenImm .addi imm) s

/-- ANDI (R103). -/
def execAndi (d a : Reg) (imm : BitVec 16) (s : State) : Host.Outcome State Fault Refusal :=
  immOp 4 (tv (wordAndi d a imm)) .andi d a (widenImm .andi imm) s

/-- ORI (R103). -/
def execOri (d a : Reg) (imm : BitVec 16) (s : State) : Host.Outcome State Fault Refusal :=
  immOp 4 (tv (wordOri d a imm)) .ori d a (widenImm .ori imm) s

/-- XORI (R103). -/
def execXori (d a : Reg) (imm : BitVec 16) (s : State) : Host.Outcome State Fault Refusal :=
  immOp 4 (tv (wordXori d a imm)) .xori d a (widenImm .xori imm) s

/-- SLTI (R103). -/
def execSlti (d a : Reg) (imm : BitVec 16) (s : State) : Host.Outcome State Fault Refusal :=
  immOp 4 (tv (wordSlti d a imm)) .slti d a (widenImm .slti imm) s

/-- SLTIU (R103). -/
def execSltiu (d a : Reg) (imm : BitVec 16) (s : State) : Host.Outcome State Fault Refusal :=
  immOp 4 (tv (wordSltiu d a imm)) .sltiu d a (widenImm .sltiu imm) s

/-- SHLI (R104). -/
def execShli (d a : Reg) (n : BitVec 6) (s : State) : Host.Outcome State Fault Refusal :=
  aluOp (wordShli d a n) [0] [a] d (s.xr a <<< n.toNat) s

/-- SHRI (R104). -/
def execShri (d a : Reg) (n : BitVec 6) (s : State) : Host.Outcome State Fault Refusal :=
  aluOp (wordShri d a n) [0] [a] d (s.xr a >>> n.toNat) s

/-- SRAI (R104). -/
def execSrai (d a : Reg) (n : BitVec 6) (s : State) : Host.Outcome State Fault Refusal :=
  aluOp (wordSrai d a n) [0] [a] d ((s.xr a).sshiftRight n.toNat) s

/-- BFX (R105). -/
def execBfx (d a : Reg) (l w : BitVec 6) (s : State) : Host.Outcome State Fault Refusal :=
  issue 4 { word := tv (wordBfx d a l w), legal := fieldFits l w, caps := [0], reads := xs [a] } s fun s =>
    .ok (s.setX d (fieldExtract (s.xr a) l.toNat (w.toNat + 1)))

/-- BFI (R105). -/
def execBfi (d a : Reg) (l w : BitVec 6) (s : State) : Host.Outcome State Fault Refusal :=
  issue 4 { word := tv (wordBfi d a l w), legal := fieldFits l w, caps := [0], reads := xs [d, a] } s fun s =>
    .ok (s.setX d (fieldInsert (s.xr d) (s.xr a) l.toNat (w.toNat + 1)))

/-- ADDPC (R106). -/
def execAddpc (d : Reg) (imm : BitVec 16) (s : State) : Host.Outcome State Fault Refusal :=
  setOp 4 (tv (wordAddpc d imm)) d (s.thr.pc + imm.signExtend 64 <<< 16) s

/-- LI (R106). -/
def execLi (d : Reg) (imm : BitVec 16) (s : State) : Host.Outcome State Fault Refusal :=
  setOp 4 (tv (wordLi d imm)) d (imm.signExtend 64) s

/-- LDB (R107). -/
def execLdb (d a : Reg) (c : BitVec 2) (o : BitVec 11) (s : State) : Host.Outcome State Fault Refusal :=
  loadOp 4 (tv (wordLdb d a c o)) .ldb d a c (effAddr (s.xr a) o 1) s

/-- LDBU (R107). -/
def execLdbu (d a : Reg) (c : BitVec 2) (o : BitVec 11) (s : State) : Host.Outcome State Fault Refusal :=
  loadOp 4 (tv (wordLdbu d a c o)) .ldbu d a c (effAddr (s.xr a) o 1) s

/-- LDH (R107). -/
def execLdh (d a : Reg) (c : BitVec 2) (o : BitVec 11) (s : State) : Host.Outcome State Fault Refusal :=
  loadOp 4 (tv (wordLdh d a c o)) .ldh d a c (effAddr (s.xr a) o 2) s

/-- LDHU (R107). -/
def execLdhu (d a : Reg) (c : BitVec 2) (o : BitVec 11) (s : State) : Host.Outcome State Fault Refusal :=
  loadOp 4 (tv (wordLdhu d a c o)) .ldhu d a c (effAddr (s.xr a) o 2) s

/-- LDW (R107). -/
def execLdw (d a : Reg) (c : BitVec 2) (o : BitVec 11) (s : State) : Host.Outcome State Fault Refusal :=
  loadOp 4 (tv (wordLdw d a c o)) .ldw d a c (effAddr (s.xr a) o 4) s

/-- LDWU (R107). -/
def execLdwu (d a : Reg) (c : BitVec 2) (o : BitVec 11) (s : State) : Host.Outcome State Fault Refusal :=
  loadOp 4 (tv (wordLdwu d a c o)) .ldwu d a c (effAddr (s.xr a) o 4) s

/-- LDD (R107). -/
def execLdd (d a : Reg) (c : BitVec 2) (o : BitVec 11) (s : State) : Host.Outcome State Fault Refusal :=
  loadOp 4 (tv (wordLdd d a c o)) .ldd d a c (effAddr (s.xr a) o 8) s

/-- STB (R107). -/
def execStb (src a : Reg) (c : BitVec 2) (o : BitVec 11) (s : State) : Host.Outcome State Fault Refusal :=
  storeOp 4 (tv (wordStb src a c o)) .stb src a c (effAddr (s.xr a) o 1) s

/-- STH (R107). -/
def execSth (src a : Reg) (c : BitVec 2) (o : BitVec 11) (s : State) : Host.Outcome State Fault Refusal :=
  storeOp 4 (tv (wordSth src a c o)) .sth src a c (effAddr (s.xr a) o 2) s

/-- STW (R107). -/
def execStw (src a : Reg) (c : BitVec 2) (o : BitVec 11) (s : State) : Host.Outcome State Fault Refusal :=
  storeOp 4 (tv (wordStw src a c o)) .stw src a c (effAddr (s.xr a) o 4) s

/-- STD (R107). -/
def execStd (src a : Reg) (c : BitVec 2) (o : BitVec 11) (s : State) : Host.Outcome State Fault Refusal :=
  storeOp 4 (tv (wordStd src a c o)) .std src a c (effAddr (s.xr a) o 8) s

/-- BEQ (R110). -/
def execBeq (a b : Reg) (o : BitVec 16) (s : State) : Host.Outcome State Fault Refusal :=
  branchOp 4 (tv (wordBeq a b o)) .beq a b (target s.thr.pc o) s

/-- BNE (R110). -/
def execBne (a b : Reg) (o : BitVec 16) (s : State) : Host.Outcome State Fault Refusal :=
  branchOp 4 (tv (wordBne a b o)) .bne a b (target s.thr.pc o) s

/-- BLT (R110). -/
def execBlt (a b : Reg) (o : BitVec 16) (s : State) : Host.Outcome State Fault Refusal :=
  branchOp 4 (tv (wordBlt a b o)) .blt a b (target s.thr.pc o) s

/-- BGE (R110). -/
def execBge (a b : Reg) (o : BitVec 16) (s : State) : Host.Outcome State Fault Refusal :=
  branchOp 4 (tv (wordBge a b o)) .bge a b (target s.thr.pc o) s

/-- BLTU (R110). -/
def execBltu (a b : Reg) (o : BitVec 16) (s : State) : Host.Outcome State Fault Refusal :=
  branchOp 4 (tv (wordBltu a b o)) .bltu a b (target s.thr.pc o) s

/-- BGEU (R110). -/
def execBgeu (a b : Reg) (o : BitVec 16) (s : State) : Host.Outcome State Fault Refusal :=
  branchOp 4 (tv (wordBgeu a b o)) .bgeu a b (target s.thr.pc o) s

/-- JAL (R111). -/
def execJal (o : BitVec 26) (s : State) : Host.Outcome State Fault Refusal :=
  jumpOp 4 (tv (wordJal o)) true (target s.thr.pc o) s

/-- J (R111). -/
def execJump (o : BitVec 26) (s : State) : Host.Outcome State Fault Refusal :=
  jumpOp 4 (tv (wordJump o)) false (target s.thr.pc o) s

/-- JALR (R111). -/
def execJalr (d a : Reg) (imm : BitVec 16) (s : State) : Host.Outcome State Fault Refusal :=
  jalrOp 4 (tv (wordJalr d a imm)) d a (imm.signExtend 64) s

/-- LPX_PAIR (R69, R70, R119): the following word's instruction with its widened field, one instruction of 8 bytes. -/
def execLpxPair (l : LongInstr) (s : State) : Host.Outcome State Fault Refusal :=
  let tval := tvalOfWords (encodeLong l)
  match l with
  | .imm op d a imm => immOp 8 tval op d a (widenImm op imm) s
  | .addpc d imm => setOp 8 tval d (s.thr.pc + imm.signExtend 64 <<< 16) s
  | .li d imm => setOp 8 tval d (imm.signExtend 64) s
  | .load op d a c o => loadOp 8 tval op d a c (effAddr (s.xr a) o (LoadOp.bytes op)) s
  | .store op src a c o => storeOp 8 tval op src a c (effAddr (s.xr a) o (StoreOp.bytes op)) s
  | .branch op a b o => branchOp 8 tval op a b (target s.thr.pc o) s
  | .jal o => jumpOp 8 tval true (target s.thr.pc o) s
  | .jump o => jumpOp 8 tval false (target s.thr.pc o) s
  | .jalr d a imm => jalrOp 8 tval d a (imm.signExtend 64) s

end Sys2Proof.Machine
end

