-- ==== Sys2Proof/Machine/Atomic.lean ====
section
/-! DEFINITION. Scalar atomics (R73, R156 to R159). -/
namespace Sys2Proof.Machine

/-- Access size (R73). -/
def AtomSize.bytes : AtomSize → Nat | .w => 4 | .d => 8

/-- What an atomic writes, given the old value: nothing, or a number of `8n` bits (R156). -/
def atomNew (op : Nat) (n old b cmp : Nat) : Option Nat :=
  match op with
  | 0 => some b
  | 1 => some ((old + b) % 2 ^ (8 * n))
  | 2 => some (old &&& b)
  | 3 => some (old ||| b)
  | 4 => some (old ^^^ b)
  | 5 => some (if sext (8 * n) old ≤ sext (8 * n) b then old else b)
  | 6 => some (if sext (8 * n) b ≤ sext (8 * n) old then old else b)
  | 7 => if old = cmp then some b else none
  | 8 => none
  | _ => some b

/-- Write bytes at a place at once, as one write of the thread (R157, R165). -/
def State.writeNow (s : State) (pl : Place) (bs : List Byte) : State :=
  let counted := s.mapThr fun t => { t with stores := t.stores + 1 }
  match pl with
  | .device d => counted.perform (cellsAt d bs)
  | .localStore o =>
    { (counted.mapThr fun t => { t with localStore := t.localStore.put o bs }) with
      badReg := clearLocal s.badReg s.thr.key (cellsAt o bs) }
  | .csa o =>
    { (counted.mapThr fun t => { t with csa := t.csa.putCells ((placeCells (.csa o) 0 bs).filterMap (csaCell t.vlen)) }) with
      badCsa := clearSaved s.badCsa s.thr.key ((placeCells (.csa o) 0 bs).filterMap csaWhole) }

/-- The earlier stores of the thread that a scalar atomic of class 0 comes after for its read: all of them where it releases, and
otherwise those of the same bytes (R259, R263). -/
def atomFirst (release : Bool) (pl : Place) (n : Nat) (p : PendStore) : Bool := release || p.meets (pl.range n)

/-- Those that its write, if it makes one, comes after too: the scalar ones, and those that an earlier read took in (R259). -/
def atomThen (p : PendStore) : Bool := !p.vector || p.read

/-- A `strl` of `bs`: it joins the thread's issued stores after all of them (R156, R259, R263). -/
def State.release (s : State) (pl : Place) (bs : List Byte) : State :=
  (s.issueStore (placeCells pl 0 bs) 0 false).mapThr fun t =>
    { t with sq := t.sq.map fun p => if p.seq = t.stores then { p with after := s.thr.sq.map PendStore.name } else p }

/-- An atomic at a peer: the earlier stores that it follows performed, then one request. Whether an `amocas` there writes is
known at the peer alone, so it follows what a write follows (DEDUCED, log 32). One that may write has begun once its request
is sent. -/
def State.atomicFar (s : State) (w : BitVec 32) (release : Bool) (op n d : Nat) (ea : Word) (b : Nat) : Run (State × Nat) := do
  let s1 ← s.drainWhere fun p => atomFirst release (.device d) n p || (decide (op ≠ 8) && atomThen p)
  if op = 8 then
    let bs ← s1.askPeer 0 d n false [] ea 0
    .ok (s1, natOfBytes bs)
  else
    let s2 := s1.mapThr fun t => t.begin w [(0, .device d)]
    let bs ← s2.askPeer 1 d n true (bytesOf n b) ea 0
    .ok (s2.mapThr fun t => { t with stores := t.stores + 1 }, natOfBytes bs)

/-- An atomic at its place in the device or a window (R156): the earlier stores that it follows performed, then the read and the
write as one step. A `strl` is a store, performed after every earlier one of the thread. -/
def State.atomicNear (s : State) (release : Bool) (op n : Nat) (pl : Place) (b cmp : Nat) : Run (State × Nat) :=
  if op = 9 then .ok (s.release pl (bytesOf n b), 0)
  else do
    let s1 ← s.drainWhere (atomFirst release pl n)
    let old := natOfBytes (s1.bytesAt pl n)
    match atomNew op n old b cmp with
    | some new => do
      let s2 ← s1.drainWhere atomThen
      .ok (s2.writeNow pl (bytesOf n new), old)
    | none => .ok (s1, old)

/-- One atomic access of `n` bytes (R156): the checks of R108, the watermark stall, then the access at its home, or at the peer that
holds it (R159). One that has been sent to a peer goes on from there. -/
def State.atomic (s : State) (w : BitVec 32) (release : Bool) (op : Nat) (n : Nat) (ea : Word) (b cmp : Nat) : Run (State × Nat) :=
  match s.thr.begun? with
  | some places => s.atomicFar w release op n (Assoc.getD places 0 (.device 0)).offset ea b
  | none =>
  if ea.toNat % n ≠ 0 then raise s .align ea
  else
    match s.place (if op = 8 then .atomicRead else .atomic) ea n with
    | .error f => raiseAccess s f ea
    | .ok pl => do
      s.passWatermark [⟨ea.toNat, n⟩]
      let bad := if op = 9 then s.badStore s.thr pl n else !pl.remote && s.badData s.thr pl n
      need s (!bad) .dataErr ea
      if pl.remote && decide (op ≠ 9) then s.atomicFar w release op n pl.offset ea b else s.atomicNear release op n pl b cmp

/-- A scalar atomic: ATOMIC, held until older vector instructions commit (R236); the old value goes to xD (R156). -/
def atomOp (w : BitVec 32) (legal release : Bool) (src : List Reg) (op : Nat) (z : AtomSize) (d : Reg) (ea b cmp : Word) (s : State) :
    Host.Outcome State Fault Refusal :=
  let n := AtomSize.bytes z
  issueHeld { word := tv w, legal := legal, caps := [22], reads := xs src } s fun s => do
    let (s1, old) ← s.atomic w release op n ea (zext (8 * n) b.toNat) (zext (8 * n) cmp.toNat)
    .ok (if op = 9 then s1 else s1.setX d (sextWord (8 * n) old))

/-- AMOSWAP (R156). -/
def execAmoswap (d a b : Reg) (q l : Bool) (z : AtomSize) (e : Scope) (s : State) : Host.Outcome State Fault Refusal :=
  atomOp (wordAmoswap d a b q l z e) true l [a, b] 0 z d (s.xr a) (s.xr b) 0 s

/-- AMOADD (R156). -/
def execAmoadd (d a b : Reg) (q l : Bool) (z : AtomSize) (e : Scope) (s : State) : Host.Outcome State Fault Refusal :=
  atomOp (wordAmoadd d a b q l z e) true l [a, b] 1 z d (s.xr a) (s.xr b) 0 s

/-- AMOAND (R156). -/
def execAmoand (d a b : Reg) (q l : Bool) (z : AtomSize) (e : Scope) (s : State) : Host.Outcome State Fault Refusal :=
  atomOp (wordAmoand d a b q l z e) true l [a, b] 2 z d (s.xr a) (s.xr b) 0 s

/-- AMOOR (R156). -/
def execAmoor (d a b : Reg) (q l : Bool) (z : AtomSize) (e : Scope) (s : State) : Host.Outcome State Fault Refusal :=
  atomOp (wordAmoor d a b q l z e) true l [a, b] 3 z d (s.xr a) (s.xr b) 0 s

/-- AMOXOR (R156). -/
def execAmoxor (d a b : Reg) (q l : Bool) (z : AtomSize) (e : Scope) (s : State) : Host.Outcome State Fault Refusal :=
  atomOp (wordAmoxor d a b q l z e) true l [a, b] 4 z d (s.xr a) (s.xr b) 0 s

/-- AMOMIN (R156). -/
def execAmomin (d a b : Reg) (q l : Bool) (z : AtomSize) (e : Scope) (s : State) : Host.Outcome State Fault Refusal :=
  atomOp (wordAmomin d a b q l z e) true l [a, b] 5 z d (s.xr a) (s.xr b) 0 s

/-- AMOMAX (R156). -/
def execAmomax (d a b : Reg) (q l : Bool) (z : AtomSize) (e : Scope) (s : State) : Host.Outcome State Fault Refusal :=
  atomOp (wordAmomax d a b q l z e) true l [a, b] 6 z d (s.xr a) (s.xr b) 0 s

/-- AMOCAS (R156). -/
def execAmocas (d a b : Reg) (q l : Bool) (z : AtomSize) (e : Scope) (s : State) : Host.Outcome State Fault Refusal :=
  atomOp (wordAmocas d a b q l z e) true l [a, b, d] 7 z d (s.xr a) (s.xr b) (s.xr d) s

/-- LDAQ (R156). -/
def execLdaq (d a : Reg) (z : AtomSize) (e : Scope) (s : State) : Host.Outcome State Fault Refusal :=
  atomOp (wordLdaq d a z e) true false [a] 8 z d (s.xr a) 0 0 s

/-- STRL (R156). -/
def execStrl (a b : Reg) (z : AtomSize) (e : Scope) (s : State) : Host.Outcome State Fault Refusal :=
  atomOp (wordStrl a b z e) true true [a, b] 9 z 0 (s.xr a) (s.xr b) 0 s

end Sys2Proof.Machine
end

