-- ==== Sys2Proof/Machine/Float.lean ====
section
/-! DEFINITION. Floating-point values and their arithmetic: exact on sign, magnitude and power of two, then one rounding
(R13 to R16, R20 to R32). -/
namespace Sys2Proof.Machine

/-- Rounding modes (R20). -/
inductive RMode where | rne | rtz | rdn | rup | rna
  deriving DecidableEq, Repr

/-- The mode of a code 0 to 4 (R20). -/
def RMode.ofCode (n : Nat) : RMode :=
  match n with | 0 => .rne | 1 => .rtz | 2 => .rdn | 3 => .rup | _ => .rna

/-- A binary format with subnormals: exponent and fraction widths, bias, and the code of the largest finite value (R13). -/
structure Fmt where
  ebits : Nat
  fbits : Nat
  bias : Nat
  maxFinite : Nat
  hasInf : Bool
  /-- canonical NaN (R15); formats without NaN have none (R32) -/
  nan : Option Nat
  deriving DecidableEq, Repr

namespace Fmt
def f64 : Fmt := ⟨11, 52, 1023, 0x7FEFFFFFFFFFFFFF, true, some 0x7FF8000000000000⟩
def f32 : Fmt := ⟨8, 23, 127, 0x7F7FFFFF, true, some 0x7FC00000⟩
def f16 : Fmt := ⟨5, 10, 15, 0x7BFF, true, some 0x7E00⟩
def bf16 : Fmt := ⟨8, 7, 127, 0x7F7F, true, some 0x7FC0⟩
def e4m3 : Fmt := ⟨4, 3, 7, 0x7E, false, some 0x7F⟩
def e5m2 : Fmt := ⟨5, 2, 15, 0x7B, true, some 0x7E⟩
def e3m2 : Fmt := ⟨3, 2, 3, 0x1F, false, none⟩
def e2m3 : Fmt := ⟨2, 3, 1, 0x1F, false, none⟩
def e2m1 : Fmt := ⟨2, 1, 1, 0x7, false, none⟩
end Fmt

/-- Width in bits. -/
def Fmt.bits (f : Fmt) : Nat := 1 + f.ebits + f.fbits

/-- The code of the sign bit. -/
def Fmt.signBit (f : Fmt) : Nat := 2 ^ (f.ebits + f.fbits)

/-- Smallest normal exponent. -/
def Fmt.emin (f : Fmt) : Int := 1 - f.bias

/-- An exact number (−1)^neg × m × 2^e. -/
structure Dy where
  neg : Bool
  m : Nat
  e : Int
  deriving DecidableEq, Repr

/-- A value of a floating-point format. -/
inductive FVal where
  | nan (signalling : Bool)
  | inf (neg : Bool)
  | fin (x : Dy)
  deriving DecidableEq, Repr

/-- The value of a code (R13, R15). -/
def Fmt.unpack (f : Fmt) (c : Nat) : FVal :=
  let neg := c.testBit (f.ebits + f.fbits)
  let ex := bitsAt c f.fbits f.ebits
  let fr := c % 2 ^ f.fbits
  let mag := c % f.signBit
  if f.maxFinite < mag then
    if f.hasInf && decide (fr = 0) then .inf neg
    else .nan (f.hasInf && !fr.testBit (f.fbits - 1))
  else if ex = 0 then .fin ⟨neg, fr, f.emin - f.fbits⟩
  else .fin ⟨neg, fr + 2 ^ f.fbits, (ex : Int) - f.bias - f.fbits⟩

/-- A signed code. -/
def Fmt.signed (f : Fmt) (neg : Bool) (mag : Nat) : Nat := if neg then mag + f.signBit else mag

/-- Code of zero, infinity and the canonical NaN; +0 where the format has no NaN (R15, R32). -/
def Fmt.zero (f : Fmt) (neg : Bool) : Nat := f.signed neg 0
def Fmt.inf (f : Fmt) (neg : Bool) : Nat := f.signed neg (f.maxFinite + 1)
def Fmt.qnan (f : Fmt) : Nat := f.nan.getD 0

/-- Whether a magnitude n + rem / 2^shift rounds up to n + 1 (R20). -/
def roundsUp (mode : RMode) (neg : Bool) (n rem shift : Nat) : Bool :=
  match mode with
  | .rne => decide (2 ^ shift < 2 * rem) || (decide (2 * rem = 2 ^ shift) && decide (n % 2 = 1))
  | .rtz => false
  | .rdn => neg && decide (rem ≠ 0)
  | .rup => !neg && decide (rem ≠ 0)
  | .rna => decide (2 ^ shift ≤ 2 * rem) && decide (rem ≠ 0)

/-- A nonzero magnitude m × 2^e in units of 2^q, rounded, and whether bits were lost (R20). -/
def roundTo (mode : RMode) (neg : Bool) (m : Nat) (e q : Int) : Nat × Bool :=
  if q ≤ e then (m * 2 ^ (e - q).toNat, false)
  else
    let sh := (q - e).toNat
    let n := m / 2 ^ sh
    let rem := m % 2 ^ sh
    (if roundsUp mode neg n rem sh then n + 1 else n, decide (rem ≠ 0))

/-- The result of an overflow in a floating-point format (R22). -/
def Fmt.overflow (f : Fmt) (mode : RMode) (neg : Bool) : Nat :=
  if f.hasInf then
    match mode, neg with
    | .rne, _ | .rna, _ => f.inf neg
    | .rtz, _ => f.signed neg f.maxFinite
    | .rdn, true => f.inf true
    | .rdn, false => f.maxFinite
    | .rup, true => f.signed true f.maxFinite
    | .rup, false => f.inf false
  else f.signed neg f.maxFinite

/-- `Round(x, fmt, mode)` of an exact value and the flags it raises (R21 to R23). -/
def Fmt.round (f : Fmt) (mode : RMode) (x : Dy) : Nat × Flags :=
  if x.m = 0 then (f.zero x.neg, 0)
  else
    let top : Int := (Nat.log2 x.m : Int) + x.e
    let q := max (top - f.fbits) (f.emin - f.fbits)
    let (n, lost) := roundTo mode x.neg x.m x.e q
    let code := (q - (f.emin - f.fbits)).toNat * 2 ^ f.fbits + n
    if f.maxFinite < code then (f.overflow mode x.neg, Flags.of ||| Flags.nx)
    else
      let tiny := decide (top < f.emin - 1) ||
        (decide (top = f.emin - 1) && decide ((roundTo mode x.neg x.m x.e (top - f.fbits)).1 < 2 ^ (f.fbits + 1)))
      (f.signed x.neg code,
        (if lost then Flags.nx else 0) ||| (if lost && tiny then Flags.uf else 0))

/-- Round a value of any kind; a NaN becomes the canonical NaN (R27), or +0 with NV where there is none (R32), and an
infinity saturates where there is none (R22). A signalling NaN sets NV. -/
def Fmt.roundVal (f : Fmt) (mode : RMode) : FVal → Nat × Flags
  | .nan s => (f.qnan, if s || f.nan.isNone then Flags.nv else 0)
  | .inf neg => if f.hasInf then (f.inf neg, 0) else (f.signed neg f.maxFinite, Flags.of ||| Flags.nx)
  | .fin x => f.round mode x

/-- An integer as an exact number. -/
def Dy.ofInt (i : Int) : Dy := ⟨decide (i < 0), i.natAbs, 0⟩

/-- Signed magnitude over a common power of two. -/
def Dy.scaled (x : Dy) (e : Int) : Int :=
  let n : Int := (x.m * 2 ^ (x.e - e).toNat : Nat)
  if x.neg then -n else n

/-- The exact sum; a zero sum takes the sign of R21. -/
def Dy.add (mode : RMode) (x y : Dy) : Dy :=
  let e := min x.e y.e
  let s := x.scaled e + y.scaled e
  if s = 0 then
    if x.m = 0 && y.m = 0 && x.neg = y.neg then ⟨x.neg, 0, 0⟩ else ⟨decide (mode = .rdn), 0, 0⟩
  else ⟨decide (s < 0), s.natAbs, e⟩

/-- The exact product (R21 gives the sign of a zero). -/
def Dy.mul (x y : Dy) : Dy := ⟨x.neg != y.neg, x.m * y.m, x.e + y.e⟩

/-- The opposite. -/
def Dy.opp (x : Dy) : Dy := { x with neg := !x.neg }

/-- The order of exact values. -/
def Dy.lt (x y : Dy) : Bool := let e := min x.e y.e; decide (x.scaled e < y.scaled e)
def Dy.eq (x y : Dy) : Bool := let e := min x.e y.e; decide (x.scaled e = y.scaled e)

/-- A quotient with `k` extra bits and a sticky bit below them: it rounds as the exact quotient does. -/
def Dy.div (p : Nat) (x y : Dy) : Dy :=
  let k := p + 4 + Nat.log2 y.m
  let n := x.m * 2 ^ k
  ⟨x.neg != y.neg, 2 * (n / y.m) + (if n % y.m = 0 then 0 else 1), x.e - y.e - k - 1⟩

/-- The floor of a square root, one bit at a time from bit `k - 1` down. -/
def isqrtFrom (n : Nat) : Nat → Nat → Nat
  | 0, r => r
  | k + 1, r => let t := r + 2 ^ k; isqrtFrom n k (if t * t ≤ n then t else r)

/-- The floor of a square root. -/
def isqrt (n : Nat) : Nat := isqrtFrom n (Nat.log2 n / 2 + 1) 0

/-- A square root with extra bits and a sticky bit. -/
def Dy.sqrt (p : Nat) (x : Dy) : Dy :=
  let odd : Nat := if x.e % 2 = 0 then 0 else 1
  let k := p + 4
  let n := x.m * 2 ^ (2 * k + odd)
  let r := isqrt n
  ⟨false, 2 * r + (if r * r = n then 0 else 1), (x.e - odd) / 2 - k - 1⟩

/-- The sum of two values, rounded once (R21, R26, R27). -/
def Fmt.addVal (f : Fmt) (mode : RMode) : FVal → FVal → Nat × Flags
  | .nan s, .nan t => (f.qnan, if s || t then Flags.nv else 0)
  | .nan s, _ => (f.qnan, if s then Flags.nv else 0)
  | _, .nan t => (f.qnan, if t then Flags.nv else 0)
  | .inf a, .inf b => if a = b then (f.inf a, 0) else (f.qnan, Flags.nv)
  | .inf a, _ => (f.inf a, 0)
  | _, .inf b => (f.inf b, 0)
  | .fin x, .fin y => f.round mode (x.add mode y)

/-- A product before rounding, and the flags it raises (R26). -/
def mulVal : FVal → FVal → FVal × Flags
  | .nan s, .nan t => (.nan false, if s || t then Flags.nv else 0)
  | .nan s, _ => (.nan false, if s then Flags.nv else 0)
  | _, .nan t => (.nan false, if t then Flags.nv else 0)
  | .inf a, .inf b => (.inf (a != b), 0)
  | .inf a, .fin y => if y.m = 0 then (.nan false, Flags.nv) else (.inf (a != y.neg), 0)
  | .fin x, .inf b => if x.m = 0 then (.nan false, Flags.nv) else (.inf (x.neg != b), 0)
  | .fin x, .fin y => (.fin (x.mul y), 0)

/-- The opposite of a value. -/
def FVal.opp : FVal → FVal
  | .nan s => .nan s
  | .inf a => .inf (!a)
  | .fin x => .fin x.opp

def Fmt.add (f : Fmt) (mode : RMode) (a b : Nat) : Nat × Flags := f.addVal mode (f.unpack a) (f.unpack b)
def Fmt.sub (f : Fmt) (mode : RMode) (a b : Nat) : Nat × Flags := f.addVal mode (f.unpack a) (f.unpack b).opp

/-- a × b, rounded once (R26). -/
def Fmt.mul (f : Fmt) (mode : RMode) (a b : Nat) : Nat × Flags :=
  let (v, g) := mulVal (f.unpack a) (f.unpack b)
  let (r, h) := f.roundVal mode v
  (r, g ||| h)

/-- a × b + c of values, rounded once (R26, R30). -/
def Fmt.fmaVal (f : Fmt) (mode : RMode) (a b c : FVal) : Nat × Flags :=
  let (v, g) := mulVal a b
  let (r, h) := f.addVal mode v c
  (r, g ||| h)

def Fmt.fma (f : Fmt) (mode : RMode) (a b c : Nat) : Nat × Flags :=
  f.fmaVal mode (f.unpack a) (f.unpack b) (f.unpack c)

/-- a / b (R26). -/
def Fmt.div (f : Fmt) (mode : RMode) (a b : Nat) : Nat × Flags :=
  match f.unpack a, f.unpack b with
  | .nan s, .nan t => (f.qnan, if s || t then Flags.nv else 0)
  | .nan s, _ => (f.qnan, if s then Flags.nv else 0)
  | _, .nan t => (f.qnan, if t then Flags.nv else 0)
  | .inf _, .inf _ => (f.qnan, Flags.nv)
  | .inf x, .fin y => (f.inf (x != y.neg), 0)
  | .fin x, .inf y => (f.zero (x.neg != y), 0)
  | .fin x, .fin y =>
    if y.m = 0 then if x.m = 0 then (f.qnan, Flags.nv) else (f.inf (x.neg != y.neg), Flags.dz)
    else f.round mode (x.div f.fbits y)

/-- Square root (R26). -/
def Fmt.sqrt (f : Fmt) (mode : RMode) (a : Nat) : Nat × Flags :=
  match f.unpack a with
  | .nan s => (f.qnan, if s then Flags.nv else 0)
  | .inf neg => if neg then (f.qnan, Flags.nv) else (f.inf false, 0)
  | .fin x => if x.m = 0 then (f.zero x.neg, 0) else if x.neg then (f.qnan, Flags.nv) else f.round mode (x.sqrt f.fbits)

/-- True of a NaN, and of a signalling one. -/
def FVal.isNan : FVal → Bool | .nan _ => true | _ => false
def FVal.isSignalling : FVal → Bool | .nan s => s | _ => false

/-- The order of values that are not NaN; −0 and +0 are equal. -/
def FVal.lt : FVal → FVal → Bool
  | .inf a, .inf b => a && !b
  | .inf a, .fin _ => a
  | .fin _, .inf b => !b
  | .fin x, .fin y => x.lt y
  | _, _ => false

def FVal.eq : FVal → FVal → Bool
  | .inf a, .inf b => a = b
  | .fin x, .fin y => x.eq y
  | _, _ => false

def FVal.isNeg : FVal → Bool | .nan _ => false | .inf a => a | .fin x => x.neg

/-- Comparisons (R29): equality is quiet, the others set NV for any NaN; a NaN makes each false. -/
def Fmt.feq (f : Fmt) (a b : Nat) : Bool × Flags :=
  let x := f.unpack a; let y := f.unpack b
  (x.eq y, if x.isSignalling || y.isSignalling then Flags.nv else 0)
def Fmt.flt (f : Fmt) (a b : Nat) : Bool × Flags :=
  let x := f.unpack a; let y := f.unpack b
  (x.lt y, if x.isNan || y.isNan then Flags.nv else 0)
def Fmt.fle (f : Fmt) (a b : Nat) : Bool × Flags :=
  let x := f.unpack a; let y := f.unpack b
  (x.lt y || x.eq y, if x.isNan || y.isNan then Flags.nv else 0)

/-- minimumNumber and maximumNumber (R28): the chosen operand's bits, −0 below +0. -/
def Fmt.minmax (f : Fmt) (isMax : Bool) (a b : Nat) : Nat × Flags :=
  let x := f.unpack a; let y := f.unpack b
  let g := if x.isSignalling || y.isSignalling then Flags.nv else 0
  if x.isNan && y.isNan then (f.qnan, g)
  else if x.isNan then (b, g)
  else if y.isNan then (a, g)
  else
    let aBelow := x.lt y || (x.eq y && x.isNeg && !y.isNeg)
    (if aBelow != isMax then a else b, g)

/-- The class mask (R16). -/
def Fmt.classify (f : Fmt) (a : Nat) : Nat :=
  match f.unpack a with
  | .nan s => if s then 2 ^ 8 else 2 ^ 9
  | .inf neg => if neg then 2 ^ 0 else 2 ^ 7
  | .fin x =>
    if x.m = 0 then (if x.neg then 2 ^ 3 else 2 ^ 4)
    else if x.m < 2 ^ f.fbits then (if x.neg then 2 ^ 2 else 2 ^ 5)
    else (if x.neg then 2 ^ 1 else 2 ^ 6)

/-- An exact value rounded to an integer, and whether it was inexact (R20). -/
def Dy.toInt (mode : RMode) (x : Dy) : Int × Bool :=
  let (n, lost) := roundTo mode x.neg x.m x.e 0
  (if x.neg then -(n : Int) else n, lost)

/-- A value converted to an integer in `lo` to `hi` (R22, R31). -/
def toIntRange (mode : RMode) (lo hi : Int) : FVal → Int × Flags
  | .nan _ => (hi, Flags.nv)
  | .inf neg => (if neg then lo else hi, Flags.nv)
  | .fin x =>
    let (i, lost) := x.toInt mode
    if i < lo then (lo, Flags.nv) else if hi < i then (hi, Flags.nv) else (i, if lost then Flags.nx else 0)

/-- One format to another (R31, R32). -/
def Fmt.convert (src dst : Fmt) (mode : RMode) (a : Nat) : Nat × Flags := dst.roundVal mode (src.unpack a)

/-- Sign injection (R27, R116): the bits of `a` with a new sign. -/
def Fmt.withSign (f : Fmt) (a : Nat) (neg : Bool) : Nat := f.signed neg (a % f.signBit)
def Fmt.signOf (f : Fmt) (a : Nat) : Bool := a.testBit (f.ebits + f.fbits)

end Sys2Proof.Machine
end

