-- ==== Sys2Proof/Machine/Operands.lean ====
section
/-! DEFINITION. Vector and predicate operands: groups and their checks (R48, R49, R122, R123), elements (R9), writing a
destination under mask and tail (R120, R136), and issuing an element-wise instruction (R121, R124). -/
namespace Sys2Proof.Machine

/-! ### VTYPE of a thread (R50) -/

def Thread.sew (t : Thread) : Nat := vtSew t.vtype
def Thread.sew2 (t : Thread) : Nat := vtSew2 t.vtype
def Thread.grp (t : Thread) : Nat := vtGrp t.vtype
def Thread.vfrm (t : Thread) : RMode := RMode.ofCode (vtFrm t.vtype)

/-- The format of elements of `w` bits; H16 selects BF16 (R130). -/
def vecFmt (h16 : Bool) (w : Nat) : Fmt :=
  if w = 64 then Fmt.f64 else if w = 32 then Fmt.f32 else if h16 then Fmt.bf16 else Fmt.f16
def Thread.fmt (t : Thread) : Fmt := vecFmt (vtH16 t.vtype) t.sew
def Thread.fmt2 (t : Thread) : Fmt := vecFmt (vtH16 t.vtype) t.sew2

/-- The capability of vector floating point at an element width (R71). -/
def fpCap (w : Nat) : Nat := if w = 64 then 7 else if w = 32 then 6 else 5

/-! ### Register groups (R48, R49, R122, R123) -/

/-- A register operand: its first register, how many it takes, what the first must be a multiple of, the width of its elements,
and, where these are not the active ones, the elements that the instruction reads. Width 0 says that it is read whole. -/
structure VOp where
  base : Nat
  count : Nat
  align : Nat
  width : Nat := 0
  elems : Option (List Nat) := none
  deriving DecidableEq, Repr

def VOp.legal (o : VOp) : Bool := decide (o.base % o.align = 0 ∧ o.base + o.count ≤ 32)

/-- An operand of which the instruction reads the elements of a list. -/
def VOp.reading (o : VOp) (l : List Nat) : VOp := { o with elems := some l }

/-- One register whose elements of a width are read at the places of a list. -/
def oneOf (r w : Nat) (l : List Nat) : VOp := ⟨r, 1, 1, w, some l⟩

/-- The registers of an operand as the instruction reads them, the elements of a list being active (R390). -/
def VOp.reads (o : VOp) (vlen : Nat) (act : List Nat) : List RegRead :=
  (List.range o.count).map fun k =>
    { reg := 32 + o.base + k, w := o.width, first := k * (vlen / o.width), elems := o.elems.getD act }

/-- One register with no alignment rule. -/
def one (r : Nat) : VOp := { base := r, count := 1, align := 1 }

/-- An ordinary operand, a group of GRP registers. -/
def Thread.own (t : Thread) (r : Reg) : VOp := { base := r.toNat, count := t.grp, align := t.grp, width := t.sew }

/-- An operand at SEW2 (R123). -/
def Thread.second (t : Thread) (r : Reg) : VOp :=
  if t.sew ≤ t.grp * t.sew2 then
    { base := r.toNat, count := t.grp * t.sew2 / t.sew, align := t.grp * t.sew2 / t.sew, width := t.sew2 }
  else { one r.toNat with width := t.sew2 }

/-- The registers of a vector instruction: its word, legality beyond its registers, capabilities, and the vector registers
it writes and reads, the predicates it writes and reads, and the x registers it reads. -/
structure VArgs where
  word : BitVec 32
  legal : Bool := true
  caps : List Nat
  dst : List VOp := []
  src : List VOp := []
  pdst : List Reg := []
  psrc : List Reg := []
  xsrc : List Reg := []
  always : Bool := false

/-- A predicate that may be named: p0, or one below PREGS (R49). -/
def Thread.predDeclared (t : Thread) (p : Reg) : Bool := decide (p.toNat = 0 ∨ p.toNat < t.hdr.pregs)

/-- Bit `i` of a predicate; p0 reads all ones (R44). -/
def Thread.pbit (t : Thread) (p : Reg) (i : Nat) : Bool := decide (p = 0) || (t.p[p.toNat]?.getD 0).getLsbD i

/-- The indices of the active elements, rising. -/
def Thread.actives (t : Thread) (p : Reg) : List Nat := (List.range t.vl).filter (t.pbit p)

/-- R80 steps 2 and 3 of a vector instruction. With VL = 0 it reads nothing (R121), unless `always`; of a predicate it reads the
bits below VL, and of a group the elements that the mask, its first predicate, makes active, unless the operand says otherwise. -/
def Thread.vreq (t : Thread) (a : VArgs) : Req :=
  { word := tv a.word
    legal := a.legal && (a.dst ++ a.src).all VOp.legal && a.pdst.all isPredDest && a.psrc.all isPred
    declared := (a.dst ++ a.src).all (fun o => decide (o.base + o.count ≤ t.hdr.vregs)) &&
      (a.pdst ++ a.psrc).all t.predDeclared
    caps := a.caps
    reads := if t.vl = 0 && !a.always then []
      else xs a.xsrc ++ a.src.flatMap (fun o => o.reads t.vlen (t.actives (a.psrc.headD 0))) ++
        (a.psrc.filter fun p => decide (p ≠ 0)).map fun p =>
          { reg := 64 + p.toNat, w := 1, elems := List.range t.vl } }

/-! ### Elements (R9) -/

/-- `Elem(v, i, w)`. -/
def Thread.elem (t : Thread) (v i w : Nat) : Nat :=
  bitsAt (t.v[v + i * w / t.vlen]?.getD 0).toNat (i * w % t.vlen) w

/-- `Active(i)`. -/
def Thread.active (t : Thread) (p : Reg) (i : Nat) : Bool := decide (i < t.vl) && t.pbit p i

/-- Elements of `w` bits packed from the lowest. -/
def packElems (w : Nat) : List Nat → Nat
  | [] => 0
  | e :: es => e % 2 ^ w + 2 ^ w * packElems w es

/-- The registers from `base` on with element `i` of width `w` holding `f i`, `g` registers in all. -/
def Thread.putElems (t : Thread) (base w : Nat) (f : Nat → Nat) : Nat → Thread
  | 0 => t
  | g + 1 =>
    let per := t.vlen / w
    let u := t.putElems base w f g
    { u with v := u.v.setIfInBounds (base + g)
               (BitVec.ofNat 16384 (packElems w ((List.range per).map fun j => f (g * per + j)))) }

/-- What element `i` becomes (R120). -/
def Thread.newElem (t : Thread) (v w i : Nat) (act : Bool) (r : Nat) : Nat :=
  if i < t.vl then
    if act then r else if vtMz t.vtype then 0 else t.elem v i w
  else if vtTz t.vtype then 0 else t.elem v i w

/-- Write a destination group at SEW under R120; `act` says which elements below VL are active. -/
def Thread.writeVec (t : Thread) (v : Nat) (act : Nat → Bool) (res : Nat → Nat) : Thread :=
  t.putElems v t.sew (fun i => t.newElem v t.sew i (act i) (res i)) t.grp

/-- Write a predicate destination under R136. -/
def Thread.writePred (t : Thread) (pd : Reg) (act : Nat → Bool) (res : Nat → Bool) : Thread :=
  let old (i : Nat) : Bool := (t.p[pd.toNat]?.getD 0).getLsbD i
  let new (i : Nat) : Bool :=
    if i < t.vl then if act i then res i else if vtMz t.vtype then false else old i
    else if vtTz t.vtype then false else old i
  { t with p := t.p.setIfInBounds pd.toNat
             (BitVec.ofNat 2048 (packElems 1 ((List.range (t.vlen / 8)).map fun i => if new i then 1 else 0))) }

/-- The flags of the active elements ORed into FCSR (R25). -/
def Thread.raiseFlags (t : Thread) (act : Nat → Bool) (fl : Nat → Flags) : Thread :=
  { t with fcsr := fcsrRaise t.fcsr (orFlags (((List.range t.vl).filter act).map fl)) }

/-! ### The second operand -/

/-- Where the second operand comes from (R128): a group at SEW, an x register, or an immediate, signed or unsigned. -/
inductive VSrc where
  | vec (r : Reg)
  | x (r : Reg)
  | imm (n : Reg)
  | uimm (n : Reg)
  deriving DecidableEq, Repr

def VSrc.ops (b : VSrc) (t : Thread) : List VOp := match b with | .vec r => [t.own r] | _ => []
def VSrc.xregs (b : VSrc) : List Reg := match b with | .x r => [r] | _ => []

/-- The second operand of element `i`, at SEW (R128). -/
def VSrc.value (b : VSrc) (t : Thread) (i : Nat) : Nat :=
  match b with
  | .vec r => t.elem r.toNat i t.sew
  | .x r => zext t.sew (t.xr r).toNat
  | .imm n => wrap t.sew (sext 5 n.toNat)
  | .uimm n => n.toNat

/-! ### Issuing -/

/-- Issue a vector instruction that VL governs: with VL = 0 it only passes R80 steps 1 to 4 (R121). -/
def issueVl (a : VArgs) (s : State) (body : State → Run State) : Host.Outcome State Fault Refusal :=
  issueVector (s.thr.vreq a) s fun s => if s.thr.vl = 0 then .ok s else body s

/-- An element-wise instruction: a value of SEW bits and flags for each active element (R120, R25). -/
def elemOp (a : VArgs) (d p : Reg) (res : Thread → Nat → Nat × Flags) (s : State) : Host.Outcome State Fault Refusal :=
  issueVl a s fun s => .ok (s.mapThr fun t =>
    (t.writeVec d.toNat (t.pbit p) fun i => (res t i).1).raiseFlags (t.pbit p) fun i => (res t i).2)

/-- An instruction that writes a predicate (R136, R25). -/
def predOp (a : VArgs) (d p : Reg) (res : Thread → Nat → Bool × Flags) (s : State) : Host.Outcome State Fault Refusal :=
  issueVl a s fun s => .ok (s.mapThr fun t =>
    (t.writePred d (t.pbit p) fun i => (res t i).1).raiseFlags (t.pbit p) fun i => (res t i).2)

end Sys2Proof.Machine
end

