-- ==== Sys2Proof/Machine/Tethers.lean ====
section
/-! DEFINITION. The tether table: tokens and generations (R183, R272), quotas (R273), final states and what follows from one
(R193, R252, R274, R340, R343), retirement (R278), and cancelling (R191). -/
namespace Sys2Proof.Machine

/-! ### Codes (R183, R190) -/

def TKind.code : TKind → Nat | .kernel => 0 | .mma => 1 | .bload => 2 | .copy => 3 | .coll => 4
def TState.code : TState → Nat | .queued => 0 | .running => 1 | .done => 2 | .faulted => 3 | .cancelled => 4
def TCause.code : TCause → Nat
  | .none => 0 | .xlate => 1 | .protect => 2 | .align => 3 | .bounds => 4 | .dataErr => 5 | .format => 6 | .residue => 7
  | .peer => 8 | .pred => 9 | .cancel => 10

/-- The token of a tether (R183). -/
def tetherToken (t : Tether) : Word :=
  BitVec.ofNat 64 (t.index + t.die * 2 ^ 12 + t.gen.toNat * 2 ^ 16 + TKind.code t.kind * 2 ^ 32)

/-- True of a final state (R274). -/
def tetherFinal (t : Tether) : Bool := match t.state with | .queued | .running => false | _ => true

/-- True of FAULTED and CANCELLED. -/
def tetherFailed (t : Tether) : Bool := match t.state with | .faulted | .cancelled => true | _ => false

/-- Selector 0 of `tstat` (R190). -/
def tetherStat (t : Tether) : Word :=
  BitVec.ofNat 64 (TCause.code t.cause * 2 ^ 12 + TKind.code t.kind * 2 ^ 8 + (if t.detached then 2 ^ 7 else 0) +
    t.prio.toNat * 2 ^ 4 + (if t.delivered then 2 ^ 3 else 0) + TState.code t.state)

/-! ### Lookup -/

/-- The tether that a token names on the device, whatever its process. -/
def State.tetherAny? (s : State) (tok : Word) : Option Tether := s.tethers.find? fun t => decide (tetherToken t = tok)

/-- The tether that a token names for a process; none is STALE (R183). -/
def State.tether? (s : State) (part pr : Nat) (tok : Word) : Option Tether :=
  s.tethers.find? fun t => decide (tetherToken t = tok ∧ t.part = part ∧ t.proc = pr)

/-- The tether that a token names for the thread that has the turn. -/
def State.myTether? (s : State) (tok : Word) : Option Tether := s.tether? s.thr.key.part s.thr.key.proc tok

def State.mapTether (s : State) (tok : Word) (f : Tether → Tether) : State :=
  { s with tethers := s.tethers.map fun t => if tetherToken t = tok then f t else t }

def State.mapThreads (s : State) (f : Thread → Thread) : State := { s with thr := f s.thr, others := s.others.map f }

/-- Device counters of a die that count a source (R404). -/
def State.devCount (s : State) (die code k : Nat) : State :=
  { s with devCnt := (List.range 16).foldl (fun l n =>
      if (Assoc.getD s.devSel (die, n) 0).toNat = code then
        Assoc.put l (die, n) (Assoc.getD l (die, n) 0 + BitVec.ofNat 64 k) else l) s.devCnt }

/-! ### Entries, generations, quotas (R272, R273, R375) -/

def State.genOf (s : State) (die i : Nat) : BitVec 16 := Assoc.getD s.gens (die, i) 1
def nextGen (g : BitVec 16) : BitVec 16 := if g = 0xFFFF then 1 else g + 1

/-- A partition's quota of entries on a die (R375). -/
def Partition.quotaOf (p : Partition) (die : Nat) : Nat := bitsAt p.quota.toNat (16 * die) 13

/-- Entries that a partition holds on a die. -/
def State.entriesOf (s : State) (part die : Nat) : Nat := (s.tethers.filter fun t => decide (t.part = part ∧ t.die = die)).length

/-- The free entries of a die's table. -/
def State.freeEntries (s : State) (die : Nat) : List Nat :=
  let used := (s.tethers.filter fun t => decide (t.die = die)).map Tether.index
  (List.range 4096).filter fun i => !used.contains i

/-- True when a partition may take an entry on a die (R273). -/
def State.tableRoom (s : State) (part die : Nat) : Bool :=
  decide (s.entriesOf part die < (s.part part).quotaOf die) && !(s.freeEntries die).isEmpty

/-- A new tether in a free entry of its die, QUEUED; the entry is a free choice (R272). -/
def State.addTether (s : State) (t : Tether) : State × Word :=
  let (i, s1) := s.choose (s.freeEntries t.die) 0
  let u := { t with index := i, gen := s.genOf t.die i, arrival := s1.clock }
  ({ s1 with tethers := s1.tethers ++ [u], clock := s1.clock + 1 }, tetherToken u)

/-- A tether with nothing in it. -/
def Tether.blank (kind : TKind) (part pr die : Nat) (issuer : ThreadKey) (core : CoreId) : Tether :=
  { die := die, index := 0, gen := 1, kind := kind, state := .queued, cause := .none, prio := 0, detached := false,
    detacher := none, owner := none, delivered := false, part := part, proc := pr, issuer := issuer, core := core, ops := (0, 0, 0),
    layout := [], preds := [], arrival := 0, cancelling := false, fenced := false, suspended := false, rowEnded := false, byPeer := false, progress := 0,
    addr := 0, flags := 0, clamps := 0, node := 0, work := [], partialChunk := [], packets := [],
    peerData := [], launch := none }

/-! ### Copy channels (R185, R249, R252) -/

/-- The channel that a COPY names. -/
def copyChannel (t : Tether) : Nat := t.ops.2.2.toNat % 16

/-- True of a COPY whose destination lies in its issuer's window, which takes no channel (R249). -/
def toWindow (t : Tether) : Bool := decide (t.kind = .copy ∧ localBase ≤ t.ops.2.1.toNat ∧ t.ops.2.1.toNat < 2 ^ 49)

def State.channel? (s : State) (c : CoreId) (n : Nat) : Option Channel := Assoc.get? (s.core c).channels n
def State.putChannel (s : State) (c : CoreId) (n : Nat) (x : Channel) : State :=
  let k := s.core c
  s.setCore c { k with channels := Assoc.put k.channels n x }

/-- True while a COPY fills a channel. -/
def Core.filling (k : Core) (n : Nat) : Bool :=
  match Assoc.get? k.channels n with | some c => decide (c.state = .filling) | none => false

/-- The saved FILLING channels of a partition whose places are free return to them, and their tethers go on when it runs (R252, R280,
R367; DEDUCED, log 77). -/
def State.returnChannels (s : State) (part : Nat) : List (CoreId × Nat × Channel) → State
  | [] => s
  | (c, n, x) :: r =>
    if (s.core c).filling n then s.returnChannels part r
    else
      let p := s.part part
      let s1 := (s.putChannel c n x).setPart part { p with savedChannels := p.savedChannels.filter fun e => decide (e ≠ (c, n, x)) }
      (s1.mapTether x.token fun t => { t with suspended := t.suspended && !p.run }).returnChannels part r

/-- The channels that partitions which are not swapped out have in the shadow storage return as far as they can. -/
def State.returnAll (s : State) : State :=
  (List.range 16).foldl (fun u p => if (u.part p).swappedOut then u else u.returnChannels p (u.part p).savedChannels) s

/-- The saved channel of a COPY that ends is given up. -/
def State.dropSavedChannel (s : State) (part : Nat) (tok : Word) : State :=
  let p := s.part part
  if p.savedChannels.any fun e => decide (e.2.2.token = tok) then
    s.setPart part { p with savedChannels := p.savedChannels.filter fun e => decide (e.2.2.token ≠ tok) }
  else s

/-- The channel of a COPY that ends becomes KEPT at its watermark, or IDLE when its process has ended or its partition has left the
core (R252). -/
def State.keepChannel (s : State) (t : Tether) : State :=
  if t.kind = .copy ∧ toWindow t = false ∧ t.state = .running then
    let s := s.dropSavedChannel t.part (tetherToken t)
    match s.channel? t.core (copyChannel t) with
    | some c =>
      if c.token = tetherToken t then
        (s.putChannel t.core (copyChannel t)
          { c with
            state := if (s.proc t.part t.proc).live && (s.core t.core).banks.toList.contains (some t.part) then .kept else .idle
            mark := t.progress }).returnAll
      else s
    | none => s
  else s

/-! ### Retirement (R272, R278) -/

/-- Bytes of a COPY's destination that have arrived for its bindings (R175, R176). -/
def copyArrived (t : Tether) (len : Nat) : Nat :=
  match t.state with
  | .queued => 0
  | .done => len
  | .running => if toWindow t then 0 else t.progress
  | _ => t.progress

/-- Bindings of a tether that retires keep what had arrived. -/
def freezeBinds (t : Tether) (u : Thread) : Thread :=
  if t.kind = .copy ∧ u.key.part = t.part ∧ u.key.proc = t.proc then
    { u with binds := u.binds.map fun (q, b) =>
        (q, if b.token = tetherToken t ∧ b.final = none then { b with final := some (copyArrived t b.len) } else b) }
  else u

/-- A tether retires: its entry is free and its generation advances (R272). -/
def State.retire (s : State) (tok : Word) : State :=
  match s.tetherAny? tok with
  | none => s
  | some t =>
    let s1 := s.mapThreads (freezeBinds t)
    { s1 with tethers := s1.tethers.filter fun u => decide (tetherToken u ≠ tok),
              gens := Assoc.put s1.gens (t.die, t.index) (nextGen t.gen) }

/-- A tether of a process that has ended retires once it is final; one from a launch FIFO waits for FPOP (R279, R340). -/
def State.reap (s : State) (tok : Word) : State :=
  match s.tetherAny? tok with
  | some t =>
    if tetherFinal t && !(s.proc t.part t.proc).live && !((t.launch.map Launch.fromFifo).getD false) then s.retire tok else s
  | none => s

/-! ### Ends (R274, R193, R340, R343) -/

/-- The KERNEL_END entry of a launch from the launch FIFO (R340, R351). -/
def State.kernelEnd (s : State) (t : Tether) : State :=
  match t.launch with
  | some l =>
    if l.fromFifo then
      s.report t.part { w0 := fifoW0 1 t.die (some t.proc) none, w1 := tetherToken t, w2 := tetherStat t, w3 := t.addr }
    else s
  | none => s

/-- Bursts that wait in re-sequencing queues for a tether are discarded (R381). -/
def State.dropBursts (s : State) (tok : Word) : State :=
  let f (p : Port) : Port := { p with reseq := p.reseq.filter fun b => decide (b.1 ≠ tok) }
  { s with ports := s.ports.map fun e => (e.1, f e.2) }

/-- A tether takes a final state, and bursts that wait for it are discarded (R381); nothing else follows yet. -/
def State.finishOne (s : State) (tok : Word) (st : TState) (c : TCause) : State :=
  match s.tetherAny? tok with
  | none => s
  | some t =>
    if tetherFinal t then s
    else
      let s1 := s.keepChannel t
      let s1 := s1.dropBursts tok
      let u := { t with state := st, cause := c, cancelling := false, suspended := false, rowEnded := false, work := [], packets := [], peerData := [] }
      (s1.mapTether tok fun _ => u).kernelEnd u

/-- A QUEUED tether with a predecessor that failed, if there is one. -/
def State.brokenPred (s : State) : Option Tether :=
  s.tethers.find? fun t => decide (t.state = .queued) &&
    t.preds.any fun p => match s.tether? t.part t.proc p with | some q => tetherFailed q | none => false

/-- Every QUEUED tether behind a failed predecessor becomes CANCELLED with cause PRED (R193, R274, R343). -/
def State.settlePreds (s : State) : Nat → State
  | 0 => s
  | n + 1 =>
    match s.brokenPred with
    | some t => (s.finishOne (tetherToken t) .cancelled .pred).settlePreds n
    | none => s

/-- A tether ends (R274), with what follows for those behind it and, in a process that has ended, for itself (R279). -/
def State.finish (s : State) (tok : Word) (st : TState) (c : TCause) : State :=
  let s1 := s.finishOne tok st c
  (s1.settlePreds s1.tethers.length).reap tok

/-- A tether ends FAULTED with an address, flags and a node (R190), unless it is final already (R274, R275). -/
def State.faultTether (s : State) (tok : Word) (c : TCause) (addr : Word) (node : Nat := 0) : State :=
  (s.mapTether tok fun t => if tetherFinal t then t else { t with addr := addr, node := node }).finish tok .faulted c

/-- The cause in a tether's record of a failed check of an engine. -/
def tetherCause : TrapCause → TCause
  | .xlate => .xlate | .protect => .protect | .align => .align | .bounds => .bounds | _ => .dataErr

/-! ### Cancelling (R191, R274, R277) -/

/-- True while a peer owes an answer to a tether for units that satisfy `f` (R380). -/
def State.owes (s : State) (tok : Word) (f : PeerReq → Nat → Bool) : Bool :=
  s.requests.any fun r => match r.who with | .tether k u => decide (k = tok) && f r u | _ => false

/-- True while a peer has not acknowledged a write of a tether. -/
def State.writesOpen (s : State) (tok : Word) : Bool := s.owes tok fun r _ => r.write

/-- True at a boundary of R277: no peer owes a write of a unit, and no unit is under way: no read of one has been answered and not
used, and for an MMA no K-block of its next row is done or awaits a peer, for another kind no read awaits a peer. The end of an MMA's row that a
cancel, a fence or a halt waited for is one too (DEDUCED, log 46). -/
def State.atBoundary (s : State) (t : Tether) : Bool :=
  let tok := tetherToken t
  !s.writesOpen tok &&
    (t.rowEnded ||
      t.peerData.isEmpty && if t.kind = .mma then
        !(t.work.any fun e => decide (e.1.1 = t.progress)) && !s.owes tok fun _ u => decide (u / 2048 = t.progress)
      else !s.owes tok fun _ _ => true)

/-- A launch whose threads have all ended ends (R343, R344). One that has been cancelled ends CANCELLED whatever its threads came
to (DESIGN CHOICE, log 94). -/
def State.settleLaunch (s : State) (tok : Word) : State :=
  match s.tetherAny? tok with
  | none => s
  | some t =>
    match t.launch, t.state with
    | some l, .running =>
      if l.spawned ≠ l.ended then s
      else if t.cancelling then s.finish tok .cancelled .cancel
      else
        match l.spawnFault, l.killed with
        | some (c, a), _ | none, some (c, a) =>
          if l.spawnFault.isSome || decide (l.spawned = l.n) then
            s.faultTether tok (match c with | 1 => .xlate | 2 => .protect | 3 => .align | 4 => .bounds | 5 => .dataErr | _ => .none) a
          else s
        | none, none => if l.spawned = l.n then s.finish tok .done .none else s
    | _, _ => s

/-- A boundary at which a pending cancel or fence ends a RUNNING tether (R191, R398); a suspended one stands at its boundary. -/
def State.settleBoundary (s : State) (tok : Word) : State :=
  match s.tetherAny? tok with
  | none => s
  | some t =>
    if t.state = .running ∧ t.kind ≠ .kernel ∧ (t.suspended || s.atBoundary t) = true then
      if t.fenced then s.faultTether tok .dataErr 0
      else if t.cancelling then s.finish tok .cancelled (if t.byPeer then .peer else .cancel)
      else s
    else s

/-- `tcancel` of a tether (R191). -/
def State.cancelTether (s : State) (tok : Word) : State :=
  match s.tetherAny? tok with
  | none => s
  | some t =>
    match t.state with
    | .queued => s.finish tok .cancelled .cancel
    | .running => ((s.mapTether tok fun t => { t with cancelling := true }).settleBoundary tok).settleLaunch tok
    | _ => s

end Sys2Proof.Machine
end

