-- ==== Sys2Proof/Machine/Csr.lean ====
section
/-! DEFINITION. CSR access (R53, R56 to R59, R61, R222, R402). -/
namespace Sys2Proof.Machine

/-- Access classes of R58. -/
inductive CsrKind where
  | r | rw | s
  /-- readable by all, written by supervisor code -/
  | counter
  deriving DecidableEq, Repr

/-- The class of a CSR number; none is unassigned (R58, R59). -/
def csrKind (n : Nat) : Option CsrKind :=
  if n = 0x000 ∨ n = 0x012 ∨ n = 0x020 then some .rw
  else if n ≤ 0x00A ∨ (0x010 ≤ n ∧ n ≤ 0x016) ∨ n = 0x021 ∨ (0x028 ≤ n ∧ n ≤ 0x02F) ∨ (0x100 ≤ n ∧ n ≤ 0x12F) then some .r
  else if (0x040 ≤ n ∧ n ≤ 0x045) ∨ (0x080 ≤ n ∧ n ≤ 0x087) then some .s
  else if 0x088 ≤ n ∧ n ≤ 0x08F then some .counter
  else none

/-- Whether an access is legal (R59, R222). -/
def csrLegal (n : Nat) (write supervisor : Bool) : Bool :=
  match csrKind n with
  | none => false
  | some .r => !write
  | some .rw => true
  | some .s => supervisor
  | some .counter => !write || supervisor

/-- CSRs whose read waits until every older vector instruction has committed (R61); a count of committed vector instructions
takes them in too (R403). -/
def Thread.csrWaits (t : Thread) (n : Nat) : Bool :=
  decide (n ≤ 0x004 ∨ (0x008 ≤ n ∧ n ≤ 0x00A) ∨ n = 0x020 ∨ n = 0x021 ∨ (0x028 ≤ n ∧ n ≤ 0x02F) ∨
    (0x088 ≤ n ∧ n ≤ 0x08F ∧ (t.evsel[n - 0x088]?.getD 0).toNat % 256 = 3))

/-- The copy channel that a thread sees in CWMARK, CWBASE and CWLEN (R56). -/
def State.seenChannel (s : State) (n : Nat) : Option Channel :=
  match s.channel? s.thr.core n with
  | some c => if c.state ≠ .idle ∧ c.part = s.thr.key.part ∧ c.proc = s.thr.key.proc then some c else none
  | none => none

/-- One of CWMARK, CWBASE and CWLEN. -/
def State.channelCsr (s : State) (n : Nat) (f : Channel → Nat) : Word :=
  match s.seenChannel n with
  | some c => BitVec.ofNat 64 (f c)
  | none => 0

/-- What a CSR of an assigned number reads, but for counters. -/
def State.csrValue (s : State) (n : Nat) : Word :=
  let t := s.thr
  if n = 0x000 then t.fcsr.zeroExtend 64
  else if n = 0x001 then BitVec.ofNat 64 t.vl
  else if n = 0x002 then BitVec.ofNat 64 t.vlb
  else if n = 0x003 then t.vtype.zeroExtend 64
  else if n = 0x004 then BitVec.ofNat 64 t.vlmax
  else if n = 0x005 then BitVec.ofNat 64 t.lanesCount
  else if n = 0x006 then t.widthCsr
  else if n = 0x007 then BitVec.ofNat 64 t.mcols
  else if n = 0x008 then tshapeHalf t.tshape false
  else if n = 0x009 then tshapeHalf t.tshape true
  else if n = 0x00A then t.tdirty.zeroExtend 64
  else if n = 0x010 then BitVec.ofNat 64 (if t.key.launch = 0 then 0 else t.key.index)
  else if n = 0x011 then t.key.launch
  else if n = 0x012 then t.prio.zeroExtend 64
  else if n = 0x013 then 3
  else if n = 0x014 then t.fver
  else if n = 0x015 then t.capmask.zeroExtend 64
  else if n = 0x016 then t.hdr.usemask
  else if n = 0x020 then t.ffcause
  else if n = 0x021 then t.ffaddr
  else if n < 0x030 then t.ffidx[n - 0x028]?.getD 0
  else if n = 0x040 then t.tcause
  else if n = 0x041 then t.tpc
  else if n = 0x042 then t.tval
  else if n = 0x043 then t.telem
  else if n = 0x044 then t.tvcp
  else if n = 0x045 then t.tstep
  else if n < 0x088 then (t.evsel[n - 0x080]?.getD 0).zeroExtend 64
  else if n < 0x090 then t.evcnt[n - 0x088]?.getD 0
  else if n < 0x110 then s.channelCsr (n - 0x100) Channel.mark
  else if n < 0x120 then s.channelCsr (n - 0x110) Channel.base
  else s.channelCsr (n - 0x120) Channel.len

/-- Reading a CSR. The counters that depend on time or on caches have gone on meanwhile (R402). -/
def State.readCsr (s : State) (n : Nat) : Word × State :=
  let s1 := if 0x080 ≤ n ∧ n ≤ 0x08F then s.drift else s
  (s1.csrValue n, s1)

/-- The fabric fault record discarded (R58, R305). -/
def Thread.dropRecord (t : Thread) : Thread :=
  { t with ffcause := 0, ffaddr := 0, ffidx := Vector.replicate 8 0, ffhidden := none }

/-- A CSR written with the value of the whole register, under the CSR's own rules (R24, R58, R59, R402) (DEDUCED, log 36). -/
def Thread.writeCsr (t : Thread) (n : Nat) (w : Word) : Thread :=
  if n = 0x000 then { t with fcsr := fcsrWrite t.fcsr w }
  else if n = 0x012 then
    { t with prio := if (w.truncate 3 : BitVec 3).toNat ≤ t.launchPrio.toNat then w.truncate 3 else t.launchPrio }
  else if n = 0x020 then t.dropRecord
  else if n = 0x040 then { t with tcause := w &&& 0xFF }
  else if n = 0x041 then { t with tpc := w }
  else if n = 0x042 then { t with tval := w }
  else if n = 0x043 then { t with telem := w }
  else if n = 0x044 then { t with tvcp := w &&& 0x800000000000FFFF }
  else if n = 0x045 then { t with tstep := w }
  else if n < 0x088 then
    { t with evsel := if w.toNat % 256 ≤ 15 then t.evsel.setIfInBounds (n - 0x080) (w.truncate 9) else t.evsel }
  else { t with evcnt := t.evcnt.setIfInBounds (n - 0x088) w }

/-- A write form: the new value from the old one and xA (R222). -/
def csrOp (w : BitVec 32) (d a : Reg) (c : BitVec 12) (f : Word → Word → Word) (s : State) : Host.Outcome State Fault Refusal :=
  let n := c.toNat
  issueHeld { word := tv w, legal := csrLegal n true s.thr.supervisor, reads := xs [a] } s fun s => do
    let (old, s1) := s.readCsr n
    let new := f old (s.xr a)
    need s (!decide (n = 0x020 ∧ new ≠ 0)) .illegal (tv w)
    .ok ((s1.mapThr fun t => t.writeCsr n new).setX d old)

/-- CSRR (R222). -/
def execCsrr (d : Reg) (c : BitVec 12) (s : State) : Host.Outcome State Fault Refusal :=
  let n := c.toNat
  issue 4 { word := tv (wordCsrr d c), legal := csrLegal n false s.thr.supervisor } s fun s =>
    let (v, s1) := (if s.thr.csrWaits n then s.mapThr Thread.commitAll else s).readCsr n
    .ok (s1.setX d v)

/-- CSRW (R222). -/
def execCsrw (d a : Reg) (c : BitVec 12) (s : State) : Host.Outcome State Fault Refusal :=
  csrOp (wordCsrw d a c) d a c (fun _ x => x) s

/-- CSRSET (R222). -/
def execCsrset (d a : Reg) (c : BitVec 12) (s : State) : Host.Outcome State Fault Refusal :=
  csrOp (wordCsrset d a c) d a c (fun old x => old ||| x) s

/-- CSRCLR (R222). -/
def execCsrclr (d a : Reg) (c : BitVec 12) (s : State) : Host.Outcome State Fault Refusal :=
  csrOp (wordCsrclr d a c) d a c (fun old x => old &&& ~~~x) s

end Sys2Proof.Machine
end

