-- ==== Sys2Proof/Machine/Deprecated.lean ====
section
/-! DEFINITION. The deprecated microcoded instructions (R223, R224): one micro-step at a time. -/
namespace Sys2Proof.Machine

/-- The micro-step that comes next. -/
def Thread.microStep (t : Thread) : Nat := match t.micro with | some m => m.step | none => 0

/-- The temporary that the steps before this one left. -/
def Thread.microTemp (t : Thread) : List Nat := match t.micro with | some m => m.temp | none => []

/-- A deprecated instruction: `steps` gives the capability of each step but the last and the temporary it writes. It is
checked whole before step 0, and each step as the instruction it names. The last step makes the visible write, `fin`. -/
def microOp (a : VArgs) (steps : List (Nat × (Thread → List Nat → List Nat))) (fin : Thread → List Nat → Thread) (s : State) :
    Host.Outcome State Fault Refusal :=
  let t := s.thr
  let k := t.microStep
  let caps := if k = 0 then [3, 4] else []
  match steps[k]? with
  | none => issueVl { a with caps := [3] } s fun s => .ok (s.mapThr fun t => fin t t.microTemp)
  | some (cap, f) =>
    let r := t.vreq { a with caps := cap :: caps }
    if !t.vectorRoom then conclude true s (.error (.park s .vectorQueue))
    else
      match s.check { r with legal := r.legal && t.vectorOpen } with
      | .error e => conclude true s (.error e)
      | .ok _ => .next (s.mapThr fun t => { t with micro := some ⟨a.word, k + 1, f t t.microTemp⟩ })

/-- `vmul` of two groups below VL. -/
def Thread.microProducts (t : Thread) (a b : Reg) : List Nat :=
  (List.range t.vl).map fun i => wrap t.sew (t.elem a.toNat i t.sew * t.elem b.toNat i t.sew : Nat)

/-- `vredsum` from 0. -/
def Thread.microSum (t : Thread) (l : List Nat) : List Nat := [l.foldl (· + ·) 0 % 2 ^ t.sew]

/-- `vrgather` below VL. -/
def Thread.microGather (t : Thread) (a b : Reg) : List Nat :=
  (List.range t.vl).map fun i =>
    let j := t.elem b.toNat i t.sew
    if j < t.vlmax then t.elem a.toNat j t.sew else 0

/-- DVDOT (R223). -/
def execDvdot (d a b : Reg) (s : State) : Host.Outcome State Fault Refusal :=
  let t := s.thr
  microOp { word := (wordDvdot d a b), caps := [], src := [t.own a, t.own b] }
    [(4, fun t _ => t.microProducts a b), (3, fun t l => t.microSum l)]
    (fun t l => t.setX d (sextWord t.sew (l.headD 0))) s

/-- DVSUM (R223). -/
def execDvsum (d a : Reg) (s : State) : Host.Outcome State Fault Refusal :=
  let t := s.thr
  microOp { word := (wordDvsum d a), caps := [], src := [t.own a] }
    [(3, fun t _ => t.microSum ((List.range t.vl).map fun i => t.elem a.toNat i t.sew))]
    (fun t l => t.setX d (sextWord t.sew (l.headD 0))) s

/-- DVPERM (R223). -/
def execDvperm (d a b : Reg) (s : State) : Host.Outcome State Fault Refusal :=
  let t := s.thr
  microOp { word := (wordDvperm d a b), caps := [], dst := [t.own d],
            src := [(t.own a).reading ((List.range t.vl).map fun i => t.elem b.toNat i t.sew), t.own b] }
    [(3, fun t _ => t.microGather a b)]
    (fun t l => t.writeVec d.toNat (fun _ => true) fun i => l[i]?.getD 0) s

end Sys2Proof.Machine
end

