-- ==== Sys2Proof/Machine/FabricGraph.lean ====
section
/-! DEFINITION. Fabric graphs: the element word (R81), what each operation uses (R209), and the binder (R95, R97, R198). -/
namespace Sys2Proof.Machine

/-! ### The element word (R81) -/

/-- An element word's fields. -/
structure Fe where
  op : Nat
  tgtA : Nat
  tgtB : Nat
  imm : Nat
  cond : Nat
  ty : Nat
  flags : Nat
  deriving DecidableEq, Repr

def feOf (w : Word) : Fe :=
  let n := w.toNat
  ⟨bitsAt n 56 8, bitsAt n 47 9, bitsAt n 38 9, bitsAt n 14 24, bitsAt n 10 4, bitsAt n 8 2, bitsAt n 0 8⟩

/-- A valid target: its consumer and its slot. -/
def tgtOf (t : Nat) : Option (Nat × Nat) := if 256 ≤ t then some (t / 4 % 64, t % 4) else none

def Fe.targets (e : Fe) : List (Nat × Nat) := [e.tgtA, e.tgtB].filterMap tgtOf

/-- A graph is its 65 words (R95). -/
def graphFe (g : List Word) (f : Nat) : Fe := feOf ((List.drop 1 g)[f]?.getD 0)
def graphHeader (g : List Word) : Nat := (g.headD 0).toNat
def graphCycles (g : List Word) : Nat := graphHeader g % 2 ^ 16
def graphFes (g : List Word) : List (Nat × Fe) := (List.range 64).map fun f => (f, graphFe g f)

/-! ### The operations (R209) -/

/-- Operations whose second operand FLAGS[0] makes the immediate. -/
def immForm (op : Nat) : Bool := decide ((5 ≤ op ∧ op ≤ 15) ∨ op = 17 ∨ op = 18 ∨ op = 20 ∨ op = 21 ∨ op = 22)

/-- `acc` and `facc`, segmented with FLAGS[1]. -/
def accForm (op : Nat) : Bool := decide (op = 24 ∨ op = 25)

/-- The slots that an element uses. -/
def Fe.slots (e : Fe) : List Nat :=
  if e.op = 0 ∨ e.op = 3 then []
  else if e.op = 4 then [3]
  else if immForm e.op then (if bit e.flags 0 then [0] else [0, 1])
  else if e.op = 16 ∨ e.op = 19 then [0, 1, 2]
  else if accForm e.op then (if bit e.flags 1 then [0, 2] else [0])
  else if e.op = 27 ∨ e.op = 31 then [0, 2]
  else if e.op = 28 ∨ e.op = 29 ∨ e.op = 30 ∨ e.op = 35 then [0, 1]
  else if e.op = 33 then (if e.imm % 4096 = 0 then [0, 1] else [0])
  else if e.op = 36 then (match e.cond with | 0 => [0] | 1 => [0, 1] | _ => [0, 1, 2])
  else [0]

/-- Operations marked V. -/
def variableRate (op : Nat) : Bool := [3, 24, 25, 27, 28, 29, 30, 31, 33].contains op

/-- The largest TYPE set of an operation: its allowed TYPE values. -/
def typesOf (op : Nat) : List Nat :=
  if op = 0 ∨ op = 36 then [0]
  else if (17 ≤ op ∧ op ≤ 23) ∨ op = 25 then [2]
  else if (5 ≤ op ∧ op ≤ 15) ∨ op = 24 ∨ op = 26 ∨ op = 28 ∨ op = 29 then [0, 1, 3]
  else if op = 33 then [3]
  else [0, 1, 2, 3]

/-- The largest COND of an operation. -/
def condMax (op : Nat) : Nat :=
  match op with
  | 3 => 1 | 15 => 5 | 22 => 6 | 26 => 1 | 33 => 15 | 34 => 3 | 35 => 3 | 36 => 2 | _ => 0

/-- The FLAGS bits of an operation. -/
def flagMask (op : Nat) : Nat := if immForm op then 1 else if accForm op then 2 else 0

/-- True when the operation uses IMM24. -/
def Fe.usesImm (e : Fe) : Bool :=
  decide (e.op = 2 ∨ e.op = 33 ∨ e.op = 34 ∨ e.op = 35) || accForm e.op || (immForm e.op && bit e.flags 0)

/-! ### The binder (R198) -/

/-- Rule 3: one element's fields. -/
def Fe.fieldsOk (e : Fe) : Bool :=
  if e.op = 0 then decide (e.tgtA = 0 ∧ e.tgtB = 0 ∧ e.imm = 0 ∧ e.cond = 0 ∧ e.ty = 0 ∧ e.flags = 0)
  else
    (decide (256 ≤ e.tgtA) || decide (e.tgtA = 0)) && (decide (256 ≤ e.tgtB) || decide (e.tgtB = 0)) &&
    (decide (e.op ≠ 32) || e.targets.isEmpty) && (typesOf e.op).contains e.ty && decide (e.cond ≤ condMax e.op) &&
    decide (e.flags = e.flags &&& flagMask e.op) && (e.usesImm || decide (e.imm = 0))

/-- Rule 4: an edge element (R294). -/
def onEdge (f : Nat) : Bool := decide (f < 8 ∨ 56 ≤ f ∨ f % 8 = 0 ∨ f % 8 = 7)

/-- How many elements have an operation. -/
def countOp (l : List (Nat × Fe)) (op : Nat) : Nat := (l.filter fun e => decide (e.2.op = op)).length

/-- Rule 5. -/
def countsOk (l : List (Nat × Fe)) : Bool :=
  let ins (c : Nat) : Nat := (l.filter fun e => decide (e.2.op = 3 ∧ e.2.cond = c)).length
  decide (countOp l 36 = 1 ∧ 1 ≤ countOp l 3 ∧ ins 0 ≤ 1 ∧ ins 1 ≤ 1 ∧ countOp l 4 ≤ 1 ∧ countOp l 33 ≤ 5)

/-- Every link: producer, consumer and slot. -/
def linksOf (l : List (Nat × Fe)) : List (Nat × Nat × Nat) := l.flatMap fun (f, e) => e.targets.map fun t => (f, t)

/-- Rule 6. -/
def targetsOk (g : List Word) (l : List (Nat × Fe)) : Bool :=
  let links := linksOf l
  l.all (fun (_, e) => !e.targets.isEmpty || [0, 32, 35, 36, 4].contains e.op) &&
  links.all (fun k => (graphFe g k.2.1).slots.contains k.2.2) &&
  l.all (fun (f, e) => e.slots.all fun q => links.any fun k => decide (k.2 = (f, q)))

/-- One round of the longest-path depths. -/
def relaxDepths (edges : List (Nat × Nat)) (d : List Nat) : List Nat :=
  (List.range 64).map fun f => (edges.filter fun e => decide (e.2 = f)).foldl (fun m e => max m (d[e.1]?.getD 0 + 1)) 0

def depthsOf (edges : List (Nat × Nat)) : Nat → List Nat
  | 0 => List.replicate 64 0
  | n + 1 => relaxDepths edges (depthsOf edges n)

/-- Elements not seen yet, without repeats. -/
def freshOf {α : Type} [DecidableEq α] (seen : List α) : List α → List α
  | [] => []
  | a :: r => if seen.contains a then freshOf seen r else a :: freshOf (a :: seen) r

/-- Two paths walked together, the one less deep first: true when they meet after one of them has passed strictly between
through an element marked V. -/
def meetBad (next : Nat → List Nat) (depth : Nat → Nat) (isV : Nat → Bool) :
    Nat → List (Nat × Nat × Bool) → List (Nat × Nat × Bool) → Bool
  | 0, _, _ => false
  | n + 1, seen, front =>
    if front.any (fun t => decide (t.1 = t.2.1) && t.2.2) then true
    else
      let go (t : Nat × Nat × Bool) : List (Nat × Nat × Bool) :=
        if t.1 = t.2.1 then []
        else if depth t.1 ≤ depth t.2.1 then (next t.1).map fun x => (x, t.2.1, t.2.2 || isV t.1)
        else (next t.2.1).map fun y => (t.1, y, t.2.2 || isV t.2.1)
      let new := freshOf seen (front.flatMap go)
      if new.isEmpty then false else meetBad next depth isV n (seen ++ new) new

/-- Rule 7. An element whose two targets are one slot counts as two producers of it (DESIGN CHOICE, log 87). -/
def ratesOk (g : List Word) (l : List (Nat × Fe)) : Bool :=
  let links := linksOf l
  let edges := links.map fun k => (k.1, k.2.1)
  let depths := depthsOf edges 64
  let next (f : Nat) : List Nat := (graphFe g f).targets.map Prod.fst
  l.all (fun (f, e) => e.slots.all fun q => decide ((links.filter fun k => decide (k.2 = (f, q))).length ≤ 1)) &&
  depths.all (fun d => decide (d < 64)) &&
  (List.range 64).all fun f =>
    match next f with
    | [x, y] => !meetBad next (fun n => depths[n]?.getD 0) (fun n => variableRate (graphFe g n).op) 130 [] [(x, y, false)]
    | _ => true

/-- Own, predecessor and successor numbers of a memory element (R97). -/
def chainOwn (e : Fe) : Nat := e.imm / 256 % 256
def chainPred (e : Fe) : Nat := e.imm / 65536
def chainSucc (e : Fe) : Nat := e.imm % 256

/-- The memory elements. -/
def memFes (l : List (Nat × Fe)) : List (Nat × Fe) := l.filter fun e => decide (e.2.op = 34 ∨ e.2.op = 35)

/-- The memory element of an own number. -/
def memOwn (l : List (Nat × Fe)) (n : Nat) : Option (Nat × Fe) := (memFes l).find? fun e => decide (chainOwn e.2 = n)

/-- Rule 8. -/
def chainsOk (g : List Word) (l : List (Nat × Fe)) : Bool :=
  let k := (memFes l).length
  decide (bitsAt (graphHeader g) 16 8 = k) &&
  (List.range k).all fun j =>
    match memOwn l (j + 1) with
    | none => false
    | some (_, e) =>
      let linked (n : Nat) (f : Fe → Nat) : Bool :=
        match memOwn l n with | some (_, u) => decide (f u = j + 1) | none => false
      (decide (chainPred e = 0) || (decide (chainPred e = j) && linked j chainSucc)) &&
      (decide (chainSucc e = 0) || (decide (chainSucc e = j + 2) && linked (j + 2) chainPred))

/-- The cause with which the binder rejects a graph, 0 when it binds (R198). -/
def bindCode (g : List Word) : Nat :=
  let h := graphHeader g
  let l := graphFes g
  if h / 2 ^ 24 ≠ 0 ∨ graphCycles g = 0 ∨ 8192 < graphCycles g then 1
  else if l.any (fun e => decide (36 < e.2.op)) then 2
  else if !l.all (fun e => e.2.fieldsOk) then 3
  else if l.any (fun e => [3, 4, 33].contains e.2.op && !onEdge e.1) then 4
  else if !countsOk l then 5
  else if !targetsOk g l then 6
  else if !ratesOk g l then 7
  else if !chainsOk g l then 8
  else 0

/-- Capabilities that a graph needs: FAB_FP and FAB_MEM (R197). -/
def needsFp (g : List Word) : Bool := (graphFes g).any fun e => decide ((17 ≤ e.2.op ∧ e.2.op ≤ 23) ∨ e.2.op = 25)
def needsMem (g : List Word) : Bool := (graphFes g).any fun e => decide (33 ≤ e.2.op ∧ e.2.op ≤ 35)

/-- Their bits in CAPMASK's layout (R60). -/
def graphCaps (g : List Word) : List Nat := 19 :: ((if needsFp g then [20] else []) ++ if needsMem g then [21] else [])

/-- The FEs of an operation, rising. -/
def fesOf (g : List Word) (op : Nat) : List Nat := ((graphFes g).filter fun e => decide (e.2.op = op)).map Prod.fst

/-- The FE of stream `c`'s `in`. -/
def inFe (g : List Word) (c : Nat) : Option Nat := ((graphFes g).find? fun e => decide (e.2.op = 3 ∧ e.2.cond = c)).map Prod.fst

/-- The FE that feeds a slot. -/
def feederOf (g : List Word) (f q : Nat) : Option Nat := ((linksOf (graphFes g)).find? fun k => decide (k.2 = (f, q))).map Prod.fst

/-- An outermost `agen` (R212). -/
def outermost (g : List Word) (f : Nat) : Bool :=
  match feederOf g f 0 with
  | some p => decide ((graphFe g p).op ≠ 33)
  | none => true

/-- The elements of the chain of a memory element, in chain order (R97, R303): back to its first, then on. -/
def chainFrom (l : List (Nat × Fe)) : Nat → Nat → List Nat
  | 0, _ => []
  | n + 1, own =>
    match memOwn l own with
    | none => []
    | some (f, e) => f :: (if chainSucc e = 0 then [] else chainFrom l n (chainSucc e))

def chainHead (l : List (Nat × Fe)) : Nat → Nat → Nat
  | 0, own => own
  | n + 1, own =>
    match memOwn l own with
    | some (_, e) => if chainPred e = 0 then own else chainHead l n (chainPred e)
    | none => own

def chainOf (g : List Word) (f : Nat) : List Nat :=
  let l := memFes (graphFes g)
  chainFrom l 64 (chainHead l 64 (chainOwn (graphFe g f)))

end Sys2Proof.Machine
end

