-- ==== Sys2Proof/Machine/Sync.lean ====
section
/-! DEFINITION. Fences, groups and barriers, hardware queues and the handler table (R160 to R166). -/
namespace Sys2Proof.Machine

def State.thrPr (s : State) : Process := s.proc s.thr.key.part s.thr.key.proc
def State.setThrPr (s : State) (p : Process) : State := s.setProc s.thr.key.part s.thr.key.proc p

/-! ### Fences (R160) -/

/-- A fence waits until the earlier accesses it orders are performed: the thread's issued stores. An acquire fence orders
reads, which have been performed when it issues, and so the stores that such a read took in before they were performed
(R259). -/
def State.fenceWait (s : State) (k : FenceKind) : Run State :=
  match k with
  | .acq => s.drainWhere PendStore.read
  | _ => s.drain

/-- FENCE (R160). -/
def execFence (k : FenceKind) (e : Scope) (s : State) : Host.Outcome State Fault Refusal :=
  issueHeld { word := tv (wordFence k e) } s fun s => s.fenceWait k

/-! ### Groups (R161 to R163) -/

/-- The launch whose groups a thread uses; a handler thread is a launch of its own (R350). -/
def Thread.groupOwner (t : Thread) : ThreadKey := if t.key.launch = 0 then t.key else { t.key with index := 0 }

def State.group (s : State) (o : ThreadKey) (g : Nat) : Group := Assoc.getD s.groups (o, g) ⟨[], 0⟩
def State.setGroup (s : State) (o : ThreadKey) (g : Nat) (x : Group) : State := { s with groups := Assoc.put s.groups (o, g) x }

/-- M and N (R161). -/
def Group.m (x : Group) : Nat := x.members.length
def Group.n (x : Group) : Nat := (x.members.filter fun e => e.2).length

/-- The phase completes when N is at least 1 and at least M (R162). -/
def Group.settle (x : Group) : Group :=
  if 1 ≤ x.n ∧ x.m ≤ x.n then { members := x.members.map fun e => (e.1, false), phase := x.phase + 1 } else x

/-- A member leaves, with its arrival if it had arrived (R161, R162). -/
def Group.leave (x : Group) (k : ThreadKey) : Group :=
  if (Assoc.get? x.members k).isSome then { x with members := Assoc.drop x.members k }.settle else x

/-- The group identifier is xA whole; at or above GROUPS it raises UNDECLARED with TVAL xA (R161). -/
def State.groupId (s : State) (a : Word) : Run Nat := do
  need s (decide (a.toNat < s.thr.hdr.groups)) .undeclared a
  .ok a.toNat

/-- An arrival: the phase it belongs to and whether the thread is a member that must wait because its flag is set (R162). -/
def State.arrive (s : State) (g : Nat) : Run (State × BitVec 32) :=
  let o := s.thr.groupOwner
  let x := s.group o g
  match Assoc.get? x.members s.thr.key with
  | none => .ok (s, x.phase)
  | some true => .error (.park s (.arrived g))
  | some false => do
    let s1 ← s.drain
    .ok (s1.setGroup o g { x with members := Assoc.put x.members s.thr.key true }.settle, x.phase)

/-- Park while the phase is current (R161). -/
def State.awaitPhase (s : State) (g : Nat) (ph : BitVec 32) : Run State :=
  if (s.group s.thr.groupOwner g).phase = ph then .error (.park s (.phase g ph)) else .ok s

/-- GJOIN (R161). -/
def execGjoin (a : Reg) (s : State) : Host.Outcome State Fault Refusal :=
  issueHeld { word := tv (wordGjoin a), reads := xs [a] } s fun s => do
    let g ← s.groupId (s.xr a)
    let x := s.group s.thr.groupOwner g
    .ok (if (Assoc.get? x.members s.thr.key).isSome then s
         else s.setGroup s.thr.groupOwner g { x with members := Assoc.put x.members s.thr.key false })

/-- GLEAVE (R161). -/
def execGleave (a : Reg) (s : State) : Host.Outcome State Fault Refusal :=
  issueHeld { word := tv (wordGleave a), reads := xs [a] } s fun s => do
    let g ← s.groupId (s.xr a)
    .ok (s.setGroup s.thr.groupOwner g ((s.group s.thr.groupOwner g).leave s.thr.key))

/-- Where a thread stands: its PC and its mode. -/
def Thread.here (t : Thread) : Word × Bool := (t.pc, t.supervisor)

/-- The phase that the `gbar` at the PC has arrived in and awaits, if it is of this group (R163). -/
def Thread.awaited (t : Thread) (g : Nat) : Option (BitVec 32) :=
  match Assoc.get? t.awaiting t.here with
  | some (g', ph) => if g' = g then some ph else none
  | none => none

/-- GBAR (R161, R163): once it has arrived it only waits. -/
def execGbar (a : Reg) (s : State) : Host.Outcome State Fault Refusal :=
  issueHeld { word := tv (wordGbar a), reads := xs [a] } s fun s => do
    let g ← s.groupId (s.xr a)
    let s1 ← match s.thr.awaited g with
      | some ph => s.awaitPhase g ph
      | none => do
        let (s1, ph) ← s.arrive g
        (s1.mapThr fun t => { t with awaiting := Assoc.put t.awaiting t.here (g, ph) }).awaitPhase g ph
    .ok (s1.mapThr fun t => { t with awaiting := Assoc.drop t.awaiting t.here })

/-- GARRIVE (R162). -/
def execGarrive (d a : Reg) (s : State) : Host.Outcome State Fault Refusal :=
  issueHeld { word := tv (wordGarrive d a), reads := xs [a] } s fun s => do
    let g ← s.groupId (s.xr a)
    let (s1, ph) ← s.arrive g
    .ok (s1.setX d (ph.zeroExtend 64))

/-- GWAIT (R161). -/
def execGwait (a b : Reg) (s : State) : Host.Outcome State Fault Refusal :=
  issueHeld { word := tv (wordGwait a b), reads := xs [a, b] } s fun s => do
    let g ← s.groupId (s.xr a)
    s.awaitPhase g ((s.xr b).truncate 32)

/-! ### Hardware queues (R164, R165) -/

/-- The queue that xA names: PROTECT with TVAL xA when bits above are set or the process has not created it (R164). -/
def State.queueOf (s : State) (a : Word) : Run (Nat × HwQueue) :=
  if 1024 ≤ a.toNat then raise s .protect a
  else
    match Assoc.get? s.thrPr.queues a.toNat with
    | some q => .ok (a.toNat, q)
    | none => raise s .protect a

def State.putQueue (s : State) (n : Nat) (q : HwQueue) : State :=
  s.setThrPr { s.thrPr with queues := Assoc.put s.thrPr.queues n q }

/-- Every store that a stamp counts has been performed: the producer holds none of them, and no peer owes it an answer (R165). -/
def State.stampDrained (s : State) (e : QEntry) : Bool :=
  (match s.thread? e.producer with
   | some p => !p.sq.any fun x => decide (x.seq ≤ e.stamp)
   | none => true) &&
  !s.requests.any fun r => match r.who with
    | .store k n => decide (k = e.producer ∧ n ≤ e.stamp)
    | _ => false

/-- The stores that a stamp counts are performed now, as far as peers answer (R165). -/
def State.drainStamp (s : State) (e : QEntry) : State :=
  match s.thread? e.producer with
  | none => s
  | some t =>
    let (s1, rest) := s.drainMarked t [] (neededStores (fun p => decide (p.seq ≤ e.stamp)) t.sq)
    s1.mapThread e.producer fun u => { u with sq := rest }

/-- QPUSH (R164, R165): no store is waited for. -/
def execQpush (a b : Reg) (s : State) : Host.Outcome State Fault Refusal :=
  issueHeld { word := tv (wordQpush a b), reads := xs [a, b] } s fun s => do
    let (n, q) ← s.queueOf (s.xr a)
    if q.cap ≤ q.entries.length then .error (.park s (.queueRoom n))
    else .ok (s.putQueue n { q with entries := q.entries ++ [⟨s.xr b, s.thr.key, s.thr.stores⟩] })

/-- The entry that the `qpop` at the PC has removed (R165). -/
def Thread.heldEntry (t : Thread) : Option QEntry := Assoc.get? t.popped t.here

/-- A held entry is delivered once its stamp has drained (R165). -/
def State.deliver (s : State) (d : Reg) (e : QEntry) : Run State :=
  let s1 := if s.stampDrained e then s else s.drainStamp e
  if s1.stampDrained e then .ok ((s1.setX d e.value).mapThr fun t => { t with popped := Assoc.drop t.popped t.here })
  else .error (.park s1 .stamp)

/-- QPOP (R164, R165): an entry once removed stays with the thread. -/
def execQpop (d a : Reg) (s : State) : Host.Outcome State Fault Refusal :=
  issueHeld { word := tv (wordQpop d a), reads := xs [a] } s fun s =>
    match s.thr.heldEntry with
    | some e => s.deliver d e
    | none => do
      let (n, q) ← s.queueOf (s.xr a)
      match q.entries with
      | [] => .error (.park s (.queueEntry n))
      | e :: es =>
        ((s.putQueue n { q with entries := es }).mapThr fun t => { t with popped := Assoc.put t.popped t.here e }).deliver d e

/-- QTRY (R164): it only tests whether the stamp has drained. -/
def execQtry (d a : Reg) (s : State) : Host.Outcome State Fault Refusal :=
  issueHeld { word := tv (wordQtry d a), legal := isPairDest d, reads := xs [a] } s fun s => do
    let (n, q) ← s.queueOf (s.xr a)
    match q.entries with
    | [] => .ok (s.setX d 0)
    | e :: es =>
      if s.stampDrained e then .ok (((s.putQueue n { q with entries := es }).setX d 1).setX (d + 1) e.value)
      else .ok (s.setX d 0)

/-! ### The handler table (R166) -/

/-- True of an entry of this process and queue. -/
def HandlerEntry.isFor (h : HandlerEntry) (part pr q : Nat) : Bool := decide (h.part = part ∧ h.proc = pr ∧ h.queue = q)

/-- Every core without the entries that satisfy `f`. -/
def State.dropHandlers (s : State) (f : HandlerEntry → Bool) : State :=
  { s with cores := s.cores.map fun (c, k) => (c, { k with handlers := k.handlers.filter fun e => !f e.2 }) }

/-- HREG (R166). With all 32 entries in use nothing changes, a binding of the queue on another core included (DEDUCED, log 82). -/
def execHreg (d a b : Reg) (s : State) : Host.Outcome State Fault Refusal :=
  issueHeld { word := tv (wordHreg d a b), reads := xs [a, b] } s fun s => do
    let x := s.xr a
    need s (decide (x.toNat < 2 ^ 13)) .protect x
    let qn := x.toNat % 1024
    need s (Assoc.get? s.thrPr.queues qn).isSome .protect x
    let hb := s.xr b
    need s (decide (hb.toNat % 8 = 0)) .align hb
    match placePieces (s.place .load) (pieces 65 hb 64) with
    | .error (f, at_) => raiseAccess s f at_
    | .ok _ =>
      let k := s.thr.key
      let h : HandlerEntry := ⟨k.part, k.proc, qn, BitVec.ofNat 3 (x.toNat / 1024), hb⟩
      let c := s.core s.thr.core
      match c.handlers.find? (fun e => e.2.isFor k.part k.proc qn) with
      | some (i, _) =>
        .ok ((s.setCore s.thr.core { c with handlers := Assoc.put c.handlers i h }).setX d (BitVec.ofNat 64 i))
      | none =>
        match (List.range 32).find? (fun i => (Assoc.get? c.handlers i).isNone) with
        | none => .ok (s.setX d (BitVec.allOnes 64))
        | some i =>
          let s1 := s.dropHandlers fun e => e.isFor k.part k.proc qn
          let c1 := s1.core s.thr.core
          .ok ((s1.setCore s.thr.core { c1 with handlers := Assoc.put c1.handlers i h }).setX d (BitVec.ofNat 64 i))

/-- HUNREG (R166). -/
def execHunreg (a : Reg) (s : State) : Host.Outcome State Fault Refusal :=
  issueHeld { word := tv (wordHunreg a), reads := xs [a] } s fun s => do
    let x := s.xr a
    need s (decide (x.toNat < 32)) .illegal x
    let c := s.core s.thr.core
    match Assoc.get? c.handlers x.toNat with
    | some h =>
      .ok (if h.part = s.thr.key.part ∧ h.proc = s.thr.key.proc then
             s.setCore s.thr.core { c with handlers := Assoc.drop c.handlers x.toNat }
           else s)
    | none => .ok s

end Sys2Proof.Machine
end

