-- ==== Sys2Proof/Machine/Issue.lean ====
section
/-! DEFINITION. The tether instructions: issues (R184 to R188) and control (R189 to R194). -/
namespace Sys2Proof.Machine

/-! ### The triple and the layout (R78, R184) -/

/-- The triple that xA names. -/
def Thread.triple (t : Thread) (a : Reg) : Word × Word × Word := (t.xr a, t.xr (a + 1), t.xr (a + 2))

/-- The layout elements below VL, 64 bits each: signed stride and extent (R184). -/
def Thread.layout (t : Thread) (b : Reg) : List (BitVec 40 × BitVec 24) :=
  (List.range t.vl).map fun d => let e := t.elem b.toNat d 64; (BitVec.ofNat 40 (e / 2 ^ 24), BitVec.ofNat 24 e)

/-- Stride and extent of a dimension. -/
def strideOf (l : List (BitVec 40 × BitVec 24)) (d : Nat) : Int := ((l[d]?.getD (0, 0)).1).toInt
def extentOf (l : List (BitVec 40 × BitVec 24)) (d : Nat) : Nat := ((l[d]?.getD (0, 0)).2).toNat

/-- The first of a list of numbers that is not a multiple of `n`, as a word. -/
def firstMisaligned (n : Nat) : List Int → Option Word
  | [] => none
  | i :: r => if i % n ≠ 0 then some (wordOfInt i) else firstMisaligned n r

/-- What a kind checks: the ILLEGAL value if any, capabilities, and the first operand fault (R80, R184). -/
structure IssueCheck where
  illegal : Option Word
  caps : List Nat
  fault : Option (TrapCause × Word)

/-- The first condition that holds, as its trap. -/
def firstFault : List (Option (TrapCause × Word)) → Option (TrapCause × Word)
  | [] => none
  | some f :: _ => some f
  | none :: r => firstFault r

def whenSome (c : TrapCause) (w : Option Word) : Option (TrapCause × Word) := w.map fun v => (c, v)
def whenTrue (b : Bool) (c : TrapCause) (v : Word) : Option (TrapCause × Word) := if b then some (c, v) else none

/-! ### COPY (R185) -/

/-- Element bytes of a COPY. -/
def copyEsz (ctl : Word) : Nat := 2 ^ (ctl.toNat / 16 % 4)

/-- The product of the extents. -/
def volume (l : List (BitVec 40 × BitVec 24)) : Nat := (l.map fun e => e.2.toNat).foldl (· * ·) 1

/-- The checks of R185. A length of 2^64 bytes or more does not fit TVAL, which takes its low 64 bits (DESIGN CHOICE, log 47). -/
def copyCheck (ops : Word × Word × Word) (l : List (BitVec 40 × BitVec 24)) : IssueCheck :=
  let ctl := ops.2.2
  let e := copyEsz ctl
  { illegal :=
      if ctl.getLsbD 6 || (!ctl.getLsbD 7 && decide (bitsAt ctl.toNat 8 24 ≠ 0)) then some ctl
      else if 1 ≤ l.length ∧ l.length ≤ 4 then none else some (BitVec.ofNat 64 l.length)
    caps := [17]
    fault := firstFault [
      whenSome .align (firstMisaligned e ((ops.1.toNat : Int) :: (l.map fun x => x.1.toInt) ++ [(ops.2.1.toNat : Int)])),
      whenTrue (decide (2 ^ 40 < e * volume l)) .bounds (BitVec.ofNat 64 (e * volume l))] }

/-! ### BLOAD (R186) -/

/-- Element bits of a source format (R282). -/
def srcBits (f : Nat) : Nat :=
  match f with
  | 0 => 8 | 1 => 4 | 2 => 8 | 3 => 8 | 4 => 6 | 5 => 6 | 6 => 4 | 7 => 16 | 8 => 16 | 9 => 32 | _ => 64

/-- Fields of a BLOAD control word. -/
def bloadFmt (ctl : Word) : Nat := ctl.toNat % 32
def bloadSlices (ctl : Word) : Nat := ctl.toNat / 32 % 8 + 1
def bloadMxb (ctl : Word) : Bool := ctl.getLsbD 8
def bloadScale (ctl : Word) : Byte := BitVec.ofNat 8 (bitsAt ctl.toNat 18 8)

/-- A packed source: elements narrower than a byte, or MX blocks (R186). -/
def bloadPacked (ctl : Word) : Bool := decide (srcBits (bloadFmt ctl) < 8) || bloadMxb ctl

/-- The checks of R186. A sum b0 + N of 2^64 or more does not fit TVAL, which takes its low 64 bits (DESIGN CHOICE, log 85). -/
def bloadCheck (ops : Word × Word × Word) (l : List (BitVec 40 × BitVec 24)) : IssueCheck :=
  let ctl := ops.2.2
  let f := bloadFmt ctl
  let k := extentOf l 0
  let n := extentOf l 1
  let s := bloadSlices ctl
  let b0 := ops.2.1.toNat
  { illegal :=
      if bitsAt ctl.toNat 26 38 ≠ 0 ∨ bitsAt ctl.toNat 9 9 ≠ 0 ∨ 10 < f ∨ (s ≠ 1 ∧ f ≤ 1) ∨
         (bloadMxb ctl = true ∧ (f = 1 ∨ 6 < f)) then some ctl
      else if l.length ≠ 2 then some (BitVec.ofNat 64 l.length)
      else if bloadPacked ctl = true then
        if strideOf l 0 ≠ 0 then some (wordOfInt (strideOf l 0))
        else if k * srcBits f % 8 ≠ 0 ∨ (bloadMxb ctl = true ∧ k % 32 ≠ 0) then some (BitVec.ofNat 64 k) else none
      else none
    caps := [if f = 0 then 13 else if f = 1 then 14 else 15]
    fault := firstFault [
      if bloadPacked ctl then none
      else whenSome .align (firstMisaligned (srcBits f / 8) [(ops.1.toNat : Int), strideOf l 0, strideOf l 1]),
      whenTrue (decide (4096 < k * s)) .bounds (BitVec.ofNat 64 (k * s)),
      whenTrue (decide (2048 < b0 + n)) .bounds (BitVec.ofNat 64 (b0 + n))] }

/-! ### MMA (R187) -/

/-- Fields of an MMA control word. -/
def mmaFrm (ctl : Word) : Nat := bitsAt ctl.toNat 22 3
def mmaEpi (ctl : Word) : Nat := bitsAt ctl.toNat 20 2
def mmaCfmt (ctl : Word) : Nat := bitsAt ctl.toNat 16 4
def mmaAcls (ctl : Word) : Nat := bitsAt ctl.toNat 11 2
def mmaBblk (ctl : Word) : Nat := ctl.toNat % 2048

/-- Bytes of an element of C. -/
def mmaCsize (ctl : Word) : Nat := match mmaCfmt ctl with | 0 => 4 | 1 => 4 | 2 => 8 | _ => 2

def mmaCheck (ops : Word × Word × Word) (l : List (BitVec 40 × BitVec 24)) : IssueCheck :=
  let ctl := ops.2.2
  let acls := mmaAcls ctl
  let cf := mmaCfmt ctl
  let blocks := mmaBblk ctl + extentOf l 1
  { illegal :=
      if bitsAt ctl.toNat 25 39 ≠ 0 ∨ bitsAt ctl.toNat 13 3 ≠ 0 ∨ 4 < mmaFrm ctl ∨ 1 < mmaEpi ctl ∨ 4 < cf ∨ acls = 3 ∨
         (acls < 2 ∧ 2 < cf) ∨ (acls = 2 ∧ cf = 0) then some ctl
      else if l.length ≠ 2 then some (BitVec.ofNat 64 l.length) else none
    caps := (13 + acls) :: (if cf = 2 then [16] else [])
    fault := firstFault [
      whenSome .align (firstMisaligned (mmaCsize ctl) [(ops.2.1.toNat : Int), strideOf l 1]),
      whenTrue (decide (2048 < blocks)) .bounds (BitVec.ofNat 64 blocks)] }

/-! ### COLL (R188, R382) -/

/-- Fields of a COLL control word. -/
def collRoot (ctl : Word) : Nat := bitsAt ctl.toNat 28 12
def collPset (ctl : Word) : Nat := bitsAt ctl.toNat 16 12
def collFrm (ctl : Word) : Nat := bitsAt ctl.toNat 10 3
def collDtype (ctl : Word) : Nat := bitsAt ctl.toNat 6 4
def collRop (ctl : Word) : Nat := bitsAt ctl.toNat 4 2
def collOp (ctl : Word) : Nat := ctl.toNat % 16

/-- A peer set that a partition may use (R382). -/
def State.psetOk (s : State) (part n : Nat) : Bool :=
  let w := (Assoc.getD s.peerSets n (0, 0)).1
  w.getLsbD 63 && w.getLsbD part

def collCheck (s : State) (ops : Word × Word × Word) (l : List (BitVec 40 × BitVec 24)) : IssueCheck :=
  let ctl := ops.2.2
  { illegal :=
      if bitsAt ctl.toNat 40 24 ≠ 0 ∨ bitsAt ctl.toNat 13 3 ≠ 0 ∨ 4 < collFrm ctl ∨ 5 < collDtype ctl ∨ collRop ctl = 3 ∨
         3 < collOp ctl ∨ (collOp ctl ≠ 3 ∧ collRoot ctl ≠ 0) then some ctl
      else if 1 ≤ l.length ∧ l.length ≤ 4 then none else some (BitVec.ofNat 64 l.length)
    caps := [18]
    fault := whenTrue (!s.psetOk s.thr.key.part (collPset ctl)) .protect ctl }

/-! ### Issue (R184) -/

/-- The predecessors of the `tafter` record that still name tethers (R193). -/
def State.livePreds (s : State) : List Word :=
  match s.thr.preds with
  | none => []
  | some (x, y) => [x, y].filter fun w => (s.myTether? w).isSome

/-- Count of slots of a process's reel (R278). -/
def reelSlots : Nat := 1024

/-- Create the tether of an issue, attached or detached, and clear the `tafter` record (R184, R193). -/
def State.issueTether (s : State) (kind : TKind) (d a b : Reg) (prio : BitVec 3) (det : Bool) : Run State := do
  let t := s.thr
  let die := t.core.die
  if s.tableRoom t.key.part die then .ok () else .error (.park s (.entry die))
  let s1 ← s.drain
  let det' := det && decide (s1.thrPr.reel < reelSlots)
  let s2 := if det' then s1.setThrPr { s1.thrPr with reel := s1.thrPr.reel + 1 } else s1
  let blank := Tether.blank kind t.key.part t.key.proc die t.key t.core
  let (s3, tok) := s2.addTether { blank with
    prio := prio, detached := det',
    detacher := if det' then some t.key else none, owner := if det' then none else some t.key, ops := t.triple a, layout := t.layout b,
    preds := s1.livePreds }
  let s4 := s3.settlePreds s3.tethers.length
  .ok ((s4.mapThr fun t => { (t.count 13 1) with preds := none }).setX d tok)

/-- Issue a tether of a kind: R80's order with the values of TVAL that R184 to R188 give (DEDUCED, log 64). -/
def issueOp (w : BitVec 32) (kind : TKind) (d a b : Reg) (prio : BitVec 3) (det : Bool)
    (chk : Word × Word × Word → List (BitVec 40 × BitVec 24) → IssueCheck) (s : State) : Host.Outcome State Fault Refusal :=
  let t := s.thr
  let c := chk (t.triple a) (t.layout b)
  let args : VArgs := { word := w, legal := decide (a.toNat < 30), caps := c.caps, src := [oneOf b.toNat 64 (List.range t.vl)],
                        xsrc := [a, a + 1, a + 2], always := true }
  match c.illegal with
  | some v => issueVector { word := if a.toNat < 30 then v else tv w, legal := false } s fun s => .ok s
  | none =>
    issueVector (t.vreq args) s fun s =>
      match c.fault with
      | some (cause, v) => raise s cause v
      | none => s.issueTether kind d a b prio det

/-- MMA (R187). -/
def execMma (d a b : Reg) (p : BitVec 3) (t : Bool) (s : State) : Host.Outcome State Fault Refusal :=
  issueOp (wordMma d a b p t) .mma d a b p t mmaCheck s

/-- BLOAD (R186). -/
def execBload (d a b : Reg) (p : BitVec 3) (t : Bool) (s : State) : Host.Outcome State Fault Refusal :=
  issueOp (wordBload d a b p t) .bload d a b p t bloadCheck s

/-- COPY (R185). -/
def execCopy (d a b : Reg) (p : BitVec 3) (t : Bool) (s : State) : Host.Outcome State Fault Refusal :=
  issueOp (wordCopy d a b p t) .copy d a b p t copyCheck s

/-- COLL (R188). -/
def execColl (d a b : Reg) (p : BitVec 3) (t : Bool) (s : State) : Host.Outcome State Fault Refusal :=
  issueOp (wordColl d a b p t) .coll d a b p t (collCheck s) s

/-! ### Waiting, testing and control (R189 to R194) -/

/-- A control instruction: no capability, held until older vector instructions commit (R236). -/
def tetherOp (w : BitVec 32) (legal : Bool) (src : List Reg) (s : State) (body : State → Run State) :
    Host.Outcome State Fault Refusal :=
  issueHeld { word := tv w, legal := legal, reads := xs src } s body

/-- Observing a state (R189): delivery of a fault, or the state code and retirement by the owner. -/
def State.observe (s : State) (d : Reg) (tok : Word) : Run State :=
  match s.myTether? tok with
  | none => .ok (s.setX d 7)
  | some t =>
    let code := BitVec.ofNat 64 (TState.code t.state)
    if tetherFinal t && decide (t.owner = some s.thr.key) then
      if decide (t.state = .faulted) && !t.delivered then
        raise (s.mapTether tok fun t => { t with delivered := true }) .tetherFault tok
      else .ok ((s.retire tok).setX d code)
    else .ok (s.setX d code)

/-- TWAIT (R189). -/
def execTwait (d a : Reg) (s : State) : Host.Outcome State Fault Refusal :=
  tetherOp (wordTwait d a) true [a] s fun s => do
    match s.myTether? (s.xr a) with
    | some t => if tetherFinal t then .ok () else .error (.park s (.tether (s.xr a)))
    | none => .ok ()
    s.observe d (s.xr a)

/-- TTEST (R189). -/
def execTtest (d a : Reg) (s : State) : Host.Outcome State Fault Refusal :=
  tetherOp (wordTtest d a) true [a] s fun s => s.observe d (s.xr a)

/-- TCANCEL (R191). -/
def execTcancel (a : Reg) (s : State) : Host.Outcome State Fault Refusal :=
  tetherOp (wordTcancel a) true [a] s fun s =>
    .ok (match s.myTether? (s.xr a) with | some _ => s.cancelTether (s.xr a) | none => s)

/-- TDETACH (R192). -/
def execTdetach (d a : Reg) (s : State) : Host.Outcome State Fault Refusal :=
  tetherOp (wordTdetach d a) true [a] s fun s =>
    match s.myTether? (s.xr a) with
    | none => .ok (s.setX d (BitVec.allOnes 64))
    | some t =>
      if t.detached && decide (t.detacher = some s.thr.key) then .ok (s.setX d 1)
      else if decide (t.owner = some s.thr.key) then
        if s.thrPr.reel < reelSlots then
          let s1 := s.setThrPr { s.thrPr with reel := s.thrPr.reel + 1 }
          .ok ((s1.mapTether (s.xr a) fun t => { t with detached := true, owner := none, detacher := some s.thr.key }).setX d 1)
        else .ok (s.setX d 0)
      else .ok (s.setX d (BitVec.allOnes 64))

/-- TADOPT (R192). -/
def execTadopt (d a : Reg) (s : State) : Host.Outcome State Fault Refusal :=
  tetherOp (wordTadopt d a) true [a] s fun s =>
    match s.myTether? (s.xr a) with
    | some t =>
      if t.detached then
        let s1 := s.setThrPr { s.thrPr with reel := s.thrPr.reel - 1 }
        .ok ((s1.mapTether (s.xr a) fun t => { t with detached := false, owner := some s.thr.key }).setX d 1)
      else .ok (s.setX d 0)
    | none => .ok (s.setX d 0)

/-- TAFTER (R193). -/
def execTafter (a b : Reg) (s : State) : Host.Outcome State Fault Refusal :=
  tetherOp (wordTafter a b) true [a, b] s fun s =>
    .ok (s.mapThr fun t => { t with preds := some (t.xr a, t.xr b) })

/-- TSTAT (R190). -/
def execTstat (d a src : Reg) (s : State) : Host.Outcome State Fault Refusal :=
  tetherOp (wordTstat d a src) (codeUpTo src 5) [a] s fun s =>
    .ok (s.setX d (match s.myTether? (s.xr a) with
      | none => if src = 0 then 7 else 0
      | some t =>
        match src.toNat with
        | 0 => tetherStat t
        | 1 => BitVec.ofNat 64 t.progress
        | 2 => t.addr
        | 3 => t.flags.zeroExtend 64
        | 4 => BitVec.ofNat 64 t.clamps
        | _ => BitVec.ofNat 64 t.node))

/-- TSETPRI (R194). -/
def execTsetpri (a : Reg) (p : BitVec 3) (s : State) : Host.Outcome State Fault Refusal :=
  tetherOp (wordTsetpri a p) true [a] s fun s =>
    .ok (match s.myTether? (s.xr a) with
      | some t =>
        if decide (t.owner = some s.thr.key) && !tetherFinal t then s.mapTether (s.xr a) fun t => { t with prio := p } else s
      | none => s)

end Sys2Proof.Machine
end

