-- ==== Sys2Proof/Machine/Stream.lean ====
section
/-! DEFINITION. Stream registers (R173 to R176). -/
namespace Sys2Proof.Machine

/-- The binding of a stream register. -/
def Thread.bind? (t : Thread) (q : Reg) : Option StreamBind := Assoc.get? t.binds q.toNat

/-- Bytes that have arrived, and whether no further byte will (R174 to R176). -/
def State.arrived (s : State) (b : StreamBind) : Nat × Bool :=
  match b.final with
  | some n => (n, true)
  | none =>
    match s.myTether? b.token with
    | some t => (copyArrived t b.len, tetherFinal t)
    | none => (b.len, true)

/-- True when the next `n` elements can be read; otherwise BOUNDS, TETHER_FAULT or a park (R175). Where both traps have their
cause BOUNDS comes first (DESIGN CHOICE, log 69). -/
def State.streamReady (s : State) (q : Reg) (b : StreamBind) (n : Nat) : Run Unit :=
  let upTo := (b.pos + n) * b.bytes
  let (have_, final) := s.arrived b
  if b.len < upTo then raise s .bounds (BitVec.ofNat 64 (b.base + b.len))
  else if upTo ≤ have_ then .ok ()
  else if final then raise s .tetherFault b.token
  else .error (.park s (.stream q.toNat n))

/-- Address of element `k` from the read position on. -/
def StreamBind.addr (b : StreamBind) (k : Nat) : Word := BitVec.ofNat 64 (b.base + (b.pos + k) * b.bytes)

/-- The thread with a stream register advanced. -/
def Thread.advance (t : Thread) (q : Reg) (b : StreamBind) (n : Nat) : Thread :=
  { t with binds := Assoc.put t.binds q.toNat { b with pos := b.pos + n } }

/-- A stream instruction: COPY, held (R71, R236); ILLEGAL in a handler, claimed or not (R217). What the instruction asks of its
operands and of the binding comes after the checks of R80 that R80 names (DEDUCED, log 24). -/
def streamOp (w : BitVec 32) (legal : Bool) (src : List Reg) (s : State) (body : State → Run State) :
    Host.Outcome State Fault Refusal :=
  issueHeld { word := tv w, legal := legal && !s.thr.supervisor, caps := [17], reads := xs src } s body

/-- QBIND (R173). -/
def execQbind (d a b : Reg) (s : State) : Host.Outcome State Fault Refusal :=
  streamOp (wordQbind d a b) (isStream d) [a, b] s fun s => do
    let w := s.xr b
    let tok := s.xr a
    need s (decide (w.toNat < 4)) .illegal w
    match s.myTether? tok with
    | none => raise s .illegal tok
    | some t => do
      need s (decide (t.kind = .copy) && (!toWindow t || decide (t.issuer = s.thr.key))) .illegal tok
      let n := 2 ^ w.toNat
      let len := copyEsz t.ops.2.2 * volume t.layout
      need s (decide (t.ops.2.1.toNat % n = 0 ∧ len % n = 0)) .align t.ops.2.1
      .ok (s.mapThr fun u =>
        { u with binds := Assoc.put u.binds d.toNat ⟨tok, t.ops.2.1.toNat, len, n, 0, none⟩ })

/-- QUNBIND (R174). -/
def execQunbind (a : Reg) (s : State) : Host.Outcome State Fault Refusal :=
  streamOp (wordQunbind a) (isStream a) [] s fun s => .ok (s.mapThr fun t => { t with binds := Assoc.drop t.binds a.toNat })

/-- QGET (R174). -/
def execQget (d a : Reg) (s : State) : Host.Outcome State Fault Refusal :=
  streamOp (wordQget d a) (isStream a) [] s fun s =>
    match s.thr.bind? a with
    | none => raise s .illegal (tv (wordQget d a))
    | some b => do
      s.streamReady a b 1
      let (bs, s) ← s.readClass 0 (b.addr 0) b.bytes
      .ok ((s.setX d (sextWord (8 * b.bytes) (natOfBytes bs))).mapThr fun t => t.advance a b 1)

/-- QAVAIL (R174). -/
def execQavail (d a : Reg) (s : State) : Host.Outcome State Fault Refusal :=
  streamOp (wordQavail d a) (isStream a) [] s fun s =>
    match s.thr.bind? a with
    | none => raise s .illegal (tv (wordQavail d a))
    | some b =>
      let (n, final) := s.arrived b
      let more := n / b.bytes - b.pos
      .ok (s.setX d (BitVec.ofNat 64 (more + (if final || decide (b.pos * b.bytes = b.len) then 2 ^ 63 else 0))))

end Sys2Proof.Machine
end

