-- ==== Sys2Proof/Machine/Fabric.lean ====
section
/-! DEFINITION. Fabric slots and planes (R196 to R199, R298), and the start of a `fop` (R200 to R202, R205). -/
namespace Sys2Proof.Machine

/-! ### Slots (R196, R199) -/

def Process.slot (p : Process) (n : Nat) : FabricSlot := Assoc.getD p.fabric n ⟨none, 0⟩

/-- A register that holds a slot (R196). -/
def State.slotArg (s : State) (w : Word) : Run Nat := do
  need s (decide (w.toNat < 16)) .illegal w
  .ok w.toNat

/-! ### Planes (R294, R298) -/

/-- True while a running `fop` uses the plane. -/
def Core.busyPlane (c : Core) (p : Nat) : Bool := match c.run with | some r => decide (r.plane = p) | none => false

/-- The plane that holds a binding. -/
def Core.resident (c : Core) (part pr slot : Nat) (gen : BitVec 32) : Option Nat :=
  (c.planes.find? fun e => decide (e.2.part = part ∧ e.2.proc = pr ∧ e.2.slot = slot ∧ e.2.gen = gen)).map Prod.fst

/-- True while a binding is being loaded. -/
def Core.loadingOf (c : Core) (part pr slot : Nat) (gen : BitVec 32) : Bool :=
  c.loading.any fun e => decide (e.2.part = part ∧ e.2.proc = pr ∧ e.2.slot = slot ∧ e.2.gen = gen)

/-- The least recently used of some planes. -/
def leastUsed : List (Nat × Plane) → Option Nat
  | [] => none
  | e :: r =>
    match leastUsed r with
    | none => some e.1
    | some k => if e.2.used ≤ ((r.find? fun x => decide (x.1 = k)).map fun x => x.2.used).getD 0 then some e.1 else some k

/-- The plane that a load takes: an empty one, or the idle one least recently used. -/
def Core.freePlane (c : Core) : Option Nat :=
  match (List.range 4).find? fun p => (Assoc.get? c.planes p).isNone && (Assoc.get? c.loading p).isNone with
  | some p => some p
  | none => leastUsed (c.planes.filter fun e => !c.busyPlane e.1 && (Assoc.get? c.loading e.1).isNone)

/-- Start to load a slot's graph on a core, if it is bound, not there, and a plane is free; `true` when a load starts. -/
def State.startLoad (s : State) (c : CoreId) (part pr slot : Nat) : State × Bool :=
  let b := (s.proc part pr).slot slot
  let k := s.core c
  match b.graph, k.freePlane with
  | some g, some p =>
    if (k.resident part pr slot b.gen).isSome || k.loadingOf part pr slot b.gen then (s, false)
    else
      ({ s.setCore c { k with planes := Assoc.drop k.planes p,
                              loading := Assoc.put k.loading p ⟨part, pr, slot, b.gen, g, s.clock⟩ } with
          clock := s.clock + 1 }, true)
  | _, _ => (s, false)

/-- A load that a thread causes counts for it (R403). -/
def State.threadLoad (s : State) (slot : Nat) : State :=
  let k := s.thr.key
  let (s1, b) := s.startLoad s.thr.core k.part k.proc slot
  if b then s1.mapThr fun t => t.count 12 1 else s1

/-- Idle planes that hold another generation of a slot than its binding become empty (DEDUCED, log 37). -/
def Core.trim (c : Core) (part pr slot : Nat) (keep : Option (BitVec 32)) : Core :=
  { c with planes := c.planes.filter fun e =>
      c.busyPlane e.1 || !decide (e.2.part = part ∧ e.2.proc = pr ∧ e.2.slot = slot) || decide (keep = some e.2.gen) }

/-- The generation under which a slot is bound. -/
def FabricSlot.bound (b : FabricSlot) : Option (BitVec 32) := if b.graph.isSome then some b.gen else none

def State.trimPlanes (s : State) (part pr slot : Nat) : State :=
  let b := (s.proc part pr).slot slot
  { s with cores := s.cores.map fun e => (e.1, e.2.trim part pr slot b.bound) }

/-- A bound slot's next generation (R197). -/
def nextBind (g : BitVec 32) : BitVec 32 := if g = 0xFFFFFFFF then 1 else g + 1

/-- The 65 words of an image. -/
def imageWords (bs : List Byte) : List Word := (List.range 65).map fun i => BitVec.ofNat 64 (natOfBytes ((List.drop (8 * i) bs).take 8))

/-- FBIND (R196). -/
def execFbind (d a b : Reg) (s : State) : Host.Outcome State Fault Refusal :=
  issueHeld { word := tv (wordFbind d a b), reads := xs [a, b] } s fun s => do
    let n ← s.slotArg (s.xr b)
    let ea := s.xr a
    if ea.toNat % 8 ≠ 0 then raise s .align ea
    let bs ← s.readSpan .image ea 520
    let g := imageWords bs
    let code := bindCode g
    if code ≠ 0 then .ok (s.setX d (BitVec.ofNat 64 code))
    else
      let p := s.thrPr
      let s1 := s.setThrPr { p with fabric := Assoc.put p.fabric n ⟨some g, nextBind (p.slot n).gen⟩ }
      .ok ((s1.trimPlanes s.thr.key.part s.thr.key.proc n).setX d 0)

/-- FUNBIND (R196). -/
def execFunbind (a : Reg) (s : State) : Host.Outcome State Fault Refusal :=
  issueHeld { word := tv (wordFunbind a), reads := xs [a] } s fun s => do
    let n ← s.slotArg (s.xr a)
    let p := s.thrPr
    let s1 := s.setThrPr { p with fabric := Assoc.put p.fabric n ⟨none, (p.slot n).gen⟩ }
    .ok (if (p.slot n).graph.isNone then s else s1.trimPlanes s.thr.key.part s.thr.key.proc n)

/-- FPREFETCH (R196). -/
def execFprefetch (a : Reg) (s : State) : Host.Outcome State Fault Refusal :=
  issueHeld { word := tv (wordFprefetch a), reads := xs [a] } s fun s => do
    let n ← s.slotArg (s.xr a)
    .ok (s.threadLoad n)

/-- What `fquery` writes (R196). -/
def State.slotInfo (s : State) (n : Nat) : Word :=
  let k := s.thr.key
  let b := s.thrPr.slot n
  match b.graph with
  | none => 0
  | some g =>
    let here := ((s.core s.thr.core).resident k.part k.proc n b.gen).isSome
    BitVec.ofNat 64 (b.gen.toNat * 2 ^ 32 + graphCycles g * 2 ^ 16 + (if needsMem g then 16 else 0) +
      (if needsFp g then 8 else 0) + 4 + (if here then 2 else 0) + 1)

/-- FQUERY (R196). -/
def execFquery (d a : Reg) (s : State) : Host.Outcome State Fault Refusal :=
  issueHeld { word := tv (wordFquery d a), reads := xs [a] } s fun s => do
    let n ← s.slotArg (s.xr a)
    .ok (s.setX d (s.slotInfo n))

/-! ### The start of a `fop` (R200 to R202, R205, R298, R309) -/

/-- The position and the length of a stream in the record (R201). -/
def idxPos (w : Word) : Nat := w.toNat % 2 ^ 32
def idxLen (w : Word) : Nat := w.toNat / 2 ^ 32

/-- FFCAUSE of a slot and a cause, valid (R202). -/
def ffcauseOf (slot cause : Nat) : Word := BitVec.ofNat 64 (2 ^ 63 + slot * 2 ^ 8 + cause)

/-- R202's width check: an `in` or `out` of TYPE i64 with SEW 32, or of another with SEW 64. -/
def typeClash (g : List Word) (sew : Nat) : Bool :=
  (graphFes g).any fun e => decide (e.2.op = 3 ∨ e.2.op = 4) && (decide (e.2.ty = 3) != decide (sew = 64))

/-- The initial value of an element's running value (R209, R211). -/
def Fe.immValue (e : Fe) : Nat :=
  match e.ty with
  | 1 => e.imm
  | 2 => e.imm * 256
  | _ => wrap 64 (sext 24 e.imm)
def Fe.initVal (e : Fe) : RunVal := ⟨BitVec.ofNat 64 (if accForm e.op then e.immValue else 0), false, 0⟩

/-- A run from given stream positions. -/
def FabricRun.start (t : Thread) (slot plane : Nat) (gen : BitVec 32) (g : List Word) (d a b p : Reg) (byVlb : Bool)
    (len0 len1 pos0 pos1 out0 : Nat) (vals : Assoc Nat RunVal) : FabricRun :=
  { thread := t.key, slot := slot, plane := plane, gen := gen, graph := g, vd := d.toNat, va := a.toNat, vb := b.toNat,
    mask := p.toNat, len0 := len0, len1 := len1, byVlb := byVlb, next0 := pos0, next1 := pos1, ended := [], bufs := [],
    vals := vals, hist := [], steps := [], runs := [], outBase := out0, outs := [], dropped := [], stores := [], loads := [], issued := [], chained := [],
    round := false, reached := [], flags := 0, fails := [], events := [], firstSeq := t.stores, closing := false }

/-- A run of which nothing but its completion is left (R203, R309). -/
def FabricRun.ending (r : FabricRun) : FabricRun :=
  { r with round := true, reached := List.range 64, ended := (fesOf r.graph 3).map fun f => 4 * f }

/-- The running values of a resumed run: those of the record, and each `agen`'s counter in increasing FE number (R201, R309). -/
def resumeVals (g : List Word) (t : Thread) (h : Assoc Nat RunVal) : Assoc Nat RunVal :=
  ((fesOf g 33).zipIdx).foldl (fun l (f, j) => Assoc.put l f ⟨0, false, idxPos (t.ffidx[j + 3]?.getD 0)⟩) h

/-- A `fop` that can run takes a plane and the fabric, and its thread waits for it. A binding that is in no plane is loaded
first. -/
def State.startFop (s : State) (slot : Nat) (gen : BitVec 32) (mk : Nat → FabricRun) : Run State :=
  let k := s.thr.key
  let c := s.core s.thr.core
  if c.run.isSome then .error (.park s .fabric)
  else
    match c.resident k.part k.proc slot gen with
    | none => .error (.park (s.threadLoad slot) .fabric)
    | some p =>
      let pl := (Assoc.get? c.planes p).map fun x => { x with used := s.clock }
      let planes := match pl with | some x => Assoc.put c.planes p x | none => c.planes
      let s1 := s.setCore s.thr.core { c with run := some (mk p), planes := planes }
      .error (.park { s1 with clock := s.clock + 1 } .fop)

/-- R202 up to the run. A resumed `fop` presents stream 1 unmasked when its own word takes the length from VLB, however the record
took it (DESIGN CHOICE, log 88). -/
def State.fop (s : State) (slot : Nat) (gen : BitVec 32) (g : List Word) (d a b p : Reg) (byVlb : Bool) : Run State :=
  let t := s.thr
  if t.ffcause.getLsbD 63 then
    let hidden : FabricHidden := t.ffhidden.getD ⟨0, [], false⟩
    if bitsAt t.ffcause.toNat 8 4 ≠ slot ∨ hidden.gen ≠ gen ∨ 8 ≤ t.ffcause.toNat % 256 then
      raise s .fabricErr t.ffcause (idxPos (t.ffidx[0]?.getD 0))
    else
      let i0 := t.ffidx[0]?.getD 0
      let i1 := t.ffidx[1]?.getD 0
      s.startFop slot gen fun plane =>
        let r := FabricRun.start t slot plane gen g d a b p byVlb (idxLen i0) (idxLen i1) (idxPos i0) (idxPos i1)
          (idxPos (t.ffidx[2]?.getD 0)) (resumeVals g t hidden.vals)
        if hidden.closing then r.ending else r
  else if t.vl = 0 then .ok s
  else if typeClash g t.sew then
    let s1 := s.mapThr fun t => { t with ffcause := ffcauseOf slot 10, ffaddr := 0, ffidx := Vector.replicate 8 0,
                                         ffhidden := some ⟨gen, [], false⟩ }
    raise s1 .fabricErr (ffcauseOf slot 10)
  else
    s.startFop slot gen fun plane =>
      FabricRun.start t slot plane gen g d a b p byVlb t.vl (if byVlb then t.vlb else t.vl) 0 0 0 []

/-- True when two register groups share a register. -/
def groupsMeet (grp : Nat) (x y : Reg) : Bool := decide (x.toNat < y.toNat + grp ∧ y.toNat < x.toNat + grp)

/-- The elements of stream `k` that a `fop` presents, of those that `act` keeps below `len`; a resumed one takes the positions and
lengths of its record (R202). -/
def Thread.fopElems (t : Thread) (k len : Nat) (act : Nat → Bool) : List Nat :=
  let i := t.ffidx[k]?.getD 0
  if t.ffcause.getLsbD 63 then (List.range (min (idxLen i) t.vlmax)).filter fun j => decide (idxPos i ≤ j) && act j
  else (List.range len).filter act

/-- A `fop` (R200): ILLEGAL, then FSLOT_UNBOUND in place of R80 steps 3 and 4, whatever VL is (DESIGN CHOICE, log 84), then R202. -/
def fopOp (w : BitVec 32) (d a b p : Reg) (slot : Nat) (byVlb : Bool) (s : State) : Host.Outcome State Fault Refusal :=
  let t := s.thr
  let legal := !t.supervisor && decide (32 ≤ t.sew) && !groupsMeet t.grp d a && !groupsMeet t.grp d b
  let args : VArgs := { word := w, legal := legal, caps := [], dst := [t.own d],
                        src := [(t.own a).reading (t.fopElems 0 t.vl (t.pbit p)),
                                (t.own b).reading (t.fopElems 1 (if byVlb then t.vlb else t.vl) fun i => byVlb || t.pbit p i)],
                        psrc := [p], always := t.ffcause.getLsbD 63 }
  let b0 := s.thrPr.slot slot
  match b0.graph with
  | none =>
    let r := t.vreq args
    issueVector { r with declared := true, reads := [] } s fun s => raise s .fslotUnbound (BitVec.ofNat 64 slot)
  | some g => issueVector (t.vreq { args with caps := graphCaps g }) s fun s => s.fop slot b0.gen g d a b p byVlb

/-- FOP (R202). -/
def execFop (d a b p : Reg) (src : BitVec 4) (s : State) : Host.Outcome State Fault Refusal :=
  fopOp (wordFop d a b p src) d a b p src.toNat false s

/-- FOP_VLB (R202). -/
def execFopVlb (d a b p : Reg) (src : BitVec 4) (s : State) : Host.Outcome State Fault Refusal :=
  fopOp (wordFopVlb d a b p src) d a b p src.toNat true s

end Sys2Proof.Machine
end

