-- ==== Sys2Proof/Machine/Fetch.lean ====
section
/-! DEFINITION. Fetching an instruction: the resident prefix of registered text (R324), translation, breakpoints (R373),
the words and their decoding (R63, R69, R70, R79, R80 step 1, R112). -/
namespace Sys2Proof.Machine

/-- A thread's process. -/
def State.thrProc (s : State) : Process := s.proc s.thr.key.part s.thr.key.proc

/-- The registration whose text range holds an address (R324). -/
def Process.textAt (p : Process) (a : Nat) : Option (Nat × TextReg) :=
  p.texts.find? fun (_, r) => decide (r.base ≤ a ∧ a < r.base + r.len)

/-- A registration after the fetch unit reads its mark word: the largest P read, and FAILED (R324). -/
def TextReg.see (r : TextReg) (w : Nat) : TextReg :=
  { r with upTo := max r.upTo (w % 2 ^ 63), failed := w.testBit 63 }

/-- Read the mark word of a registration of a process through a core's TLBs: a virtual address, with the rights of a supervisor load; a
word that cannot be read leaves P as it was (DESIGN CHOICE, log 103). The error is the address that a peer is to be asked for. -/
def State.readMark (s : State) (w : Actor) (r : TextReg) : Except Nat TextReg :=
  match translate s.mem s w.home w.part w.proc true .load r.mark w.known with
  | .error f => match f.ask with | some d => .error d | none => .ok r
  | .ok d =>
    if !(Place.device d).remote then .ok (r.see (s.mem.load d 8))
    else if s.unreachable w.part d false then .ok r
    else match knownWord w.known d with | some m => .ok (r.see m) | none => .error d

/-- The resident prefix check of a fetch of the word at `a`: XLATE when loading has failed, a park while the word lies at or
above P (R324). A mark word that a peer holds is asked for, and again each time the thread looks (R379; DEDUCED, log 14). -/
def State.checkText (s : State) (a : Nat) : Run State :=
  match s.thrProc.textAt a with
  | none => .ok s
  | some (slot, r) =>
    match s.readMark s.thr.actor r with
    | .error d => raiseAccess s { plainXlate .fetch with ask := some d } (BitVec.ofNat 64 a)
    | .ok r1 =>
      let p := s.thrProc
      let s1 := if r1 = r then s
        else s.setProc s.thr.key.part s.thr.key.proc { p with texts := Assoc.put p.texts slot r1 }
      if a - r.base + 4 ≤ r1.upTo then .ok s1
      else if r1.failed then raiseAccess s1 (plainXlate .fetch) (BitVec.ofNat 64 a)
      else .error (.park (s1.mapThr fun t => { t with peerData := t.otherAnswers }) (.text slot (a - r.base + 4)))

/-- The bytes of a word, where `bs` is there as the thread sees it. Each word is read single-copy atomically (R271): one of which the
thread's own stores hold a part is read as it was before them, or after they have been performed, a free choice. -/
def State.wholeWord (s : State) (a : Word) (bs : List Byte) : Run (State × List Byte) :=
  match s.place .fetch a 4 with
  | .ok (.device d) =>
    if (Place.device d).remote || !s.thr.sq.any (s.thr.joined 0 true [⟨d, 4⟩]) then .ok (s, bs)
    else do
      let (first, s1) := s.choose [true, false] true
      let s2 ← if first then s1.drainWhere (s.thr.joined 0 true [⟨d, 4⟩]) else .ok s1
      if (granules d 4).any fun g => (Assoc.get? s2.badMem g).isSome then raise s2 .dataErr a
      else .ok (s2, s2.mem.bytes d 4)
  | _ => .ok (s, bs)

/-- One instruction word (R63, R112). -/
def State.fetchWord (s : State) (a : Word) : Run (State × BitVec 32) := do
  let s1 ← s.checkText a.toNat
  let bs ← s1.read 0 .fetch a 4
  let (s2, w) ← s1.wholeWord a bs
  .ok (s2, BitVec.ofNat 32 (natOfBytes w))

/-- The lowest enabled breakpoint register that names the PC (R373). -/
def Thread.breakpoint (t : Thread) : Option Nat :=
  if t.supervisor || (t.csa.byte 0x260).getLsbD 0 then none
  else (List.range 8).find? fun n =>
    let b := (t.csaWord (0x220 + 8 * n)).toNat
    b.testBit 0 && decide (bitsAt b 2 47 * 4 = t.pc.toNat)

/-- The prefix word that has been read at the PC (R271). -/
def Thread.prefixRead (t : Thread) : Option (BitVec 32) :=
  match t.half with
  | some (pc, sup, w) => if pc = t.pc ∧ sup = t.supervisor then some w else none
  | none => none

/-- Between the two words of a pair: the fetch stops short with the first held when a break has been asked for. -/
def State.breakFetch (s : State) (w : BitVec 32) : Run State :=
  match s.breakHere with
  | .error (.park s1 _) => .error (.park (s1.mapThr fun t => { t with half := some (t.pc, t.supervisor, w) }) .again)
  | r => r

/-- The word or words at the PC: a prefix brings the word after it, and a fault of either is raised at the prefix (R70). A
deprecated instruction between micro-steps has been fetched (R223), and so has one that has begun to perform. The two words of a pair are two reads, and other agents may
act between them; the prefix word is then held (R271). -/
def State.fetchWords (s : State) : Run (State × List (BitVec 32)) :=
  match s.thr.micro, s.thr.begun with
  | some m, _ => .ok (s, [m.word])
  | none, some b => .ok (s, [b.word])
  | none, none =>
    match s.thr.prefixRead with
    | some w => do
      let (s2, w2) ← s.fetchWord (s.thr.pc + 4)
      .ok (s2.mapThr fun t => { t with half := none }, [w, w2])
    | none => do
      let (s1, w) ← s.fetchWord s.thr.pc
      if isPrefix w then
        let s2 ← s1.breakFetch w
        let (s3, w2) ← s2.fetchWord (s.thr.pc + 4)
        .ok (s3, [w, w2])
      else .ok (s1, [w])

/-- True of the word of a vector instruction (R233): of the vector, tile and fabric majors 0x1E to 0x33, a tether issue, or a
deprecated instruction (R71). -/
def isVectorWord (w : BitVec 32) : Bool :=
  let m := (w.extractLsb' 26 6).toNat
  decide ((0x1E ≤ m ∧ m ≤ 0x33) ∨ m = 0x3E ∨ (m = 0x1D ∧ w.toNat % 128 < 4))

/-- True when the instruction at the PC is a vector instruction, for TVCP.VEC (R225). -/
def State.atVector (s : State) : Bool :=
  match s.fetchWords with
  | .ok (_, [w]) => isVectorWord w
  | _ => false

noncomputable section

/-- Fetch and decode: an ILLEGAL word traps with the word or words in TVAL (R79), a breakpoint before that (R373). -/
def State.fetch (s : State) : Run (State × Instr) := do
  let (s1, ws) ← s.fetchWords
  match (if s.thr.begun.isSome then none else s.thr.breakpoint) with
  | some n => raise s1 .brk (BitVec.ofNat 64 (n + 1))
  | none =>
    match decodeWords ws with
    | .ok (i, _) => .ok (s1, i)
    | .error _ => raise s1 .illegal (tvalOfWords ws)

end

end Sys2Proof.Machine
end

