-- ==== Sys2Proof/Machine/Predicate.lean ====
section
/-! DEFINITION. Comparisons (R135) and operations on predicates (R136, R137). -/
namespace Sys2Proof.Machine

/-! ### Comparisons (R135) -/

/-- The truth of an integer condition on elements of `w` bits. -/
def intCmp (c : CmpCond) (u : Bool) (w a b : Nat) : Bool :=
  let x : Int := if u then (a : Int) else sext w a
  let y : Int := if u then (b : Int) else sext w b
  match c with
  | .eq => decide (x = y)
  | .ne => decide (x ≠ y)
  | .lt => decide (x < y)
  | .le => decide (x ≤ y)
  | .gt => decide (y < x)
  | .ge => decide (y ≤ x)
  | .unord => false

/-- The truth of a floating-point condition and its flags; `ne` is false for a NaN. -/
def fpCmp (c : CmpCond) (f : Fmt) (a b : Nat) : Bool × Flags :=
  let nan := (f.unpack a).isNan || (f.unpack b).isNan
  match c with
  | .eq => f.feq a b
  | .ne => (!nan && !(f.feq a b).1, (f.feq a b).2)
  | .lt => f.flt a b
  | .le => f.fle a b
  | .gt => f.flt b a
  | .ge => f.fle b a
  | .unord => (nan, (f.feq a b).2)

def vCmpOp (w : BitVec 32) (d a : Reg) (b : VSrc) (p : Reg) (c : CmpCond) (u : Bool) (s : State) :
    Host.Outcome State Fault Refusal :=
  let t := s.thr
  predOp { word := w, legal := intCond c u, caps := [3], src := t.own a :: b.ops t, pdst := [d], psrc := [p],
           xsrc := b.xregs } d p
    (fun t i => (intCmp c u t.sew (t.elem a.toNat i t.sew) (b.value t i), 0)) s

def vFcmpOp (w : BitVec 32) (d a : Reg) (b : VSrc) (p : Reg) (c : CmpCond) (s : State) : Host.Outcome State Fault Refusal :=
  let t := s.thr
  predOp { word := w, legal := decide (t.sew ≠ 8), caps := [fpCap t.sew], src := t.own a :: b.ops t, pdst := [d],
           psrc := [p], xsrc := b.xregs } d p
    (fun t i => fpCmp c t.fmt (t.elem a.toNat i t.sew) (b.value t i)) s

/-- VCMP_VV (R135). -/
def execVcmpVv (d a b p : Reg) (c : CmpCond) (u : Bool) (s : State) : Host.Outcome State Fault Refusal :=
  vCmpOp (wordVcmpVv d a b p c u) d a (.vec b) p c u s

/-- VCMP_VX (R135). -/
def execVcmpVx (d a b p : Reg) (c : CmpCond) (u : Bool) (s : State) : Host.Outcome State Fault Refusal :=
  vCmpOp (wordVcmpVx d a b p c u) d a (.x b) p c u s

/-- VFCMP_VV (R135). -/
def execVfcmpVv (d a b p : Reg) (c : CmpCond) (s : State) : Host.Outcome State Fault Refusal :=
  vFcmpOp (wordVfcmpVv d a b p c) d a (.vec b) p c s

/-- VFCMP_VX (R135). -/
def execVfcmpVx (d a b p : Reg) (c : CmpCond) (s : State) : Host.Outcome State Fault Refusal :=
  vFcmpOp (wordVfcmpVx d a b p c) d a (.x b) p c s

/-! ### The predicate family (R137) -/

/-- An instruction from predicates to a predicate. -/
def pOp (w : BitVec 32) (d : Reg) (src : List Reg) (p : Reg) (res : Thread → Nat → Bool) (s : State) :
    Host.Outcome State Fault Refusal :=
  predOp { word := w, caps := [3], pdst := [d], psrc := p :: src } d p (fun t i => (res t i, 0)) s

/-- The lowest active index whose bit of `a` is set (R137). -/
def Thread.firstBit (t : Thread) (a p : Reg) : Option Nat := (t.actives p).find? (t.pbit a)

/-- An instruction from predicates to an x register; with VL = 0 it writes nothing (R121). -/
def pToX (w : BitVec 32) (d a p : Reg) (res : Thread → Word) (s : State) : Host.Outcome State Fault Refusal :=
  issueVl { word := w, caps := [3], psrc := [p, a] } s fun s => .ok (s.setX d (res s.thr))

/-- PAND (R137). -/
def execPand (d a b p : Reg) (s : State) : Host.Outcome State Fault Refusal :=
  pOp (wordPand d a b p) d [a, b] p (fun t i => t.pbit a i && t.pbit b i) s

/-- POR (R137). -/
def execPor (d a b p : Reg) (s : State) : Host.Outcome State Fault Refusal :=
  pOp (wordPor d a b p) d [a, b] p (fun t i => t.pbit a i || t.pbit b i) s

/-- PXOR (R137). -/
def execPxor (d a b p : Reg) (s : State) : Host.Outcome State Fault Refusal :=
  pOp (wordPxor d a b p) d [a, b] p (fun t i => t.pbit a i != t.pbit b i) s

/-- PNOT (R137). -/
def execPnot (d a p : Reg) (s : State) : Host.Outcome State Fault Refusal :=
  pOp (wordPnot d a p) d [a] p (fun t i => !t.pbit a i) s

/-- PSET (R137). -/
def execPset (d p : Reg) (s : State) : Host.Outcome State Fault Refusal :=
  pOp (wordPset d p) d [] p (fun _ _ => true) s

/-- PCLR (R137). -/
def execPclr (d p : Reg) (s : State) : Host.Outcome State Fault Refusal :=
  pOp (wordPclr d p) d [] p (fun _ _ => false) s

/-- PMSBF (R137). -/
def execPmsbf (d a p : Reg) (s : State) : Host.Outcome State Fault Refusal :=
  pOp (wordPmsbf d a p) d [a] p (fun t i => decide (i < (t.firstBit a p).getD t.vl)) s

/-- PMSIF (R137). -/
def execPmsif (d a p : Reg) (s : State) : Host.Outcome State Fault Refusal :=
  pOp (wordPmsif d a p) d [a] p (fun t i => decide (i ≤ (t.firstBit a p).getD t.vl)) s

/-- PFIRST (R137). -/
def execPfirst (d a p : Reg) (s : State) : Host.Outcome State Fault Refusal :=
  pToX (wordPfirst d a p) d a p (fun t =>
    match t.firstBit a p with | some f => BitVec.ofNat 64 f | none => BitVec.allOnes 64) s

/-- PCOUNT (R137). -/
def execPcount (d a p : Reg) (s : State) : Host.Outcome State Fault Refusal :=
  pToX (wordPcount d a p) d a p (fun t => BitVec.ofNat 64 ((t.actives p).filter (t.pbit a)).length) s

end Sys2Proof.Machine
end

