-- ==== Sys2Proof/Machine/VectorFloat.lean ====
section
/-! DEFINITION. Vector floating-point arithmetic (R130) and single-source functions (R131). -/
namespace Sys2Proof.Machine

/-! ### Shapes -/

/-- A floating-point instruction on a, b and d; SEW 8 is illegal (R130). `acc` when it reads its destination. -/
def vFpOp (w : BitVec 32) (acc : Bool) (d a : Reg) (b : VSrc) (p : Reg) (f : Fmt → RMode → Nat → Nat → Nat → Nat × Flags)
    (s : State) : Host.Outcome State Fault Refusal :=
  let t := s.thr
  elemOp { word := w, legal := decide (t.sew ≠ 8), caps := [fpCap t.sew], dst := [t.own d],
           src := t.own a :: b.ops t ++ (if acc then [t.own d] else []), psrc := [p], xsrc := b.xregs } d p
    (fun t i => f t.fmt t.vfrm (t.elem a.toNat i t.sew) (b.value t i) (t.elem d.toNat i t.sew)) s

/-- A single-source function (R131). -/
def vFp1Op (w : BitVec 32) (d a p : Reg) (f : Fmt → RMode → Nat → Nat × Flags) (s : State) : Host.Outcome State Fault Refusal :=
  let t := s.thr
  elemOp { word := w, legal := decide (t.sew ≠ 8), caps := [fpCap t.sew], dst := [t.own d], src := [t.own a],
           psrc := [p] } d p (fun t i => f t.fmt t.vfrm (t.elem a.toNat i t.sew)) s

/-! ### Estimates (R131) -/

/-- A nonzero magnitude truncated to 8 significant bits, or to the subnormal grid of the format. -/
def Fmt.trunc8 (f : Fmt) (x : Dy) : Dy :=
  let top : Int := (Nat.log2 x.m : Int) + x.e
  let q := max (top - 7) (f.emin - f.fbits)
  ⟨x.neg, (roundTo .rtz x.neg x.m x.e q).1, q⟩

/-- The estimate of a nonzero magnitude, infinity with OF above the largest finite value (R131). -/
def Fmt.estimate (f : Fmt) (x : Dy) : Nat × Flags :=
  let y := f.trunc8 x
  match f.unpack f.maxFinite with
  | .fin mx => if mx.lt { y with neg := false } then (f.inf x.neg, Flags.of) else ((f.round .rtz y).1, 0)
  | _ => (f.inf x.neg, Flags.of)

/-- 1/√x of a positive value, floored far below its eighth bit. -/
def Dy.rsqrt (x : Dy) : Dy :=
  let odd : Nat := if x.e % 2 = 0 then 0 else 1
  let m := x.m * 2 ^ odd
  let k := Nat.log2 m / 2 + 14
  ⟨false, isqrt (2 ^ (2 * k) / m), -((x.e - odd) / 2) - k⟩

/-- `vfrsqrte` (R131). -/
def Fmt.rsqrte (f : Fmt) (a : Nat) : Nat × Flags :=
  match f.unpack a with
  | .nan s => (f.qnan, if s then Flags.nv else 0)
  | .inf neg => if neg then (f.qnan, Flags.nv) else (f.zero false, 0)
  | .fin x =>
    if x.m = 0 then (f.inf x.neg, Flags.dz)
    else if x.neg then (f.qnan, Flags.nv)
    else f.estimate x.rsqrt

/-- `vfrece` (R131). -/
def Fmt.rece (f : Fmt) (a : Nat) : Nat × Flags :=
  match f.unpack a with
  | .nan s => (f.qnan, if s then Flags.nv else 0)
  | .inf neg => (f.zero neg, 0)
  | .fin x => if x.m = 0 then (f.inf x.neg, Flags.dz) else f.estimate (Dy.div 16 ⟨x.neg, 1, 0⟩ { x with neg := false })

/-- Sign injection (R130): a with a new sign. -/
def Fmt.sgnj (f : Fmt) (a b : Nat) : Nat := f.withSign a (f.signOf b)
def Fmt.sgnjn (f : Fmt) (a b : Nat) : Nat := f.withSign a (!f.signOf b)
def Fmt.sgnjx (f : Fmt) (a b : Nat) : Nat := f.withSign a (f.signOf a != f.signOf b)

/-! ### Instructions -/

/-- VFADD_VV (R130). -/
def execVfaddVv (d a b p : Reg) (s : State) : Host.Outcome State Fault Refusal :=
  vFpOp (wordVfaddVv d a b p) false d a (.vec b) p
    (fun f m a b _ => f.add m a b) s

/-- VFSUB_VV (R130). -/
def execVfsubVv (d a b p : Reg) (s : State) : Host.Outcome State Fault Refusal :=
  vFpOp (wordVfsubVv d a b p) false d a (.vec b) p
    (fun f m a b _ => f.sub m a b) s

/-- VFMUL_VV (R130). -/
def execVfmulVv (d a b p : Reg) (s : State) : Host.Outcome State Fault Refusal :=
  vFpOp (wordVfmulVv d a b p) false d a (.vec b) p
    (fun f m a b _ => f.mul m a b) s

/-- VFDIV_VV (R130). -/
def execVfdivVv (d a b p : Reg) (s : State) : Host.Outcome State Fault Refusal :=
  vFpOp (wordVfdivVv d a b p) false d a (.vec b) p
    (fun f m a b _ => f.div m a b) s

/-- VFMIN_VV (R130). -/
def execVfminVv (d a b p : Reg) (s : State) : Host.Outcome State Fault Refusal :=
  vFpOp (wordVfminVv d a b p) false d a (.vec b) p
    (fun f _ a b _ => f.minmax false a b) s

/-- VFMAX_VV (R130). -/
def execVfmaxVv (d a b p : Reg) (s : State) : Host.Outcome State Fault Refusal :=
  vFpOp (wordVfmaxVv d a b p) false d a (.vec b) p
    (fun f _ a b _ => f.minmax true a b) s

/-- VFMACC_VV (R130). -/
def execVfmaccVv (d a b p : Reg) (s : State) : Host.Outcome State Fault Refusal :=
  vFpOp (wordVfmaccVv d a b p) true d a (.vec b) p
    (fun f m a b d => f.fmaVal m (f.unpack a) (f.unpack b) (f.unpack d)) s

/-- VFNMACC_VV (R130). -/
def execVfnmaccVv (d a b p : Reg) (s : State) : Host.Outcome State Fault Refusal :=
  vFpOp (wordVfnmaccVv d a b p) true d a (.vec b) p
    (fun f m a b d => f.fmaVal m (f.unpack a).opp (f.unpack b) (f.unpack d).opp) s

/-- VFMSAC_VV (R130). -/
def execVfmsacVv (d a b p : Reg) (s : State) : Host.Outcome State Fault Refusal :=
  vFpOp (wordVfmsacVv d a b p) true d a (.vec b) p
    (fun f m a b d => f.fmaVal m (f.unpack a) (f.unpack b) (f.unpack d).opp) s

/-- VFNMSAC_VV (R130). -/
def execVfnmsacVv (d a b p : Reg) (s : State) : Host.Outcome State Fault Refusal :=
  vFpOp (wordVfnmsacVv d a b p) true d a (.vec b) p
    (fun f m a b d => f.fmaVal m (f.unpack a).opp (f.unpack b) (f.unpack d)) s

/-- VFSGNJ_VV (R130). -/
def execVfsgnjVv (d a b p : Reg) (s : State) : Host.Outcome State Fault Refusal :=
  vFpOp (wordVfsgnjVv d a b p) false d a (.vec b) p
    (fun f _ a b _ => (f.sgnj a b, 0)) s

/-- VFSGNJN_VV (R130). -/
def execVfsgnjnVv (d a b p : Reg) (s : State) : Host.Outcome State Fault Refusal :=
  vFpOp (wordVfsgnjnVv d a b p) false d a (.vec b) p
    (fun f _ a b _ => (f.sgnjn a b, 0)) s

/-- VFSGNJX_VV (R130). -/
def execVfsgnjxVv (d a b p : Reg) (s : State) : Host.Outcome State Fault Refusal :=
  vFpOp (wordVfsgnjxVv d a b p) false d a (.vec b) p
    (fun f _ a b _ => (f.sgnjx a b, 0)) s

/-- VFADD_VX (R130). -/
def execVfaddVx (d a b p : Reg) (s : State) : Host.Outcome State Fault Refusal :=
  vFpOp (wordVfaddVx d a b p) false d a (.x b) p
    (fun f m a b _ => f.add m a b) s

/-- VFSUB_VX (R130). -/
def execVfsubVx (d a b p : Reg) (s : State) : Host.Outcome State Fault Refusal :=
  vFpOp (wordVfsubVx d a b p) false d a (.x b) p
    (fun f m a b _ => f.sub m a b) s

/-- VFMUL_VX (R130). -/
def execVfmulVx (d a b p : Reg) (s : State) : Host.Outcome State Fault Refusal :=
  vFpOp (wordVfmulVx d a b p) false d a (.x b) p
    (fun f m a b _ => f.mul m a b) s

/-- VFDIV_VX (R130). -/
def execVfdivVx (d a b p : Reg) (s : State) : Host.Outcome State Fault Refusal :=
  vFpOp (wordVfdivVx d a b p) false d a (.x b) p
    (fun f m a b _ => f.div m a b) s

/-- VFMIN_VX (R130). -/
def execVfminVx (d a b p : Reg) (s : State) : Host.Outcome State Fault Refusal :=
  vFpOp (wordVfminVx d a b p) false d a (.x b) p
    (fun f _ a b _ => f.minmax false a b) s

/-- VFMAX_VX (R130). -/
def execVfmaxVx (d a b p : Reg) (s : State) : Host.Outcome State Fault Refusal :=
  vFpOp (wordVfmaxVx d a b p) false d a (.x b) p
    (fun f _ a b _ => f.minmax true a b) s

/-- VFMACC_VX (R130). -/
def execVfmaccVx (d a b p : Reg) (s : State) : Host.Outcome State Fault Refusal :=
  vFpOp (wordVfmaccVx d a b p) true d a (.x b) p
    (fun f m a b d => f.fmaVal m (f.unpack a) (f.unpack b) (f.unpack d)) s

/-- VFNMACC_VX (R130). -/
def execVfnmaccVx (d a b p : Reg) (s : State) : Host.Outcome State Fault Refusal :=
  vFpOp (wordVfnmaccVx d a b p) true d a (.x b) p
    (fun f m a b d => f.fmaVal m (f.unpack a).opp (f.unpack b) (f.unpack d).opp) s

/-- VFMSAC_VX (R130). -/
def execVfmsacVx (d a b p : Reg) (s : State) : Host.Outcome State Fault Refusal :=
  vFpOp (wordVfmsacVx d a b p) true d a (.x b) p
    (fun f m a b d => f.fmaVal m (f.unpack a) (f.unpack b) (f.unpack d).opp) s

/-- VFNMSAC_VX (R130). -/
def execVfnmsacVx (d a b p : Reg) (s : State) : Host.Outcome State Fault Refusal :=
  vFpOp (wordVfnmsacVx d a b p) true d a (.x b) p
    (fun f m a b d => f.fmaVal m (f.unpack a).opp (f.unpack b) (f.unpack d)) s

/-- VFSGNJ_VX (R130). -/
def execVfsgnjVx (d a b p : Reg) (s : State) : Host.Outcome State Fault Refusal :=
  vFpOp (wordVfsgnjVx d a b p) false d a (.x b) p
    (fun f _ a b _ => (f.sgnj a b, 0)) s

/-- VFSGNJN_VX (R130). -/
def execVfsgnjnVx (d a b p : Reg) (s : State) : Host.Outcome State Fault Refusal :=
  vFpOp (wordVfsgnjnVx d a b p) false d a (.x b) p
    (fun f _ a b _ => (f.sgnjn a b, 0)) s

/-- VFSGNJX_VX (R130). -/
def execVfsgnjxVx (d a b p : Reg) (s : State) : Host.Outcome State Fault Refusal :=
  vFpOp (wordVfsgnjxVx d a b p) false d a (.x b) p
    (fun f _ a b _ => (f.sgnjx a b, 0)) s

/-- VFSQRT (R131). -/
def execVfsqrt (d a p : Reg) (s : State) : Host.Outcome State Fault Refusal :=
  vFp1Op (wordVfsqrt d a p) d a p (fun f m x => f.sqrt m x) s

/-- VFRSQRTE (R131). -/
def execVfrsqrte (d a p : Reg) (s : State) : Host.Outcome State Fault Refusal :=
  vFp1Op (wordVfrsqrte d a p) d a p (fun f _ x => f.rsqrte x) s

/-- VFRECE (R131). -/
def execVfrece (d a p : Reg) (s : State) : Host.Outcome State Fault Refusal :=
  vFp1Op (wordVfrece d a p) d a p (fun f _ x => f.rece x) s

/-- VFCLASS (R131). -/
def execVfclass (d a p : Reg) (s : State) : Host.Outcome State Fault Refusal :=
  vFp1Op (wordVfclass d a p) d a p (fun f _ x => (f.classify x, 0)) s

end Sys2Proof.Machine
end

