-- ==== Sys2Proof/Machine/VectorInt.lean ====
section
/-! DEFINITION. Setting the vector length (R125, R126) and integer vector arithmetic (R127 to R129). -/
namespace Sys2Proof.Machine

/-! ### vset (R125) -/

/-- VTYPE, VL and VLB after a `vset` (R125). -/
def Thread.vset (t : Thread) (vt : BitVec 16) (avl : Nat) : Thread :=
  let mx := vlmaxOf vt t.vlen
  { t with vtype := vt, vl := min avl mx, vlb := min t.vlb mx }

/-- The requested length (R125). -/
def Thread.avl (t : Thread) (d a : Reg) (vt : BitVec 16) : Nat :=
  if a ≠ 0 then (t.xr a).toNat else if d ≠ 0 then vlmaxOf vt t.vlen else t.vl

/-- `vsetvli` and `vsetvl` with the offered VTYPE `w`; an illegal one is TVAL (R51, R125). -/
def vsetOp (word : BitVec 32) (src : List Reg) (d a : Reg) (w : Word) (s : State) : Host.Outcome State Fault Refusal :=
  let ok := decide (w.toNat < 2 ^ 16) && vtLegal (w.truncate 16)
  issueVector { word := if ok then tv word else w, legal := ok, caps := [3], reads := xs src } s fun s =>
    .ok (s.mapThr fun t =>
      let u := t.vset (w.truncate 16) (t.avl d a (w.truncate 16))
      u.setX d (BitVec.ofNat 64 u.vl))

/-- VSETVLI (R125). -/
def execVsetvli (d a : Reg) (imm : BitVec 16) (s : State) : Host.Outcome State Fault Refusal :=
  vsetOp (wordVsetvli d a imm) [a] d a (imm.zeroExtend 64) s

/-- VSETVL (R125). -/
def execVsetvl (d a b : Reg) (s : State) : Host.Outcome State Fault Refusal :=
  vsetOp (wordVsetvl d a b) [a, b] d a (s.xr b) s

/-- VSETVLB (R125). -/
def execVsetvlb (d a : Reg) (s : State) : Host.Outcome State Fault Refusal :=
  issueVector { word := tv (wordVsetvlb d a), caps := [3], reads := xs [a] } s fun s => .ok (s.mapThr fun t =>
    let n := min (t.xr a).toNat t.vlmax
    ({ t with vlb := n }).setX d (BitVec.ofNat 64 n))

/-! ### Results (R127), from a, b and the old destination element d at width w; the write keeps the low w bits -/

/-- Two's-complement results. -/
def vSub (w a b : Nat) : Nat := wrap w ((a : Int) - b)
def vMulh (w a b : Nat) : Nat := wrap w (sext w a * sext w b / 2 ^ w)
def vMulhu (w a b : Nat) : Nat := a * b / 2 ^ w
/-- Division at width w as R102 (R127). -/
def vDiv (w a b : Nat) : Nat := if b = 0 then 2 ^ w - 1 else wrap w (Int.tdiv (sext w a) (sext w b))
def vDivu (w a b : Nat) : Nat := if b = 0 then 2 ^ w - 1 else a / b
def vRem (w a b : Nat) : Nat := if b = 0 then a else wrap w (Int.tmod (sext w a) (sext w b))
def vRemu (a b : Nat) : Nat := if b = 0 then a else a % b
/-- Shifts by the low log2(w) bits of b (R128); w is a power of two. -/
def vShl (w a b : Nat) : Nat := a * 2 ^ (b % w)
def vShr (w a b : Nat) : Nat := a / 2 ^ (b % w)
def vSra (w a b : Nat) : Nat := wrap w (sext w a / 2 ^ (b % w))
def vMin (w a b : Nat) : Nat := if sext w a ≤ sext w b then a else b
def vMax (w a b : Nat) : Nat := if sext w b ≤ sext w a then a else b
/-- Saturation to w bits (R11, R127). -/
def satS (w : Nat) (i : Int) : Nat := wrap w (clampInt (-(2 ^ (w - 1))) (2 ^ (w - 1) - 1) i)
def satU (w : Nat) (i : Int) : Nat := (clampInt 0 (2 ^ w - 1) i).toNat

/-! ### Shapes -/

/-- An integer instruction on a, b and d; `acc` when it reads its destination. -/
def vIntOp (w : BitVec 32) (cap : Nat) (acc : Bool) (d a : Reg) (b : VSrc) (p : Reg) (f : Nat → Nat → Nat → Nat → Nat)
    (s : State) : Host.Outcome State Fault Refusal :=
  let t := s.thr
  elemOp { word := w, caps := [cap], dst := [t.own d], src := t.own a :: b.ops t ++ (if acc then [t.own d] else []),
           psrc := [p], xsrc := b.xregs } d p
    (fun t i => (f t.sew (t.elem a.toNat i t.sew) (b.value t i) (t.elem d.toNat i t.sew), 0)) s

/-- `vmerge`: P selects, and MZ has no effect (R129). -/
def vMergeOp (w : BitVec 32) (d a : Reg) (b : VSrc) (p : Reg) (s : State) : Host.Outcome State Fault Refusal :=
  let t := s.thr
  issueVl { word := w, caps := [3], dst := [t.own d], psrc := [p], xsrc := b.xregs,
            src := (t.own a).reading ((List.range t.vl).filter fun i => !t.pbit p i) :: b.ops t } s fun s =>
    .ok (s.mapThr fun t => t.writeVec d.toNat (fun _ => true) fun i =>
      if t.pbit p i then b.value t i else t.elem a.toNat i t.sew)

/-- `vmv` (R127). -/
def vMvOp (w : BitVec 32) (d : Reg) (b : VSrc) (p : Reg) (s : State) : Host.Outcome State Fault Refusal :=
  let t := s.thr
  elemOp { word := w, caps := [3], dst := [t.own d], src := b.ops t, psrc := [p], xsrc := b.xregs } d p
    (fun t i => (b.value t i, 0)) s

/-- VADD_VV (R127). -/
def execVaddVv (d a b p : Reg) (s : State) : Host.Outcome State Fault Refusal :=
  vIntOp (wordVaddVv d a b p) 3 false d a (.vec b) p (fun _ a b _ => a + b) s

/-- VSUB_VV (R127). -/
def execVsubVv (d a b p : Reg) (s : State) : Host.Outcome State Fault Refusal :=
  vIntOp (wordVsubVv d a b p) 3 false d a (.vec b) p (fun w a b _ => vSub w a b) s

/-- VMUL_VV (R127). -/
def execVmulVv (d a b p : Reg) (s : State) : Host.Outcome State Fault Refusal :=
  vIntOp (wordVmulVv d a b p) 4 false d a (.vec b) p (fun _ a b _ => a * b) s

/-- VMULH_VV (R127). -/
def execVmulhVv (d a b p : Reg) (s : State) : Host.Outcome State Fault Refusal :=
  vIntOp (wordVmulhVv d a b p) 4 false d a (.vec b) p (fun w a b _ => vMulh w a b) s

/-- VMULHU_VV (R127). -/
def execVmulhuVv (d a b p : Reg) (s : State) : Host.Outcome State Fault Refusal :=
  vIntOp (wordVmulhuVv d a b p) 4 false d a (.vec b) p (fun w a b _ => vMulhu w a b) s

/-- VDIV_VV (R127). -/
def execVdivVv (d a b p : Reg) (s : State) : Host.Outcome State Fault Refusal :=
  vIntOp (wordVdivVv d a b p) 4 false d a (.vec b) p (fun w a b _ => vDiv w a b) s

/-- VDIVU_VV (R127). -/
def execVdivuVv (d a b p : Reg) (s : State) : Host.Outcome State Fault Refusal :=
  vIntOp (wordVdivuVv d a b p) 4 false d a (.vec b) p (fun w a b _ => vDivu w a b) s

/-- VREM_VV (R127). -/
def execVremVv (d a b p : Reg) (s : State) : Host.Outcome State Fault Refusal :=
  vIntOp (wordVremVv d a b p) 4 false d a (.vec b) p (fun w a b _ => vRem w a b) s

/-- VREMU_VV (R127). -/
def execVremuVv (d a b p : Reg) (s : State) : Host.Outcome State Fault Refusal :=
  vIntOp (wordVremuVv d a b p) 4 false d a (.vec b) p (fun _ a b _ => vRemu a b) s

/-- VAND_VV (R127). -/
def execVandVv (d a b p : Reg) (s : State) : Host.Outcome State Fault Refusal :=
  vIntOp (wordVandVv d a b p) 3 false d a (.vec b) p (fun _ a b _ => a &&& b) s

/-- VOR_VV (R127). -/
def execVorVv (d a b p : Reg) (s : State) : Host.Outcome State Fault Refusal :=
  vIntOp (wordVorVv d a b p) 3 false d a (.vec b) p (fun _ a b _ => a ||| b) s

/-- VXOR_VV (R127). -/
def execVxorVv (d a b p : Reg) (s : State) : Host.Outcome State Fault Refusal :=
  vIntOp (wordVxorVv d a b p) 3 false d a (.vec b) p (fun _ a b _ => a ^^^ b) s

/-- VSHL_VV (R127). -/
def execVshlVv (d a b p : Reg) (s : State) : Host.Outcome State Fault Refusal :=
  vIntOp (wordVshlVv d a b p) 3 false d a (.vec b) p (fun w a b _ => vShl w a b) s

/-- VSHR_VV (R127). -/
def execVshrVv (d a b p : Reg) (s : State) : Host.Outcome State Fault Refusal :=
  vIntOp (wordVshrVv d a b p) 3 false d a (.vec b) p (fun w a b _ => vShr w a b) s

/-- VSRA_VV (R127). -/
def execVsraVv (d a b p : Reg) (s : State) : Host.Outcome State Fault Refusal :=
  vIntOp (wordVsraVv d a b p) 3 false d a (.vec b) p (fun w a b _ => vSra w a b) s

/-- VMIN_VV (R127). -/
def execVminVv (d a b p : Reg) (s : State) : Host.Outcome State Fault Refusal :=
  vIntOp (wordVminVv d a b p) 3 false d a (.vec b) p (fun w a b _ => vMin w a b) s

/-- VMAX_VV (R127). -/
def execVmaxVv (d a b p : Reg) (s : State) : Host.Outcome State Fault Refusal :=
  vIntOp (wordVmaxVv d a b p) 3 false d a (.vec b) p (fun w a b _ => vMax w a b) s

/-- VMINU_VV (R127). -/
def execVminuVv (d a b p : Reg) (s : State) : Host.Outcome State Fault Refusal :=
  vIntOp (wordVminuVv d a b p) 3 false d a (.vec b) p (fun _ a b _ => min a b) s

/-- VMAXU_VV (R127). -/
def execVmaxuVv (d a b p : Reg) (s : State) : Host.Outcome State Fault Refusal :=
  vIntOp (wordVmaxuVv d a b p) 3 false d a (.vec b) p (fun _ a b _ => max a b) s

/-- VMACC_VV (R127). -/
def execVmaccVv (d a b p : Reg) (s : State) : Host.Outcome State Fault Refusal :=
  vIntOp (wordVmaccVv d a b p) 4 true d a (.vec b) p (fun _ a b d => d + a * b) s

/-- VSADD_VV (R127). -/
def execVsaddVv (d a b p : Reg) (s : State) : Host.Outcome State Fault Refusal :=
  vIntOp (wordVsaddVv d a b p) 3 false d a (.vec b) p (fun w a b _ => satS w (sext w a + sext w b)) s

/-- VSSUB_VV (R127). -/
def execVssubVv (d a b p : Reg) (s : State) : Host.Outcome State Fault Refusal :=
  vIntOp (wordVssubVv d a b p) 3 false d a (.vec b) p (fun w a b _ => satS w (sext w a - sext w b)) s

/-- VMERGE_VV (R129). -/
def execVmergeVv (d a b p : Reg) (s : State) : Host.Outcome State Fault Refusal :=
  vMergeOp (wordVmergeVv d a b p) d a (.vec b) p s

/-- VMV_VV (R127). -/
def execVmvVv (d b p : Reg) (s : State) : Host.Outcome State Fault Refusal :=
  vMvOp (wordVmvVv d b p) d (.vec b) p s

/-- VADD_VX (R127). -/
def execVaddVx (d a b p : Reg) (s : State) : Host.Outcome State Fault Refusal :=
  vIntOp (wordVaddVx d a b p) 3 false d a (.x b) p (fun _ a b _ => a + b) s

/-- VSUB_VX (R127). -/
def execVsubVx (d a b p : Reg) (s : State) : Host.Outcome State Fault Refusal :=
  vIntOp (wordVsubVx d a b p) 3 false d a (.x b) p (fun w a b _ => vSub w a b) s

/-- VMUL_VX (R127). -/
def execVmulVx (d a b p : Reg) (s : State) : Host.Outcome State Fault Refusal :=
  vIntOp (wordVmulVx d a b p) 4 false d a (.x b) p (fun _ a b _ => a * b) s

/-- VMULH_VX (R127). -/
def execVmulhVx (d a b p : Reg) (s : State) : Host.Outcome State Fault Refusal :=
  vIntOp (wordVmulhVx d a b p) 4 false d a (.x b) p (fun w a b _ => vMulh w a b) s

/-- VMULHU_VX (R127). -/
def execVmulhuVx (d a b p : Reg) (s : State) : Host.Outcome State Fault Refusal :=
  vIntOp (wordVmulhuVx d a b p) 4 false d a (.x b) p (fun w a b _ => vMulhu w a b) s

/-- VDIV_VX (R127). -/
def execVdivVx (d a b p : Reg) (s : State) : Host.Outcome State Fault Refusal :=
  vIntOp (wordVdivVx d a b p) 4 false d a (.x b) p (fun w a b _ => vDiv w a b) s

/-- VDIVU_VX (R127). -/
def execVdivuVx (d a b p : Reg) (s : State) : Host.Outcome State Fault Refusal :=
  vIntOp (wordVdivuVx d a b p) 4 false d a (.x b) p (fun w a b _ => vDivu w a b) s

/-- VREM_VX (R127). -/
def execVremVx (d a b p : Reg) (s : State) : Host.Outcome State Fault Refusal :=
  vIntOp (wordVremVx d a b p) 4 false d a (.x b) p (fun w a b _ => vRem w a b) s

/-- VREMU_VX (R127). -/
def execVremuVx (d a b p : Reg) (s : State) : Host.Outcome State Fault Refusal :=
  vIntOp (wordVremuVx d a b p) 4 false d a (.x b) p (fun _ a b _ => vRemu a b) s

/-- VAND_VX (R127). -/
def execVandVx (d a b p : Reg) (s : State) : Host.Outcome State Fault Refusal :=
  vIntOp (wordVandVx d a b p) 3 false d a (.x b) p (fun _ a b _ => a &&& b) s

/-- VOR_VX (R127). -/
def execVorVx (d a b p : Reg) (s : State) : Host.Outcome State Fault Refusal :=
  vIntOp (wordVorVx d a b p) 3 false d a (.x b) p (fun _ a b _ => a ||| b) s

/-- VXOR_VX (R127). -/
def execVxorVx (d a b p : Reg) (s : State) : Host.Outcome State Fault Refusal :=
  vIntOp (wordVxorVx d a b p) 3 false d a (.x b) p (fun _ a b _ => a ^^^ b) s

/-- VSHL_VX (R127). -/
def execVshlVx (d a b p : Reg) (s : State) : Host.Outcome State Fault Refusal :=
  vIntOp (wordVshlVx d a b p) 3 false d a (.x b) p (fun w a b _ => vShl w a b) s

/-- VSHR_VX (R127). -/
def execVshrVx (d a b p : Reg) (s : State) : Host.Outcome State Fault Refusal :=
  vIntOp (wordVshrVx d a b p) 3 false d a (.x b) p (fun w a b _ => vShr w a b) s

/-- VSRA_VX (R127). -/
def execVsraVx (d a b p : Reg) (s : State) : Host.Outcome State Fault Refusal :=
  vIntOp (wordVsraVx d a b p) 3 false d a (.x b) p (fun w a b _ => vSra w a b) s

/-- VMIN_VX (R127). -/
def execVminVx (d a b p : Reg) (s : State) : Host.Outcome State Fault Refusal :=
  vIntOp (wordVminVx d a b p) 3 false d a (.x b) p (fun w a b _ => vMin w a b) s

/-- VMAX_VX (R127). -/
def execVmaxVx (d a b p : Reg) (s : State) : Host.Outcome State Fault Refusal :=
  vIntOp (wordVmaxVx d a b p) 3 false d a (.x b) p (fun w a b _ => vMax w a b) s

/-- VMINU_VX (R127). -/
def execVminuVx (d a b p : Reg) (s : State) : Host.Outcome State Fault Refusal :=
  vIntOp (wordVminuVx d a b p) 3 false d a (.x b) p (fun _ a b _ => min a b) s

/-- VMAXU_VX (R127). -/
def execVmaxuVx (d a b p : Reg) (s : State) : Host.Outcome State Fault Refusal :=
  vIntOp (wordVmaxuVx d a b p) 3 false d a (.x b) p (fun _ a b _ => max a b) s

/-- VMACC_VX (R127). -/
def execVmaccVx (d a b p : Reg) (s : State) : Host.Outcome State Fault Refusal :=
  vIntOp (wordVmaccVx d a b p) 4 true d a (.x b) p (fun _ a b d => d + a * b) s

/-- VSADD_VX (R127). -/
def execVsaddVx (d a b p : Reg) (s : State) : Host.Outcome State Fault Refusal :=
  vIntOp (wordVsaddVx d a b p) 3 false d a (.x b) p (fun w a b _ => satS w (sext w a + sext w b)) s

/-- VSSUB_VX (R127). -/
def execVssubVx (d a b p : Reg) (s : State) : Host.Outcome State Fault Refusal :=
  vIntOp (wordVssubVx d a b p) 3 false d a (.x b) p (fun w a b _ => satS w (sext w a - sext w b)) s

/-- VMERGE_VX (R129). -/
def execVmergeVx (d a b p : Reg) (s : State) : Host.Outcome State Fault Refusal :=
  vMergeOp (wordVmergeVx d a b p) d a (.x b) p s

/-- VMV_VX (R127). -/
def execVmvVx (d b p : Reg) (s : State) : Host.Outcome State Fault Refusal :=
  vMvOp (wordVmvVx d b p) d (.x b) p s

/-- VADD_VI (R127). -/
def execVaddVi (d a imm p : Reg) (s : State) : Host.Outcome State Fault Refusal :=
  vIntOp (wordVaddVi d a imm p) 3 false d a (.imm imm) p (fun _ a b _ => a + b) s

/-- VSUB_VI (R127). -/
def execVsubVi (d a imm p : Reg) (s : State) : Host.Outcome State Fault Refusal :=
  vIntOp (wordVsubVi d a imm p) 3 false d a (.imm imm) p (fun w a b _ => vSub w a b) s

/-- VMUL_VI (R127). -/
def execVmulVi (d a imm p : Reg) (s : State) : Host.Outcome State Fault Refusal :=
  vIntOp (wordVmulVi d a imm p) 4 false d a (.imm imm) p (fun _ a b _ => a * b) s

/-- VMULH_VI (R127). -/
def execVmulhVi (d a imm p : Reg) (s : State) : Host.Outcome State Fault Refusal :=
  vIntOp (wordVmulhVi d a imm p) 4 false d a (.imm imm) p (fun w a b _ => vMulh w a b) s

/-- VMULHU_VI (R127). -/
def execVmulhuVi (d a imm p : Reg) (s : State) : Host.Outcome State Fault Refusal :=
  vIntOp (wordVmulhuVi d a imm p) 4 false d a (.imm imm) p (fun w a b _ => vMulhu w a b) s

/-- VDIV_VI (R127). -/
def execVdivVi (d a imm p : Reg) (s : State) : Host.Outcome State Fault Refusal :=
  vIntOp (wordVdivVi d a imm p) 4 false d a (.imm imm) p (fun w a b _ => vDiv w a b) s

/-- VDIVU_VI (R127). -/
def execVdivuVi (d a imm p : Reg) (s : State) : Host.Outcome State Fault Refusal :=
  vIntOp (wordVdivuVi d a imm p) 4 false d a (.imm imm) p (fun w a b _ => vDivu w a b) s

/-- VREM_VI (R127). -/
def execVremVi (d a imm p : Reg) (s : State) : Host.Outcome State Fault Refusal :=
  vIntOp (wordVremVi d a imm p) 4 false d a (.imm imm) p (fun w a b _ => vRem w a b) s

/-- VREMU_VI (R127). -/
def execVremuVi (d a imm p : Reg) (s : State) : Host.Outcome State Fault Refusal :=
  vIntOp (wordVremuVi d a imm p) 4 false d a (.imm imm) p (fun _ a b _ => vRemu a b) s

/-- VAND_VI (R127). -/
def execVandVi (d a imm p : Reg) (s : State) : Host.Outcome State Fault Refusal :=
  vIntOp (wordVandVi d a imm p) 3 false d a (.imm imm) p (fun _ a b _ => a &&& b) s

/-- VOR_VI (R127). -/
def execVorVi (d a imm p : Reg) (s : State) : Host.Outcome State Fault Refusal :=
  vIntOp (wordVorVi d a imm p) 3 false d a (.imm imm) p (fun _ a b _ => a ||| b) s

/-- VXOR_VI (R127). -/
def execVxorVi (d a imm p : Reg) (s : State) : Host.Outcome State Fault Refusal :=
  vIntOp (wordVxorVi d a imm p) 3 false d a (.imm imm) p (fun _ a b _ => a ^^^ b) s

/-- VSHL_VI (R128). -/
def execVshlVi (d a imm p : Reg) (s : State) : Host.Outcome State Fault Refusal :=
  vIntOp (wordVshlVi d a imm p) 3 false d a (.uimm imm) p (fun w a b _ => vShl w a b) s

/-- VSHR_VI (R128). -/
def execVshrVi (d a imm p : Reg) (s : State) : Host.Outcome State Fault Refusal :=
  vIntOp (wordVshrVi d a imm p) 3 false d a (.uimm imm) p (fun w a b _ => vShr w a b) s

/-- VSRA_VI (R128). -/
def execVsraVi (d a imm p : Reg) (s : State) : Host.Outcome State Fault Refusal :=
  vIntOp (wordVsraVi d a imm p) 3 false d a (.uimm imm) p (fun w a b _ => vSra w a b) s

/-- VMIN_VI (R127). -/
def execVminVi (d a imm p : Reg) (s : State) : Host.Outcome State Fault Refusal :=
  vIntOp (wordVminVi d a imm p) 3 false d a (.imm imm) p (fun w a b _ => vMin w a b) s

/-- VMAX_VI (R127). -/
def execVmaxVi (d a imm p : Reg) (s : State) : Host.Outcome State Fault Refusal :=
  vIntOp (wordVmaxVi d a imm p) 3 false d a (.imm imm) p (fun w a b _ => vMax w a b) s

/-- VMINU_VI (R127). -/
def execVminuVi (d a imm p : Reg) (s : State) : Host.Outcome State Fault Refusal :=
  vIntOp (wordVminuVi d a imm p) 3 false d a (.imm imm) p (fun _ a b _ => min a b) s

/-- VMAXU_VI (R127). -/
def execVmaxuVi (d a imm p : Reg) (s : State) : Host.Outcome State Fault Refusal :=
  vIntOp (wordVmaxuVi d a imm p) 3 false d a (.imm imm) p (fun _ a b _ => max a b) s

/-- VMACC_VI (R127). -/
def execVmaccVi (d a imm p : Reg) (s : State) : Host.Outcome State Fault Refusal :=
  vIntOp (wordVmaccVi d a imm p) 4 true d a (.imm imm) p (fun _ a b d => d + a * b) s

/-- VSADD_VI (R127). -/
def execVsaddVi (d a imm p : Reg) (s : State) : Host.Outcome State Fault Refusal :=
  vIntOp (wordVsaddVi d a imm p) 3 false d a (.imm imm) p (fun w a b _ => satS w (sext w a + sext w b)) s

/-- VSSUB_VI (R127). -/
def execVssubVi (d a imm p : Reg) (s : State) : Host.Outcome State Fault Refusal :=
  vIntOp (wordVssubVi d a imm p) 3 false d a (.imm imm) p (fun w a b _ => satS w (sext w a - sext w b)) s

/-- VMERGE_VI (R129). -/
def execVmergeVi (d a imm p : Reg) (s : State) : Host.Outcome State Fault Refusal :=
  vMergeOp (wordVmergeVi d a imm p) d a (.imm imm) p s

/-- VMV_VI (R127). -/
def execVmvVi (d imm p : Reg) (s : State) : Host.Outcome State Fault Refusal :=
  vMvOp (wordVmvVi d imm p) d (.imm imm) p s

end Sys2Proof.Machine
end

