-- ==== Sys2Proof/Machine/VectorCvt.lean ====
section
/-! DEFINITION. Vector conversions: formats (R132), MX blocks (R18, R19, R133), extensions and narrowing (R134). -/
namespace Sys2Proof.Machine

/-- An instruction that writes SEW from a source at SEW2 (R123), with capability VEC_CVT. -/
def vCvtOp (w : BitVec 32) (legal : Bool) (d a p : Reg) (res : Thread → Nat → Nat × Flags) (s : State) :
    Host.Outcome State Fault Refusal :=
  let t := s.thr
  elemOp { word := w, legal := legal, caps := [8], dst := [t.own d], src := [t.second a], psrc := [p] } d p res s

/-! ### vfcvt (R132) -/

/-- True of a floating-point element width. -/
def isFp (w : Nat) : Bool := decide (w ≠ 8)

/-- Legal widths of a conversion code (R132). -/
def cvtLegal (c sew sew2 : Nat) : Bool :=
  match c with
  | 0 => isFp sew && isFp sew2 && decide (sew ≠ sew2)
  | 1 | 2 => isFp sew2
  | 3 | 4 => isFp sew
  | 5 | 6 => decide (sew = 16 ∧ sew2 = 16)
  | 7 | 8 => isFp sew && decide (sew2 = 8)
  | 9 | 10 => isFp sew2 && decide (sew = 8)
  | _ => false

/-- A value converted to an integer of `w` bits (R31). -/
def floatToInt (f : Fmt) (mode : RMode) (signed : Bool) (w a : Nat) : Nat × Flags :=
  let (i, g) := if signed then toIntRange mode (-(2 ^ (w - 1))) (2 ^ (w - 1) - 1) (f.unpack a)
                else toIntRange mode 0 (2 ^ w - 1) (f.unpack a)
  (wrap w i, g)

/-- The result of a conversion code (R132); `f` and `f2` are the formats of SEW and SEW2. -/
def cvtValue (c : Nat) (f f2 : Fmt) (sew sew2 : Nat) (mode : RMode) (a : Nat) : Nat × Flags :=
  match c with
  | 0 => f2.convert f mode a
  | 1 => floatToInt f2 mode true sew a
  | 2 => floatToInt f2 mode false sew a
  | 3 => f.round mode (Dy.ofInt (sext sew2 a))
  | 4 => f.round mode (Dy.ofInt a)
  | 5 => Fmt.f16.convert Fmt.bf16 mode a
  | 6 => Fmt.bf16.convert Fmt.f16 mode a
  | 7 => Fmt.e4m3.convert f mode a
  | 8 => Fmt.e5m2.convert f mode a
  | 9 => f2.convert Fmt.e4m3 mode a
  | _ => f2.convert Fmt.e5m2 mode a

/-! ### MX elements and blocks (R18, R19, R133) -/

/-- The floating-point format of an MX element; none for MXINT8. -/
def mxFmt : MxFmt → Option Fmt
  | .e4m3 => some Fmt.e4m3 | .e5m2 => some Fmt.e5m2 | .e3m2 => some Fmt.e3m2 | .e2m3 => some Fmt.e2m3
  | .e2m1 => some Fmt.e2m1 | .mxint8 => none

/-- The value of an element code; unused upper bits are ignored (R18, R133). -/
def mxValue (f : MxFmt) (c : Nat) : FVal :=
  match mxFmt f with
  | some g => g.unpack (c % 2 ^ g.bits)
  | none => let i := sext 8 c; .fin ⟨decide (i < 0), i.natAbs, -6⟩

/-- A value times 2^k. -/
def FVal.scale (k : Int) : FVal → FVal
  | .fin x => .fin { x with e := x.e + k }
  | v => v

/-- An element of a block whose scale code is `x`: every element is a NaN when it is 0xFF (R18), a quiet one whatever its own code, so
that it raises no NV (DESIGN CHOICE, log 105). -/
def mxElement (f : MxFmt) (x c : Nat) : FVal := if x = 255 then .nan false else (mxValue f c).scale ((x : Int) - 127)

/-- emax (R19). -/
def mxEmax : MxFmt → Int
  | .e4m3 => 8 | .e5m2 => 15 | .e3m2 => 4 | .e2m3 => 2 | .e2m1 => 2 | .mxint8 => 0

/-- floor(log2|v|) of a finite nonzero value. -/
def FVal.top : FVal → Option Int
  | .fin x => if x.m = 0 then none else some ((Nat.log2 x.m : Int) + x.e)
  | _ => none

/-- The largest floor(log2|v|) over the finite nonzero values of a list. -/
def maxTop : List FVal → Option Int
  | [] => none
  | v :: vs =>
    match v.top, maxTop vs with
    | some a, some b => some (max a b)
    | some a, none => some a
    | none, r => r

/-- The scale exponent of a block: none when it holds a NaN (R19). -/
def mxScaleExp (f : MxFmt) (vals : List FVal) : Int :=
  match maxTop vals with
  | some a => clampInt (-127) 127 (a - mxEmax f)
  | none => -127

/-- The scale code of a block. R19 states none for infinities among zeros: `open` stands for it (DESIGN CHOICE, log 20). -/
def mxScaleCode (f : MxFmt) (vals : List FVal) (free : Nat) : Nat :=
  if vals.any FVal.isNan then 255
  else
    match maxTop vals with
    | some _ => (mxScaleExp f vals + 127).toNat
    | none => if vals.any (fun v => match v with | .inf _ => true | _ => false) then free % 256 else 0

/-- An MXINT8 code of a value in units of 1: multiples of 2^−6, saturating (R20, R22; DEDUCED, log 21). -/
def mxInt8Code (mode : RMode) : FVal → Nat × Flags
  | .nan _ => (0, Flags.nv)
  | .inf neg => (if neg then 129 else 127, Flags.of ||| Flags.nx)
  | .fin x =>
    let (i, lost) := ({ x with e := x.e + 6 } : Dy).toInt mode
    if 127 < i ∨ i < -128 ∨ (i = -128 ∧ lost = true) then (if x.neg then 129 else 127, Flags.of ||| Flags.nx)
    else (wrap 8 i, if lost then Flags.nx else 0)

/-- The code of one element of a block (R19). An infinite source value saturates its element in every format of R19, E5M2
included (DEDUCED, log 74). -/
def mxCode (f : MxFmt) (mode : RMode) (vals : List FVal) (v : FVal) : Nat × Flags :=
  if vals.any FVal.isNan then (0, Flags.nv)
  else
    let y := v.scale (-(mxScaleExp f vals))
    match mxFmt f, y with
    | some g, .inf neg => (g.signed neg g.maxFinite, Flags.of ||| Flags.nx)
    | some g, _ => g.roundVal mode y
    | none, _ => mxInt8Code mode y

/-- The active values of block `j` of a source at SEW2 (R133). -/
def Thread.mxVals (t : Thread) (a p : Reg) (j : Nat) : List FVal :=
  ((List.range 32).filter fun k => t.active p (32 * j + k)).map fun k => t.fmt2.unpack (t.elem a.toNat (32 * j + k) t.sew2)

/-- One register with byte `j` replaced for each block that has an active element (R133). -/
def Thread.putScales (t : Thread) (r : Nat) (has : Nat → Bool) (byte : Nat → Nat) : Thread :=
  { t with v := t.v.setIfInBounds r (BitVec.ofNat 16384 (packElems 8 ((List.range (t.vlen / 8)).map fun j =>
      if has j then byte j else t.elem r j 8))) }

/-- VFCVT (R132). -/
def execVfcvt (d a k p : Reg) (s : State) : Host.Outcome State Fault Refusal :=
  vCvtOp (wordVfcvt d a k p) (cvtLegal k.toNat s.thr.sew s.thr.sew2) d a p
    (fun t i => cvtValue k.toNat t.fmt t.fmt2 t.sew t.sew2 t.vfrm (t.elem a.toNat i t.sew2)) s

/-- VMXCVT (R133). -/
def execVmxcvt (d a : Reg) (t : Bool) (f : MxFmt) (p : Reg) (s : State) : Host.Outcome State Fault Refusal :=
  let th := s.thr
  let word := (wordVmxcvt d a t f p)
  if t then
    let a0 : VArgs := { word := word, legal := decide (th.sew = 8) && isFp th.sew2, caps := [8],
                        dst := [th.own d, one (d.toNat + 1)], src := [th.second a], psrc := [p] }
    issueVl a0 s fun s => .ok (
      let t0 := s.thr
      let has (j : Nat) : Bool := (List.range 32).any fun k => t0.active p (32 * j + k)
      let t1 := t0.writeVec d.toNat (t0.pbit p) fun i =>
        (mxCode f t0.vfrm (t0.mxVals a p (i / 32)) (t0.fmt2.unpack (t0.elem a.toNat i t0.sew2))).1
      let t2 := t1.putScales (d.toNat + 1) has fun j =>
        mxScaleCode f (t0.mxVals a p j) (Config.freeWord (s.freeCtr + j)).toNat
      let t3 := t2.raiseFlags (t0.pbit p) fun i =>
        (mxCode f t0.vfrm (t0.mxVals a p (i / 32)) (t0.fmt2.unpack (t0.elem a.toNat i t0.sew2))).2
      { s with thr := t3, freeCtr := s.freeCtr + 64 })
  else
    let a0 : VArgs := { word := word, legal := isFp th.sew && decide (th.sew2 = 8), caps := [8], dst := [th.own d],
                        src := [th.second a, oneOf (a.toNat + 1) 8 ((th.actives p).map (· / 32))], psrc := [p] }
    elemOp a0 d p (fun t i =>
      t.fmt.roundVal t.vfrm (mxElement f (t.elem (a.toNat + 1) (i / 32) 8) (t.elem a.toNat i 8))) s

/-- VSEXT (R134). -/
def execVsext (d a p : Reg) (s : State) : Host.Outcome State Fault Refusal :=
  vCvtOp (wordVsext d a p) (decide (s.thr.sew2 < s.thr.sew)) d a p
    (fun t i => (wrap t.sew (sext t.sew2 (t.elem a.toNat i t.sew2)), 0)) s

/-- VZEXT (R134). -/
def execVzext (d a p : Reg) (s : State) : Host.Outcome State Fault Refusal :=
  vCvtOp (wordVzext d a p) (decide (s.thr.sew2 < s.thr.sew)) d a p
    (fun t i => (t.elem a.toNat i t.sew2, 0)) s

/-- The four narrowings (R134). -/
def narrowValue (k w w2 a : Nat) : Nat :=
  match k with
  | 0 => a
  | 1 => satS w (sext w2 a)
  | 2 => min a (2 ^ w - 1)
  | _ => satU w (sext w2 a)

/-- VNARROW (R134). -/
def execVnarrow (d a k p : Reg) (s : State) : Host.Outcome State Fault Refusal :=
  vCvtOp (wordVnarrow d a k p) (decide (s.thr.sew < s.thr.sew2) && codeUpTo k 3) d a p
    (fun t i => (narrowValue k.toNat t.sew t.sew2 (t.elem a.toNat i t.sew2), 0)) s

end Sys2Proof.Machine
end

