-- ==== Sys2Proof/Machine/VectorMem.lean ====
section
/-! DEFINITION. Vector loads and stores (R147 to R155), `pld` and `pst` (R138). -/
namespace Sys2Proof.Machine

/-! ### Units of an access -/

/-- One unit that R148 checks: the element for TELEM, its index in the destination, its address, size and alignment. -/
structure VUnit where
  telem : Nat
  slot : Nat
  ea : Word
  n : Nat
  align : Nat
  deriving DecidableEq, Repr

/-- R108 steps 1 to 5 of a unit. -/
def State.unitPlace (s : State) (acc : Access) (u : VUnit) : Except AccessFault Place :=
  if u.ea.toNat % u.align ≠ 0 then .error { cause := .align, record := none } else s.place acc u.ea u.n

/-- The places of the bytes that units cover. -/
def coveredBytes (l : List (VUnit × Except AccessFault Place)) : List Place :=
  l.flatMap fun (u, p) => match p with | .ok pl => (List.range u.n).map pl.plus | _ => []

/-- True when data of a unit cannot be read, or a peer has rejected it (R108 step 6, R380). All the bytes of one vector store
count together as what `the store` of R108 writes of a granule (DESIGN CHOICE, log 67). -/
def State.unitBad (s : State) (store : Bool) (cover : List Place) (u : VUnit) (pl : Place) : Bool :=
  let whole (at_ : Nat → Place) : Bool := (List.range 8).all fun i => cover.contains (at_ i)
  match pl with
  | .device d =>
    if store then
      !s.badMem.isEmpty && (granules d u.n).any fun g =>
        (Assoc.get? s.badMem g).isSome && !s.thr.covers g && !whole fun i => .device (g + i)
    else if pl.remote then
      (match s.thr.answer? 0 d u.n with
       | some a => decide (a.dpa = d) && a.data.isNone
       | none => false)
    else s.badData s.thr pl u.n
  | .localStore o =>
    if store then (granules o u.n).any fun g => s.thr.badLocal s.badReg g && !whole fun i => .localStore (g + i)
    else s.badData s.thr pl u.n
  | .csa o =>
    if store then (granules o u.n).any fun g => s.badSaved s.thr g && !whole fun i => .csa (g + i) else s.badData s.thr pl u.n

/-- The units with their places, or the first failing one (R148). -/
def State.checkUnits (s : State) (acc : Access) (store : Bool) (us : List VUnit) :
    Except (AccessFault × VUnit) (List (VUnit × Place)) :=
  let l := us.map fun u => (u, s.unitPlace acc u)
  let cover := if store && !(s.badMem.isEmpty && s.badReg.isEmpty && s.badCsa.isEmpty) then coveredBytes l else []
  l.foldr (fun (u, p) acc =>
    match p with
    | .error f => .error (f, u)
    | .ok pl =>
      if s.unitBad store cover u pl then .error ({ cause := .dataErr, record := none }, u)
      else
        match acc with
        | .error e => .error e
        | .ok r => .ok ((u, pl) :: r)) (.ok [])

/-- The trap of a failing unit: its address and element (R148). -/
def raiseUnit {α : Type} (s : State) (f : AccessFault × VUnit) : Run α :=
  raiseAccess s f.1 f.2.ea f.2.telem

/-- Checked units of an access that no watermark stalls (R148, R255) (DEDUCED, log 40). The checks of every unit come before any
peer is asked: a peer's rejection counts once it is known (DESIGN CHOICE, log 68). -/
def State.vunits (s : State) (acc : Access) (store : Bool) (us : List VUnit) : Run (List (VUnit × Place)) :=
  match s.checkUnits acc store us with
  | .error f => raiseUnit s f
  | .ok l => do
    s.passWatermark (us.map fun u => ⟨u.ea.toNat, u.n⟩)
    .ok l

/-- The bytes of a unit. Those of the device that belong to a segment with bytes at a peer are what the device held at the instant
of the peer's answer (R155). -/
def State.readUnit (s : State) (cls : BitVec 2) (u : VUnit) (pl : Place) : Run (List Byte) :=
  match pl, pl.remote, s.thr.peerData.isEmpty with
  | .device d, false, false =>
    (match s.thr.answer? 0 d u.n with
    | some a => .ok (((a.data.getD []).drop (d - a.dpa)).take u.n)
    | none => s.readAt cls pl u.n u.ea u.telem)
  | _, _, _ => s.readAt cls pl u.n u.ea u.telem

/-- The values of units, by slot. -/
def State.readUnits (s : State) (cls : BitVec 2) : List (VUnit × Place) → Run (Assoc Nat Nat)
  | [] => .ok []
  | (u, pl) :: r => do
    let bs ← s.readUnit cls u pl
    let rest ← State.readUnits s cls r
    .ok ((u.slot, natOfBytes bs) :: rest)

/-- Runs of neighbouring units of one `key` that a peer holds: the first unit, its address, and their length. -/
def remoteRuns (key : VUnit → Nat) : List (VUnit × Place) → List (VUnit × Nat × Nat)
  | [] => []
  | (u, pl) :: r =>
    let rest := remoteRuns key r
    match pl with
    | .device d =>
      if !pl.remote then rest
      else
        match rest with
        | (v, a, n) :: more => if key u = key v ∧ d + u.n = a then (u, d, u.n + n) :: more else (u, d, u.n) :: rest
        | [] => [(u, d, u.n)]
    | _ => rest

/-- The bytes of the device that units of a `key` cover, run by run. -/
def nearRuns (key : VUnit → Nat) (k : Nat) (l : List (VUnit × Place)) : List (Nat × Nat) :=
  (l.filter fun e => decide (key e.1 = k)).filterMap fun e =>
    match e.2 with
    | .device d => if e.2.remote then none else some (d, e.1.n)
    | _ => none

/-- What a peer holds of an access is asked for in one request for each run, so that it is read at one instant, with what the
device holds of the same segment (R155, R267). -/
def State.askRuns (s : State) (key : VUnit → Nat) (l : List (VUnit × Place)) : List (VUnit × Nat × Nat) → Run Unit
  | [] => .ok ()
  | (u, d, n) :: r => do
    let _ ← s.askPeer 0 d n false [] u.ea u.telem (nearRuns key (key u) l)
    State.askRuns s key l r

/-- The bytes of the device that units of an access read at one instant: one list of ranges for each `key`. -/
def groupRanges (key : VUnit → Nat) : List (VUnit × Place) → List (Nat × List Range)
  | [] => []
  | (u, pl) :: r =>
    match groupRanges key r with
    | (k, rs) :: more => if k = key u then (k, pl.range u.n ++ rs) :: more else (key u, pl.range u.n) :: (k, rs) :: more
    | [] => [(key u, pl.range u.n)]

/-- True of ranges of which a peer holds a part. -/
def anyRemote (rs : List Range) : Bool := rs.any fun r => (Place.device r.base).remote

/-- True when a group of units sees the stores that it may miss. One with bytes at a peer takes none of the thread's stores: those
that it sees are performed before the peer is asked. -/
def State.groupSees (s : State) (cls : BitVec 2) (g : Nat × List Range) : Bool := !anyRemote g.2 && s.seesAll cls g.1 g.2

/-- The thread's own stores that a load of units waits for: of each group of units that is read at one instant, those it sees where
no one of them holds all its bytes (R261, R267), and of a group with bytes at a peer all that it cannot miss. -/
def State.joinedUnits (s : State) (cls : BitVec 2) (gs : List (Nat × List Range)) (p : PendStore) : Bool :=
  gs.any fun g => if anyRemote g.2 then p.visible cls g.2 && p.meets g.2 else s.thr.joined cls (s.groupSees cls g) g.2 p

/-- The thread after a load of units of an alias class has taken them in; `s` is the state in which it chose what it sees. -/
def State.noteUnits (s : State) (cls : BitVec 2) (gs : List (Nat × List Range)) (t : Thread) : Thread :=
  if t.sq.isEmpty then t else gs.foldl (fun t g => t.noteRead cls (s.groupSees cls g) g.2) t

/-- What a load of an alias class reads of a unit: every store of the thread that is left, or those alone that its group cannot
miss; `s0` is the state in which it chose. -/
def State.unitSight (s : State) (s0 : State) (cls : BitVec 2) (gs : List (Nat × List Range)) (k : Nat) : State :=
  let g := (k, Assoc.getD gs k [])
  s.sight cls (s0.groupSees cls g) g.2

/-- The values of units read by a load of an alias class; units of one `key` are one access (R155). -/
def State.readUnitsClass (s : State) (cls : BitVec 2) (key : VUnit → Nat) (l : List (VUnit × Place)) : Run (Assoc Nat Nat × State) := do
  let gs := groupRanges key l
  let s1 ← s.drainWhere (s.joinedUnits cls gs)
  s1.askRuns key l (remoteRuns key l)
  let vs ← s1.readUnits cls l
  let t := s.noteUnits cls gs s1.thr
  if gs.any fun g => s.split cls g.2 then
    .ok (List.zipWith (fun (e : VUnit × Place) (v : Nat × Nat) =>
      match e.2, e.2.remote with
      | .device _, false =>
        if s.groupSees cls (key e.1, Assoc.getD gs (key e.1) []) || anyRemote (Assoc.getD gs (key e.1) []) then v
        else (v.1, natOfBytes ((s1.unitSight s cls gs (key e.1)).bytesAt e.2 e.1.n))
      | _, _ => v) l vs, { s1.spend true with thr := t })
  else .ok (vs, { s1 with thr := t })

/-- True of a store that touches a granule with an uncorrectable error. -/
def State.touchesBad (s : State) (l : List (Place × List Byte)) : Bool :=
  !s.badMem.isEmpty && l.any fun e => match e.1 with
    | .device d => (granules d e.2.length).any fun g => (Assoc.get? s.badMem g).isSome
    | _ => false

/-- What a vector store issues, unit by unit: each element is a write of its own, without order among them (R155, R257, R265). A
store that overwrites a granule with an error is issued whole, so that it clears it (DESIGN CHOICE, log 67). -/
def State.unitStores (s : State) (l : List (Place × List Byte)) : List (List (Place × Byte)) :=
  if s.touchesBad l then [l.flatMap fun (pl, bs) => placeCells pl 0 bs] else l.map fun (pl, bs) => placeCells pl 0 bs

/-- Several units at one place: one of them is stored, a free choice (R152). -/
def State.pickWrites (s : State) : List Place → List (Place × List Byte) → State × List (Place × List Byte)
  | _, [] => (s, [])
  | seen, (pl, bs) :: r =>
    if seen.contains pl then State.pickWrites s seen r
    else
      let (v, s1) := s.choose (bs :: (r.filter fun e => decide (e.1 = pl)).map Prod.snd) bs
      let (s2, l) := State.pickWrites s1 (pl :: seen) r
      (s2, (pl, v) :: l)

/-- Issue a vector store of units with their bytes. -/
def State.storeUnits (s : State) (cls : BitVec 2) (distinct : Bool) (l : List (Place × List Byte)) : State :=
  if l.isEmpty then s
  else if distinct then s.issueUnits (s.unitStores l) cls true
  else
    let (s1, l1) := s.pickWrites [] l
    s1.issueUnits (s1.unitStores l1) cls true

/-- A list in chunks of `n`. -/
def chunksOf {α : Type} (n : Nat) : Nat → List α → List (List α)
  | 0, _ => []
  | k + 1, l => if l.isEmpty then [] else l.take n :: chunksOf n k (l.drop n)

/-- Issue a store of segments of `n` bytes, each one indivisible write (R155, R267). -/
def State.storeSegments (s : State) (cls : BitVec 2) (n : Nat) (l : List (Place × Byte)) : State :=
  if l.isEmpty then s
  else s.issueUnits (if s.touchesBad (l.map fun e => (e.1, [e.2])) then [l] else chunksOf n l.length l) cls true

/-! ### Element accesses (R147) -/

def ewBits : ElemWidth → Nat | .e8 => 8 | .e16 => 16 | .e32 => 32 | .e64 => 64
def ewBytes (e : ElemWidth) : Nat := ewBits e / 8

/-- Offsets of element `i` by mode (R147). -/
def unitOff (e : ElemWidth) (i : Nat) : Word := BitVec.ofNat 64 (i * ewBytes e)
def strideOff (x : Word) (i : Nat) : Word := BitVec.ofNat 64 i * x
def indexOff (t : Thread) (b : Reg) (i : Nat) : Word := sextWord t.sew2 (t.elem b.toNat i t.sew2)

/-- The units of the active elements, at a base plus an offset. -/
def Thread.elemUnits (t : Thread) (p a : Reg) (e : ElemWidth) (off : Nat → Word) : List VUnit :=
  (t.actives p).map fun i => ⟨i, i, t.xr a + off i, ewBytes e, ewBytes e⟩

/-- A loaded value at SEW (R147). -/
def loadedElem (e : ElemWidth) (sew v : Nat) : Nat := wrap sew (sext (ewBits e) v)

/-- A vector load of elements. A width that its rule does not allow is ILLEGAL with the fields, at step 2 of R80 (DEDUCED, log 25). -/
def vLoadOp (a0 : VArgs) (d p a : Reg) (cls : BitVec 2) (e : ElemWidth) (off : Thread → Nat → Word) (s : State) :
    Host.Outcome State Fault Refusal :=
  issueVl { a0 with legal := decide (ewBits e ≤ s.thr.sew) } s fun s => do
    let l ← s.vunits .load false (s.thr.elemUnits p a e (off s.thr))
    let (vs, s) ← s.readUnitsClass cls VUnit.slot l
    .ok (s.mapThr fun t => t.writeVec d.toNat (t.pbit p) fun i => loadedElem e t.sew (Assoc.getD vs i 0))

/-- A vector store of elements; a width above SEW is ILLEGAL at step 2 (DEDUCED, log 25). -/
def vStoreOp (a0 : VArgs) (v p a : Reg) (c : BitVec 2) (e : ElemWidth) (distinct : Bool) (off : Thread → Nat → Word)
    (s : State) : Host.Outcome State Fault Refusal :=
  issueVl { a0 with legal := decide (ewBits e ≤ s.thr.sew) } s fun s => do
    let l ← s.vunits .store true (s.thr.elemUnits p a e (off s.thr))
    .ok (s.storeUnits c distinct (l.map fun (u, pl) => (pl, bytesOf u.n (s.thr.elem v.toNat u.slot s.thr.sew))))

/-- VLD (R149). -/
def execVld (d a p : Reg) (c : BitVec 2) (e : ElemWidth) (s : State) : Host.Outcome State Fault Refusal :=
  let t := s.thr
  vLoadOp { word := (wordVld d a p c e), caps := [3], dst := [t.own d], psrc := [p], xsrc := [a] } d p a c e (fun _ => unitOff e) s

/-- VLDS (R149). -/
def execVlds (d a b p : Reg) (c : BitVec 2) (e : ElemWidth) (s : State) : Host.Outcome State Fault Refusal :=
  let t := s.thr
  vLoadOp { word := (wordVlds d a b p c e), caps := [24], dst := [t.own d], psrc := [p], xsrc := [a, b] } d p a c e
    (fun t => strideOff (t.xr b)) s

/-- VLDX (R152). -/
def execVldx (d a b p : Reg) (c : BitVec 2) (e : ElemWidth) (s : State) : Host.Outcome State Fault Refusal :=
  let t := s.thr
  vLoadOp { word := (wordVldx d a b p c e), caps := [24], dst := [t.own d], src := [t.second b], psrc := [p], xsrc := [a] } d p a c e
    (fun t => indexOff t b) s

/-- VST (R149). -/
def execVst (src a p : Reg) (c : BitVec 2) (e : ElemWidth) (s : State) : Host.Outcome State Fault Refusal :=
  let t := s.thr
  vStoreOp { word := (wordVst src a p c e), caps := [3], src := [t.own src], psrc := [p], xsrc := [a] } src p a c e true (fun _ => unitOff e) s

/-- VSTS (R149). -/
def execVsts (src a b p : Reg) (c : BitVec 2) (e : ElemWidth) (s : State) : Host.Outcome State Fault Refusal :=
  let t := s.thr
  vStoreOp { word := (wordVsts src a b p c e), caps := [24], src := [t.own src], psrc := [p], xsrc := [a, b] } src p a c e false
    (fun t => strideOff (t.xr b)) s

/-- VSTX (R152). -/
def execVstx (src a b p : Reg) (c : BitVec 2) (e : ElemWidth) (s : State) : Host.Outcome State Fault Refusal :=
  let t := s.thr
  vStoreOp { word := (wordVstx src a b p c e), caps := [24], src := [t.own src, t.second b], psrc := [p], xsrc := [a] } src p a c e false
    (fun t => indexOff t b) s

/-! ### Fault-only-first (R150) -/

/-- The units before the first failing one. -/
def unitsBefore (k : Nat) (us : List VUnit) : List VUnit := us.filter fun u => decide (u.telem < k)

/-- True of a failing element that waits for a peer's table entry, which the peer has not rejected. -/
def State.unitWaits (s : State) (f : AccessFault) : Bool :=
  match f.ask with
  | some d => (match s.thr.answer? 0 d 8 with | some a => a.data.isSome | none => true)
  | none => false

/-- `vldff` from its units on: the first active element traps, a later failing one trims VL. -/
def State.loadFirst (s : State) (d p : Reg) (cls : BitVec 2) (e : ElemWidth) (us : List VUnit) : Run State :=
  let trim : Option (AccessFault × VUnit) := match s.checkUnits .load false us with | .error f => some f | .ok _ => none
  match trim with
  | none => do
    let l ← s.vunits .load false us
    let (vs, s) ← s.readUnitsClass cls VUnit.slot l
    .ok (s.mapThr fun t => t.writeVec d.toNat (t.pbit p) fun i => loadedElem e t.sew (Assoc.getD vs i 0))
  | some f =>
    if (us.head?.map VUnit.telem) = some f.2.telem ∨ s.unitWaits f.1 = true then raiseUnit s f
    else do
      let l ← s.vunits .load false (unitsBefore f.2.telem us)
      let (vs, s) ← s.readUnitsClass cls VUnit.slot l
      .ok (s.mapThr fun t =>
        let u := { t with vl := f.2.telem }
        u.writeVec d.toNat (u.pbit p) fun i => loadedElem e u.sew (Assoc.getD vs i 0))

/-- VLDFF (R150). -/
def execVldff (d a p : Reg) (c : BitVec 2) (e : ElemWidth) (s : State) : Host.Outcome State Fault Refusal :=
  let t := s.thr
  issueVl { word := (wordVldff d a p c e), legal := decide (ewBits e ≤ t.sew), caps := [3], dst := [t.own d], psrc := [p], xsrc := [a] } s
    fun s => s.loadFirst d p c e (s.thr.elemUnits p a e (unitOff e))

/-! ### Streams (R151) -/

/-- The units of the active elements of a stream, in rising index. -/
def streamUnits (b : StreamBind) (l : List Nat) : List VUnit :=
  l.zipIdx.map fun (i, k) => ⟨i, i, b.addr k, b.bytes, b.bytes⟩

/-- VLDQ (R151): ILLEGAL in a handler, claimed or not (R217). -/
def execVldq (d q p : Reg) (e : ElemWidth) (s : State) : Host.Outcome State Fault Refusal :=
  let t := s.thr
  let fits := match t.bind? q with | some b => decide (b.bytes = ewBytes e) | none => false
  issueVl { word := (wordVldq d q p e), legal := !t.supervisor && isStream q && fits && decide (ewBits e ≤ t.sew), caps := [3], dst := [t.own d],
            psrc := [p] } s fun s =>
    match s.thr.bind? q with
    | none => .ok s
    | some b => do
      let act := s.thr.actives p
      s.streamReady q b act.length
      let l ← s.vunits .load false (streamUnits b act)
      let (vs, s) ← s.readUnitsClass 0 VUnit.slot l
      .ok (s.mapThr fun t =>
        (t.writeVec d.toNat (t.pbit p) fun i => loadedElem e t.sew (Assoc.getD vs i 0)).advance q b act.length)

/-! ### Segments (R153) -/

/-- Field count of a segment instruction. -/
def segCount (n : Reg) : Nat := n.toNat + 1

/-- The registers of the fields of a segment instruction (R153). -/
def Thread.segRegs (t : Thread) (d n : Reg) : List VOp := 
  (List.range (segCount n)).map fun f => { t.own d with base := d.toNat + f * t.grp }

/-- The units of the active segments, field by field; slot = i × nf + f. -/
def Thread.segUnits (t : Thread) (p a n : Reg) (e : ElemWidth) : List VUnit :=
  let nf := segCount n
  (t.actives p).flatMap fun i => (List.range nf).map fun f =>
    ⟨i, i * nf + f, t.xr a + BitVec.ofNat 64 ((i * nf + f) * ewBytes e), ewBytes e, ewBytes e⟩

/-- Write the groups of fields 0 to `k` − 1. -/
def Thread.writeSegs (t : Thread) (d p : Reg) (e : ElemWidth) (nf : Nat) (vs : Assoc Nat Nat) : Nat → Thread
  | 0 => t
  | k + 1 =>
    (t.writeSegs d p e nf vs k).writeVec (d.toNat + k * t.grp) (t.pbit p) fun i =>
      loadedElem e t.sew (Assoc.getD vs (i * nf + k) 0)

/-- VLSEG (R153). -/
def execVlseg (d a n p : Reg) (c : BitVec 2) (e : ElemWidth) (s : State) : Host.Outcome State Fault Refusal :=
  let t := s.thr
  issueVl { word := (wordVlseg d a n p c e), legal := isSegCount n && decide (ewBits e ≤ t.sew), caps := [3], dst := t.segRegs d n, psrc := [p],
            xsrc := [a] } s fun s => do
    let l ← s.vunits .load false (s.thr.segUnits p a n e)
    let (vs, s) ← s.readUnitsClass c VUnit.slot l
    .ok (s.mapThr fun t => t.writeSegs d p e (segCount n) vs (segCount n))

/-- VSSEG (R153). -/
def execVsseg (src a n p : Reg) (c : BitVec 2) (e : ElemWidth) (s : State) : Host.Outcome State Fault Refusal :=
  let t := s.thr
  issueVl { word := (wordVsseg src a n p c e), legal := isSegCount n && decide (ewBits e ≤ t.sew), caps := [3], src := t.segRegs src n, psrc := [p],
            xsrc := [a] } s fun s => do
    let l ← s.vunits .store true (s.thr.segUnits p a n e)
    let nf := segCount n
    .ok (s.storeUnits c false (l.map fun (u, pl) =>
      (pl, bytesOf u.n (s.thr.elem (src.toNat + u.slot % nf * s.thr.grp) (u.slot / nf) s.thr.sew))))

/-! ### MX segments (R17, R18, R154, R155) -/

/-- Element bits of an MX format. -/
def mxBits (f : MxFmt) : Nat := match mxFmt f with | some g => g.bits | none => 8

/-- Bytes of a block: the scale and 32 packed elements (R18). -/
def mxBlockBytes (f : MxFmt) : Nat := 1 + 4 * mxBits f

/-- Element `k` of a block, from its bytes as one number (R17). -/
def mxPacked (f : MxFmt) (block k : Nat) : Nat := bitsAt block (8 + k * mxBits f) (mxBits f)

/-- The segments that are performed: those whose first element is active (R154). -/
def Thread.mxSegs (t : Thread) (p : Reg) : List Nat := (List.range (t.vl / 32)).filter fun j => t.active p (32 * j)

/-- Byte units of the performed segments; slot = the byte's place in the sequence. -/
def Thread.mxUnits (t : Thread) (p a : Reg) (f : MxFmt) : List VUnit :=
  (t.mxSegs p).flatMap fun j => (List.range (mxBlockBytes f)).map fun k =>
    ⟨32 * j, j * mxBlockBytes f + k, t.xr a + BitVec.ofNat 64 (j * mxBlockBytes f + k), 1, 1⟩

/-- Legality of the MX segment instructions (R154). -/
def Thread.mxLegal (t : Thread) (r : Reg) : Bool := decide (t.sew = 8 ∧ t.vl % 32 = 0 ∧ r.toNat ≠ 31)

/-- The bytes of segment `j` as one number. -/
def mxBlock (f : MxFmt) (vs : Assoc Nat Nat) (j : Nat) : Nat :=
  packElems 8 ((List.range (mxBlockBytes f)).map fun k => Assoc.getD vs (j * mxBlockBytes f + k) 0)

/-- The bytes of a stored segment: its scale, then its elements packed (R17, R18). -/
def Thread.mxBytes (t : Thread) (r : Reg) (f : MxFmt) (j : Nat) : List Byte :=
  bytesOf (mxBlockBytes f) (t.elem (r.toNat + 1) j 8 +
    2 ^ 8 * packElems (mxBits f) ((List.range 32).map fun k => t.elem r.toNat (32 * j + k) 8))

/-- VLSEGMX (R154). -/
def execVlsegmx (d a : Reg) (f : MxFmt) (p : Reg) (c : BitVec 2) (s : State) : Host.Outcome State Fault Refusal :=
  let t := s.thr
  issueVl { word := (wordVlsegmx d a f p c), legal := t.mxLegal d, caps := [3], dst := [t.own d, one (d.toNat + 1)], psrc := [p], xsrc := [a] } s
    fun s => do
      let l ← s.vunits .load false (s.thr.mxUnits p a f)
      let (vs, s) ← s.readUnitsClass c VUnit.telem l
      .ok (s.mapThr fun t =>
        let act (j : Nat) : Bool := t.active p (32 * j)
        (t.writeVec d.toNat (fun i => act (i / 32)) fun i => mxPacked f (mxBlock f vs (i / 32)) (i % 32)).putScales
          (d.toNat + 1) (fun j => decide (j < t.vl / 32) && act j) fun j => bitsAt (mxBlock f vs j) 0 8)

/-- VSSEGMX (R154). -/
def execVssegmx (src a : Reg) (f : MxFmt) (p : Reg) (c : BitVec 2) (s : State) : Host.Outcome State Fault Refusal :=
  let t := s.thr
  issueVl { word := (wordVssegmx src a f p c), legal := t.mxLegal src, caps := [3], psrc := [p], xsrc := [a],
            src := [(t.own src).reading ((t.mxSegs p).flatMap fun j => (List.range 32).map fun k => 32 * j + k),
                    oneOf (src.toNat + 1) 8 (t.mxSegs p)] } s
    fun s => do
      let l ← s.vunits .store true (s.thr.mxUnits p a f)
      let bytes := (s.thr.mxSegs p).flatMap fun j => s.thr.mxBytes src f j
      .ok (s.storeSegments c (mxBlockBytes f) (List.zipWith (fun (x : VUnit × Place) (b : Byte) => (x.2, b)) l bytes))

/-! ### Predicates in memory (R138) -/

/-- The byte units of `pld` and `pst`: TELEM is 8 × the byte's index. -/
def Thread.predUnits (t : Thread) (a : Reg) : List VUnit :=
  (List.range ((t.vl + 7) / 8)).map fun k => ⟨8 * k, k, t.xr a + BitVec.ofNat 64 k, 1, 1⟩

/-- PLD (R138). -/
def execPld (d a : Reg) (s : State) : Host.Outcome State Fault Refusal :=
  issueVl { word := (wordPld d a), caps := [3], pdst := [d], xsrc := [a] } s fun s => do
    let l ← s.vunits .load false (s.thr.predUnits a)
    let (vs, s) ← s.readUnitsClass 0 VUnit.slot l
    .ok (s.mapThr fun t => t.writePred d (fun _ => true) fun i => (Assoc.getD vs (i / 8) 0).testBit (i % 8))

/-- PST (R138). -/
def execPst (src a : Reg) (s : State) : Host.Outcome State Fault Refusal :=
  issueVl { word := (wordPst src a), caps := [3], psrc := [src], xsrc := [a] } s fun s => do
    let l ← s.vunits .store true (s.thr.predUnits a)
    let t := s.thr
    let byte (k : Nat) : Nat := packElems 1 ((List.range 8).map fun i => if t.active src (8 * k + i) then 1 else 0)
    .ok (s.storeUnits 0 true (l.map fun (u, pl) => (pl, bytesOf 1 (byte u.slot))))

end Sys2Proof.Machine
end

