-- ==== Sys2Proof/Machine/VectorAtomic.lean ====
section
/-! DEFINITION. Vector atomics and `vwait` (R167, R168), and churn windows (R169 to R172). -/
namespace Sys2Proof.Machine

/-! ### vamo and vwait -/

/-- The width of the address operand: SEW 32 or 64 with SEW2 64 (R167, R168). -/
def Thread.atomLegal (t : Thread) : Bool := decide (32 ≤ t.sew ∧ t.sew2 = 64)

/-- The units of the active elements, addressed by the elements of a group of 64-bit elements. -/
def Thread.atomUnits (t : Thread) (p a : Reg) : List VUnit :=
  (t.actives p).map fun i => ⟨i, i, BitVec.ofNat 64 (t.elem a.toNat i 64), t.sew / 8, t.sew / 8⟩

/-- What one element of `vamo` writes (R156, R167). -/
def vamoNew (o : VAmoOp) (u : Bool) (w old b : Nat) : Nat :=
  match o with
  | .swap => b
  | .add => old + b
  | .and => old &&& b
  | .or => old ||| b
  | .xor => old ^^^ b
  | .min => if u then min old b else vMin w old b
  | .max => if u then max old b else vMax w old b

/-- The places of a `vamo` that has begun to perform. -/
def placesOf (places : Assoc Nat Place) (us : List VUnit) : List (VUnit × Place) :=
  us.map fun u => (u, Assoc.getD places u.slot (.device 0))

/-- One element that the device holds is performed, and what it found is kept until the instruction ends. -/
def State.vamoOne (s : State) (o : VAmoOp) (un : Bool) (b : Reg) (u : VUnit) (pl : Place) : State :=
  let bs := s.bytesAt pl u.n
  (s.writeNow pl (bytesOf u.n (vamoNew o un (8 * u.n) (natOfBytes bs) (s.thr.elem b.toNat u.slot s.thr.sew)))).mapThr fun t =>
    { t with peerData := t.peerData ++ [⟨t.pc, t.supervisor, u.slot + 1, pl.offset, u.n, some bs⟩] }

/-- True of places in one granule. -/
def Place.mates (a b : Place) : Bool :=
  match a, b with
  | .device d, .device e | .localStore d, .localStore e | .csa d, .csa e => decide (d / 8 = e / 8)
  | _, _ => false

/-- The units that may be performed next: the first of each granule (R167). `seen` are the places of those before. -/
def granuleHeads : List Place → List (VUnit × Place) → List (VUnit × Place)
  | _, [] => []
  | seen, e :: r => (if seen.any e.2.mates then id else (e :: ·)) (granuleHeads (e.2 :: seen) r)

/-- The units not yet performed, those that peers hold before the others. -/
def Thread.vamoLeft (t : Thread) (us : List (VUnit × Place)) : List (VUnit × Place) :=
  let l := us.filter fun e => (t.answer? (e.1.slot + 1) e.2.offset e.1.n).isNone
  (l.filter fun e => e.2.remote) ++ l.filter fun e => !e.2.remote

/-- Perform the units that are left: those of one granule in rising index, and those of different granules in any order, a free
choice where other agents may act between two of them (R167, R261). What a peer holds takes one request, and the instruction
goes on when that is answered (R159, R380); `first` is true until this step has performed a unit. -/
def State.vamoGo (s : State) (o : VAmoOp) (un : Bool) (b : Reg) (first : Bool) : Nat → List (VUnit × Place) → Run State
  | 0, _ => .ok s
  | k + 1, l =>
    match granuleHeads [] l with
    | [] => .ok s
    | e :: es => do
      let (x, s0) := if s.breaks.isEmpty then (e, s) else s.choose (e :: es) e
      let s1 ← if first then .ok s0 else s0.breakHere
      if x.2.remote then
        let _ ← s1.askPeer (x.1.slot + 1) x.2.offset x.1.n true (bytesOf x.1.n (s1.thr.elem b.toNat x.1.slot s1.thr.sew)) x.1.ea x.1.telem
        State.vamoGo s1 o un b false k (l.erase x)
      else State.vamoGo (s1.vamoOne o un b x.1 x.2) o un b false k (l.erase x)

/-- The request of the instruction at the PC that may change a peer's memory and is not answered. -/
def State.openWrite (s : State) : Option PeerReq :=
  s.requests.find? fun r => match r.who with
    | .thread k pc sup slot => decide (k = s.thr.key ∧ pc = s.thr.pc ∧ sup = s.thr.supervisor ∧ slot ≠ 0)
    | _ => false

/-- The unit that a peer has rejected (R380). -/
def Thread.rejected (t : Thread) (us : List (VUnit × Place)) : Option VUnit :=
  (us.find? fun e => match t.answer? (e.1.slot + 1) e.2.offset e.1.n with | some a => a.data.isNone | none => false).map Prod.fst

/-- Go on with a `vamo` at its places: its request is waited for, a rejection is DATA_ERR, and the units that are left are
performed. -/
def State.vamoOn (s : State) (o : VAmoOp) (un : Bool) (b : Reg) (us : List (VUnit × Place)) : Run State :=
  match s.openWrite, s.thr.rejected us with
  | some r, _ => .error (.park s (.peer r.id))
  | none, some u => raise s .dataErr u.ea u.telem
  | none, none => s.vamoGo o un b true us.length (s.thr.vamoLeft us)

/-- What each element found: what its peer answered, or what is kept of it. -/
def Thread.vamoFound (t : Thread) (l : List (VUnit × Place)) : Assoc Nat Nat :=
  l.map fun (u, pl) =>
    (u.slot, match t.answer? (u.slot + 1) pl.offset u.n with | some a => natOfBytes (a.data.getD []) | none => 0)

/-- The device bytes of units. -/
def unitRanges (l : List (VUnit × Place)) : List Range := l.flatMap fun e => e.2.range e.1.n

/-- The earlier stores of the thread that a `vamo` comes after (R259, R263): all of them where it releases, and otherwise the
vector ones, those of the same bytes, and those that an earlier read took in. -/
def vamoFirst (release : Bool) (rs : List Range) (p : PendStore) : Bool := release || p.vector || p.read || p.meets rs

/-- VAMO (R167). -/
def execVamo (d a b p : Reg) (o : VAmoOp) (q l u : Bool) (s : State) : Host.Outcome State Fault Refusal :=
  let t := s.thr
  issueVl { word := (wordVamo d a b p o q l u), legal := atomUnsigned o u && t.atomLegal, caps := [22], dst := [t.own d],
            src := [t.second a, t.own b], psrc := [p] } s fun s => do
    let (us, s0) ← match s.thr.begun? with
      | some places => .ok (placesOf places (s.thr.atomUnits p a), s)
      | none => do
        let us ← s.vunits .atomic false (s.thr.atomUnits p a)
        let s1 ← s.drainWhere (vamoFirst l (unitRanges us))
        .ok (us, s1.mapThr fun t => t.begin (wordVamo d a b p o q l u) (us.map fun e => (e.1.slot, e.2)))
    let s1 ← s0.vamoOn o u b us
    let far := (us.filter fun e => e.2.remote).length
    .ok (s1.mapThr fun t =>
      ({ t with stores := t.stores + far }).writeVec d.toNat (t.pbit p) fun i => Assoc.getD (t.vamoFound us) i 0)

/-- The truth of a `vwait` condition at width w (R168). -/
def waitCond (c : WaitCond) (w m b : Nat) : Bool :=
  match c with
  | .eq => decide (m = b)
  | .ne => decide (m ≠ b)
  | .lt => decide (sext w m < sext w b)
  | .ge => decide (sext w b ≤ sext w m)
  | .ltu => decide (m < b)
  | .geu => decide (b ≤ m)

/-- The key of a window byte among watched cells; device addresses lie below it. -/
def windowKey (o : Nat) : Nat := o + 2 ^ 60

/-- The key that stands for a byte at a peer: it is looked at again whenever the thread is (DEDUCED, log 14). -/
def remoteKey : Nat := 2 ^ 62

/-- The watched bytes of units, as seen. -/
def State.watched (s : State) : List (VUnit × Place) → List Host.Cell
  | [] => []
  | (u, pl) :: r =>
    (match pl with
      | .device d => if pl.remote then [(remoteKey, 1)] else cellsAt d (s.bytesAt pl u.n)
      | .localStore o => cellsAt (windowKey o) (s.bytesAt pl u.n)
      | .csa _ => []) ++ State.watched s r

/-- VWAIT (R168). -/
def execVwait (a b p : Reg) (c : WaitCond) (s : State) : Host.Outcome State Fault Refusal :=
  let t := s.thr
  issueVl { word := (wordVwait a b p c), legal := t.atomLegal, caps := [22], src := [t.second a, t.own b], psrc := [p] } s fun s => do
    let us ← s.vunits .atomicRead false (s.thr.atomUnits p a)
    let s1 ← s.drainWhere fun p => p.meets (unitRanges us)
    let vs ← s1.readUnits 0 us
    if us.all (fun e => waitCond c s.thr.sew (Assoc.getD vs e.1.slot 0) (s.thr.elem b.toNat e.1.slot s.thr.sew)) then .ok s1
    else .error (.park (s1.mapThr fun t => { t with peerData := t.otherAnswers }) (.watch (s1.watched us)))

/-! ### Churn windows -/

/-- `OP` of a churn window at its width, with the flags of `.fadd` (R169, R170). -/
def churnOp (o : ChOp) (f : Fmt) (mode : RMode) (w x y : Nat) : Nat × Flags :=
  match o with
  | .add => ((x + y) % 2 ^ w, 0)
  | .min => (vMin w x y, 0)
  | .max => (vMax w x y, 0)
  | .fadd => f.add mode x y

/-- Copies by lane and index, kept in the order in which `churn` folds them. -/
def putCopy (l : Assoc (Nat × Nat) Word) (k : Nat × Nat) (v : Word) : Assoc (Nat × Nat) Word :=
  match l with
  | [] => [(k, v)]
  | (j, w) :: r =>
    if j = k then (k, v) :: r
    else if k.1 < j.1 ∨ (k.1 = j.1 ∧ k.2 < j.2) then (k, v) :: (j, w) :: r
    else (j, w) :: putCopy r k v

/-- The format of `.fadd` at a width. -/
def churnFmt (w : Nat) : Fmt := vecFmt false w

/-- CHWIN (R169). -/
def execChwin (o : ChOp) (a b : Reg) (s : State) : Host.Outcome State Fault Refusal :=
  let t := s.thr
  issueVector { word := tv (wordChwin o a b), legal := decide (32 ≤ t.sew), caps := [23], reads := xs [a, b] } s fun s => do
    let t := s.thr
    let x := t.xr a
    let n := (t.xr b).toNat
    let bytes := t.sew / 8
    let size := t.lanesCount * n * bytes
    need s t.window.isNone .illegal (tv (wordChwin o a b))
    need s (decide (x.toNat % bytes = 0)) .align x
    need s (decide (n ≠ 0 ∧ size ≤ t.hdr.churnb)) .bounds (BitVec.ofNat 64 size)
    need s (!decide (x.toNat < 2 ^ 49 ∧ localBase < x.toNat + n * bytes)) .bounds x
    .ok (s.mapThr fun t => { t with window := some ⟨o, t.sew, x, n, [], 0, []⟩ })

/-- One update of a copy (R170) (DEDUCED, log 41). -/
def ChurnWin.update (c : ChurnWin) (mode : RMode) (lane e v : Nat) : ChurnWin × Flags :=
  match Assoc.get? c.copies (lane, e) with
  | none => ({ c with copies := putCopy c.copies (lane, e) (BitVec.ofNat 64 v) }, 0)
  | some w =>
    let (r, g) := churnOp c.op (churnFmt c.bits) mode c.bits w.toNat v
    ({ c with copies := putCopy c.copies (lane, e) (BitVec.ofNat 64 r) }, g)

/-- The updates of the active elements, in rising index (R170). -/
def Thread.updates (t : Thread) (a b : Reg) : List Nat → ChurnWin → ChurnWin × Flags
  | [], c => (c, 0)
  | i :: r, c =>
    let (c1, g) := c.update t.vfrm (i % t.lanesCount) (t.elem a.toNat i t.sew2) (t.elem b.toNat i t.sew)
    let (c2, h) := Thread.updates t a b r c1
    (c2, g ||| h)

/-- An update instruction (R170).  Its ILLEGAL is none of the traps that VL = 0 suppresses (R121) (DEDUCED, log 27). -/
def churnUpdate (w : BitVec 32) (op : ChOp) (a b p : Reg) (s : State) : Host.Outcome State Fault Refusal :=
  let t := s.thr
  issueVector (t.vreq { word := w, caps := [23], src := [t.second a, t.own b], psrc := [p] }) s fun s =>
    match s.thr.window with
    | none => raise s .illegal (tv w)
    | some c => do
      let t := s.thr
      need s (decide (c.op = op ∧ c.bits = t.sew)) .illegal (tv w)
      match (t.actives p).find? (fun i => decide (c.n ≤ t.elem a.toNat i t.sew2)) with
      | some i => raise s .bounds (BitVec.ofNat 64 (t.elem a.toNat i t.sew2)) i
      | none =>
        let (c1, g) := t.updates a b (t.actives p) c
        .ok (s.mapThr fun t => { t with window := some c1, fcsr := fcsrRaise t.fcsr g })

/-- VCHADD (R170). -/
def execVchadd (a b p : Reg) (s : State) : Host.Outcome State Fault Refusal :=
  churnUpdate (wordVchadd a b p) .add a b p s

/-- VCHMIN (R170). -/
def execVchmin (a b p : Reg) (s : State) : Host.Outcome State Fault Refusal :=
  churnUpdate (wordVchmin a b p) .min a b p s

/-- VCHMAX (R170). -/
def execVchmax (a b p : Reg) (s : State) : Host.Outcome State Fault Refusal :=
  churnUpdate (wordVchmax a b p) .max a b p s

/-- VCHFADD (R170). -/
def execVchfadd (a b p : Reg) (s : State) : Host.Outcome State Fault Refusal :=
  churnUpdate (wordVchfadd a b p) .fadd a b p s

/-- Address of a table element. -/
def ChurnWin.addr (c : ChurnWin) (e : Nat) : Word := c.base + BitVec.ofNat 64 (e * (c.bits / 8))

/-- A number put into a rising list without repeats. -/
def putRising (x : Nat) : List Nat → List Nat
  | [] => [x]
  | y :: r => if x < y then x :: y :: r else if x = y then y :: r else y :: putRising x r

/-- The units of the touched table elements, in rising index. -/
def ChurnWin.units (c : ChurnWin) : List VUnit :=
  (c.copies.foldr (fun x acc => putRising x.1.2 acc) []).map fun e => ⟨e, e, c.addr e, c.bits / 8, c.bits / 8⟩

/-- Places of units under R108 steps 1 to 5, or the first failure. -/
def State.placeUnits (s : State) (acc : Access) : List VUnit → Except (AccessFault × VUnit) (Assoc Nat Place)
  | [] => .ok []
  | u :: r =>
    match s.unitPlace acc u with
    | .error f => .error (f, u)
    | .ok pl =>
      match State.placeUnits s acc r with
      | .error e => .error e
      | .ok l => .ok ((u.slot, pl) :: l)

/-- The MACHINE_CHECK entry of refused folds to a granule (R171, R351, R390). Reads of it return what its home holds from then on
(R391). -/
def State.foldCheck (s : State) (g cls : Nat) : State :=
  let die := granuleDie g
  let site := if cls ≤ 3 then some s.thr.core.site else none
  { s with badMem := Assoc.drop s.badMem g }.report s.thr.key.part
    { w0 := fifoW0 3 die (some s.thr.key.proc) site, w1 := 0, w2 := BitVec.ofNat 64 g, w3 := BitVec.ofNat 64 cls }

/-- The window without its first copy, with the flags of its fold and what it reported. -/
def ChurnWin.folded (c : ChurnWin) (g : Flags) (told : List Nat) : ChurnWin :=
  { c with copies := List.drop 1 c.copies, flags := c.flags ||| g, told := told ++ c.told }

/-- Fold the copies of a window in order, each as one atomic (R171): the window without them, with the flags of the folds. Copies
leave the window as they are folded, so that a fold at a peer, which waits for its answer, does not fold an earlier one
again; a peer answers with the old value. Other agents may act between two folds (R268), and the instruction then goes on with
the copies that are left; `first` is true until this step has come to one. A granule whose fold was refused takes no later one. -/
def State.foldCopies (s : State) (places : Assoc Nat Place) (first : Bool) (c : ChurnWin) :
    Assoc (Nat × Nat) Word → Run (State × ChurnWin)
  | [] => .ok (s, c)
  | ((l, e), v) :: r => do
    let n := c.bits / 8
    let s ← if first then .ok s else (s.mapThr fun t => { t with window := some c }).breakHere
    let pl := Assoc.getD places e (.device 0)
    let op (old : Nat) : Nat × Flags := churnOp c.op (churnFmt c.bits) s.thr.vfrm c.bits old v.toNat
    match pl, pl.remote with
    | .device d, true =>
      let bs ← (s.mapThr fun t => { t with window := some c }).askPeer (l * c.n + e + 1) d n true (bytesOf n v.toNat) (c.addr e) e
      State.foldCopies (s.mapThr fun t => { t with stores := t.stores + 1 }) places false (c.folded (op (natOfBytes bs)).2 []) r
    | _, _ =>
      match (match pl with | .device d => (granules d n).find? fun g => (Assoc.get? s.badMem g).isSome || c.told.contains g | _ => none) with
      | some g =>
        let s1 := if c.told.contains g then s else s.foldCheck g (Assoc.getD s.badMem g 9)
        State.foldCopies s1 places false (c.folded 0 [g]) r
      | none =>
        let (x, g) := op (natOfBytes (s.bytesAt pl n))
        State.foldCopies (s.writeNow pl (bytesOf n x)) places false (c.folded g []) r

/-- `churn`: check every touched location, fold, and close the window; the flags of the folds go to FCSR then (R25, R171). One that
has begun to fold checks no more; `w` is the word of the instruction that folds. -/
def State.fold (s : State) (w : BitVec 32) : Run State :=
  match s.thr.window with
  | none => .ok s
  | some c => do
    let us := c.units
    let (places, s1) ← match s.thr.begun? with
      | some places => .ok (places, s)
      | none =>
        (match s.placeUnits .store us with
        | .error f => raiseUnit s f
        | .ok places => do
          s.passWatermark (us.map fun u => ⟨u.ea.toNat, u.n⟩)
          let s1 ← s.drain
          .ok (places, s1.mapThr fun t => t.begin w places))
    let (s2, c2) ← s1.foldCopies places true c c.copies
    .ok (s2.mapThr fun t => { t with window := none, begun := none, fcsr := fcsrRaise t.fcsr c2.flags })

/-- CHURN (R171). -/
def execChurn (s : State) : Host.Outcome State Fault Refusal :=
  issueVector { word := tv wordChurn, caps := [23] } s fun s => s.fold wordChurn

/-- CHDROP (R172). -/
def execChdrop (s : State) : Host.Outcome State Fault Refusal :=
  issueVector { word := tv wordChdrop, caps := [23] } s fun s => .ok (s.mapThr fun t => { t with window := none })

end Sys2Proof.Machine
end

