-- ==== Sys2Proof/Machine/FabricRun.lean ====
section
/-! DEFINITION. A running fabric graph (R201, R207 to R214, R294 to R310): the firing of each element, the restart point, and
how a run stops or completes. Functions on `State` act for the thread that has the turn, whose `fop` runs. -/
namespace Sys2Proof.Machine

/-! ### Values under a TYPE (R207, R209, R386) -/

/-- TYPE codes: 0 i32, 1 u32, 2 f32, 3 i64. -/
def readAs (ty v : Nat) : Int := match ty with | 0 => sext 32 v | 3 => sext 64 v | _ => ((v % 2 ^ 32 : Nat) : Int)

/-- A token from a result: sign-extended for i32, zero-extended for u32 and f32, whole for i64. -/
def writeAs (ty : Nat) (i : Int) : Word :=
  match ty with | 0 => sextWord 32 (wrap 32 i) | 3 => wordOfInt i | _ => BitVec.ofNat 64 (wrap 32 i)

/-- A predicate token: nonzero under TYPE; both zeros of f32 are false. -/
def truthAs (ty v : Nat) : Bool :=
  match ty with | 2 => decide (v % 2 ^ 31 ≠ 0) | 3 => decide (v ≠ 0) | _ => decide (v % 2 ^ 32 ≠ 0)

/-- The integer operations 5 to 14. -/
def intOp (op ty a b : Nat) : Int :=
  let w := if ty = 3 then 64 else 32
  let x := readAs ty a
  let y := readAs ty b
  match op with
  | 5 => x + y
  | 6 => x - y
  | 7 => x * y
  | 8 => ((wrap w x &&& wrap w y : Nat) : Int)
  | 9 => ((wrap w x ||| wrap w y : Nat) : Int)
  | 10 => ((wrap w x ^^^ wrap w y : Nat) : Int)
  | 11 => x * 2 ^ (wrap w y % w)
  | 12 => x / 2 ^ (wrap w y % w)
  | 13 => if x ≤ y then x else y
  | _ => if x ≤ y then y else x

/-- COND 0 to 5 of `cmp`. -/
def fabCmp (c : Nat) (x y : Int) : Bool :=
  match c with
  | 0 => decide (x = y) | 1 => decide (x ≠ y) | 2 => decide (x < y) | 3 => decide (x ≤ y) | 4 => decide (y < x)
  | _ => decide (y ≤ x)

/-- COND 0 to 6 of `fcmp`. -/
def fabCond (c : Nat) : CmpCond :=
  match c with | 0 => .eq | 1 => .ne | 2 => .lt | 3 => .le | 4 => .gt | 5 => .ge | _ => .unord

/-- The result of a fixed-rate operation on its tokens, with flags (R209). -/
def Fe.compute (e : Fe) (mode : RMode) (a b p : Nat) : Word × Flags :=
  let b := if immForm e.op && bit e.flags 0 then e.immValue else b
  let f32 (r : Nat × Flags) : Word × Flags := (BitVec.ofNat 64 r.1, r.2)
  let x := a % 2 ^ 32
  let y := b % 2 ^ 32
  match e.op with
  | 1 => (BitVec.ofNat 64 a, 0)
  | 2 => (BitVec.ofNat 64 e.immValue, 0)
  | 15 => (if fabCmp e.cond (readAs e.ty a) (readAs e.ty b) then 1 else 0, 0)
  | 16 => (BitVec.ofNat 64 (if truthAs e.ty p then a else b), 0)
  | 17 => f32 (Fmt.f32.add mode x y)
  | 18 => f32 (Fmt.f32.mul mode x y)
  | 19 => f32 (Fmt.f32.fma mode x y (p % 2 ^ 32))
  | 20 => f32 (Fmt.f32.minmax false x y)
  | 21 => f32 (Fmt.f32.minmax true x y)
  | 22 => let (t, g) := fpCmp (fabCond e.cond) Fmt.f32 x y; (if t then 1 else 0, g)
  | 23 => f32 (Fmt.f32.rsqrte x)
  | _ => (writeAs e.ty (intOp e.op e.ty a b), 0)

/-! ### Buffers (R207, R296, R299) -/

def FabricRun.fe (r : FabricRun) (f : Nat) : Fe := graphFe r.graph f
def FabricRun.buf (r : FabricRun) (f q : Nat) : List Token := Assoc.getD r.bufs (f, q) []
def FabricRun.head (r : FabricRun) (f q : Nat) : Option Token := (r.buf f q).head?
def FabricRun.pop (r : FabricRun) (f q : Nat) : FabricRun := { r with bufs := Assoc.put r.bufs (f, q) (List.drop 1 (r.buf f q)) }

/-- Space for `n` tokens at each valid target; a buffer holds 4. -/
def FabricRun.room (r : FabricRun) (f n : Nat) : Bool := (r.fe f).targets.all fun t => decide ((r.buf t.1 t.2).length + n ≤ 4)

/-- Send a token to some targets, under the run's plane. -/
def FabricRun.sendTo (r : FabricRun) (data : Option Word) (src : List Source) : List (Nat × Nat) → FabricRun
  | [] => r
  | t :: ts =>
    FabricRun.sendTo { r with bufs := Assoc.put r.bufs t (r.buf t.1 t.2 ++ [⟨data, src, r.plane⟩]) } data src ts
def FabricRun.send (r : FabricRun) (f : Nat) (data : Option Word) (src : List Source) : FabricRun :=
  r.sendTo data src (r.fe f).targets

/-- The number in a data token. -/
def Token.num (t : Token) : Nat := (t.data.getD 0).toNat

/-- Sources together, without repeats (DEDUCED, log 42). -/
def joinSrc (l : List (List Source)) : List Source := freshOf [] l.flatten

def FabricRun.event (r : FabricRun) (e : FabricEvent) : FabricRun := { r with events := r.events ++ [e] }

/-- True once a stop event has occurred (R308). -/
def FabricRun.stopping (r : FabricRun) : Bool := !r.events.isEmpty || !r.fails.isEmpty

def FabricRun.val (r : FabricRun) (f : Nat) : RunVal := Assoc.getD r.vals f (r.fe f).initVal

/-- A firing that takes tokens of some sources changes a running value; the value before it is kept (R306). -/
def FabricRun.setVal (r : FabricRun) (f : Nat) (src : List Source) (v : RunVal) : FabricRun :=
  { r with vals := Assoc.put r.vals f v, hist := Assoc.put r.hist f (Assoc.getD r.hist f [] ++ [(src, r.val f)]) }

/-- The end of a stream derives from the position after its last element, which settles only when the `fop` completes. -/
def FabricRun.streamEnd (r : FabricRun) (c : Nat) : List Source := [.elem c (if c = 0 then r.len0 else r.len1)]

/-- A firing takes a data token and sends nothing for it. -/
def FabricRun.drop (r : FabricRun) (src : List Source) : FabricRun := { r with dropped := r.dropped ++ [src] }

/-- What trying to fire an element gives: nothing, a wait on a watermark, a stop event with no firing, or the state after one. -/
inductive Fired where
  | idle
  | stalled
  | met (s : State) (r : FabricRun)
  | done (s : State) (r : FabricRun)

/-- A stop event is met once; the element that meets it does not fire (DEDUCED, log 44). -/
def FabricRun.meet (s : State) (r : FabricRun) (e : FabricEvent) : Fired := if r.events.contains e then .idle else .met s (r.event e)

/-! ### Streams (R201, R209, R214) -/

/-- True of an element that is presented: stream 1 of length VLB is unmasked. -/
def FabricRun.presents (s : State) (r : FabricRun) (c i : Nat) : Bool :=
  (decide (c = 1) && r.byVlb) || s.thr.pbit (BitVec.ofNat 5 r.mask) i

/-- The next presented element at or above a position, or the length. -/
def FabricRun.seek (s : State) (r : FabricRun) (c : Nat) : Nat → Nat → Nat
  | 0, i => i
  | n + 1, i =>
    if (if c = 0 then r.len0 else r.len1) ≤ i then i
    else if FabricRun.presents s r c i then i else FabricRun.seek s r c n (i + 1)

/-- The position of a stream with an `in` element: the next element to present (R201). -/
def FabricRun.position (s : State) (r : FabricRun) (c : Nat) : Nat :=
  let i := if c = 0 then r.next0 else r.next1
  if (inFe r.graph c).isSome then FabricRun.seek s r c ((if c = 0 then r.len0 else r.len1) - i) i else i

/-- `in` (R201). Where a recorded length passes the register group of the VTYPE in force at the resumption, the elements beyond the
group are those of the registers after it, and 0 past v31 (DESIGN CHOICE, log 106). -/
def FabricRun.fireIn (s : State) (r : FabricRun) (f : Nat) : Fired :=
  let e := r.fe f
  let c := e.cond
  if r.stopping || r.ended.contains (4 * f) || !r.room f 1 then .idle
  else
    let i := FabricRun.position s r c
    let len := if c = 0 then r.len0 else r.len1
    let r1 := if c = 0 then { r with next0 := i + 1 } else { r with next1 := i + 1 }
    if len ≤ i then
      .done s ({ (if c = 0 then { r with next0 := i } else { r with next1 := i }) with ended := 4 * f :: r.ended }.send f none
        (r.streamEnd c))
    else
      let v := s.thr.elem (if c = 0 then r.va else r.vb) i s.thr.sew
      .done s (r1.send f (some (writeAs e.ty (readAs e.ty v))) [.elem c i])

def FabricRun.fireOut (s : State) (r : FabricRun) (f : Nat) : Fired :=
  match r.head f 3 with
  | none => .idle
  | some t =>
    match t.data with
    | none => if r.room f 1 then .done s ((r.pop f 3).send f none t.src) else .idle
    | some w =>
      if s.thr.vlmax ≤ r.outBase + r.outs.length then FabricRun.meet s r .overflow
      else
        let p := r.pop f 3
        .done s { p with outs := p.outs ++ [(w.toNat, t.src)] }

/-- `eos` takes one token at a time; the last end-of-stream of its slots issues the end-of-round (R214). -/
def FabricRun.fireEos (s : State) (r : FabricRun) (f : Nat) : Fired :=
  let slots := (r.fe f).slots
  match slots.find? fun q => (r.head f q).isSome with
  | none => .idle
  | some q =>
    match (r.head f q).map Token.data with
    | some none =>
      let p := r.pop f q
      let ended := (4 * f + q) :: p.ended
      .done s { p with ended := ended, round := p.round || slots.all fun k => ended.contains (4 * f + k) }
    | _ => .done s ((r.pop f q).drop (((r.head f q).map Token.src).getD []))

/-! ### Fixed-rate operations (R208, R209) -/

/-- The heads of slots, when each holds a token. -/
def FabricRun.heads (r : FabricRun) (f : Nat) (qs : List Nat) : Option (List Token) :=
  (qs.map fun q => r.head f q).foldr (fun h l => match h, l with | some t, some ts => some (t :: ts) | _, _ => none) (some [])

def FabricRun.popAll (r : FabricRun) (f : Nat) : List Nat → FabricRun
  | [] => r
  | q :: qs => FabricRun.popAll (r.pop f q) f qs

/-- A fixed-rate operation. MISMATCH is met when the operation could fire, with room at every target (R207, R208; DESIGN CHOICE,
log 89). -/
def FabricRun.fireFixed (s : State) (r : FabricRun) (f : Nat) : Fired :=
  let e := r.fe f
  match r.heads f e.slots with
  | none => .idle
  | some hs =>
    if !r.room f 1 then .idle
    else
      let ends := hs.filter fun t => t.data.isNone
      let src := joinSrc (hs.map Token.src)
      if ends.length = hs.length then .done s ((r.popAll f e.slots).send f none src)
      else if !ends.isEmpty then FabricRun.meet s r .mismatch
      else
        let n (q : Nat) : Nat := ((r.head f q).map Token.num).getD 0
        let (w, g) := e.compute s.thr.vfrm (n 0) (n 1) (n 2)
        let p := (r.popAll f e.slots).send f (some w) src
        .done s { p with flags := p.flags ||| g }

/-- `count` (R209). -/
def FabricRun.fireCount (s : State) (r : FabricRun) (f : Nat) : Fired :=
  let e := r.fe f
  match r.head f 0 with
  | none => .idle
  | some t =>
    if !r.room f (if t.data.isNone && bit e.cond 0 then 2 else 1) then .idle
    else
      let v := r.val f
      let w := writeAs e.ty (v.k : Int)
      match t.data with
      | none =>
        let p := r.pop f 0
        .done s ((if bit e.cond 0 then p.send f (some w) t.src else p).send f none t.src)
      | some _ => .done s (((r.pop f 0).setVal f t.src { v with k := v.k + 1 }).send f (some w) t.src)

/-! ### Accumulators (R211) -/

/-- The running value with one more token, and flags. -/
def Fe.accumulate (e : Fe) (mode : RMode) (v : RunVal) (a : Nat) : RunVal × Flags :=
  if e.op = 25 then
    let (x, g) := Fmt.f32.add mode (v.val.toNat % 2 ^ 32) (a % 2 ^ 32)
    (⟨BitVec.ofNat 64 x, true, v.k⟩, g)
  else (⟨writeAs e.ty (readAs e.ty v.val.toNat + readAs e.ty a), true, v.k⟩, 0)

def FabricRun.fireAcc (s : State) (r : FabricRun) (f : Nat) : Fired :=
  let e := r.fe f
  let seg := bit e.flags 1
  match r.heads f e.slots with
  | none => .idle
  | some hs =>
    let ends := hs.filter fun t => t.data.isNone
    let v := r.val f
    let sends := !seg || v.added
    if !r.room f (if ends.length = hs.length ∧ sends = true then 2 else 1) then .idle
    else
      let src := joinSrc (hs.map Token.src)
      let p := r.popAll f e.slots
      if ends.length = hs.length then
        let p1 := if sends then p.send f (some v.val) src else p
        .done s ((p1.setVal f src e.initVal).send f none src)
      else if !ends.isEmpty then FabricRun.meet s r .mismatch
      else
        let n (q : Nat) : Nat := ((r.head f q).map Token.num).getD 0
        let (v1, g) := e.accumulate s.thr.vfrm v (n 0)
        let p1 := { p with flags := p.flags ||| g }
        if seg && truthAs e.ty (n 2) then .done s ((p1.setVal f src e.initVal).send f (some v1.val) src)
        else .done s (p1.setVal f src v1)

/-! ### Variable-rate operations (R209, R210, R212) -/

/-- `filter` and `gate` (R210). A token for a target that is not valid is taken and goes nowhere. -/
def FabricRun.fireFilter (s : State) (r : FabricRun) (f : Nat) : Fired :=
  let e := r.fe f
  match r.head f 0, r.head f 2 with
  | some a, some p =>
    if !r.room f 1 then .idle
    else
      let src := joinSrc [a.src, p.src]
      let r1 := r.popAll f [0, 2]
      match a.data, p.data with
      | none, none => .done s (r1.send f none src)
      | some w, some c =>
        let t := truthAs e.ty c.toNat
        if e.op = 31 then
          match tgtOf (if t then e.tgtA else e.tgtB) with
          | some g => .done s (r1.sendTo (some w) src [g])
          | none => .done s (r1.drop src)
        else .done s (if t then r1.send f (some w) src else r1.drop src)
      | _, _ => FabricRun.meet s r .mismatch
  | _, _ => .idle

/-- `sink` takes its tokens and sends nothing (R209). -/
def FabricRun.fireSink (s : State) (r : FabricRun) (f : Nat) : Fired :=
  match r.head f 0 with
  | none => .idle
  | some t => .done s (if t.data.isSome then (r.pop f 0).drop t.src else r.pop f 0)

/-- `merge` and `isect` (R210). -/
def FabricRun.fireMerge (s : State) (r : FabricRun) (f : Nat) : Fired :=
  let e := r.fe f
  match r.head f 0, r.head f 1 with
  | some a, some b =>
    if !r.room f 1 then .idle
    else
      let isect := decide (e.op = 29)
      match a.data, b.data with
      | none, none => .done s ((r.popAll f [0, 1]).send f none (joinSrc [a.src, b.src]))
      | some x, some y =>
        let i := readAs e.ty x.toNat
        let j := readAs e.ty y.toNat
        if isect && decide (i = j) then .done s ((r.popAll f [0, 1]).send f (some x) (joinSrc [a.src, b.src]))
        else if isect then .done s (if i < j then (r.pop f 0).drop a.src else (r.pop f 1).drop b.src)
        else if i ≤ j then .done s ((r.pop f 0).send f (some x) a.src)
        else .done s ((r.pop f 1).send f (some y) b.src)
      | some x, none => .done s (if isect then (r.pop f 0).drop a.src else (r.pop f 0).send f (some x) a.src)
      | none, some y => .done s (if isect then (r.pop f 1).drop b.src else (r.pop f 1).send f (some y) b.src)
  | _, _ => .idle

/-- `dup` sends one copy a firing, and takes its tokens with the last (R209). -/
def FabricRun.fireDup (s : State) (r : FabricRun) (f : Nat) : Fired :=
  let e := r.fe f
  match r.head f 0, r.head f 1 with
  | some a, some b =>
    if !r.room f 1 then .idle
    else
      let src := joinSrc [a.src, b.src]
      match a.data, b.data with
      | none, none => .done s ((r.popAll f [0, 1]).send f none src)
      | some w, some c =>
        let n := if e.ty = 3 then c.toNat else c.toNat % 2 ^ 32
        let v := r.val f
        if 4096 < n then FabricRun.meet s r .range
        else
          let r1 := if v.k < n then r.send f (some w) src else r.drop src
          if v.k + 1 < n then .done s (r1.setVal f src { v with k := v.k + 1 })
          else .done s ((r1.setVal f src { v with k := 0 }).popAll f [0, 1])
      | _, _ => FabricRun.meet s r .mismatch
  | _, _ => .idle

/-- The steps that an `agen` has sent, and the number of its run. -/
def FabricRun.stepsOf (r : FabricRun) (f : Nat) : List AgenStep := Assoc.getD r.steps f []
def FabricRun.runOf (r : FabricRun) (f : Nat) : Nat := Assoc.getD r.runs f 0

/-- Step count of an `agen`: signed bits [23:12], scaled by 2^COND. -/
def Fe.stride (e : Fe) : Int := sext 12 (e.imm / 4096) * 2 ^ e.cond

def FabricRun.fireAgen (s : State) (r : FabricRun) (f : Nat) : Fired :=
  let e := r.fe f
  let ext := e.imm % 4096
  let slots := e.slots
  match r.heads f slots with
  | none => .idle
  | some hs =>
    if !r.room f 1 then .idle
    else
      let ends := hs.filter fun t => t.data.isNone
      let src := joinSrc (hs.map Token.src)
      let n (q : Nat) : Nat := ((r.head f q).map Token.num).getD 0
      if ends.length = hs.length then .done s ((r.popAll f slots).send f none src)
      else if !ends.isEmpty then FabricRun.meet s r .mismatch
      else
        let begun := (r.stepsOf f).any fun t => decide (t.run = r.runOf f)
        let cnt := if ext = 0 then n 1 else ext
        let v := r.val f
        if r.stopping && outermost r.graph f && !begun then .idle
        else if cnt = 0 ∨ 4096 < cnt then FabricRun.meet s r .range
        else
          let r1 := if v.k < cnt then
              { r with steps := Assoc.put r.steps f (r.stepsOf f ++ [(⟨v.k, r.runOf f, src⟩ : AgenStep)]) }.send f
                (some (BitVec.ofNat 64 (n 0) + wordOfInt ((v.k : Int) * e.stride))) [.step f (r.stepsOf f).length]
            else r.drop src
          if v.k + 1 < cnt then .done s { r1 with vals := Assoc.put r1.vals f { v with k := v.k + 1 } }
          else .done s ({ r1 with vals := Assoc.put r1.vals f { v with k := 0 }, runs := Assoc.put r1.runs f (r.runOf f + 1) }.popAll
            f slots)

/-! ### Restart points (R306) -/

/-- What the run that a step belongs to derives from; an element derives from itself alone. -/
def FabricRun.parents (r : FabricRun) : Source → List Source
  | .elem _ _ => []
  | .step f n => (((r.stepsOf f)[n]?).map AgenStep.src).getD []

/-- Sources with those that the runs of their steps derive from. -/
def FabricRun.closure (r : FabricRun) : Nat → List Source → List Source
  | 0, l => l
  | n + 1, l => freshOf [] (l ++ FabricRun.closure r n (freshOf [] (l.flatMap r.parents)))

/-- Sources that are not settled: those of tokens in buffers, of loads that have not returned and of failing accesses. -/
def FabricRun.unsettled (r : FabricRun) : List Source :=
  r.closure 6 (freshOf [] ((r.bufs.flatMap fun b => b.2.flatMap Token.src) ++ r.loads.flatMap FabricAccess.src ++
    r.fails.flatMap FabricFail.src))

/-- The lowest of some numbers and `d`. -/
def lowest (d : Nat) (l : List Nat) : Nat := l.foldl min d

/-- The restart index of stream 0 or 1. -/
def FabricRun.restartElem (s : State) (r : FabricRun) (live : List Source) (c : Nat) : Nat :=
  lowest (FabricRun.position s r c) (live.filterMap fun x => match x with | .elem k i => if k = c then some i else none | _ => none)

/-- The bound below which each `agen`'s steps lie below the restart point. -/
abbrev Bounds := Assoc Nat Nat

/-- A source below the restart point. -/
def belowSrc (e0 e1 : Nat) (b : Bounds) : Source → Bool
  | .elem c i => decide (i < if c = 0 then e0 else e1)
  | .step f n => decide (n < Assoc.getD b f 0)

/-- The first step whose run derives from something at or above the restart point, and the number of its run. -/
def firstAbove (below : Source → Bool) (l : List AgenStep) : Option Nat := (l.find? fun t => !t.src.all below).map AgenStep.run

/-- One round: an `agen`'s steps up to the first unsettled one, and none of a run after the restart run. -/
def FabricRun.tighten (r : FabricRun) (e0 e1 : Nat) (live : List Source) (b : Bounds) : Bounds :=
  (fesOf r.graph 33).map fun f =>
    let l := r.stepsOf f
    let d := lowest l.length (live.filterMap fun x => match x with | .step k n => if k = f then some n else none | _ => none)
    (f, match firstAbove (belowSrc e0 e1 b) l with
        | some run => min d (l.takeWhile fun t => decide (t.run ≤ run)).length
        | none => d)

def FabricRun.boundsOf (r : FabricRun) (e0 e1 : Nat) (live : List Source) : Nat → Bounds
  | 0 => (fesOf r.graph 33).map fun f => (f, (r.stepsOf f).length)
  | n + 1 => r.tighten e0 e1 live (r.boundsOf e0 e1 live n)

/-- A restart point: the stream indices, the bounds, and what they say of a source. -/
structure Restart where
  e0 : Nat
  e1 : Nat
  bounds : Bounds

def Restart.below (p : Restart) : Source → Bool := belowSrc p.e0 p.e1 p.bounds

def FabricRun.restartOf (s : State) (r : FabricRun) (live : List Source) : Restart :=
  let e0 := FabricRun.restartElem s r live 0
  let e1 := FabricRun.restartElem s r live 1
  ⟨e0, e1, r.boundsOf e0 e1 live 6⟩

/-- The chain of a memory element, by its first element. -/
def FabricRun.chainHead (r : FabricRun) (f : Nat) : Nat := (chainOf r.graph f).headD f

/-- True of two accesses of one chain, the first before the second (R303). -/
def FabricRun.inOrder (r : FabricRun) (a b : FabricAccess) : Bool := decide (r.chainHead a.fe = r.chainHead b.fe ∧ a.num < b.num)

/-- A held store that lies below a restart point: everything it derives from has settled (R307). -/
def FabricAccess.settled (a : FabricAccess) (p : Restart) : Bool := a.src.all p.below

/-- The held stores in the order of their acceptance, each with whether it is issued: it has settled, and no load, store or failed
access of its chain before it is left (R206, R303, R307). `kept` are those that are not. -/
def FabricRun.releasing (r : FabricRun) (p : Restart) : List FabricAccess → List FabricAccess → List (FabricAccess × Bool)
  | _, [] => []
  | kept, a :: as =>
    let left (b : FabricAccess) : Bool := r.inOrder b a
    let failed (x : FabricFail) : Bool := decide (r.chainHead x.fe = r.chainHead a.fe ∧ x.num < a.num)
    let go := a.settled p && !kept.any left && !r.loads.any left && !r.fails.any failed
    (a, go) :: r.releasing p (if go then kept else a :: kept) as

/-- The held stores that a restart point lets go, and those that it does not. -/
def FabricRun.going (r : FabricRun) (p : Restart) : List FabricAccess × List FabricAccess :=
  let l := (r.releasing p [] r.stores).partition Prod.snd
  (l.1.map Prod.fst, l.2.map Prod.fst)

/-- What a stop at a restart point takes back: the sources of the outputs, tokens dropped and additions to running values that derive
from something at or above it, and of the held stores that it does not let go (R306, R308). -/
def FabricRun.takenBack (r : FabricRun) (p : Restart) : List Source :=
  let gone (l : List (List Source)) : List (List Source) := l.filter fun src => !src.all p.below
  freshOf [] (gone (r.outs.map Prod.snd) ++ (r.going p).2.map FabricAccess.src ++ gone r.dropped ++
    r.hist.flatMap fun h => (h.2.map Prod.fst).dropWhile fun src => src.all p.below).flatten

/-- What is taken back has not settled either, and an element that it derives from is presented again: the restart point moves down
until nothing that it takes back derives from below it, so that no effect is lost and none is repeated (R203, R306; DEDUCED, log
42). -/
def FabricRun.restartFrom (s : State) (r : FabricRun) : Nat → List Source → Restart
  | 0, live => FabricRun.restartOf s r live
  | n + 1, live =>
    let p := FabricRun.restartOf s r live
    let more := (r.closure 6 (r.takenBack p)).filter fun x => !live.contains x
    if more.isEmpty then p else FabricRun.restartFrom s r n (live ++ more)

/-- The restart point (R306). -/
def FabricRun.restart (s : State) (r : FabricRun) : Restart :=
  FabricRun.restartFrom s r (r.outs.length + r.stores.length + r.dropped.length + (r.hist.map fun h => h.2.length).foldl (· + ·) 0)
    r.unsettled

/-- The counter at which an `agen` starts again: of the first unsettled step of the restart run, or the one after its last. -/
def FabricRun.counter (r : FabricRun) (p : Restart) (f : Nat) : Nat :=
  let l := r.stepsOf f
  let n := Assoc.getD p.bounds f 0
  match firstAbove p.below l with
  | none => (r.val f).k
  | some run =>
    match l[n]? with
    | some t => if t.run = run then t.k else (((l.filter fun t => decide (t.run = run)).getLast?.map AgenStep.k).getD 0) + 1
    | none => (((l.filter fun t => decide (t.run = run)).getLast?.map AgenStep.k).getD 0) + 1

/-- The running value of an element at the restart point. -/
def FabricRun.valAt (r : FabricRun) (p : Restart) (f : Nat) : RunVal :=
  match (Assoc.getD r.hist f []).find? fun h => !h.1.all p.below with
  | some h => h.2
  | none => r.val f

/-- The elements whose running values the record holds (R305). -/
def recordedFes (g : List Word) : List Nat := ((graphFes g).filter fun e => accForm e.2.op || decide (e.2.op = 26 ∨ e.2.op = 30)).map Prod.fst

/-! ### Memory (R206, R213, R303, R307) -/

/-- The place that the key of a held byte names. -/
def placeOfKey (k : Nat) : Place := if 2 ^ 60 ≤ k then .localStore (k - 2 ^ 60) else .device k

/-- The keys of an access at a place. -/
def keyOf : Place → Nat
  | .device d => d
  | .localStore o => windowKey o
  | .csa o => windowKey o

/-- The alias class of a memory element. -/
def FabricRun.clsOf (r : FabricRun) (f : Nat) : BitVec 2 := BitVec.ofNat 2 (r.fe f).cond

/-- The issued stores of the chain of a memory element. -/
def FabricRun.chainedOf (r : FabricRun) (f : Nat) : List Nat := Assoc.getD r.chained (r.chainHead f) []

/-- Issue a held store as a vector store of its class, after those of its chain that have been issued (R206, R303). -/
def State.issueHeldStore (s : State) (r : FabricRun) (a : FabricAccess) : State × FabricRun :=
  let s1 := s.issueStore (a.cells.map fun c => (placeOfKey c.1, c.2)) (r.clsOf a.fe) true
  let n := s1.thr.stores
  let earlier := r.chainedOf a.fe
  (s1.mapThr fun t => { t with sq := t.sq.map fun p => if p.seq = n then { p with after := p.after ++ earlier.map fun k => (k, 0) } else p },
   { r with chained := Assoc.put r.chained (r.chainHead a.fe) (earlier ++ [n]) })

def State.issueHeldStores (s : State) (r : FabricRun) : List FabricAccess → State × FabricRun
  | [] => (s, r)
  | a :: as =>
    let (s1, r1) := s.issueHeldStore r a
    s1.issueHeldStores r1 as

/-- Held stores that have settled are issued, in chain order (R303, R307; DEDUCED, log 43). -/
def FabricRun.release (s : State) (r : FabricRun) : State × FabricRun :=
  let (go, stay) := r.going (FabricRun.restart s r)
  s.issueHeldStores { r with stores := stay } go

/-- The number of accesses an element has issued, and whether it has consumed its end-of-stream. -/
def FabricRun.issuedOf (r : FabricRun) (f : Nat) : Nat := Assoc.getD r.issued f 0

/-- True when chain order lets an element issue its next access (R303). -/
def FabricRun.chainTurn (r : FabricRun) (f : Nat) : Bool :=
  let m := r.issuedOf f
  let chain := chainOf r.graph f
  let before := chain.takeWhile fun x => decide (x ≠ f)
  let after := List.drop (before.length + 1) chain
  before.all (fun x => r.ended.contains (4 * x) || decide (m < r.issuedOf x)) &&
  after.all fun x => r.ended.contains (4 * x) || decide (m ≤ r.issuedOf x)

/-- The bytes that earlier stores of its chain, still held, give a load (R303). -/
def FabricRun.forwarded (r : FabricRun) (l : FabricAccess) : List Host.Cell :=
  (r.stores.filter fun a => decide (r.chainHead a.fe = r.chainHead l.fe ∧ a.num < l.num)).flatMap FabricAccess.cells

/-- How many accesses the load-store queue has accepted. -/
def FabricRun.accepted (r : FabricRun) : Nat := (r.issued.map Prod.snd).foldl (· + ·) 0

/-- R108 for an access of an element: its place, or how it fails. -/
def State.fabricPlace (s : State) (store : Bool) (ea : Word) (w : Nat) : Except AccessFault Place :=
  if ea.toNat % w ≠ 0 then .error { cause := .align, record := none }
  else
    match s.place (if store then .store else .load) ea w with
    | .error e => .error e
    | .ok pl =>
      if (if store then s.badStore s.thr pl w else !pl.remote && s.badData s.thr pl w) then .error { cause := .dataErr, record := none } else .ok pl

/-- How an access that has no place fails, or how it waits for a table entry that a peer holds (R359, R379, R380). -/
def FabricRun.fireFailed (s : State) (r : FabricRun) (a : AccessFault) (ea : Word) (fail : TrapCause → Option (Word × Word) → FabricRun) :
    Fired :=
  match (raiseAccess s a ea : Run Unit) with
  | .ok () => .idle
  | .error (.trap s1 c _ _ rec) => .done s1 (fail c rec)
  | .error (.park s1 _) => if s1.clock = s.clock then .stalled else .met s1 r

/-- `ld` and `st` (R213). The element goes on after an access that has failed, which sends no token (R308). -/
def FabricRun.fireMem (s : State) (r : FabricRun) (f : Nat) : Fired :=
  let e := r.fe f
  let store := decide (e.op = 35)
  match r.heads f e.slots with
  | none => .idle
  | some hs =>
    if !r.room f 1 then .idle
    else
      let ends := hs.filter fun t => t.data.isNone
      let src := joinSrc (hs.map Token.src)
      let p := r.popAll f e.slots
      if ends.length = hs.length then
        if r.loads.any fun l => decide (l.fe = f) then .idle else .done s ({ p with ended := 4 * f :: p.ended }.send f none src)
      else if !ends.isEmpty then FabricRun.meet s r .mismatch
      else if !r.chainTurn f then .idle
      else
        let w := if e.ty = 3 then 8 else 4
        let n (q : Nat) : Nat := ((r.head f q).map Token.num).getD 0
        let ea := wordOfInt (readAs e.ty (n 0))
        let p1 := { p with issued := Assoc.put p.issued f (r.issuedOf f + 1) }
        match s.fabricPlace store ea w with
        | .error a =>
          FabricRun.fireFailed s r a ea fun c rec =>
            { p1 with fails := p1.fails ++ [(⟨c, ea, rec, chainOwn e, f, src, r.accepted⟩ : FabricFail)] }
        | .ok pl =>
          if !inWindow ea.toNat && s.stalled s.thr ea.toNat w then .stalled
          else if store then
            let (s1, r1) := FabricRun.release s r
            if 128 ≤ r1.stores.length then .idle
            else
              let held : FabricAccess := ⟨r.accepted, f, ea, cellsAt (keyOf pl) (bytesOf w (n 1)), src⟩
              let q := { p1 with stores := r1.stores ++ [held], chained := r1.chained }
              .done s1 (q.send f (((r.head f 0).map Token.data).getD none) src)
          else if r.loads.any fun l => decide (l.fe = f) then .idle
          else .done s { p1 with loads := p1.loads ++ [⟨r.accepted, f, ea, [], src⟩] }

/-- The answers of peers but for those to a load of the fabric. -/
def Thread.spendAnswer (t : Thread) (pl : Place) (n : Nat) : Thread :=
  match pl with
  | .device d => { t with peerData := t.peerData.filter fun a => !decide (a.slot = 0 ∧ a.dpa ≤ d ∧ d + n ≤ a.dpa + a.len) }
  | _ => t

/-! ### Firing (R207) -/

/-- Try to fire an element. -/
def FabricRun.fire (s : State) (r : FabricRun) (f : Nat) : Fired :=
  match (r.fe f).op with
  | 0 => .idle
  | 3 => FabricRun.fireIn s r f
  | 4 => FabricRun.fireOut s r f
  | 24 | 25 => FabricRun.fireAcc s r f
  | 26 => FabricRun.fireCount s r f
  | 27 | 31 => FabricRun.fireFilter s r f
  | 28 | 29 => FabricRun.fireMerge s r f
  | 30 => FabricRun.fireDup s r f
  | 32 => FabricRun.fireSink s r f
  | 33 => FabricRun.fireAgen s r f
  | 34 | 35 => FabricRun.fireMem s r f
  | 36 => FabricRun.fireEos s r f
  | _ => FabricRun.fireFixed s r f

/-- No element can fire now; accesses may still be under way or wait on a watermark. -/
def FabricRun.still (s : State) (r : FabricRun) : Bool :=
  (List.range 64).all fun f => match FabricRun.fire s r f with | .done _ _ | .met _ _ => false | .idle | .stalled => true

/-- True of a load that a held store of its chain comes before, which can settle without it (R206, R303). -/
def FabricRun.heldUp (s : State) (r : FabricRun) (l : FabricAccess) : Bool :=
  r.stores.any fun a => r.inOrder a l && a.settled (FabricRun.restartOf s r (r.closure 6 l.src))

/-- True of a load that waits for an access of its chain before it: a load, or a held store, as long as something else of the
fabric can go on without it. -/
def FabricRun.waitsTurn (s : State) (r : FabricRun) (l : FabricAccess) : Bool :=
  let first (x : FabricAccess) : Bool := r.loads.any fun a => r.inOrder a x
  first l || (FabricRun.heldUp s r l && !((r.loads.all fun x => first x || FabricRun.heldUp s r x) && FabricRun.still s r))

/-- A load returns its value (R213): the bytes of its chain's held stores over memory as the thread sees it. It comes after the
accesses of its chain before it (R206, R303), but for a held store that cannot settle before it: of the elements that it
derives from itself, or of a fabric in which nothing else can go on, since a load is never held (R307; DEDUCED, log 43). -/
def FabricRun.returnLoad (s : State) (r : FabricRun) (f : Nat) : State × FabricRun :=
  match r.loads.find? fun l => decide (l.fe = f) with
  | none => (s, r)
  | some l =>
    if FabricRun.waitsTurn s r l then (s, r)
    else
    let e := r.fe f
    let w := if e.ty = 3 then 8 else 4
    let rest := { r with loads := r.loads.filter fun x => decide (x.fe ≠ f) }
    let run : Run (List Byte × State) := do
      let s1 ← s.drainWhere fun p => (r.chainedOf f).contains p.seq
      s1.readClass (r.clsOf f) l.addr w
    match run with
    | .ok (got, s1) =>
      let pl := (s.place .load l.addr w).toOption.getD (.device 0)
      let bytes := (cellsAt (keyOf pl) got).map fun c =>
        ((r.forwarded l).reverse.find? fun d => decide (d.1 = c.1)).elim c.2 Prod.snd
      (s1.mapThr fun t => t.spendAnswer pl w,
        rest.send f (some (writeAs e.ty (readAs e.ty (natOfBytes bytes)))) l.src)
    | .error (.trap s1 c _ _ rec) =>
      (s1.mapThr fun t => match s.place .load l.addr w with | .ok pl => t.spendAnswer pl w | .error _ => t,
        { rest with fails := rest.fails ++ [(⟨c, l.addr, rec, chainOwn e, f, l.src, l.num⟩ : FabricFail)] })
    | .error (.park s1 _) => (s1, r)

/-- No element can fire, no access waits on a watermark, and no load is under way (R302). -/
def FabricRun.quiescent (s : State) (r : FabricRun) : Bool :=
  r.loads.isEmpty && (List.range 64).all fun f => match FabricRun.fire s r f with | .idle => true | _ => false

/-- The end-of-round has reached every element, and no token, load or stop event is left (R302, R387). -/
def FabricRun.drained (r : FabricRun) : Bool :=
  r.round && decide (r.reached.length = 64) && r.bufs.all (fun b => b.2.isEmpty) && r.loads.isEmpty && !r.stopping

/-- The end-of-round reaches an element and resets its running value, the progress of an `agen` included (R294, R300). -/
def FabricRun.arriveRound (r : FabricRun) (f : Nat) : FabricRun :=
  if r.round && decide (f < 64) && !r.reached.contains f then
    let v := (r.fe f).initVal
    { (if (recordedFes r.graph).contains f then r.setVal f (r.streamEnd 0 ++ r.streamEnd 1) v
       else if (fesOf r.graph 33).contains f then { r with vals := Assoc.put r.vals f v } else r) with
      reached := f :: r.reached }
  else r

/-! ### Ends (R202, R203, R302, R308) -/

/-- The fabric is free, and a plane whose binding has changed is emptied (R205, R298). -/
def State.freeFabric (s : State) (r : FabricRun) : State :=
  let c := s.core s.thr.core
  (s.setCore s.thr.core { c with run := none }).trimPlanes r.thread.part r.thread.proc r.slot

/-- Output elements written to vd from the first on; above `n` outputs the register keeps its value or, with `tail`, follows
TZ (R201, R202). -/
def Thread.writeOut (t : Thread) (r : FabricRun) (outs : List Nat) (tail : Bool) : Thread :=
  t.putElems r.vd t.sew (fun i =>
    if i < r.outBase then t.elem r.vd i t.sew
    else if i < r.outBase + outs.length then outs[i - r.outBase]?.getD 0
    else if tail && vtTz t.vtype then 0 else t.elem r.vd i t.sew) t.grp

/-- The `fop` completes as a vector instruction. -/
def Thread.finishFop (t : Thread) : Thread :=
  { (t.retire true (t.pc + 4)) with vq := t.vq ++ [(t.pc, 0)], life := .ready }

/-- A run whose every access has been issued, and which only waits until they are performed: all that it has done has settled. -/
def FabricRun.close (r : FabricRun) : FabricRun :=
  { r with closing := true, outs := r.outs.map fun o => (o.1, []), hist := [], dropped := [] }

/-- FOP_COMPLETE (R302): every access is performed; VL takes the output index and the record is cleared (R202). After a
resumption under a smaller VLMAX the output index can lie above it, and VL then takes VLMAX (R52, R202; DESIGN CHOICE, log 70). -/
def State.completeFop (s : State) (r : FabricRun) : State :=
  let (s1, r1) := s.issueHeldStores { r with stores := [] } r.stores
  match s1.drainWhere fun p => decide (r.firstSeq < p.seq) with
  | .ok s2 =>
    let f (t : Thread) : Thread :=
      let u := (t.writeOut r (r.outs.map Prod.fst) true).dropRecord
      { u with vl := min (r.outBase + r.outs.length) t.vlmax, fcsr := fcsrRaise u.fcsr r.flags }.finishFop
    (s2.freeFabric r).mapThr f
  | .error (.park s2 _) => s2.setCore s2.thr.core { s2.core s2.thr.core with run := some r1.close }
  | .error (.trap s2 _ _ _ _) => s2

/-- The failing access with the lowest own sequence number. -/
def lowestFail : List FabricFail → Option FabricFail
  | [] => none
  | f :: l => match lowestFail l with | none => some f | some g => if f.seq ≤ g.seq then some f else some g

/-- FFCAUSE[7:0] of a failing access (R203). -/
def failCode : TrapCause → Nat
  | .xlate => 1 | .protect => 2 | .align => 3 | .bounds => 4 | _ => 5

/-- Step 4 of R308: the cause, and the failing access that decides it. Where both RANGE and MISMATCH stand, RANGE decides
(DESIGN CHOICE, log 71). A failing access derives from what its own tokens derive from, and not from what the runs of their `agen`
steps derive from (DESIGN CHOICE, log 99). Quiescence without a stop event is STRAY. -/
def FabricRun.stopCause (r : FabricRun) (p : Restart) : Nat × Option FabricFail :=
  let heads : List Source := [.elem 0 p.e0, .elem 1 p.e1] ++ p.bounds.map fun b => .step b.1 b.2
  match lowestFail (r.fails.filter fun f => f.src.any heads.contains) with
  | some f => (failCode f.cause, some f)
  | none =>
    if r.events.contains .range then (11, none)
    else if r.events.contains .mismatch then (9, none)
    else if r.events.contains .overflow then (6, none)
    else if r.events.contains .preempt then (7, none)
    else
      match lowestFail r.fails with
      | some f => (failCode f.cause, some f)
      | none => (8, none)

/-- The record that a stop leaves (R304, R305). -/
def Thread.recordStop (t : Thread) (r : FabricRun) (p : Restart) (code : Nat) (addr : Word) (outs : Nat) : Thread :=
  let ag := fesOf r.graph 33
  let ctr (j : Nat) : Word := match ag[j]? with | some f => BitVec.ofNat 64 (r.counter p f) | none => 0
  { t with
    ffcause := ffcauseOf r.slot code
    ffaddr := addr
    ffidx := Vector.ofFn fun i : Fin 8 =>
      if i.val = 0 then BitVec.ofNat 64 (r.len0 * 2 ^ 32 + p.e0)
      else if i.val = 1 then BitVec.ofNat 64 (r.len1 * 2 ^ 32 + p.e1)
      else if i.val = 2 then BitVec.ofNat 64 outs
      else ctr (i.val - 3)
    ffhidden := some ⟨r.gen, (recordedFes r.graph).map fun f => (f, r.valAt p f), r.closing⟩ }

/-- FOP_STOP (R308): the restart point is taken, what lies above it is discarded, the record is written, and the `fop` traps,
completes (OVERFLOW) or waits to execute again (PREEMPT). Settled outputs stay, in their order, whatever lies between them
(R203, R306; DEDUCED, log 72). -/
def State.stopFop (s : State) (r : FabricRun) : State :=
  let p := FabricRun.restart s r
  let outs := (r.outs.filter fun o => o.2.all p.below).map Prod.fst
  let (code, fail) := r.stopCause p
  let index := r.outBase + outs.length
  let addr : Word := match fail with | some f => f.addr | none => 0
  let s1 := (s.issueHeldStores r (r.going p).1).1.freeFabric r
  let f (t : Thread) : Thread :=
    let u := (t.writeOut r outs false).recordStop r p code addr (if code = 6 then 0 else index)
    { u with fcsr := fcsrRaise u.fcsr r.flags, life := .ready, peerData := t.otherAnswers, started := false }
  let s2 := s1.mapThr f
  if code = 6 then s2.mapThr fun t => { t with vl := min index t.vlmax }.finishFop
  else if code = 7 then s2
  else
    match fail with
    | some x => s2.takeTrap x.cause x.addr (BitVec.ofNat 64 p.e0) x.record true
    | none => s2.takeTrap .fabricErr s2.thr.ffcause (BitVec.ofNat 64 p.e0) none true

end Sys2Proof.Machine
end

