-- ==== Sys2Proof/Machine/EngineIO.lean ====
section
/-! DEFINITION. How engines and dispatchers reach memory (R249, R266, R332, R356, R379, R380, R420): reads and writes of
bytes as a process, with the checks of R108 and requests to peers. -/
namespace Sys2Proof.Machine

/-! ### Engines -/

/-- The actor of a tether: its process in user mode (R356), with the window of its issuer while that lives (R249). A COLL reaches
the window as the other kinds do (DESIGN CHOICE, log 93). -/
def State.engineActor (s : State) (t : Tether) : Actor :=
  { home := .core t.core, part := t.part, proc := t.proc, supervisor := false,
    lstore := ((s.thread? t.issuer).map fun u => u.hdr.lstore).getD 0, bulk := decide (t.kind = .copy ∨ t.kind = .coll), known := t.peerData }

/-- Why a unit of work does not go on: a fault with its address, or an answer of a peer that has not come. -/
inductive EngineStop where
  | fault (c : TCause) (addr : Word)
  | wait (s : State)

/-- Where an engine's access goes; an uncorrectable error is DATA_ERR (R390). -/
def State.enginePlace (s : State) (t : Tether) (store : Bool) (ea : Word) (n : Nat) : Except AccessFault Place :=
  match Machine.place s.mem s (s.engineActor t) (if store then .store else .load) ea n with
  | .error f => .error f
  | .ok pl =>
    let who : Thread := ((s.thread? t.issuer).getD Thread.fresh)
    let own : Thread := { who with sq := [] }
    if (if store then s.badStore own pl n else !pl.remote && s.badData own pl n) then .error { cause := .dataErr, record := none }
    else .ok pl

/-- Ask a peer for bytes on behalf of a unit of work, once (DEDUCED, log 45). -/
def State.engineAsk (s : State) (t : Tether) (unit : Nat) (pl : Place) (n : Nat) (a : Word) : State :=
  match pl with
  | .device d =>
    if s.requests.any (fun r => decide (r.who = .tether (tetherToken t) unit ∧ r.dpa = d ∧ r.write = false)) then s
    else s.sendPeer (.tether (tetherToken t) unit) (some t.core) t.part d n false [] a
  | _ => s

/-- The places of `[ea, ea + n)`, or the fault at the lowest failing byte; a walk that needs a table entry of a peer asks for it
(R379). -/
def State.engineSpan (s : State) (t : Tether) (unit : Nat) (store : Bool) (ea : Word) (n : Nat) :
    Except EngineStop (List (Place × Nat × Word)) :=
  match placePieces (s.enginePlace t store) (pieces (n + 1) ea n) with
  | .error (f, a) =>
    (match f.ask with
    | none => .error (.fault (tetherCause f.cause) a)
    | some d => .error (.wait (s.engineAsk t unit (.device d) 8 a)))
  | .ok l => .ok l

/-- The bytes at a place for an engine, none while a peer has not answered. -/
def State.engineBytes (s : State) (t : Tether) (pl : Place) (n : Nat) : Option (List Byte) :=
  match pl with
  | .device d =>
    if pl.remote then
      (List.range n).foldr (fun i acc =>
        match Assoc.get? t.peerData (d + i), acc with | some b, some l => some (b :: l) | _, _ => none) (some [])
    else some (s.mem.bytes d n)
  | .localStore o => some (match s.thread? t.issuer with | some u => u.localStore.bytes o n | none => List.replicate n 0)
  | .csa _ => some (List.replicate n 0)

/-- Read `n` bytes for a unit of work. -/
def State.engineReadPieces (s : State) (t : Tether) (unit : Nat) : List (Place × Nat × Word) → Except EngineStop (List Byte)
  | [] => .ok []
  | (pl, k, a) :: r =>
    match s.engineBytes t pl k, State.engineReadPieces s t unit r with
    | some bs, .ok rest => .ok (bs ++ rest)
    | some _, .error e => .error e
    | none, .error (.wait s1) => .error (.wait (s1.engineAsk t unit pl k a))
    | none, .error (.fault c a) => .error (.fault c a)
    | none, .ok _ => .error (.wait (s.engineAsk t unit pl k a))

def State.engineRead (s : State) (t : Tether) (unit : Nat) (ea : Word) (n : Nat) : Except EngineStop (List Byte) :=
  match s.engineSpan t unit false ea n with
  | .error e => .error e
  | .ok l => s.engineReadPieces t unit l

/-- Write pieces: at home for this device's memory, into the issuer's window, and as a request to a peer. -/
def State.engineWritePieces (s : State) (t : Tether) (unit : Nat) : List (Place × Nat × Word) → List Byte → State
  | [], _ => s
  | (pl, k, a) :: r, bs =>
    let now := bs.take k
    let s1 := match pl with
      | .device d =>
        if pl.remote then s.sendPeer (.tether (tetherToken t) unit) (some t.core) t.part d k true now a else s.perform (cellsAt d now)
      | .localStore o =>
        { (s.mapThread t.issuer fun u => { u with localStore := u.localStore.put o now }) with
          badReg := clearLocal s.badReg t.issuer (cellsAt o now) }
      | .csa _ => s
    State.engineWritePieces s1 t unit r (List.drop k bs)

/-- Write bytes for a unit of work, or the fault at the lowest failing byte; nothing is written then. -/
def State.engineWrite (s : State) (t : Tether) (unit : Nat) (ea : Word) (bs : List Byte) : Except EngineStop State :=
  match s.engineSpan t unit true ea bs.length with
  | .error e => .error e
  | .ok l => .ok (s.engineWritePieces t unit l bs)

/-- True while a peer has not acknowledged a write of a unit of work (R380). -/
def State.unitOpen (s : State) (tok : Word) (unit : Nat) : Bool :=
  s.requests.any fun r => decide (r.who = .tether tok unit) && r.write

/-- What a peer answered is used up, and requests of a tether that ends are forgotten. -/
def State.dropAnswers (s : State) (tok : Word) : State := s.mapTether tok fun t => { t with peerData := [] }

/-- True of a thread that leaves its core as soon as its tethers there stand at boundaries (R232, R280): it has been asked to, no
handler of it has claimed, and no `fop` of it runs. -/
def Thread.leaving (t : Thread) : Bool := t.resident && t.wish.isSome && !(t.supervisor && t.claimed) && !t.onFop

/-- True of a tether of a core's engine whose owner leaves that core; a COLL has its engine elsewhere (DEDUCED, log 96). -/
def Tether.leftBy (t : Tether) (u : Thread) : Bool :=
  decide (t.owner = some u.key ∧ t.core = u.core ∧ t.state = .running ∧ t.kind ≠ .kernel ∧ t.kind ≠ .coll)

/-- True when a tether may begin new units: its partition runs, its owner is not about to leave its core, and no cancel or fence
waits for its boundary (R232, R274, R280). -/
def State.mayBegin (s : State) (t : Tether) : Bool :=
  (s.part t.part).run && !t.cancelling && !t.fenced && !s.threads.any fun u => u.leaving && t.leftBy u

/-- True when an engine may work on a tether: RUNNING, not suspended, and free to begin units, or with a unit to bring to its end
(R274, R275, R277, R280). -/
def State.engineMay (s : State) (t : Tether) : Bool :=
  decide (t.state = .running) && !t.suspended && (s.mayBegin t || !(t.rowEnded || s.atBoundary t))

/-- At a boundary of a halted partition a tether suspends (R280). -/
def State.settleHalt (s : State) (tok : Word) : State :=
  match s.tetherAny? tok with
  | none => s
  | some t =>
    if t.state = .running ∧ t.kind ≠ .kernel ∧ s.atBoundary t = true ∧ (s.part t.part).run = false then
      s.mapTether tok fun t => { t with suspended := true, rowEnded := false }
    else s

/-- What follows a unit of work: a cancel, a fence or a halt that waited for the boundary. -/
def State.afterUnit (s : State) (tok : Word) : State := (s.settleBoundary tok).settleHalt tok

/-! ### Dispatchers -/

/-- The readers of a dispatcher: a launch's count, a spawn of its threads, a handler's headers and spawn, and a partition's
LISSUE. -/
def spawnReader (token : Word) : Word := token + BitVec.ofNat 64 (2 ^ 60)
def handlerReader (h : HandlerEntry) : Word := BitVec.ofNat 64 (2 ^ 61 + h.part * 2 ^ 20 + h.proc * 2 ^ 12 + h.queue)
def issueReader (part : Nat) : Word := BitVec.ofNat 64 (2 ^ 62 + part)

/-- The bytes that peers have answered to a dispatcher's reader. -/
def State.dispatchKnown (s : State) (reader : Word) : List Host.Cell :=
  (s.dispatched.filter fun a => decide (a.reader = reader)).flatMap fun a => cellsAt a.dpa (a.data.getD [])

/-- The dispatcher of a die acts as a process in user mode, through the TLB of its die; no window is its own. -/
def State.dispatcherActor (s : State) (reader : Word) (die part pr : Nat) : Actor :=
  { home := .die die, part := part, proc := pr, supervisor := false, lstore := 0, bulk := false, known := s.dispatchKnown reader }

/-- How a dispatcher's access stops short: a failed check with its address, or a wait for a peer that has been asked (R380). -/
inductive DispatchStop where
  | fault (cause : TrapCause) (addr : Word)
  | wait (s : State)

/-- Ask a peer for `n` bytes on behalf of a reader, once; what it rejects is DATA_ERR (R276, R380). -/
def State.dispatchAsk (s : State) (reader : Word) (part dpa n : Nat) (a : Word) : DispatchStop :=
  if s.dispatched.any fun x => decide (x.reader = reader ∧ x.dpa = dpa) && x.data.isNone then .fault .dataErr a
  else if s.requests.any fun r => decide (r.who = .dispatcher reader ∧ r.dpa = dpa) then .wait s
  else .wait (s.sendPeer (.dispatcher reader) none part dpa n false [] a)

/-- Bytes at places for a dispatcher; what a peer holds is asked for, piece by piece. -/
def State.dispatchPieces (s : State) (reader : Word) (part : Nat) : List (Place × Nat × Word) → Except DispatchStop (List Byte)
  | [] => .ok []
  | (pl, k, a) :: r =>
    let here : Except DispatchStop (List Byte) := match pl with
      | .device d =>
        if pl.remote then
          let l := (List.range k).filterMap fun i => ((s.dispatchKnown reader).find? fun c => decide (c.1 = d + i)).map Prod.snd
          if l.length = k then .ok l else .error (s.dispatchAsk reader part d k a)
        else .ok (s.mem.bytes d k)
      | _ => .ok (List.replicate k 0)
    match here with
    | .error e => .error e
    | .ok bs => (State.dispatchPieces s reader part r).map (bs ++ ·)

/-- Where a dispatcher's access goes. -/
def State.dispatchPlace (s : State) (reader : Word) (die part pr : Nat) (acc : Access) (ea : Word) (n : Nat) : Except AccessFault Place :=
  match Machine.place s.mem s (s.dispatcherActor reader die part pr) acc ea n with
  | .error f => .error f
  | .ok pl =>
    let none_ : Thread := Thread.fresh
    if (if acc = .store then s.badStore none_ pl n else !pl.remote && s.badData none_ pl n) then
      .error { cause := .dataErr, record := none }
    else .ok pl

/-- The places of a dispatcher's access, with the cause and the lowest failing address of a failed check of R108. -/
def State.dispatchSpan (s : State) (reader : Word) (die part pr : Nat) (acc : Access) (ea : Word) (n : Nat) :
    Except DispatchStop (List (Place × Nat × Word)) :=
  match placePieces (s.dispatchPlace reader die part pr acc) (pieces (n + 1) ea n) with
  | .error (f, a) => .error (match f.ask with | none => .fault f.cause a | some d => s.dispatchAsk reader part d 8 a)
  | .ok l => .ok l

/-- Read `n` bytes as a process on behalf of a reader. -/
def State.dispatchRead (s : State) (reader : Word) (die part pr : Nat) (acc : Access) (ea : Word) (n : Nat) :
    Except DispatchStop (List Byte) :=
  match s.dispatchSpan reader die part pr acc ea n with
  | .error e => .error e
  | .ok l => s.dispatchPieces reader part l

/-- What peers have answered to a reader is used up, once its step is done (DEDUCED, log 12). -/
def State.dropDispatched (s : State) (reader : Word) : State :=
  { s with dispatched := s.dispatched.filter fun a => decide (a.reader ≠ reader) }

/-- True while a reader waits for a peer. -/
def State.dispatchWaits (s : State) (reader : Word) : Bool := s.requests.any fun r => decide (r.who = .dispatcher reader)

/-- Write bytes as a process (R420); a request to a peer is reported when it fails (R380). -/
def State.dispatchWritePieces (s : State) (k : ThreadKey) : List (Place × Nat × Word) → List Byte → State
  | [], _ => s
  | (pl, n, a) :: r, bs =>
    let now := bs.take n
    let s1 := match pl with
      | .device d => if pl.remote then s.sendPeer (.store k 0) none k.part d n true now a else s.perform (cellsAt d now)
      | _ => s
    State.dispatchWritePieces s1 k r (List.drop n bs)

def State.dispatchWrite (s : State) (reader : Word) (die : Nat) (k : ThreadKey) (ea : Word) (bs : List Byte) : Except DispatchStop State :=
  match s.dispatchSpan reader die k.part k.proc .store ea bs.length with
  | .error e => .error e
  | .ok l => .ok (s.dispatchWritePieces k l bs)

end Sys2Proof.Machine
end

