-- ==== Sys2Proof/Machine/Repair.lean ====
section
/-! DEFINITION. Miscompares, retirements and fences (R392 to R401). -/
namespace Sys2Proof.Machine

/-- A counter of `w` bits that saturates (R405). -/
def satAdd (w n k : Nat) : Nat := min (2 ^ w - 1) (n + k)

/-- The lifetime record with an error of a class counted on a die (R389, R390, R405). -/
def Lifetime.countCorrected (l : Lifetime) (die cls : Nat) : Lifetime :=
  { l with corrected := Assoc.put l.corrected (die, cls) (satAdd 64 (Assoc.getD l.corrected (die, cls) 0) 1) }
def Lifetime.countUncorrected (l : Lifetime) (die cls : Nat) : Lifetime :=
  { l with uncorrected := Assoc.put l.uncorrected (die, cls) (satAdd 64 (Assoc.getD l.uncorrected (die, cls) 0) 1) }

/-- A corrected error also counts as a source of the die's counters (R404). -/
def State.countCorrected (s : State) (die cls : Nat) : State :=
  { s with lifetime := s.lifetime.countCorrected die cls }.devCount die 13 1
def State.countUncorrected (s : State) (die cls : Nat) : State := { s with lifetime := s.lifetime.countUncorrected die cls }

/-- The CORESTATE value of a core (R400). -/
def Core.stateWord (c : Core) : Word := BitVec.ofNat 64 (c.cret.toNat * 2 ^ 41 + c.lret.toNat * 2 ^ 25 + c.cap.toNat)

/-- Usable column nodes of a core (R285, R393). -/
def Core.mcols (c : Core) : Nat := 128 - 16 * popCount 8 c.cret.toNat

/-- The physical number of a usable node: usable nodes are numbered in increasing physical number (DESIGN CHOICE, log 13). -/
def Core.physical (c : Core) (n : Nat) : Nat :=
  ((List.range 128).filter fun p => !c.cret.getLsbD (p / 16))[n]?.getD 0

/-! ### The repair log (R401) -/

/-- An entry of the repair log; dropped and counted while the log is full. -/
def State.logRepair (s : State) (event index : Nat) (c : CoreId) (ver : Word) : State :=
  if s.repairs.length < 256 then
    { s with repairs := s.repairs ++ [(⟨BitVec.ofNat 64 (event + c.die * 2 ^ 8 + c.site * 2 ^ 10 + index * 2 ^ 16), ver⟩ : RepairEntry)] }
  else { s with dropped := satAdd 16 s.dropped 1 }

/-- A repair of a core takes effect: DFVER advances (R399), the lifetime record and flash hold it (R405), and it is logged. -/
def State.repair (s : State) (c : CoreId) (event index : Nat) (f : Core → Core) (g : Lifetime → Lifetime) : State :=
  let ver := s.dfver + 1
  let k := { f (s.core c) with changed := ver }
  let note (l : Lifetime) : Lifetime := { (g l) with dfver := ver, cores := Assoc.put l.cores c k.stateWord }
  ({ (s.setCore c k) with dfver := ver, lifetime := note s.lifetime, flash := note s.flash }).logRepair event index c ver

/-! ### Lane groups (R393) -/

def State.retireLane (s : State) (c : CoreId) (n : Nat) : State :=
  if (s.core c).lret.getLsbD n || decide (16 ≤ n) then s
  else s.repair c 1 n (fun k => { k with lret := k.lret ||| BitVec.ofNat 16 (2 ^ n) })
    fun l => { l with laneGroups := satAdd 32 l.laneGroups 1 }

/-! ### Fences (R395, R398) -/

/-- The capabilities that an engine requires for a tether (R71). -/
def tetherCaps (t : Tether) : List Nat :=
  match t.kind with
  | .kernel => []
  | .mma => (mmaCheck t.ops t.layout).caps
  | .bload => (bloadCheck t.ops t.layout).caps
  | .copy => [17]
  | .coll => [18]

/-- A QUEUED tether that a fence concerns ends at once; a RUNNING one is marked (R398). -/
def State.fenceTether (s : State) (t : Tether) : State :=
  let tok := tetherToken t
  match t.state with
  | .queued => ((s.mapTether tok fun u => { u with addr := 0, node := 0 }).finishOne tok .faulted .dataErr).reap tok
  | .running => s.mapTether tok fun u => { u with fenced := true }
  | _ => s

/-- Every tether that a fence concerns: the QUEUED ones have ended before anything follows from one's end, and RUNNING ones end at
their next boundary (R193, R398). -/
def State.fenceTethers (s : State) (l : List Tether) : State :=
  let s1 := l.foldl State.fenceTether s
  let s2 := l.foldl (fun s t => s.settleBoundary (tetherToken t)) s1
  s2.settlePreds s2.tethers.length

/-- One bit of a core's mask is cleared (R395, R398), and fenced threads that have lost their last core are named (R397). -/
def State.fence (s : State) (c : CoreId) (b : Nat) : State :=
  if (s.core c).cap.getLsbD b then
    let s1 := s.repair c 3 b (fun k => { k with cap := k.cap &&& ~~~ (BitVec.ofNat 25 (2 ^ b)) })
      fun l => { l with fences := satAdd 32 l.fences 1 }
    (s1.fenceTethers (s1.tethers.filter fun t => decide (t.core = c) && (tetherCaps t).contains b)).tellUnplaceable s1.threads
  else s

/-! ### Column groups (R287, R394) -/

/-- A column group's retirement begins: the core starts no further MMA or BLOAD. -/
def State.beginColumn (s : State) (c : CoreId) (g : Nat) : State :=
  let k := s.core c
  if k.cret.getLsbD g || k.retiring.contains g || decide (8 ≤ g) then s
  else s.setCore c { k with retiring := k.retiring ++ [g] }

/-- True when an MMA or a BLOAD runs on a core. -/
def State.arrayBusy (s : State) (c : CoreId) : Bool :=
  s.tethers.any fun t => decide (t.core = c ∧ t.state = .running ∧ (t.kind = .mma ∨ t.kind = .bload))

/-- Every resident thread of a core is asked to leave it (R364). -/
def State.askLeave (s : State) (f : Thread → Bool) : State :=
  s.mapThreads fun t => if t.resident && f t && t.wish.isNone then { t with wish := some false } else t

/-- COLUMN_GROUP_RETIREMENT (R394): once no MMA or BLOAD runs, the resident threads leave; once none is resident, the group
is retired and every block of the core is empty. -/
def execColumnGroupRetirement (core : CoreId) (s : State) : Host.Outcome State Fault Refusal :=
  .next (match (s.core core).retiring with
    | [] => s
    | g :: rest =>
      if s.arrayBusy core then s
      else if s.threads.any (fun t => t.resident && decide (t.core = core)) then s.askLeave fun t => decide (t.core = core)
      else s.repair core 2 g
        (fun k => { k with cret := k.cret ||| BitVec.ofNat 8 (2 ^ g), blocks := [], retiring := rest })
        fun l => { l with columnGroups := satAdd 32 l.columnGroups 1 })

/-! ### Confirmed miscompares (R392) -/

/-- True of a unit of the same lane group or column group. -/
def sameUnit : CheckUnit → CheckUnit → Bool
  | .laneGroup a, .laneGroup b => decide (a = b)
  | .columnNode a, .columnNode b => decide (a / 16 = b / 16)
  | .shared a, .shared b => decide (a = b)
  | _, _ => false

/-- A confirmed miscompare: the first of a lane group or a column group is logged, the second retires it; a shared unit's
capability is fenced. -/
def State.miscompare (s : State) (c : CoreId) (u : CheckUnit) : State :=
  let k := s.core c
  let again := k.confirmed.any (sameUnit u)
  let s1 := if again then s else s.setCore c { k with confirmed := u :: k.confirmed }
  match u with
  | .laneGroup n => if again then s1.retireLane c n else s1.logRepair 4 n c 0
  | .columnNode n => if again then s1.beginColumn c (n / 16) else s1.logRepair 5 (n / 16) c 0
  | .shared b => s.fence c b

/-- A unit that a core has and that its lane checkers test. -/
def Core.tests (c : Core) : CheckUnit → Bool
  | .laneGroup n => decide (n < 16) && !c.lret.getLsbD n
  | .columnNode n => decide (n < 128) && !c.cret.getLsbD (n / 16)
  | .shared b => decide (b < 25) && c.cap.getLsbD b

/-- A test of a unit of a core: `first` and `again` say whether it and its repeat miscompare (R392). -/
def State.laneTest (s : State) (core : CoreId) (unit : CheckUnit) (first again : Bool) : State :=
  let k := s.core core
  if k.enabled && k.tests unit && first then
    (if again then s.miscompare core unit else s.countCorrected core.die 13) else s

/-- LANE_CHECK_TEST (R392). -/
def execLaneCheckTest (core : CoreId) (unit : CheckUnit) (first again : Bool) (s : State) : Host.Outcome State Fault Refusal :=
  .next (s.laneTest core unit first again)

/-! ### CORESTATE (R400) -/

/-- Bits of a written value that lie below `n`. -/
def bitsOf (n v : Nat) : List Nat := (List.range n).filter fun i => v.testBit i

def State.forBits (f : State → Nat → State) (s : State) : List Nat → State
  | [] => s
  | b :: bs => State.forBits f (f s b) bs

/-- CORESTATE_CRET (R400). -/
def execCorestateCret (core : CoreId) (bits : BitVec 8) (s : State) : Host.Outcome State Fault Refusal :=
  .next (if (s.core core).enabled then State.forBits (fun s g => s.beginColumn core g) s (bitsOf 8 bits.toNat) else s)

/-- CORESTATE_LRET (R400). -/
def execCorestateLret (core : CoreId) (bits : BitVec 16) (s : State) : Host.Outcome State Fault Refusal :=
  .next (if (s.core core).enabled then State.forBits (fun s n => s.retireLane core n) s (bitsOf 16 bits.toNat) else s)

/-- CORESTATE_CAP (R400): each fence is a separate event (R395). -/
def execCorestateCap (core : CoreId) (bits : BitVec 25) (s : State) : Host.Outcome State Fault Refusal :=
  .next (if (s.core core).enabled then State.forBits (fun s b => s.fence core b) s (bitsOf 25 bits.toNat) else s)

/-- RPOP (R401). -/
def execRpop (s : State) : Host.Outcome State Fault Refusal := .next { s with repairs := s.repairs.drop 1 }

/-- RCOUNT_READ (R401): DROPPED is cleared when read. -/
def execRcountRead (s : State) : Host.Outcome State Fault Refusal :=
  .next { s with cpuRead := BitVec.ofNat 64 (s.repairs.length + s.dropped * 2 ^ 16), dropped := 0 }

end Sys2Proof.Machine
end

