-- ==== Sys2Proof/Machine/Residue.lean ====
section
/-! DEFINITION. Residue words (R33 to R36, R142, R143), slices (R38, R39, R144) and mixed-width arithmetic (R145, R146). -/
namespace Sys2Proof.Machine

/-! ### Residue words (R33 to R36) -/

/-- The four residues of a word: modulo 256, 255, 257 and 127. -/
structure Rnw where
  c256 : Nat
  c255 : Nat
  c257 : Nat
  c127 : Nat
  deriving DecidableEq, Repr

/-- The fields of a word, each reduced modulo its own modulus (R35). -/
def Rnw.ofWord (w : Nat) : Rnw := ⟨bitsAt w 0 8, bitsAt w 8 8 % 255, bitsAt w 16 9 % 257, bitsAt w 25 7 % 127⟩

/-- The word of residues (R33). -/
def Rnw.word (r : Rnw) : Nat := r.c256 + 2 ^ 8 * r.c255 + 2 ^ 16 * r.c257 + 2 ^ 25 * r.c127

/-- The residues of an integer (R33, R34). -/
def Rnw.ofInt (x : Int) : Rnw := ⟨(x % 256).toNat, (x % 255).toNat, (x % 257).toNat, (x % 127).toNat⟩

/-- Channel by channel (R35). -/
def Rnw.map2 (f : Int → Int → Int) (a b : Rnw) : Rnw :=
  ⟨(f a.c256 b.c256 % 256).toNat, (f a.c255 b.c255 % 255).toNat, (f a.c257 b.c257 % 257).toNat,
   (f a.c127 b.c127 % 127).toNat⟩

/-- `CRT` of the first three channels (R36). -/
def Rnw.crt (r : Rnw) : Int :=
  let y := (r.c255 * 8421376 + r.c256 * 16711425 + r.c257 * 8421120) % 16776960
  if y ≤ 8388479 then (y : Int) else (y : Int) - 16776960

/-- Consistency with the check channel (R35). -/
def Rnw.consistent (r : Rnw) : Bool := decide (r.crt % 127 = (r.c127 : Int))

/-- An instruction on residue words a, b and d (R142). -/
def rnwOp (w : BitVec 32) (acc : Bool) (d a b p : Reg) (f : Rnw → Rnw → Rnw → Rnw) (s : State) :
    Host.Outcome State Fault Refusal :=
  let t := s.thr
  elemOp { word := w, legal := decide (t.sew = 32), caps := [9], dst := [t.own d],
           src := [t.own a, t.own b] ++ (if acc then [t.own d] else []), psrc := [p] } d p
    (fun t i => ((f (Rnw.ofWord (t.elem a.toNat i 32)) (Rnw.ofWord (t.elem b.toNat i 32))
                    (Rnw.ofWord (t.elem d.toNat i 32))).word, 0)) s

/-- VRENC (R142). -/
def execVrenc (d a p : Reg) (s : State) : Host.Outcome State Fault Refusal :=
  let t := s.thr
  elemOp { word := (wordVrenc d a p), legal := decide (t.sew = 32), caps := [9], dst := [t.own d], src := [t.second a], psrc := [p] } d p
    (fun t i => ((Rnw.ofInt (sext t.sew2 (t.elem a.toNat i t.sew2))).word, 0)) s

/-- VRADD (R142). -/
def execVradd (d a b p : Reg) (s : State) : Host.Outcome State Fault Refusal :=
  rnwOp (wordVradd d a b p) false d a b p (fun x y _ => Rnw.map2 (· + ·) x y) s

/-- VRSUB (R142). -/
def execVrsub (d a b p : Reg) (s : State) : Host.Outcome State Fault Refusal :=
  rnwOp (wordVrsub d a b p) false d a b p (fun x y _ => Rnw.map2 (· - ·) x y) s

/-- VRMUL (R142). -/
def execVrmul (d a b p : Reg) (s : State) : Host.Outcome State Fault Refusal :=
  rnwOp (wordVrmul d a b p) false d a b p (fun x y _ => Rnw.map2 (· * ·) x y) s

/-- VRMACC (R142). -/
def execVrmacc (d a b p : Reg) (s : State) : Host.Outcome State Fault Refusal :=
  rnwOp (wordVrmacc d a b p) true d a b p (fun x y z => Rnw.map2 (· + ·) z (Rnw.map2 (· * ·) x y)) s

/-- VRDEC (R143). -/
def execVrdec (d a p : Reg) (s : State) : Host.Outcome State Fault Refusal :=
  let t := s.thr
  elemOp { word := (wordVrdec d a p), legal := decide (t.sew = 32), caps := [9], dst := [t.own d], src := [t.own a], psrc := [p] } d p
    (fun t i =>
      let r := Rnw.ofWord (t.elem a.toNat i 32)
      (wrap 32 r.crt, if r.consistent then 0 else Flags.nv)) s

/-- VRCHK (R143). -/
def execVrchk (d a p : Reg) (s : State) : Host.Outcome State Fault Refusal :=
  let t := s.thr
  predOp { word := (wordVrchk d a p), legal := decide (t.sew = 32), caps := [9], src := [t.own a], pdst := [d], psrc := [p] } d p
    (fun t i => (!(Rnw.ofWord (t.elem a.toNat i 32)).consistent, 0)) s

/-! ### Slices (R38, R39, R144) -/

/-- The integer that a value aligns to under an exponent and a slice count (R38); 0 for a NaN or an infinity. -/
def alignTo (e : Int) (slices : Nat) : FVal → Int
  | .fin x => (({ x with e := x.e + (7 * (slices : Int) - 1 - e) } : Dy).toInt .rtz).1
  | _ => 0

/-- Digit j of an aligned integer (R39). -/
def digit (n : Int) (j : Nat) : Int :=
  let m : Int := (n.natAbs / 128 ^ j % 128 : Nat)
  if n < 0 then -m else m

/-- The active source values of `vslice`. -/
def Thread.sliceVals (t : Thread) (a p : Reg) : List FVal := (t.actives p).map fun i => t.fmt2.unpack (t.elem a.toNat i t.sew2)

/-- What `vslice` writes for one element, and its flags (R144). -/
def sliceValue (slices sew : Nat) (top : Option Int) (j : Nat) (v : FVal) : Nat × Flags :=
  if j = 8 then
    (match top with | some e => wrap sew e | none => 2 ^ (sew - 1), if v.isSignalling then Flags.nv else 0)
  else
    match v, top with
    | .fin _, some e => (wrap 8 (digit (alignTo e slices v) j), 0)
    | .fin _, none => (0, 0)
    | _, _ => (0, Flags.nv)

/-- VSLICE (R144). -/
def execVslice (d a k p : Reg) (s : State) : Host.Outcome State Fault Refusal :=
  let t := s.thr
  let ok := isFp t.sew2 && (if k.toNat = 8 then isFp t.sew else decide (k.toNat < vtSlices t.vtype ∧ t.sew = 8))
  elemOp { word := (wordVslice d a k p), legal := ok, caps := [10], dst := [t.own d], src := [t.second a], psrc := [p] } d p
    (fun t i => sliceValue (vtSlices t.vtype) t.sew (maxTop (t.sliceVals a p)) k.toNat
      (t.fmt2.unpack (t.elem a.toNat i t.sew2))) s

/-- VUNSLICE (R144). -/
def execVunslice (d a p : Reg) (s : State) : Host.Outcome State Fault Refusal :=
  let t := s.thr
  elemOp { word := (wordVunslice d a p), legal := decide (32 ≤ t.sew ∧ t.sew2 = 8), caps := [10], dst := [t.own d],
           src := [t.second a, t.own d], psrc := [p] } d p
    (fun t i => (wrap t.sew ((t.elem d.toNat i t.sew : Int) * 128 + sext 8 (t.elem a.toNat i 8)), 0)) s

/-! ### Mixed widths (R145, R146) -/

/-- An instruction on a, the sign-extended b of SEW2, and d (R145). -/
def vWideOp (w : BitVec 32) (cap : Nat) (acc : Bool) (d a b p : Reg) (f : Int → Int → Int → Int) (s : State) :
    Host.Outcome State Fault Refusal :=
  let t := s.thr
  elemOp { word := w, legal := decide (t.sew2 ≤ t.sew), caps := [cap], dst := [t.own d],
           src := [t.own a, t.second b] ++ (if acc then [t.own d] else []), psrc := [p] } d p
    (fun t i => (wrap t.sew (f (t.elem a.toNat i t.sew) (sext t.sew2 (t.elem b.toNat i t.sew2)) (t.elem d.toNat i t.sew)), 0)) s

/-- The four signed byte products of `vqdot` (R146). -/
def byteDot (a b : Nat) : Int :=
  ((List.range 4).map fun k => sext 8 (bitsAt a (8 * k) 8) * sext 8 (bitsAt b (8 * k) 8)).foldl (· + ·) 0

/-- VWADD (R145). -/
def execVwadd (d a b p : Reg) (s : State) : Host.Outcome State Fault Refusal :=
  vWideOp (wordVwadd d a b p) 3 false d a b p (fun x y _ => x + y) s

/-- VWSUB (R145). -/
def execVwsub (d a b p : Reg) (s : State) : Host.Outcome State Fault Refusal :=
  vWideOp (wordVwsub d a b p) 3 false d a b p (fun x y _ => x - y) s

/-- VWMUL (R145). -/
def execVwmul (d a b p : Reg) (s : State) : Host.Outcome State Fault Refusal :=
  vWideOp (wordVwmul d a b p) 4 false d a b p (fun x y _ => x * y) s

/-- VWMACC (R145). -/
def execVwmacc (d a b p : Reg) (s : State) : Host.Outcome State Fault Refusal :=
  vWideOp (wordVwmacc d a b p) 4 true d a b p (fun x y z => z + x * y) s

/-- VWFMACC (R145). -/
def execVwfmacc (d a b p : Reg) (s : State) : Host.Outcome State Fault Refusal :=
  let t := s.thr
  elemOp { word := (wordVwfmacc d a b p), legal := isFp t.sew && isFp t.sew2 && decide (t.sew2 ≤ t.sew), caps := [fpCap t.sew],
           dst := [t.own d], src := [t.own a, t.second b, t.own d], psrc := [p] } d p
    (fun t i => t.fmt.fmaVal t.vfrm (t.fmt.unpack (t.elem a.toNat i t.sew)) (t.fmt2.unpack (t.elem b.toNat i t.sew2))
      (t.fmt.unpack (t.elem d.toNat i t.sew))) s

/-- VQDOT (R146). -/
def execVqdot (d a b p : Reg) (s : State) : Host.Outcome State Fault Refusal :=
  let t := s.thr
  elemOp { word := (wordVqdot d a b p), legal := decide (t.sew = 32 ∧ t.sew2 = 32), caps := [4], dst := [t.own d],
           src := [t.own a, t.own b, t.own d], psrc := [p] } d p
    (fun t i => (wrap 32 ((t.elem d.toNat i 32 : Int) + byteDot (t.elem a.toNat i 32) (t.elem b.toNat i 32)), 0)) s

end Sys2Proof.Machine
end

