-- ==== Sys2Proof/Machine/Matrix.lean ====
section
/-! DEFINITION. Engines at work: starts (R276), the matrix array and the B store (R281 to R292), copies (R185, R254, R381)
and collectives (R188, R383). -/
namespace Sys2Proof.Machine

/-! ### Operands as digits (R12, R17, R18, R37 to R39, R282, R283) -/

/-- The number format of an element code (R282); none for the integer formats. -/
def srcFmt (f : Nat) : Option Fmt :=
  match f with
  | 2 => some Fmt.e4m3 | 3 => some Fmt.e5m2 | 4 => some Fmt.e3m2 | 5 => some Fmt.e2m3 | 6 => some Fmt.e2m1 | 7 => some Fmt.bf16
  | 8 => some Fmt.f16 | 9 => some Fmt.f32 | 10 => some Fmt.f64 | _ => none

/-- Bytes of K packed elements with their block scales (R17, R18). -/
def packedBytes (f : Nat) (mxb : Bool) (k : Nat) : Nat := k * srcBits f / 8 + if mxb then k / 32 else 0

/-- Element k of packed bytes, and its block's scale code (127 without block scales). -/
def packedElem (f : Nat) (mxb : Bool) (n k : Nat) : Nat :=
  let w := srcBits f
  if mxb then bitsAt n (8 * (k / 32 * (1 + 4 * w) + 1) + w * (k % 32)) w else bitsAt n (w * k) w
def packedScale (f : Nat) (mxb : Bool) (n k : Nat) : Nat :=
  if mxb then bitsAt n (8 * (k / 32 * (1 + 4 * srcBits f))) 8 else 127

/-- An INT8 operand of −128 counts as −127 (R12). -/
def clamp8 (i : Int) : Int := if i = -128 then -127 else i

/-- The value of an element without its scales. -/
def elemValue (f c : Nat) : FVal :=
  match srcFmt f with
  | some g => g.unpack c
  | none => let i := clamp8 (sext 8 c); .fin ⟨decide (i < 0), i.natAbs, -6⟩

/-- True of an operand that is its own digit: INT8 without block scales, and INT4 (R288). -/
def isPlain (f : Nat) (mxb : Bool) : Bool := decide (f = 1) || (decide (f = 0) && !mxb)

/-- The number of elements that R12 clamps, those that a scale of 0xFF makes a NaN among them (DESIGN CHOICE, log 104). -/
def clampCount (f : Nat) (mxb : Bool) (n k : Nat) : Nat :=
  if f = 0 then ((List.range k).filter fun i => decide (packedElem f mxb n i = 128)).length else 0

/-- Elements of a K-block (R37, R288). -/
def kblockLen (f slices : Nat) : Nat := if f = 1 then 1024 else 512 / slices

/-- Elements `[lo, lo + len)` as an alignment exponent, whether a NaN or an infinity is among them, and their digits. -/
def cutBlock (f : Nat) (mxb : Bool) (slices scale n lo len : Nat) : (Int × Bool) × List (List Int) :=
  let ks := (List.range len).map (lo + ·)
  if isPlain f mxb then
    (((scale : Int) - 121, decide (scale = 255)),
     ks.map fun k => let c := packedElem f mxb n k; [if f = 1 then sext 4 c else clamp8 (sext 8 c)])
  else
    let vs := ks.map fun k =>
      let x := packedScale f mxb n k
      if x = 255 ∨ scale = 255 then FVal.nan false
      else (elemValue f (packedElem f mxb n k)).scale ((x : Int) - 127 + ((scale : Int) - 127))
    let bad := vs.any fun v => match v with | .fin _ => false | _ => true
    let e := (maxTop vs).getD 0
    ((e, bad), vs.map fun v => (List.range slices).map fun j => digit (alignTo e slices v) j)

/-- The K-blocks of K elements. -/
def kblocks (f slices k : Nat) : List (Nat × Nat) :=
  let l := kblockLen f slices
  (List.range ((k + l - 1) / l)).map fun i => (i * l, min l (k - i * l))

/-! ### Row packets (R282 to R284) -/

structure PacketHdr where
  row : Nat
  mxb : Bool
  scale : Nat
  k : Nat
  slices : Nat
  fmt : Nat
  deriving DecidableEq, Repr

def packetHdr (w : Nat) : PacketHdr :=
  ⟨w / 2 ^ 32 % 2 ^ 32, bit w 26, bitsAt w 18 8, bitsAt w 8 10 + 1, bitsAt w 5 3 + 1, w % 32⟩

/-- The class of a format (R187). -/
def aclsOf (f : Nat) : Nat := if f = 0 then 0 else if f = 1 then 1 else 2

/-- Header conditions of R284 that need no block. -/
def hdrOk (acls w : Nat) : Bool :=
  let h := packetHdr w
  decide (bitsAt w 27 5 = 0 ∧ h.fmt ≤ 10 ∧ aclsOf h.fmt = acls) && !(decide (h.fmt = 1 ∨ 7 ≤ h.fmt) && h.mxb) &&
  (decide (h.slices = 1) || decide (acls = 2)) && decide (h.k * srcBits h.fmt % 8 = 0) && (!h.mxb || decide (h.k % 32 = 0))

/-- Conditions of R284 on a block that a packet meets. -/
def blockOk (pr : Nat) (h : PacketHdr) (b : BBlock) : Bool :=
  decide (b.proc = pr ∧ aclsOf b.fmt = aclsOf h.fmt ∧ b.k = h.k ∧ b.slices = h.slices)

/-! ### The B store (R285, R286) -/

/-- The bank of a partition on a core. -/
def Core.bankOf (c : Core) (part : Nat) : Option Nat := (List.range 4).find? fun i => decide ((c.banks[i]?.getD none) = some part)

/-- A block of the partition's bank. -/
def State.block? (s : State) (t : Tether) (b : Nat) : Option BBlock :=
  let c := s.core t.core
  match c.bankOf t.part with
  | some k => Assoc.get? c.blocks (k, b)
  | none => none

/-- True of a block that exists (R285). -/
def Core.blockExists (c : Core) (b : Nat) : Bool := decide (0 < c.mcols ∧ b / c.mcols < 16)

/-! ### Starting (R276) -/

/-- The engine that takes a tether. -/
def engineOf (t : Tether) : Option Engine :=
  match t.kind with
  | .kernel => none
  | .mma => some (.matrix t.core)
  | .bload => some (.loader t.core)
  | .copy => some (if toWindow t then .window t.core else .channel t.core (copyChannel t))
  | .coll => some (.collective t.part t.proc (collPset t.ops.2.2))

/-- True when an engine has room for one more tether (R276, R394). A channel whose COPY belongs to a swapped-out partition is
free, since it has been saved with it (R252, R367); a suspended MMA or BLOAD keeps its engine (DESIGN CHOICE, log 95). -/
def State.engineRoom (s : State) (e : Engine) : Bool :=
  let free := !s.tethers.any fun t =>
    decide (t.state = .running ∧ engineOf t = some e) && !(decide (t.kind = .copy) && (s.part t.part).swappedOut)
  match e with
  | .matrix c => free && (s.core c).retiring.isEmpty
  | .loader c => free && (s.core c).retiring.isEmpty
  | .window _ => true
  | _ => free

/-- Every predecessor is DONE, or has retired (R193, R276). -/
def State.predsDone (s : State) (t : Tether) : Bool :=
  t.preds.all fun p => match s.tether? t.part t.proc p with | some q => decide (q.state = .done) | none => true

/-- True when an older tether of the same thread, engine and priority is still QUEUED (R276). -/
def State.behindOlder (s : State) (t : Tether) : Bool :=
  s.tethers.any fun u => decide (u.state = .queued ∧ u.issuer = t.issuer ∧ engineOf u = engineOf t ∧ u.prio = t.prio ∧
    u.arrival < t.arrival)

/-- Tethers that an engine may start. -/
def State.startable (s : State) (e : Engine) : List Tether :=
  s.tethers.filter fun t => decide (t.state = .queued ∧ engineOf t = some e) && s.predsDone t && !s.behindOlder t &&
    (s.part t.part).run

/-- The first by priority, then by arrival. -/
def firstTether : List Tether → Option Tether
  | [] => none
  | t :: ts =>
    match firstTether ts with
    | none => some t
    | some u => if u.prio.toNat < t.prio.toNat ∨ (u.prio = t.prio ∧ t.arrival < u.arrival) then some t else some u

/-- Bytes of a COPY's destination. -/
def copyLen (t : Tether) : Nat := copyEsz t.ops.2.2 * volume t.layout

/-- Rows and columns of an MMA; columns of a BLOAD. -/
def mmaRows (t : Tether) : Nat := extentOf t.layout 0
def mmaCols (t : Tether) : Nat := extentOf t.layout 1

/-- What a start does beside the state: the channel of a COPY; a tether with an extent of 0 is DONE without moving data; an MMA
that names a block that does not exist faults (R184, R185, R252, R285). It counts as a source of the die's counters (R404). -/
def State.startTether (s : State) (t : Tether) : State :=
  let tok := tetherToken t
  let s1 := (s.mapTether tok fun u => { u with state := .running }).devCount t.die 11 1
  let s2 := if t.kind = .copy ∧ toWindow t = false then
      s1.putChannel t.core (copyChannel t) ⟨.filling, t.ops.2.1.toNat, copyLen t, 0, tok, t.part, t.proc⟩ else s1
  if volume t.layout = 0 then s2.finish tok .done .none
  else
  match t.kind with
  | .mma =>
    if (List.range (mmaCols t)).any fun j => !(s.core t.core).blockExists (mmaBblk t.ops.2.2 + j) then s2.faultTether tok .bounds 0
    else s2
  | _ => s2

/-- TETHER_START (R276). -/
def execTetherStart (eng : Engine) (s : State) : Host.Outcome State Fault Refusal :=
  .next (if s.engineRoom eng then
    (match firstTether (s.startable eng) with
      | some t => s.startTether t
      | none => s)
    else s)

/-- The tether that runs on a core's array or loader. -/
def State.runningOn (s : State) (k : TKind) (c : CoreId) : Option Tether :=
  s.tethers.find? fun t => decide (t.state = .running ∧ t.kind = k ∧ t.core = c)

/-- The state after a unit stops: a fault ends the tether, an answer that has not come leaves only its request. DATA_ERR in an
MMA records the column node (R190). -/
def State.stopUnit (s : State) (tok : Word) (node : Nat := 0) : EngineStop → State
  | .fault c a => s.faultTether tok c a (if c = .dataErr then node else 0)
  | .wait s1 => s1

/-! ### MMA (R187, R281 to R284, R288 to R292) -/

/-- The usable node that holds a block (R285). -/
def State.nodeOf (s : State) (t : Tether) (col : Nat) : Nat := (mmaBblk t.ops.2.2 + col) % (s.core t.core).mcols

/-- The address of a row packet. -/
def packetAddr (t : Tether) (row : Nat) : Word := t.ops.1 + wordOfInt ((row : Int) * strideOf t.layout 0)

/-- Take a row's packet into the array: its bytes, under R284. FORMAT comes before the checks of the payload's bytes (DESIGN CHOICE,
log 108). -/
def State.readPacket (s : State) (t : Tether) (row unit : Nat) : Except EngineStop (List Byte) := do
  let a := packetAddr t row
  if a.toNat % 8 ≠ 0 then .error (.fault .align a)
  let hb ← s.engineRead t unit a 8
  let w := natOfBytes hb
  let h := packetHdr w
  if !hdrOk (mmaAcls t.ops.2.2) w then .error (.fault .format a)
  if (List.range (mmaCols t)).any fun j =>
      match s.block? t (mmaBblk t.ops.2.2 + j) with | some b => !blockOk t.proc h b | none => true then .error (.fault .format a)
  let body ← s.engineRead t unit (a + 8) (packedBytes h.fmt h.mxb h.k)
  .ok (hb ++ body)

/-- The header of a packet in the array. -/
def Tether.rowHdr (t : Tether) (row : Nat) : PacketHdr := packetHdr (natOfBytes (((Assoc.getD t.packets row [])).take 8))

/-- K-blocks of a row. -/
def Tether.rowBlocks (t : Tether) (row : Nat) : Nat := let h := t.rowHdr row; (kblocks h.fmt h.slices h.k).length

/-- K-blocks of a column that a row has passed. -/
def Tether.passed (t : Tether) (row col : Nat) : Nat := Assoc.getD t.work (row, col) 0

/-- True when a row in the array has passed every K-block of a column. -/
def Tether.colDone (t : Tether) (row col : Nat) : Bool :=
  (Assoc.get? t.packets row).isSome && decide (t.rowBlocks row ≤ t.passed row col)

/-- True when a row may enter a node for a column: earlier rows have entered the array, at most three of them are not
complete in the node, no earlier packet of the same ROW is still to update the element, and lower blocks of the node are
done for the row (R281, R290). -/
def State.rowMayEnter (s : State) (t : Tether) (row col : Nat) : Bool :=
  let node := s.nodeOf t col
  let mates := (List.range (mmaCols t)).filter fun j => decide (s.nodeOf t j = node)
  let before := (List.range (row - t.progress)).map (t.progress + ·)
  before.all (fun r => (Assoc.get? t.packets r).isSome) &&
  decide ((before.filter fun r => !mates.all fun j => t.colDone r j).length ≤ 3) &&
  before.all (fun r => decide ((t.rowHdr r).row ≠ (t.rowHdr row).row) || t.colDone r col) &&
  mates.all fun j => decide (col ≤ j) || t.colDone row j

/-- The class sums of a K-block (R40). -/
def classSums (slices : Nat) (a b : List (List Int)) : List Int :=
  (List.range (2 * slices - 1)).map fun w =>
    ((a.zip b).map fun (x, y) =>
      ((List.range (w + 1)).map fun i => x.getD i 0 * y.getD (w - i) 0).foldl (· + ·) 0).foldl (· + ·) 0

/-- One attempt at a K-block: the reconstructed class sums, none when one fails its check (R291). -/
def attemptSums (sums : List Int) (deltas : List RnsDelta) : Option (List Int) :=
  let rs := sums.zipIdx.map fun (c, w) =>
    deltas.foldl (fun (r : Rnw) d =>
      if d.cls = w then ⟨(r.c256 + d.d256) % 256, (r.c255 + d.d255) % 255, (r.c257 + d.d257) % 257, (r.c127 + d.d127) % 127⟩ else r)
      (Rnw.ofInt c)
  if rs.all Rnw.consistent then some (rs.map Rnw.crt) else none

/-- The wide integer of class sums (R40). -/
def wideSum (xs : List Int) : Int := (xs.zipIdx.map fun (x, w) => x * 128 ^ w).foldl (· + ·) 0

/-- The product sum of a K-block (R40, R288, R289); NaN when an operand is a NaN or an infinity (R41). An exact sum that is zero
is −0 under RDN and +0 otherwise, as R21 gives it (DEDUCED, log 75). -/
def productSum (mode : RMode) (slices : Nat) (ea eb : Int × Bool) (xs : List Int) : FVal :=
  if ea.2 || eb.2 then .nan false
  else
    let t := wideSum xs
    .fin ⟨decide (t < 0 ∨ (t = 0 ∧ mode = .rdn)), t.natAbs, ea.1 + eb.1 - 14 * slices + 2⟩

/-- The format of C (R187); none for INT32. -/
def cFmt (c : Nat) : Option Fmt :=
  match c with | 1 => some Fmt.f32 | 2 => some Fmt.f64 | 3 => some Fmt.bf16 | 4 => some Fmt.f16 | _ => none

/-- The epilogue of one K-block: the new code of C and the flags met (R41, R290). -/
def epilogue (cf : Nat) (mode : RMode) (old : Option Nat) (p : FVal) : Nat × Flags :=
  match cFmt cf with
  | some f =>
    if p.isNan then (f.qnan, Flags.nv)
    else match old with
      | none => f.roundVal mode p
      | some c => f.addVal mode (f.unpack c) p
  | none =>
    let v := match old, p with
      | some c, .fin x => .fin ((Dy.ofInt (sext 32 c)).add mode x)
      | _, _ => p
    let (i, g) := toIntRange mode (-2147483648) 2147483647 v
    (wrap 32 i, g)

/-- The address of an element of C (R187). -/
def cAddr (t : Tether) (row col : Nat) : Word :=
  t.ops.2.1 + wordOfInt ((row : Int) * strideOf t.layout 1) + BitVec.ofNat 64 (col * mmaCsize t.ops.2.2)

/-- Complete rows leave the array, and a complete MMA is DONE, with a cancel pending too (DESIGN CHOICE, log 107). -/
def State.mmaSettle (s : State) (tok : Word) : Nat → State
  | 0 => s
  | n + 1 =>
    match s.tetherAny? tok with
    | none => s
    | some t =>
      if t.state ≠ .running then s
      else if mmaRows t ≤ t.progress then s.finish tok .done .none
      else if (List.range (mmaCols t)).all fun j => t.colDone t.progress j then
        (s.mapTether tok fun u => { u with progress := t.progress + 1, packets := Assoc.drop u.packets t.progress,
                                           work := u.work.filter fun e => decide (e.1.1 ≠ t.progress) }).mmaSettle tok n
      else s

/-- Rows of a tether that are complete. -/
def State.progressOf (s : State) (tok : Word) : Nat := ((s.tetherAny? tok).map Tether.progress).getD 0

/-- A K-block is done: its row and column go on to the next. -/
def State.mmaDone (s : State) (tok : Word) (row col : Nat) : State :=
  let s1 := s.mapTether tok fun t => { t with work := Assoc.put t.work (row, col) (t.passed row col + 1) }
  let s2 := s1.mmaSettle tok (((s1.tetherAny? tok).map mmaRows).getD 0 + 1)
  let ended := decide (s1.progressOf tok < s2.progressOf tok)
  (s2.mapTether tok fun t => { t with rowEnded := t.rowEnded || (ended && !s2.mayBegin t) }).afterUnit tok

/-- The unit number of a row and a column. -/
def mmaUnit (row col : Nat) : Nat := row * 2048 + col

/-- One K-block of a row and a column, its packet in the array. A block that a BLOAD has replaced since the packet met it must
still suit the packet (R195, R284; DEDUCED, log 76). -/
def State.mmaKblock (s : State) (t : Tether) (row col : Nat) (up : Upset) : State :=
  let tok := tetherToken t
  let ctl := t.ops.2.2
  let h := t.rowHdr row
  let kb := t.passed row col
  let node := s.nodeOf t col
  let n := natOfBytes (List.drop 8 (Assoc.getD t.packets row []))
  match s.block? t (mmaBblk ctl + col), (kblocks h.fmt h.slices h.k)[kb]? with
  | some b, some (lo, len) =>
    if !blockOk t.proc h b then s.faultTether tok .format (packetAddr t row)
    else if up.bstore then (s.countUncorrected t.core.die 7).faultTether tok .dataErr 0 node
    else
      let (ea, da) := cutBlock h.fmt h.mxb h.slices h.scale n lo len
      let sums := classSums h.slices da ((List.drop lo b.digits).take len)
      let addr := cAddr t h.row col
      let size := mmaCsize ctl
      let use (s : State) (xs : List Int) : State :=
        let first := decide (mmaEpi ctl = 1 ∧ kb = 0)
        match (if first then .ok none else (s.engineRead t (mmaUnit row col) addr size).map fun bs => some (natOfBytes bs)) with
        | .error e => s.stopUnit tok node e
        | .ok old =>
          let mode := RMode.ofCode (mmaFrm ctl)
          let (code, g) := epilogue (mmaCfmt ctl) mode old (productSum mode h.slices ea (b.exps[kb]?.getD (0, false)) xs)
          match s.engineWrite t (mmaUnit row col) addr (bytesOf size code) with
          | .error e => s.stopUnit tok node e
          | .ok s1 =>
            let s2 := (s1.dropAnswers tok).mapTether tok fun u => { u with flags := u.flags ||| g }
            if s2.unitOpen tok (mmaUnit row col) then s2 else s2.mmaDone tok row col
      match attemptSums sums up.first, attemptSums sums up.second with
      | some xs, _ => use s xs
      | none, some xs => use (s.countCorrected t.core.die 12) xs
      | none, none =>
        ((s.countUncorrected t.core.die 12).faultTether tok .residue addr node).miscompare t.core
          (.columnNode ((s.core t.core).physical node))
  | _, _ => s.faultTether tok .format (packetAddr t row)

/-- MMA_KBLOCK (R281 to R291): the next K-block of a row and a column of the MMA that runs on the core, if it may go on. A
packet that faults does so when every row before it is complete; DATA_ERR then names the node of the column that asked for the
packet (DESIGN CHOICE, log 110). -/
def execMmaKblock (core : CoreId) (row col : Nat) (up : Upset) (s : State) : Host.Outcome State Fault Refusal :=
  .next (match s.runningOn .mma core with
    | none => s
    | some t0 =>
      let tok := tetherToken t0
      let t := { t0 with rowEnded := false }
      let s := if t0.rowEnded && s.engineMay t0 then s.mapTether tok fun _ => t else s
      if !s.engineMay t0 || decide (row < t.progress ∨ mmaRows t ≤ row ∨ mmaCols t ≤ col) || s.unitOpen tok (mmaUnit row col) then s
      else if !s.mayBegin t && decide (row ≠ t.progress) then s
      else
        match Assoc.get? t.packets row with
        | some _ => if t.colDone row col || !s.rowMayEnter t row col then s else s.mmaKblock t row col up
        | none =>
          if ((List.range (row - t.progress)).all fun i => (Assoc.get? t.packets (t.progress + i)).isSome) = false then s
          else
            match s.readPacket t row (mmaUnit row col) with
            | .error (.fault c a) => if row = t.progress then s.stopUnit tok (s.nodeOf t col) (.fault c a) else s
            | .error (.wait s1) => s1
            | .ok bs =>
              let h := packetHdr (natOfBytes (bs.take 8))
              let u := { t with packets := Assoc.put t.packets row bs, peerData := [],
                                clamps := t.clamps + clampCount h.fmt h.mxb (natOfBytes (List.drop 8 bs)) h.k }
              let s1 := s.mapTether tok fun _ => u
              if s1.rowMayEnter u row col then s1.mmaKblock u row col up else s1)

/-! ### BLOAD (R186, R286) -/

/-- The bytes of a column, packed, as addresses and lengths. -/
def columnSpans (t : Tether) (col : Nat) : List (Word × Nat) :=
  let ctl := t.ops.2.2
  let base := t.ops.1 + wordOfInt ((col : Int) * strideOf t.layout 1)
  let k := extentOf t.layout 0
  if bloadPacked ctl then [(base, packedBytes (bloadFmt ctl) (bloadMxb ctl) k)]
  else (List.range k).map fun (i : Nat) => (base + wordOfInt ((i : Int) * strideOf t.layout 0), srcBits (bloadFmt ctl) / 8)

/-- Read several spans in order; the first failing one decides. -/
def State.engineReads (s : State) (t : Tether) (unit : Nat) : List (Word × Nat) → Except EngineStop (List Byte)
  | [] => .ok []
  | (a, n) :: r =>
    match s.engineRead t unit a n with
    | .error (.fault c x) => .error (.fault c x)
    | .error (.wait s1) =>
      (match State.engineReads s1 t unit r with
       | .ok _ => .error (.wait s1)
       | .error e => .error e)
    | .ok bs => (State.engineReads s t unit r).map fun l => bs ++ l

/-- The block that a column gives (R186, R286). -/
def columnBlock (t : Tether) (bs : List Byte) : BBlock :=
  let ctl := t.ops.2.2
  let f := bloadFmt ctl
  let n := natOfBytes bs
  let k := extentOf t.layout 0
  let cut := (kblocks f (bloadSlices ctl) k).map fun (lo, len) =>
    cutBlock f (bloadMxb ctl) (bloadSlices ctl) (bloadScale ctl).toNat n lo len
  { proc := t.proc, fmt := f, mxb := bloadMxb ctl, slices := bloadSlices ctl, k := k, scale := bloadScale ctl,
    exps := cut.map Prod.fst, digits := cut.flatMap Prod.snd }

/-- BLOAD_COLUMN (R186, R285, R286): the next column of the BLOAD that runs on the core. One whose partition owns no bank there waits
for one (DESIGN CHOICE, log 109), and the last column makes it DONE with a cancel pending too (DESIGN CHOICE, log 107). -/
def execBloadColumn (core : CoreId) (s : State) : Host.Outcome State Fault Refusal :=
  .next (match s.runningOn .bload core with
    | none => s
    | some t =>
      let tok := tetherToken t
      let col := t.progress
      let b := t.ops.2.1.toNat + col
      let c := s.core core
      if !s.engineMay t then s
      else if !c.blockExists b then s.faultTether tok .bounds 0
      else
        match c.bankOf t.part, s.engineReads t col (columnSpans t col) with
        | _, .error e => s.stopUnit tok 0 e
        | none, _ => s
        | some k, .ok bs =>
          let ctl := t.ops.2.2
          let s1 := s.setCore core { c with blocks := Assoc.put c.blocks (k, b) (columnBlock t bs) }
          let s2 := s1.mapTether tok fun u =>
            { u with progress := col + 1, peerData := [],
                     clamps := u.clamps + clampCount (bloadFmt ctl) (bloadMxb ctl) (natOfBytes bs) (extentOf t.layout 0) }
          if mmaCols t ≤ col + 1 then s2.finish tok .done .none else s2.afterUnit tok)

/-! ### COPY (R185, R252 to R254, R381) -/

/-- The source address of element i, none where it is clipped (R185). -/
def copySource (t : Tether) (i : Nat) : Option Word :=
  let ctl := t.ops.2.2
  let rec go (l : List (BitVec 40 × BitVec 24)) (i : Nat) : Int :=
    match l with
    | [] => 0
    | (st, ex) :: r => (i % ex.toNat : Nat) * st.toInt + go r (i / ex.toNat)
  if ctl.getLsbD 7 && decide (bitsAt ctl.toNat 8 24 ≤ i % extentOf t.layout 0) then none
  else some (t.ops.1 + wordOfInt (go t.layout i))

/-- The bytes of FILL: sign-extended when E is 8 (R185). -/
def copyFill (ctl : Word) : List Byte := bytesOf (copyEsz ctl) (wrap 64 (sext 32 (ctl.toNat / 2 ^ 32)))

/-- The elements of a burst. -/
def burstElems (t : Tether) (k : Nat) : List Nat :=
  let e := copyEsz t.ops.2.2
  (List.range ((min (copyLen t) (128 * (k + 1)) - 128 * k) / e)).map (128 * k / e + ·)

/-- True when a peer holds a source byte of a burst. -/
def State.burstRemote (s : State) (t : Tether) (k : Nat) : Bool :=
  (burstElems t k).any fun i => match copySource t i with
    | some a => (match s.enginePlace t false a (copyEsz t.ops.2.2) with | .ok pl => pl.remote | .error _ => false)
    | none => false

/-- The bytes of a burst: FILL where clipped, `data` where a peer holds the source and the data have come, memory otherwise. -/
def State.burstBytes (s : State) (t : Tether) (k : Nat) (data : Option (List Byte)) : Except EngineStop (List Byte) :=
  let e := copyEsz t.ops.2.2
  let rec go (s : State) : List Nat → Except EngineStop (List Byte)
    | [] => .ok []
    | i :: r =>
      let mine : Except EngineStop (List Byte) := match copySource t i with
        | none => .ok (copyFill t.ops.2.2)
        | some a =>
          match s.enginePlace t false a e, data with
          | .error f, _ => .error (.fault (tetherCause f.cause) a)
          | .ok pl, some d => if pl.remote then .ok ((List.drop (e * i - 128 * k) d).take e) else s.engineRead t k a e
          | .ok _, none => s.engineRead t k a e
      match mine with
      | .error (.fault c a) => .error (.fault c a)
      | .error (.wait s1) => (match go s1 r with | .ok _ => .error (.wait s1) | .error x => .error x)
      | .ok bs => (go s r).map fun l => bs ++ l
  go s (burstElems t k)

/-- Bytes filled without a gap, from a list of bursts done. -/
def contiguous (done : List Nat) : Nat → Nat → Nat
  | 0, k => k
  | n + 1, k => if done.contains k then contiguous done n (k + 1) else k

/-- A burst has been written: the watermark rises over contiguous bytes, and a complete COPY is DONE (R254), with a cancel pending too
(DESIGN CHOICE, log 107). -/
def State.copyDone (s : State) (tok : Word) (k : Nat) : State :=
  match s.tetherAny? tok with
  | none => s
  | some t =>
    let work := Assoc.put t.work (0, k) 1
    let n := contiguous (work.map fun e => e.1.2) (work.length + 1) (t.progress / 128)
    let mark := min (copyLen t) (128 * n)
    let u := { t with work := work.filter fun e => decide (n ≤ e.1.2), progress := mark, peerData := [] }
    let s1 := s.mapTether tok fun _ => u
    let s2 := if toWindow t then s1 else
      match s1.channel? t.core (copyChannel t) with
      | some c => if c.token = tok then s1.putChannel t.core (copyChannel t) { c with mark := mark } else s1
      | none => s1
    if mark = copyLen t then s2.finish tok .done .none else s2.afterUnit tok

/-- A burst is read and written, its source bytes at a peer being `data` where they have come. -/
def State.writeBurst (s : State) (t : Tether) (k : Nat) (data : Option (List Byte)) : State :=
  let tok := tetherToken t
  match s.burstBytes t k data with
  | .error e => s.stopUnit tok 0 e
  | .ok bs =>
    match s.engineWrite t k (t.ops.2.1 + BitVec.ofNat 64 (128 * k)) bs with
    | .error e => s.stopUnit tok 0 e
    | .ok s1 => if s1.unitOpen tok k then s1.dropAnswers tok else s1.copyDone tok k

/-- One burst of a running COPY. Bursts from a peer are written in destination order (R254). -/
def State.copyBurst (s : State) (t : Tether) (k : Nat) : State :=
  let tok := tetherToken t
  if !s.engineMay t || (!s.mayBegin t && decide (128 * k ≠ t.progress)) || decide (copyLen t ≤ 128 * k ∨ 128 * k < t.progress) ||
     (Assoc.get? t.work (0, k)).isSome || s.unitOpen tok k || (s.burstRemote t k && decide (t.progress ≠ 128 * k)) then s
  else s.writeBurst t k none

/-- One burst leaves the queues, and the request that it answers is over. -/
def State.dropBurst (s : State) (tok : Word) (k : Nat) : State :=
  let f (p : Port) : Port := { p with reseq := p.reseq.filter fun b => !decide (b.1 = tok ∧ b.2.1 = k) }
  { s with ports := s.ports.map fun e => (e.1, f e.2),
           requests := s.requests.filter fun r => !decide (r.who = Requester.tether tok k ∧ r.write = false) }

/-- Bursts that wait in re-sequencing queues for a tether are written as their turn comes (R381). -/
def State.drainBursts (s : State) (tok : Word) : Nat → State
  | 0 => s
  | n + 1 =>
    match s.tetherAny? tok with
    | none => s
    | some t =>
      match s.ports.flatMap (fun e => e.2.reseq.filter fun b => decide (b.1 = tok ∧ 128 * b.2.1 = t.progress)) with
      | [] => s
      | (_, k, d) :: _ =>
        if s.engineMay t && !s.unitOpen tok k && decide (t.kind = .copy ∧ t.state = .running) then
          ((s.dropBurst tok k).writeBurst t k (some d)).drainBursts tok n
        else s

/-- COPY_BURST (R254). -/
def execCopyBurst (token : Word) (k : Nat) (s : State) : Host.Outcome State Fault Refusal :=
  .next (match s.tetherAny? token with
    | some t => if t.kind = .copy ∧ t.state = .running then (s.copyBurst t k).drainBursts token 256 else s
    | none => s)

/-- PORT_BURST_ARRIVAL (R381): the burst waits in the port's queue, which withholds credit when it is full, and is written
once every earlier burst of its tether has been; the read that it answers is open until then. -/
def execPortBurstArrival (port : Nat) (token : Word) (k : Nat) (data : List Byte) (s : State) : Host.Outcome State Fault Refusal :=
  .next (match s.tetherAny? token with
    | none => s
    | some t =>
      let p := Assoc.getD s.ports port Port.fresh
      if t.kind = .copy ∧ t.state = .running ∧ p.cfg.getLsbD 1 = true ∧ (s.part t.part).ports.getLsbD port = true ∧
         p.reseq.length < 256 ∧ t.progress ≤ 128 * k ∧ 128 * k < copyLen t ∧
         data.length = min 128 (copyLen t - 128 * k) ∧ (Assoc.get? t.work (0, k)).isNone = true ∧
         (p.reseq.any fun b => decide (b.1 = token ∧ b.2.1 = k)) = false then
        if s.burstRemote t k then
          { s with ports := Assoc.put s.ports port { p with reseq := p.reseq ++ [(token, k, data)] } }.drainBursts token 256
        else s
      else s)

/-! ### COLL (R188, R383) -/

/-- Element bytes of a DTYPE. -/
def collSize (ctl : Word) : Nat := match collDtype ctl with | 0 => 4 | 1 => 8 | 2 => 4 | 3 => 8 | _ => 2

/-- One reduction of two element codes (R11, R28, R383). -/
def collReduce (ctl : Word) (a b : Nat) : Nat × Flags :=
  let int (w : Nat) : Nat × Flags :=
    let x := sext w a
    let y := sext w b
    (wrap w (match collRop ctl with | 0 => x + y | 1 => max x y | _ => min x y), 0)
  let fp (f : Fmt) : Nat × Flags :=
    match collRop ctl with
    | 0 => f.add (RMode.ofCode (collFrm ctl)) a b
    | 1 => f.minmax true a b
    | _ => f.minmax false a b
  match collDtype ctl with
  | 0 => int 32 | 1 => int 64 | 2 => fp Fmt.f32 | 3 => fp Fmt.f64 | 4 => fp Fmt.bf16 | _ => fp Fmt.f16

/-- Element codes of bytes. -/
def codesOf (e : Nat) (bs : List Byte) : List Nat := (List.range (bs.length / e)).map fun i => natOfBytes ((List.drop (e * i) bs).take e)

/-- The partial chunk reduced with this member's own. -/
def reduceChunk (ctl : Word) (part own : List Byte) : List Byte × Flags :=
  let e := collSize ctl
  let l := ((codesOf e part).zip (codesOf e own)).map fun (a, b) => collReduce ctl a b
  (l.flatMap fun x => bytesOf e x.1, orFlags (l.map Prod.snd))

/-- Bytes of elements `[lo, hi)` of the send buffer. -/
def State.collOwn (s : State) (t : Tether) (lo hi : Nat) : Except EngineStop (List Byte) :=
  let e := collSize t.ops.2.2
  let spans := (List.range (hi - lo)).map fun i =>
    ((copySource { t with ops := (t.ops.1, t.ops.2.1, 0) } (lo + i)).getD 0, e)
  match spans.find? fun x => decide (x.1.toNat % e ≠ 0) with
  | some x => .error (.fault .align x.1)
  | none => s.engineReads t t.progress spans

/-- Store bytes into the receive buffer. -/
def State.collPut (s : State) (t : Tether) (off : Nat) (bs : List Byte) : Except EngineStop State :=
  let a := t.ops.2.1 + BitVec.ofNat 64 off
  if bs ≠ [] ∧ a.toNat % collSize t.ops.2.2 ≠ 0 then .error (.fault .align a) else s.engineWrite t t.progress a bs

/-- Rank and member count of a tether's peer set (R382). -/
def State.collRank (s : State) (t : Tether) : Nat × Nat :=
  let w := (Assoc.getD s.peerSets (collPset t.ops.2.2) (0, 0)).1.toNat
  (bitsAt w 48 10, bitsAt w 32 10 + 1)

/-- Steps of a collective (R383). -/
def collSteps (op n : Nat) : Nat := if op = 0 then 2 * (n - 1) else n - 1

/-- How many bytes this member receives in a step. -/
def collExpects (op r n root len e i : Nat) : Nat :=
  let chunk (j : Nat) : Nat := e * ((j + 1) * len / n - j * len / n)
  match op with
  | 0 => if i < n - 1 then chunk ((r + 2 * n - 2 - i) % n) else chunk ((r + 2 * n - 1 - (i - (n - 1))) % n)
  | 1 => chunk ((r + 2 * n - 2 - i) % n)
  | 2 => e * len
  | _ => if (root + 1 + i) % n = r then e * len else 0

/-- What a step makes of the data received: the state with its writes, the chunk that goes on, and the flags (DEDUCED, log 48). In
its first step of a reduction a member reads the chunk that it sends too. The ROOT of a broadcast is taken modulo the number of
members in the ring, and no rank of a smaller set is the root (DESIGN CHOICE, log 86). -/
def State.collWork (s : State) (t : Tether) (data : List Byte) : Except EngineStop (State × List Byte × Flags) :=
  let ctl := t.ops.2.2
  let e := collSize ctl
  let len := volume t.layout
  let (r, n) := s.collRank t
  let i := t.progress
  let lo (j : Nat) : Nat := j * len / n
  match collOp ctl with
  | 2 => do
    let s1 ← if i = 0 then do
        let own ← s.collOwn t 0 len
        s.collPut t (e * len * r) own
      else .ok s
    let s2 ← s1.collPut t (e * len * ((r + 2 * n - 1 - i) % n)) data
    .ok (s2, data, 0)
  | 3 =>
    if r = collRoot ctl then
      if i = 0 then do
        let own ← s.collOwn t 0 len
        let s1 ← s.collPut t 0 own
        .ok (s1, own, 0)
      else .ok (s, [], 0)
    else if (collRoot ctl + 1 + i) % n = r then do
      let s1 ← s.collPut t 0 data
      .ok (s1, data, 0)
    else .ok (s, [], 0)
  | op =>
    if i < n - 1 then do
      let j := (r + 2 * n - 2 - i) % n
      let k := (r + n - 1) % n
      let _ ← if i = 0 then s.collOwn t (lo k) (lo (k + 1)) else .ok []
      let own ← s.collOwn t (lo j) (lo (j + 1))
      let (out, g) := reduceChunk ctl data own
      let s1 ← if i = n - 2 then s.collPut t (if op = 0 then e * lo j else 0) out else .ok s
      .ok (s1, out, g)
    else do
      let j := (r + 2 * n - 1 - (i - (n - 1))) % n
      let s1 ← s.collPut t (e * lo j) data
      .ok (s1, data, 0)

/-- A step is complete at this member; the last makes it DONE, with a cancel pending too (DESIGN CHOICE, log 107). -/
def State.collDone (s : State) (tok : Word) : State :=
  match s.tetherAny? tok with
  | none => s
  | some t =>
    let s1 := s.mapTether tok fun u => { u with progress := t.progress + 1, peerData := [] }
    if collSteps (collOp t.ops.2.2) (s.collRank t).2 ≤ t.progress + 1 then s1.finish tok .done .none else s1.afterUnit tok

/-- True when a partition has a port to the member of a rank of a peer set: for UALink one that reaches the peer which the member's
record names, for UET one in mode 1 (R378, R382). -/
def State.collLink (s : State) (part pset rank : Nat) : Bool :=
  let (w, a) := Assoc.getD s.peerSets pset (0, 0)
  if w.getLsbD 62 then
    (List.range 48).any fun q => (s.part part).ports.getLsbD q && decide ((Assoc.getD s.ports q Port.fresh).cfg = 3)
  else (s.peerPort part (natOfBytes (s.mem.bytes (a.toNat + 8 * rank) 8) % 1024) false).isSome

/-- True when the links that a step of a collective uses stand: from the member before this one where it sends, and to the next one
where that receives. -/
def State.collLinked (s : State) (t : Tether) : Bool :=
  let ctl := t.ops.2.2
  let (r, n) := s.collRank t
  let expects (k : Nat) : Nat := collExpects (collOp ctl) k n (collRoot ctl) (volume t.layout) (collSize ctl) t.progress
  let link (k : Nat) : Bool := s.collLink t.part (collPset ctl) k
  (decide (expects r = 0) || link ((r + n - 1) % n)) && (decide (expects ((r + 1) % n) = 0) || link ((r + 1) % n))

/-- COLL_STEP (R383): `data` is what the member before this one in the ring sends in the step. -/
def execCollStep (token : Word) (data : List Byte) (s : State) : Host.Outcome State Fault Refusal :=
  .next (match s.tetherAny? token with
    | none => s
    | some t =>
      let ctl := t.ops.2.2
      let (r, n) := s.collRank t
      if t.kind = .coll ∧ s.engineMay t = true ∧ s.unitOpen token t.progress = false ∧ s.collLinked t = true ∧
         data.length = collExpects (collOp ctl) r n (collRoot ctl) (volume t.layout) (collSize ctl) t.progress then
        match s.collWork t data with
        | .error e => s.stopUnit token 0 e
        | .ok (s1, out, g) =>
          let s2 := s1.mapTether token fun u => { u with partialChunk := out, flags := u.flags ||| g }
          if s2.unitOpen token t.progress then s2 else s2.collDone token
      else s)

/-- PEER_MEMBER_FAILURE (R274, R383): another member of the set failed or cancelled. A failure faults this one with PEER. A cancel
does too (R383), or cancels it with PEER at its next boundary (R274), a free choice (DESIGN CHOICE, log 49). -/
def execPeerMemberFailure (part proc : Nat) (pset : PeerMember) (s : State) : Host.Outcome State Fault Refusal :=
  .next (match s.tethers.find? fun t =>
      decide (t.state = .running ∧ t.kind = .coll ∧ t.part = part ∧ t.proc = proc ∧ collPset t.ops.2.2 = pset.pset) with
    | some t =>
      let tok := tetherToken t
      let (faults, s1) : Bool × State := if pset.cancelled then s.choose [true, false] true else (true, s)
      if faults then s1.finish tok .faulted .peer
      else (s1.mapTether tok fun t => { t with byPeer := t.byPeer || !t.cancelling, cancelling := true }).settleBoundary tok
    | none => s)

/-- Every write of a unit has been acknowledged: the unit is complete (R380). -/
def State.unitAcked (s : State) (tok : Word) (unit : Nat) : State :=
  match s.tetherAny? tok with
  | none => s
  | some t =>
    if s.unitOpen tok unit || decide (t.state ≠ .running) then s
    else
      match t.kind with
      | .mma => s.mmaDone tok (unit / 2048) (unit % 2048)
      | .copy => (s.copyDone tok unit).drainBursts tok 256
      | .coll => s.collDone tok
      | _ => s

end Sys2Proof.Machine
end

