-- ==== Sys2Proof/Machine/Objects.lean ====
section
/-! DEFINITION. Code objects, kernel headers and launch records (R320, R321, R336, R337, R419), thread areas (R420), and a
launch's KERNEL tether (R219, R340, R342). -/
namespace Sys2Proof.Machine

/-- The little-endian field of `n` bytes at an offset of a list of bytes. -/
def fieldAt (bs : List Byte) (o n : Nat) : Nat := natOfBytes ((List.drop o bs).take n)

/-! ### Headers (R320, R321) -/

/-- What the device takes from an object header: NKERN, TEXTOFF and TEXTLEN. -/
structure ObjHeader where
  nkern : Nat
  textOff : Nat
  textLen : Nat
  deriving DecidableEq, Repr

/-- An object header with MAGIC and VERSION as R337 asks. -/
def objHeader (bs : List Byte) : Option ObjHeader :=
  if fieldAt bs 0 4 = 0x4A424F43 ∧ fieldAt bs 4 2 = 1 then some ⟨fieldAt bs 8 2, fieldAt bs 32 4, fieldAt bs 36 4⟩ else none

/-- The fields of a kernel header. -/
def headerOf (bs : List Byte) : Header :=
  { usemask := BitVec.ofNat 64 (fieldAt bs 0 8), entry := fieldAt bs 8 4, lstore := fieldAt bs 12 4, churnb := fieldAt bs 16 4,
    stack := fieldAt bs 20 4, fslots := BitVec.ofNat 16 (fieldAt bs 24 2), order := fieldAt bs 26 2, vregs := fieldAt bs 28 1,
    pregs := fieldAt bs 29 1, tiles := fieldAt bs 30 1, groups := fieldAt bs 31 1, width := fieldAt bs 32 1 }

/-- The limits of R321, PROFILE_REQ among them; ORDER is the caller's. -/
def headerOk (bs : List Byte) (o : ObjHeader) : Bool :=
  let h := headerOf bs
  decide (h.usemask.toNat < 2 ^ 25 ∧ h.entry % 4 = 0 ∧ h.entry < o.textLen ∧ h.lstore % 128 = 0 ∧ h.churnb % 128 = 0 ∧
    h.lstore + h.churnb ≤ 524288 ∧ h.stack % 16 = 0 ∧ h.stack ≤ 2 ^ 24 ∧ h.order < o.nkern ∧ h.vregs ≤ 32 ∧ h.pregs ≤ 24 ∧
    h.width ≤ 3 ∧ h.tiles ≤ classTiles h.width ∧ fieldAt bs 33 1 ≤ 3 ∧ fieldAt bs 34 2 = 0 ∧ fieldAt bs 40 24 = 0)

/-! ### Thread areas (R375, R420) -/

def Process.areaV (p : Process) : Bool := p.area.getLsbD 0
def Process.areaBase (p : Process) : Nat := bitsAt p.area.toNat 16 33 * 65536
def Process.slotSize (p : Process) : Nat := bitsAt p.areaCfg.toNat 0 16 * 65536
def Process.slotCount (p : Process) : Nat := min (bitsAt p.areaCfg.toNat 16 14) 8192
def Process.areaTls (p : Process) : Bool := p.areaCfg.getLsbD 63

/-- A kernel whose stack a thread slot of the process holds. -/
def Process.holdsStack (p : Process) (h : Header) : Bool := decide (h.stack + 131072 ≤ p.slotSize)

/-- Where the link table and the text of an object lie (R319, R320). -/
def linkTableOf (obj : Nat) (o : ObjHeader) : Nat := obj + 65536 * ((64 + 64 * o.nkern + 65535) / 65536)
def textBaseOf (obj : Nat) (o : ObjHeader) : Nat := obj + o.textOff

/-! ### Launch records (R336, R337) -/

structure LaunchRecord where
  obj : Nat
  kernel : Nat
  cls : Nat
  prio : BitVec 3
  indirect : Bool
  early : Bool
  n : Nat
  args : Word
  countAddr : Word
  deps : List Word
  reserved : Bool
  deriving DecidableEq, Repr

def recordOf (bs : List Byte) : LaunchRecord :=
  let flags := fieldAt bs 11 1
  { obj := fieldAt bs 0 8, kernel := fieldAt bs 8 2, cls := fieldAt bs 10 1, prio := BitVec.ofNat 3 flags,
    indirect := bit flags 3, early := bit flags 4, n := fieldAt bs 12 4, args := BitVec.ofNat 64 (fieldAt bs 16 8),
    countAddr := BitVec.ofNat 64 (fieldAt bs 24 8),
    deps := [32, 40, 48, 56].map fun o => BitVec.ofNat 64 (fieldAt bs o 8), reserved := decide (32 ≤ flags) }

/-- DEP0. -/
def LaunchRecord.dep0 (r : LaunchRecord) : Word := r.deps.headD 0

/-- The limits that a record alone decides (R336, R337). -/
def LaunchRecord.ok (r : LaunchRecord) : Bool :=
  !r.reserved && decide (r.obj % 64 = 0 ∧ r.cls < 4) &&
  (if r.indirect then decide (r.n = 0 ∧ r.countAddr.toNat % 8 = 0) else decide (1 ≤ r.n ∧ r.n ≤ 16777216 ∧ r.countAddr = 0)) &&
  (!r.early || decide (r.dep0 ≠ 0 ∧ bitsAt r.dep0.toNat 32 4 = 0))

/-- The object header is loaded and has the kernel. -/
def LaunchRecord.object (r : LaunchRecord) (bs : List Byte) : Option ObjHeader :=
  match objHeader bs with
  | some o => if r.kernel < o.nkern then some o else none
  | none => none

/-- The kernel header's address. -/
def LaunchRecord.headerAt (r : LaunchRecord) : Nat := (r.obj + 64 + 64 * r.kernel) % 2 ^ 64

/-- The kernel header passes (R321, R336, R337, R420). -/
def LaunchRecord.headerFits (r : LaunchRecord) (p : Process) (o : ObjHeader) (bs : List Byte) : Bool :=
  let h := headerOf bs
  headerOk bs o && decide (h.order = r.kernel ∧ h.width = r.cls) && p.holdsStack h

/-- Dependence tokens that name a tether of the process; the others count as satisfied (R337). -/
def State.liveDeps (s : State) (part pr : Nat) (r : LaunchRecord) : List Word :=
  r.deps.filter fun d => decide (d ≠ 0) && (s.tether? part pr d).isSome

/-- The launch of a record that passed. -/
def LaunchRecord.launch (r : LaunchRecord) (o : ObjHeader) (h : Header) (prio : BitVec 3) (live : List Word) (fifo : Bool) :
    Launch :=
  { obj := r.obj, hdrAddr := r.headerAt, hdr := h, textBase := textBaseOf r.obj o, linkTable := linkTableOf r.obj o,
    prio := prio, indirect := r.indirect, early := r.early && live.contains r.dep0, n := r.n, args := r.args,
    countAddr := r.countAddr, deps := live, fromFifo := fifo, eligible := none, spawned := 0, ended := 0, triggered := 0,
    killed := none, spawnFault := none }

/-- Create a launch's KERNEL tether (R219, R340). -/
def State.addLaunch (s : State) (part pr die : Nat) (issuer : ThreadKey) (core : CoreId) (owner : Option ThreadKey)
    (l : Launch) : State × Word :=
  let (s1, tok) := s.addTether { Tether.blank .kernel part pr die issuer core with
    prio := l.prio, owner := owner, preds := l.deps, launch := some l }
  (s1.settlePreds s1.tethers.length, tok)

end Sys2Proof.Machine
end

