-- ==== Sys2Proof/Machine/System.lean ====
section
/-! DEFINITION. System instructions (R215 to R220) and the end of a thread (R218). -/
namespace Sys2Proof.Machine

/-- An instruction of major 0x1A: legal in its mode, held until older vector instructions commit (R215, R236). -/
def systemOp (w : BitVec 32) (mode : Bool) (src : List Reg) (s : State) (body : State → Run State) :
    Host.Outcome State Fault Refusal :=
  issueHeld { word := tv w, legal := mode, reads := xs src } s body

/-- SYSCALL (R215) and R334: the accesses of the call come after the thread's earlier ones. -/
def execSyscall (s : State) : Host.Outcome State Fault Refusal :=
  systemOp wordSyscall true [] s fun s => do
    let s1 ← s.drain
    raise s1 .syscall 0

/-- BRK (R215). -/
def execBrk (s : State) : Host.Outcome State Fault Refusal :=
  systemOp wordBrk true [] s fun s => raise s .brk 0

/-- `eret` from its checks on: `unclaim` when claimed, then the return (R216, R418), which completes the instruction. A victim that
cannot be restored is HALTED (R390). -/
def State.returnFromTrap (s : State) : Run State :=
  if s.badRestored s.thr.key s.thr.eretRanges then .ok s.haltRestore
  else
    match (s.thr.count 2 1).eret with
    | .error w => raise s .illegal w
    | .ok t => .ok ({ s with thr := t }.dropErrors true s.thr.claimed)

/-- ERET (R216): the handler's stores come before what follows (R334). It is counted as handler code, and BPSKIP stays for the
instruction after it (R373). -/
def execEret (s : State) : Host.Outcome State Fault Refusal :=
  let body : Run State := do
    s.window
    s.check { word := tv wordEret, legal := s.thr.supervisor }
    let s1 ← s.drain
    (s1.mapThr Thread.commitAll).returnFromTrap
  match body with
  | .ok t => .next t
  | .error e => conclude false s (.error e)

/-- CLAIM (R217). -/
def execClaim (s : State) : Host.Outcome State Fault Refusal :=
  systemOp wordClaim s.thr.supervisor [] s fun s => 
    .ok (if s.thr.claimed then s else (s.drift.saveErrors none true [⟨0x118, 8⟩]).mapThr Thread.claim)

/-- UNCLAIM (R217). A victim that cannot be restored is HALTED (R390). -/
def execUnclaim (s : State) : Host.Outcome State Fault Refusal :=
  if s.thr.supervisor && s.thr.claimed && s.thr.vectorRoom && s.badRestored s.thr.key s.thr.vectorRanges then .next s.haltRestore
  else
    systemOp wordUnclaim s.thr.supervisor [] s fun s =>
      if s.thr.claimed then
        match s.thr.unclaim with
        | .error w => raise s .illegal w
        | .ok t => .ok ({ s with thr := t }.dropErrors false true)
      else .ok s

/-! ### The end of a thread (R218) -/

/-- The tethers attached to a thread. -/
def State.attachedTo (s : State) (k : ThreadKey) : List Tether := s.tethers.filter fun t => decide (t.owner = some k)

/-- A fault that its owner has not seen (R189). -/
def Tether.owes (t : Tether) : Bool := decide (t.state = .faulted) && !t.delivered

/-- Retire each of some tethers. -/
def State.retireAll (s : State) : List Tether → State
  | [] => s
  | t :: ts => (s.retire (tetherToken t)).retireAll ts

/-- The tether lowest by die and then by index. -/
def lowestTether : List Tether → Option Tether
  | [] => none
  | t :: ts =>
    match lowestTether ts with
    | none => some t
    | some u => if t.die * 4096 + t.index ≤ u.die * 4096 + u.index then some t else some u

/-- Step 3: wait until every attached tether is final, deliver the faults in order, retire the others. -/
def State.endTethers (s : State) : Run State :=
  let mine := s.attachedTo s.thr.key
  let s1 := s.retireAll (mine.filter fun t => tetherFinal t && !t.owes)
  if mine.any (fun t => !tetherFinal t) then .error (.park s1 .attached)
  else
    match lowestTether (mine.filter Tether.owes) with
    | none => .ok s1
    | some t => raise (s1.mapTether (tetherToken t) fun t => { t with delivered := true }) .tetherFault (tetherToken t)

/-- The thread leaves every group it belongs to (R161). -/
def State.leaveGroups (s : State) : State :=
  { s with groups := s.groups.map fun (k, g) => (k, if k.1 = s.thr.groupOwner then g.leave s.thr.key else g) }

/-- A launch that no longer exists has no groups. -/
def State.dropGroups (s : State) (o : ThreadKey) : State := { s with groups := s.groups.filter fun e => decide (e.1.1 ≠ o) }

/-- A requester with a thread renamed: what peers still answer to that thread serves nothing. -/
def Requester.rename (k dead : ThreadKey) (w : Requester) : Requester :=
  match w with
  | .thread t _ _ _ | .stale t => if t = k then .stale dead else w
  | .store t n => if t = k then .store dead n else w
  | _ => w

/-- Tethers that a thread issued, owned or detached, the entries that it pushed and the requests that it sent no longer belong to
a living thread, nor to a later one of the same name (R164, R249, R278). -/
def State.forgetThread (s : State) (k : ThreadKey) : State :=
  let dead : ThreadKey := ⟨k.part, k.proc, BitVec.allOnes 64, s.clock⟩
  let e (x : QEntry) : QEntry := if x.producer = k then { x with producer := dead } else x
  let q (h : HwQueue) : HwQueue := { h with entries := h.entries.map e }
  let p (u : Process) : Process := { u with queues := u.queues.map fun x => (x.1, q x.2) }
  let w (t : Thread) : Thread := { t with popped := t.popped.map fun x => (x.1, e x.2) }
  let f (t : Tether) : Tether :=
    { t with issuer := if t.issuer = k then dead else t.issuer, owner := if t.owner = some k then some dead else t.owner,
             detacher := if t.detacher = some k then some dead else t.detacher }
  { s.mapThreads w with
    tethers := s.tethers.map f, clock := s.clock + 1, procs := s.procs.map fun x => (x.1, p x.2)
    requests := s.requests.map fun r => { r with who := r.who.rename k dead } }

/-- The thread that has the turn is gone: its slot, its place and its storage are free, and its launch counts it. `change`
changes the launch's record beside the count. -/
def State.endThread (s : State) (change : Launch → Launch) : State :=
  let t := s.thr
  let p := s.thrPr
  let s1 := (s.removeFromCore t).setThrPr { p with slots := p.slots.erase t.slot }
  let s1 := { s1 with badReg := s1.badReg.filter fun e => decide (e.1 ≠ t.key), badCsa := s1.badCsa.filter fun e => decide (e.1 ≠ t.key) }
  let s2 := s1.mapThr fun t => { t with life := .ended, lanes := [], localStore := [], csa := [], binds := [], window := none,
                                        preds := none, awaiting := [], popped := [], micro := none, vq := [],
                                        sq := [], peerData := [], begun := none }
  let note (l : Launch) : Launch :=
    change { l with ended := l.ended + 1, triggered := l.triggered + (if t.triggered then 0 else 1) }
  let s3 := (s2.mapTether t.key.launch fun u => { u with launch := u.launch.map note }).settleLaunch t.key.launch
  let s4 := s3.forgetThread t.key
  match s4.tetherAny? t.key.launch with
  | some u => if tetherFinal u then s4.dropGroups t.groupOwner else s4
  | none => s4.dropGroups t.groupOwner

/-- EXIT (R218). -/
def execExitThread (s : State) : Host.Outcome State Fault Refusal :=
  systemOp wordExitThread (!s.thr.supervisor) [] s fun s => do
    let s1 ← s.fold wordExitThread
    let s2 ← s1.endTethers
    let s3 ← (s2.leaveGroups.mapThr fun t =>
      { t with preds := none, binds := [], tshape := Vector.replicate 8 0, tdirty := 0 }).drain
    .ok (s3.endThread id)

/-- The thread goes to the end of its core's round-robin (R241). -/
def State.toEnd (s : State) : State :=
  let c := s.core s.thr.core
  if c.order.contains s.thr.key then s.setCore s.thr.core { c with order := c.order.erase s.thr.key ++ [s.thr.key] } else s

/-- YIELD (R215). -/
def execYield (s : State) : Host.Outcome State Fault Refusal :=
  systemOp wordYield true [] s fun s => .ok s.toEnd

/-! ### Launches (R219, R220) -/

/-- The record, its object header and its kernel header, in that order, with their traps (R219, R337) (DEDUCED, log 35). -/
def State.readLaunch (s : State) (ea : Word) : Run (LaunchRecord × ObjHeader × Header) := do
  if ea.toNat % 64 ≠ 0 then raise s .align ea
  let rb ← s.readSpan .load ea 64
  let r := recordOf rb
  need s r.ok .illegal ea
  let ob ← s.readSpan .load (BitVec.ofNat 64 r.obj) 64
  match r.object ob with
  | none => raise s .illegal ea
  | some o => do
    let kb ← s.readSpan .load (BitVec.ofNat 64 r.headerAt) 64
    need s (r.headerFits s.thrPr o kb) .illegal ea
    .ok (r, o, headerOf kb)

/-- LAUNCH (R219). -/
def execLaunch (d a : Reg) (s : State) : Host.Outcome State Fault Refusal :=
  systemOp (wordLaunch d a) (!s.thr.supervisor) [a] s fun s => do
    let (r, o, h) ← s.readLaunch (s.xr a)
    let s1 ← s.drain
    let t := s1.thr
    if s1.tableRoom t.key.part t.core.die then .ok () else .error (.park s1 (.entry t.core.die))
    let prio : BitVec 3 := if r.prio.toNat ≤ t.launchPrio.toNat then r.prio else t.launchPrio
    let l := r.launch o h prio (s1.liveDeps t.key.part t.key.proc r) false
    let (s2, tok) := s1.addLaunch t.key.part t.key.proc t.core.die t.key t.core (some t.key) l
    .ok ((s2.setX d tok).mapThr fun t => t.count 13 1)

/-- TRIGGER (R220). -/
def execTrigger (s : State) : Host.Outcome State Fault Refusal :=
  systemOp wordTrigger (!s.thr.supervisor) [] s fun s => do
    let s1 ← s.drain
    let note (l : Launch) : Launch := { l with triggered := l.triggered + 1 }
    .ok (if s1.thr.triggered then s1
      else (s1.mapTether s1.thr.key.launch fun u => { u with launch := u.launch.map note }).mapThr
          fun t => { t with triggered := true })

end Sys2Proof.Machine
end

