-- ==== Sys2Proof/Machine/Place.lean ====
section
/-! DEFINITION. Where a dispatcher may place a thread (R229, R230, R240, R245, R247, R345 to R347, R361). -/
namespace Sys2Proof.Machine

/-! ### Lane groups (R229) -/

/-- Threads resident on a core. -/
def State.residents (s : State) (c : CoreId) : List Thread := s.threads.filter fun t => t.resident && decide (t.core = c)

/-- Serving lane groups of a cluster. -/
def Core.serving (c : Core) (cluster : Nat) : List Nat := ((List.range 4).map (4 * cluster + ·)).filter fun g => !c.lret.getLsbD g

/-- Clusters that a resident thread occupies, whole or in part. -/
def clustersOf (t : Thread) : List Nat := (t.lanes.map (· / 4)).eraseDups

/-- The clusters that a class may take as one, in cluster order. -/
def classClusters (cls : Nat) : List (List Nat) :=
  match cls with | 1 => [[0], [1], [2], [3]] | 2 => [[0, 1], [2, 3]] | _ => [[0, 1, 2, 3]]

/-- The lane groups that a thread of a class could take on a core beside some resident threads. -/
def Core.laneChoices (c : Core) (cls : Nat) (there : List Thread) : List (List Nat) :=
  if cls = 0 then
    ((List.range 16).filter fun g =>
      !c.lret.getLsbD g && !(there.any fun t => t.lanes.contains g || (decide (t.cls ≠ 0) && (clustersOf t).contains (g / 4)))).map
      fun g => [g]
  else
    ((classClusters cls).filter fun cl =>
      cl.all fun k => decide (2 ≤ (c.serving k).length) && !there.any fun t => (clustersOf t).contains k).map
      fun cl => cl.flatMap c.serving

/-! ### A thread to place -/

/-- What a dispatcher looks at: partition, header, cores it may not use, the least VLEN it may have, and the die whose CSA it
already holds. -/
structure Placing where
  part : Nat
  hdr : Header
  avoid : List CoreId
  minVlen : Nat
  csaDie : Option Nat
  deriving DecidableEq, Repr

/-- The die on which a thread waits has a free CSA, or is the one whose CSA it holds (R361). -/
def State.csaRoom (s : State) (p : Placing) (die : Nat) : Bool :=
  decide (p.csaDie = some die) || decide ((s.threads.filter fun t => t.live && decide (t.core.die = die)).length < 2048)

/-- A core that may ever hold the thread: enabled, owned and not being released, its mask covers USEMASK (R345, R397). -/
def State.coreSuits (s : State) (p : Placing) (c : CoreId) : Bool :=
  let k := s.core c
  k.enabled && k.ownedBy p.part && !(s.part p.part).releasing.contains c && k.covers p.hdr.usemask && !p.avoid.contains c

/-- The lane groups that a thread could take on a core beside some threads (R345, R247, R366). -/
def State.fitBeside (s : State) (p : Placing) (c : CoreId) (there : List Thread) : List (List Nat) :=
  let stores := (there.filter fun t => decide (t.key.part = p.part)).map fun t => t.hdr.lstore + t.hdr.churnb
  if s.coreSuits p c && decide (there.length < 16) && decide (p.hdr.lstore + p.hdr.churnb + stores.foldl (· + ·) 0 ≤ 524288) then
    ((s.core c).laneChoices p.hdr.width there).filter fun l => decide (p.minVlen ≤ 1024 * l.length)
  else []

/-- The lane groups that a thread can take on a core now. -/
def State.fits (s : State) (p : Placing) (c : CoreId) : List (List Nat) :=
  if (s.core c).retiring.isEmpty && s.csaRoom p c.die then s.fitBeside p c (s.residents c) else []

/-- Cores that a partition owns. -/
def State.ownedCores (s : State) (part : Nat) : List CoreId := (s.cores.filter fun e => e.2.ownedBy part).map Prod.fst

/-! ### Capacity (R240, R347) -/

/-- Threads of a launch that a core could hold with no other thread resident, counted by placing them one by one. -/
def State.holdsUpTo (s : State) (p : Placing) (c : CoreId) : Nat → List Thread → Nat
  | 0, _ => 0
  | n + 1, there =>
    match s.fitBeside p c there with
    | [] => 0
    | l :: _ =>
      let t : Thread := { Thread.fresh with key := ⟨p.part, 0, 0, there.length⟩, lanes := l, cls := p.hdr.width, hdr := p.hdr }
      State.holdsUpTo s p c n (t :: there) + 1

/-- The capacity of a launch. -/
def State.capacity (s : State) (p : Placing) : Nat := ((s.ownedCores p.part).map fun c => s.holdsUpTo p c 16 []).foldl (· + ·) 0

/-! ### Threads that wait (R346, R349, R370) -/

/-- How a waiting thread is to be placed. -/
def placingOf (t : Thread) : Placing :=
  ⟨t.key.part, t.hdr, t.avoid, if t.ffcause.getLsbD 63 then t.vlen else 0, some t.core.die⟩
def launchPlacing (part : Nat) (l : Launch) : Placing := ⟨part, l.hdr, [], 0, none⟩

/-- A launch that has a thread to spawn (R342, R343). -/
def Tether.toSpawn (t : Tether) : Option Launch :=
  match t.launch with
  | some l =>
    if t.state = .running ∧ t.cancelling = false ∧ l.eligible.isSome = true ∧ l.spawnFault = none ∧ l.spawned < l.n then some l else none
  | none => none

/-- A thread that waits to be placed again. -/
def Thread.waits (t : Thread) : Bool := decide (t.life = .preempted) && !t.held && t.wish.isNone

/-- A thread slot of a process that no thread uses (R420). -/
def Process.freeSlots (p : Process) : List Nat := if p.areaV then (List.range p.slotCount).filter fun i => !p.slots.contains i else []

/-- True of a handler-table entry that may spawn (R349). -/
def State.runnable (s : State) (h : HandlerEntry) : Bool :=
  (match Assoc.get? (s.proc h.part h.proc).queues h.queue with | some q => !q.entries.isEmpty | none => false) &&
  (s.thread? ⟨h.part, h.proc, 0, h.queue⟩).isNone

/-- The kernel header that an entry binds, when it can be read; used only to see whether the thread fits. -/
def State.peekHeader (s : State) (die : Nat) (h : HandlerEntry) : Option Header :=
  match s.dispatchRead (handlerReader h) die h.part h.proc .load h.header 64 with
  | .ok bs => some (headerOf bs)
  | .error _ => none

/-- A place in the order of R346: group, priority from the highest, then order of arrival, for handler entries their number
(DESIGN CHOICE, log 97). -/
structure Rank where
  group : Nat
  low : Nat
  since : Nat
  deriving DecidableEq, Repr

def Rank.before (a b : Rank) : Bool :=
  decide (a.group < b.group ∨ (a.group = b.group ∧ (a.low < b.low ∨ (a.low = b.low ∧ a.since < b.since))))

/-- Waiting threads of a partition with their ranks and how they are to be placed; handler entries only on their core. The
priority of a launch is that of its record, whatever `tsetpri` makes its tether's (R194, R346; DESIGN CHOICE, log 73). -/
def State.waitingOf (s : State) (part : Nat) (core : CoreId) : List (Waiting × Rank × Placing) :=
  let pre := (s.threads.filter fun t => t.waits && decide (t.key.part = part)).map fun t =>
    (Waiting.preempted t.key, (⟨1, 7 - t.prio.toNat, t.queued⟩ : Rank), placingOf t)
  let han := ((s.core core).handlers.filter fun e => decide (e.2.part = part) && s.runnable e.2).filterMap fun (i, h) =>
    match s.peekHeader core.die h with
    | some k => if (s.proc h.part h.proc).freeSlots = [] then none
      else some (Waiting.handler core i, (⟨2, 7 - h.prio.toNat, i⟩ : Rank), (⟨part, k, [], 0, none⟩ : Placing))
    | none => none
  let lau := s.tethers.filterMap fun t =>
    if t.part = part ∧ (s.proc t.part t.proc).freeSlots ≠ [] then
      t.toSpawn.map fun l => (Waiting.unspawned (tetherToken t), (⟨3, 7 - l.prio.toNat, l.eligible.getD 0⟩ : Rank), launchPlacing part l)
    else none
  pre ++ han ++ lau

/-- The waiting thread of a name. -/
def State.waiting? (s : State) (part : Nat) (core : CoreId) (w : Waiting) : Option (Rank × Placing) :=
  ((s.waitingOf part core).find? fun e => decide (e.1 = w)).map Prod.snd

/-- A handler entry waits for its own core, any other thread for every core. -/
def waitsFor (w : Waiting) (core : CoreId) : Bool := match w with | .handler c _ => decide (c = core) | _ => true

/-- True when a hold of the partition keeps a waiting thread of a rank off a core: the held thread could fit there, and it is
not one that comes later than a held thread of that rank (R346; DEDUCED, log 15). -/
def State.heldBack (s : State) (part : Nat) (core : CoreId) (w : Waiting) (r : Rank) : Bool :=
  s.holds.any fun (p, x) => decide (p = part ∧ x ≠ w) &&
    match s.waiting? part core x with
    | some (q, pl) =>
      waitsFor x core && decide (s.fitBeside pl core [] ≠ []) && !(s.holds.contains (part, w) && r.before q)
    | none => false

/-- True when no thread of the partition that comes earlier in the order fits a core of the die on which no hold keeps it off
(R346). -/
def State.firstInLine (s : State) (part : Nat) (core : CoreId) (r : Rank) : Bool :=
  let cores := (s.ownedCores part).filter fun c => decide (c.die = core.die)
  cores.all fun c => (s.waitingOf part c).all fun e =>
    !(e.2.1.before r && waitsFor e.1 c && decide (s.fits e.2.2 c ≠ []) && !s.heldBack part c e.1 e.2.1)

/-- The lane groups among which a dispatcher chooses for a waiting thread on a core, empty when it may not place it there. -/
def State.placeChoices (s : State) (part : Nat) (core : CoreId) (w : Waiting) : List (List Nat) :=
  match s.waiting? part core w with
  | some (r, p) =>
    if (s.part part).run && s.firmware.activating.isNone && s.firstInLine part core r && !s.heldBack part core w r then s.fits p core else []
  | none => []

/-- A hold ends when its thread is placed. -/
def State.endHold (s : State) (part : Nat) (w : Waiting) : State := { s with holds := s.holds.filter fun h => decide (h ≠ (part, w)) }

/-- PASSED_THREAD_HOLD (R346): a waiting thread that fits nowhere it may run has waited its time; DEDUCED, log 15. -/
def execPassedThreadHold (part : Nat) (w : Waiting) (s : State) : Host.Outcome State Fault Refusal :=
  let home : CoreId := match w with | .handler c _ => c | _ => ⟨0, 0⟩
  .next (match s.waiting? part home w with
    | some (_, p) =>
      if (s.ownedCores part).all (fun c => !waitsFor w c || decide (s.fits p c = [])) && !s.holds.contains (part, w) then
        { s with holds := s.holds ++ [(part, w)] }
      else s
    | none => s)

end Sys2Proof.Machine
end

