-- ==== Sys2Proof/Machine/Sched.lean ====
section
/-! DEFINITION. The life of threads: spawn, resumption, pre-emption, wake and eligibility (R228, R231, R232, R241, R342 to
R350, R364 to R366, R418 to R420). -/
namespace Sys2Proof.Machine

/-! ### Acting on a thread that does not have the turn -/

/-- `f` with a thread given the turn, which then goes back. -/
def State.onThread (s : State) (k : ThreadKey) (f : State → State) : State :=
  if (s.thread? k).isSome then (f (s.giveTurn k)).giveTurn s.thr.key else s

/-- A new thread joins. -/
def State.addThread (s : State) (t : Thread) : State := { s with others := s.others ++ [t] }

/-- A thread takes its place on a core: its lane groups, its figures and its place at the end of the issue order (R47, R345; DESIGN
CHOICE, log 92). -/
def State.seat (s : State) (t : Thread) (c : CoreId) (lanes : List Nat) : State × Thread :=
  let k := s.core c
  let u := { t with core := c, lanes := lanes, vlen := 1024 * lanes.length, mcols := k.mcols, capmask := k.cap,
                    life := .ready, placed := s.clock, passed := 0, boosted := none, told := false }
  (({ s.setCore c { k with order := k.order ++ [t.key] } with clock := s.clock + 1 }).devCount c.die 12 1, u)

/-- The graphs of the kernel's FSLOTS are loaded into idle planes (R345). -/
def State.loadSlots (s : State) (c : CoreId) (k : ThreadKey) (h : Header) : State :=
  (bitsOf 16 h.fslots.toNat).foldl (fun s n => (s.startLoad c k.part k.proc n).1) s

/-! ### Spawn (R228, R332, R345, R350, R420) -/

/-- What a spawn needs beside the placement. -/
structure SpawnInfo where
  key : ThreadKey
  hdr : Header
  pc : Nat
  linkTable : Nat
  obj : Nat
  args : Word
  n : Nat
  prio : BitVec 3
  deriving DecidableEq, Repr

/-- The doublewords of a thread block (R332). -/
def threadBlock (i : SpawnInfo) (p : Process) (base : Nat) : List Word :=
  [i.args, BitVec.ofNat 64 i.n, BitVec.ofNat 64 (base + 131072), BitVec.ofNat 64 (base + p.slotSize),
   BitVec.ofNat 64 (if p.areaTls then base + 4096 else 0), BitVec.ofNat 64 i.obj, 0, 0]

/-- A thread as it starts (R228). -/
def newThread (i : SpawnInfo) (p : Process) (slot base : Nat) (ver : Word) : Thread :=
  { Thread.fresh with
    key := i.key, pc := BitVec.ofNat 64 i.pc, cls := i.hdr.width, hdr := i.hdr, prio := i.prio, launchPrio := i.prio, slot := slot,
    fver := ver, savedVer := ver,
    x := (((Thread.fresh.x.set 2 (BitVec.ofNat 64 (base + p.slotSize))).set 3 (BitVec.ofNat 64 i.linkTable)).set 4
      (BitVec.ofNat 64 base)) }

/-- Spawn a thread in a slot with its lane groups, or say how the write of its thread block failed. -/
def State.spawn (s : State) (reader : Word) (i : SpawnInfo) (c : CoreId) (lanes : List Nat) (slot : Nat) : Except DispatchStop State :=
  let p := s.proc i.key.part i.key.proc
  let base := p.areaBase + slot * p.slotSize
  match s.dispatchWrite reader c.die i.key (BitVec.ofNat 64 base) (wordsToBytes (threadBlock i p base)) with
  | .error e => .error e
  | .ok s1 =>
    let q := s1.proc i.key.part i.key.proc
    let s2 := s1.setProc i.key.part i.key.proc { q with slots := q.slots ++ [slot] }
    let (s3, t) := s2.seat (newThread i p slot base s.dfver) c lanes
    .ok (((s3.addThread t).loadSlots c i.key i.hdr).dropDispatched reader)

/-- THREAD_SPAWN (R345, R420): the next thread of an eligible launch on a core. A dispatcher that waits for a peer goes on when the event
occurs again (R380). -/
def execThreadSpawn (token : Word) (core : CoreId) (s : State) : Host.Outcome State Fault Refusal :=
  .next (match s.tetherAny? token with
    | none => s
    | some t =>
      match t.toSpawn, s.placeChoices t.part core (.unspawned token), (s.proc t.part t.proc).freeSlots with
      | some l, lanes :: more, slot :: slots =>
        let (lanes', s1) := s.choose (lanes :: more) lanes
        let (slot', s2) := s1.choose (slot :: slots) slot
        let info : SpawnInfo := ⟨⟨t.part, t.proc, token, l.spawned⟩, l.hdr, l.textBase + l.hdr.entry, l.linkTable, l.obj, l.args, l.n, l.prio⟩
        let note (f : Launch → Launch) (s : State) : State := s.mapTether token fun u => { u with launch := u.launch.map f }
        (match s2.spawn (spawnReader token) info core lanes' slot' with
        | .error (.wait s3) => s3
        | .error (.fault c a) =>
          (note (fun l => { l with spawnFault := some (TCause.code (tetherCause c), a) }) (s2.dropDispatched (spawnReader token))).settleLaunch token
        | .ok s3 => (note (fun l => { l with spawned := l.spawned + 1 }) s3).endHold t.part (.unspawned token))
      | _, _, _ => s)

/-- The entry of a handler thread that could not start is freed, and the fault FIFO says why (R419, R351) (DEDUCED, log 51). -/
def State.handlerFails (s : State) (core : CoreId) (entry : Nat) (h : HandlerEntry) (cause : TrapCause) : State :=
  let s := s.dropDispatched (handlerReader h)
  let c := s.core core
  (s.setCore core { c with handlers := Assoc.drop c.handlers entry }).report h.part
    { w0 := fifoW0 7 core.die (some h.proc) (some core.site), w1 := BitVec.ofNat 64 h.queue,
      w2 := BitVec.ofNat 64 (causeCode cause * 2 ^ 24), w3 := 0 }

/-- The headers of a handler kernel under the checks of R419: the object and its header, and the kernel header. -/
def State.handlerKernel (s : State) (die : Nat) (h : HandlerEntry) : Except DispatchStop (Nat × ObjHeader × Header) :=
  match s.dispatchRead (handlerReader h) die h.part h.proc .load h.header 64 with
  | .error e => .error e
  | .ok kb =>
    let k := headerOf kb
    let o : Word := h.header - 64 - BitVec.ofNat 64 (64 * k.order)
    if o.toNat % 64 ≠ 0 then .error (.fault .illegal o)
    else
      match s.dispatchRead (handlerReader h) die h.part h.proc .load o 64 with
      | .error e => .error e
      | .ok ob =>
        match objHeader ob with
        | some oh => if headerOk kb oh && (s.proc h.part h.proc).holdsStack k then .ok (o.toNat, oh, k) else .error (.fault .illegal o)
        | none => .error (.fault .illegal o)

/-- HANDLER_SPAWN (R349, R350, R419). A dispatcher that waits for a peer goes on when the event occurs again (R380). -/
def execHandlerSpawn (core : CoreId) (entry : Nat) (s : State) : Host.Outcome State Fault Refusal :=
  .next (match Assoc.get? (s.core core).handlers entry with
    | none => s
    | some h =>
      if !(s.runnable h && (s.part h.part).run) || decide ((s.proc h.part h.proc).freeSlots = []) then s
      else
        match s.handlerKernel core.die h with
        | .error (.wait s1) => s1
        | .error (.fault c _) => s.handlerFails core entry h c
        | .ok (o, oh, k) =>
          match s.placeChoices h.part core (.handler core entry), (s.proc h.part h.proc).freeSlots with
          | lanes :: more, slot :: slots =>
            let (lanes', s1) := s.choose (lanes :: more) lanes
            let (slot', s2) := s1.choose (slot :: slots) slot
            let info : SpawnInfo := ⟨⟨h.part, h.proc, 0, h.queue⟩, k, textBaseOf o oh + k.entry, linkTableOf o oh, o,
                                     BitVec.ofNat 64 h.queue, 1, h.prio⟩
            (match s2.spawn (handlerReader h) info core lanes' slot' with
            | .error (.wait s3) => s3
            | .error (.fault c _) => s2.handlerFails core entry h c
            | .ok s3 => s3.endHold h.part (.handler core entry))
          | _, _ => s)

/-! ### Resumption (R365, R366, R370, R418) -/

/-- Vector state from the CSA under a new VLEN: low bits of the saved values, added bits 0 (R366). -/
def Thread.resumeVector (t : Thread) (old : Nat) : Thread :=
  let u := { t with vlen := min old t.vlen }.loadVector
  let mx := vlmaxOf u.vtype t.vlen
  { u with vlen := t.vlen, vl := min (t.csaWord 0x120).toNat mx, vlb := min (t.csaWord 0x128).toNat mx, tdirty := 0 }

/-- The control doublewords after the vector state (R362). -/
def Thread.resumeControl (t : Thread) : Thread :=
  { t with
    ffcause := t.csaWord 0x150 &&& 0x8000000000000FFF
    ffaddr := t.csaWord 0x158
    ffidx := Vector.ofFn fun i : Fin 8 => t.csaWord (0x160 + 8 * i.val)
    evsel := Vector.ofFn fun i : Fin 8 =>
      let w := t.csaWord (0x1A0 + 8 * i.val)
      if w.toNat % 256 ≤ 15 then w.truncate 9 else t.evsel[i.val]
    evcnt := Vector.ofFn fun i : Fin 8 => t.csaWord (0x1E0 + 8 * i.val) }

/-- Registers of user code from the CSA: x registers, FCSR and PRIO under their write rules, and the PC (R418). -/
def Thread.resumeUser (t : Thread) : Thread :=
  let u := t.loadX 0
  { u with fcsr := fcsrWrite t.fcsr (t.csaWord 0x100), pc := t.csaWord 0x108, supervisor := false }.keepAwaited

/-- A handler that was pre-empted goes on (R365); one that RESUME sends back enters afresh (R370). -/
def Thread.resumeHandler (t : Thread) (hentry : Word) : Thread :=
  if t.afresh then
    let frm := fcsrFrm (fcsrWrite t.fcsr (t.csaWord 0x100))
    { (t.loadTrap) with x := handlerX, pc := hentry, fcsr := frm ++ (0 : BitVec 5), supervisor := true, afresh := false }.keepAwaited
  else
    let u := (t.loadX 0x300).loadTrap
    { u with pc := t.csaWord 0x108, supervisor := true }.keepAwaited

/-- True when the CSA was saved in a handler. -/
def Thread.inHandler (t : Thread) : Bool := t.afresh || (t.csaWord 0x118).getLsbD 0

/-- A thread restored from its CSA after it has taken its seat; `old` is the thread as it waited (R366). -/
def Thread.restore (t old : Thread) (hentry : Word) (ver : Bool) : Thread :=
  let u := (t.resumeVector old.vlen).resumeControl
  let u1 := if u.inHandler then u.resumeHandler hentry else u.resumeUser
  let p : BitVec 3 := (t.csaWord 0x110).truncate 3
  { u1 with prio := if p.toNat ≤ t.launchPrio.toNat then p else t.launchPrio, claimed := false
            migrated := old.migrated || ver || decide (t.core ≠ old.core ∨ t.vlen ≠ old.vlen ∨ t.mcols ≠ old.mcols ∨ t.capmask ≠ old.capmask) }

/-- What the restore of a thread reads of its CSA (R362, R366). -/
def Thread.resumeRanges (t : Thread) : List Range :=
  t.vectorRanges ++ ⟨0x108, 24⟩ :: ⟨0x150, 0xD0⟩ ::
    (if !t.inHandler then [⟨8, 248⟩, ⟨0x100, 8⟩] else if t.afresh then [⟨0x280, 48⟩, ⟨0x100, 8⟩] else [⟨0x308, 248⟩, ⟨0x280, 48⟩])

/-- A thread that cannot be restored is HALTED (R390, R418). -/
def State.haltWaiting (s : State) (k : ThreadKey) (e : FifoEntry) : State :=
  (s.mapThread k fun t => { t with life := .halted, afresh := false }).report k.part e

/-- THREAD_RESUME (R346, R361, R366, R418). -/
def execThreadResume (t : ThreadKey) (core : CoreId) (s : State) : Host.Outcome State Fault Refusal :=
  .next (match s.thread? t with
    | none => s
    | some u =>
      match s.placeChoices t.part core (.preempted t) with
      | [] => s
      | lanes :: more =>
        let site := some u.core.site
        if s.badRestored t u.resumeRanges then
          s.haltWaiting t { w0 := fifoW0 3 u.core.die (some t.proc) site, w1 := 0, w2 := 0, w3 := 11 }
        else
          match u.badRestore with
          | some _ =>
            s.haltWaiting t { w0 := fifoW0 2 u.core.die (some t.proc) site, w1 := t.launch,
                              w2 := BitVec.ofNat 64 (t.index % 2 ^ 24 + causeCode .illegal * 2 ^ 24), w3 := u.csaWord 0x108 }
          | none =>
            let (lanes', s1) := s.choose (lanes :: more) lanes
            let (s2, v) := s1.seat u core lanes'
            let ver := decide (u.savedVer.toNat < s.fwver.toNat ∨ u.savedVer.toNat < (s.core u.core).changed.toNat)
            let w := v.restore u (s.part t.part).entry ver
            ((s2.mapThread t fun _ => w).loadSlots core t u.hdr).endHold t.part (.preempted t))

/-! ### Pre-emption (R232, R364, R365) -/

/-- True of a running `fop` that a pre-emption may stop (R310). -/
def State.fopStops (s : State) (t : Thread) : Bool :=
  match (s.core t.core).run with
  | some r => decide (r.thread = t.key) && !r.events.contains .preempt
  | none => false

/-- A pre-emption request is served, as far as the thread can be taken now: not while its handler has claimed (R365) or its
instruction has begun to perform (R235; DEDUCED, log 16), a `fop` is
stopped first (R310), and the RUNNING tethers of its core that it owns are brought to their boundaries (R232, R280). What peers
have answered to its instruction, or will, stays with it (DEDUCED, log 16). -/
def State.preempt (s : State) (k : ThreadKey) : State :=
  match s.thread? k with
  | none => s
  | some t =>
    match t.wish with
    | none => s
    | some held =>
      if !t.resident then s.mapThread k fun t => { t with wish := none }
      else if t.supervisor && t.claimed || t.begun.isSome then s
      else
        if t.onFop then
          if s.fopStops t then
            let c := s.core t.core
            s.setCore t.core { c with run := c.run.map fun r => { r with events := r.events ++ [.preempt] } }
          else s
        else if s.tethers.any (fun x => x.leftBy t && !s.atBoundary x) then s
        else s.onThread k fun s => (s.leave .preempted).mapThr fun t => { t with held := held, wish := none }

/-- THREAD_PREEMPTION (R364). -/
def execThreadPreemption (t : ThreadKey) (s : State) : Host.Outcome State Fault Refusal := .next (s.preempt t)

/-! ### Quantum boundaries (R348) -/

/-- Lowest PRIO first, then the most recently placed. -/
def firstVictim : List Thread → Option Thread
  | [] => none
  | t :: ts =>
    match firstVictim ts with
    | none => some t
    | some u => if t.prio.toNat < u.prio.toNat ∨ (t.prio = u.prio ∧ u.placed < t.placed) then some t else some u

/-- Victims of a partition, in order, until a waiting thread fits. -/
def State.victims (s : State) (p : Placing) (c : CoreId) (part : Nat) : Nat → List Thread → List ThreadKey
  | 0, _ => []
  | n + 1, there =>
    if s.fitBeside p c there ≠ [] then []
    else
      match firstVictim (there.filter fun t => decide (t.key.part = part)) with
      | none => []
      | some v => v.key :: State.victims s p c part n (there.filter fun t => decide (t.key ≠ v.key))

/-- The weight of a partition (R375). -/
def Partition.weight (p : Partition) : Nat := bitsAt p.quantum.toNat 0 7

/-- The partition furthest above its share: the greatest excess of cycles × Σw over weight × total. -/
def furthest (l : List (Nat × Int)) : Option (Nat × Int) :=
  match l with
  | [] => none
  | e :: r =>
    match furthest r with
    | none => some e
    | some f => if f.2 ≤ e.2 then some e else some f

/-- The first waiting thread of a partition that the core could hold. -/
def State.couldHold (s : State) (part : Nat) (core : CoreId) : Option Placing :=
  let l := (s.waitingOf part core).filter fun e => decide (s.fitBeside e.2.2 core [] ≠ [])
  (l.find? fun e => l.all fun f => !f.2.1.before e.2.1).map fun e => e.2.2

/-- One partition's check at a quantum boundary: victims are asked to leave. -/
def State.quantumFor (s : State) (core : CoreId) (shares : List (Nat × Nat)) (sumW total part : Nat) : State :=
  let cycles (p : Nat) : Nat := Assoc.getD shares p 0
  let w (p : Nat) : Nat := (s.part p).weight
  match s.couldHold part core with
  | none => s
  | some pl =>
    if decide (cycles part * sumW < w part * total) && decide (s.fits pl core = []) then
      let aboveShare := ((shares.map Prod.fst).filter fun p => decide (p ≠ part)).map fun p =>
        (p, (cycles p * sumW : Nat) - ((w p * total : Nat) : Int))
      match furthest aboveShare with
      | some (v, x) =>
        if 0 < x then
          let gone := s.victims pl core v 16 (s.residents core)
          s.askLeave fun t => gone.contains t.key
        else s
      | none => s
    else s

/-- QUANTUM_BOUNDARY (R348): `shares` holds the lane-group cycles of each partition over the last quantum (DEDUCED, log 59). -/
def execQuantumBoundary (core : CoreId) (shares : List (Nat × Nat)) (s : State) : Host.Outcome State Fault Refusal :=
  let owners := ((s.core core).banks.toList.filterMap id).eraseDups
  let here := owners.filter fun p =>
    (s.residents core).any (fun t => decide (t.key.part = p)) || decide (s.waitingOf p core ≠ [])
  let sumW := (here.map fun p => (s.part p).weight).foldl (· + ·) 0
  let total := (shares.map Prod.snd).foldl (· + ·) 0
  .next (if 2 ≤ owners.length then here.foldl (fun s p => s.quantumFor core shares sumW total p) s else s)

/-! ### Eligibility (R270, R342, R343, R347) -/

/-- A launch has reached its trigger point, or is DONE, or is gone (R220, R342). -/
def State.triggerReached (s : State) (part pr : Nat) (tok : Word) : Bool :=
  match s.tether? part pr tok with
  | none => true
  | some t =>
    decide (t.state = .done) ||
    match t.launch with
    | some l => l.eligible.isSome && decide (l.n ≤ l.triggered) && decide (t.state = .running)
    | none => false

/-- Every dependence of a launch holds. -/
def State.depsHold (s : State) (t : Tether) (l : Launch) : Bool :=
  let (first, rest) := if l.early then (l.deps.take 1, l.deps.drop 1) else ([], l.deps)
  first.all (fun d => s.triggerReached t.part t.proc d) &&
  rest.all fun d => match s.tether? t.part t.proc d with | some q => decide (q.state = .done) | none => true

/-- An older launch of the same thread at the same priority waits (R219, R342). -/
def State.olderLaunch (s : State) (t : Tether) : Bool :=
  s.tethers.any fun u => decide (u.kind = .kernel ∧ u.state = .queued ∧ u.issuer = t.issuer ∧ u.prio = t.prio ∧ u.arrival < t.arrival)

/-- NOFIT or UNPLACEABLE at eligibility (R347). -/
def State.reportFit (s : State) (t : Tether) (l : Launch) : State :=
  let cap := s.capacity (launchPlacing t.part l)
  let w0 (k : Nat) : Word := fifoW0 k t.die (some t.proc) none
  if cap = 0 then s.report t.part { w0 := w0 6, w1 := tetherToken t, w2 := l.hdr.usemask, w3 := 0 }
  else if cap < l.n then
    s.report t.part { w0 := w0 5, w1 := tetherToken t, w2 := BitVec.ofNat 64 cap, w3 := BitVec.ofNat 64 l.n }
  else s

/-- The launch is eligible with its thread count. -/
def State.eligibleWith (s : State) (t : Tether) (l : Launch) (n : Nat) : State :=
  let tok := tetherToken t
  let l1 := { l with n := n, eligible := some s.clock }
  let s1 := { (s.mapTether tok fun u => { u with state := .running, launch := some l1 }) with clock := s.clock + 1 }
  let s2 := s1.devCount t.die 11 1
  if n = 0 then s2.finish tok .done .none else s2.reportFit t l1

/-- True when a launch becomes eligible (R342). -/
def State.mayStart (s : State) (t : Tether) (l : Launch) : Bool :=
  decide (t.state = .queued) && s.depsHold t l && (l.fromFifo || !s.olderLaunch t) && (s.part t.part).run

/-- LAUNCH_ELIGIBLE (R342, R343, R347). A count that a peer holds is asked for, and the event occurs again when it has answered (R276,
R380). -/
def execLaunchEligible (token : Word) (s : State) : Host.Outcome State Fault Refusal :=
  .next (match s.tetherAny? token with
    | none => s
    | some t =>
      match t.launch with
      | none => s
      | some l =>
        if !s.mayStart t l then s
        else if l.indirect then
          match s.dispatchRead token t.die t.part t.proc .atomicRead l.countAddr 8 with
          | .error (.wait s1) => s1
          | .error (.fault c a) => (s.dropDispatched token).faultTether token (tetherCause c) a
          | .ok bs =>
            let n := natOfBytes bs
            let s1 := s.dropDispatched token
            if 16777216 < n then s1.faultTether token .bounds l.countAddr else s1.eligibleWith t l n
        else s.eligibleWith t l l.n)

/-! ### Wake (R177, R231) -/

/-- The byte that a watched key names, as the thread sees it. -/
def Thread.seenByte (t : Thread) (mem : Memory) (k : Nat) : Byte :=
  if 2 ^ 60 ≤ k then t.localStore.byte (k - 2 ^ 60) else (t.view mem).byte k

/-- What a parked thread waits for has happened; `s.thr` is the thread. -/
def State.wakes (s : State) (w : Wait) : Bool :=
  let t := s.thr
  match w with
  | .watermark rs => !rs.any fun r => !inWindow r.base && s.stalled t r.base r.len
  | .phase g old => decide ((s.group t.groupOwner g).phase ≠ old)
  | .arrived g => decide (Assoc.get? (s.group t.groupOwner g).members t.key ≠ some true)
  | .queueRoom q => match Assoc.get? s.thrPr.queues q with | some h => decide (h.entries.length < h.cap) | none => true
  | .queueEntry q => match Assoc.get? s.thrPr.queues q with | some h => !h.entries.isEmpty | none => true
  | .stamp =>
    (match t.heldEntry with
     | some e => s.stampDrained e
     | none => true)
  | .watch seen => seen.any fun c => decide (t.seenByte s.mem c.1 ≠ c.2)
  | .stream q n =>
    match Assoc.get? t.binds q with
    | some b => let (have_, final) := s.arrived b; final || decide ((b.pos + n) * b.bytes ≤ have_)
    | none => true
  | .tether tok => match s.myTether? tok with | some x => tetherFinal x | none => true
  | .entry die => s.tableRoom t.key.part die
  | .text slot upTo =>
    match Assoc.get? s.thrPr.texts slot with
    | some r => (match s.readMark t.actor r with | .ok r1 => decide (upTo ≤ r1.upTo) || r1.failed | .error _ => true)
    | none => true
  | .fabric => let c := s.core t.core; c.run.isNone && c.loading.isEmpty
  | .fop => match (s.core t.core).run with | some r => decide (r.thread ≠ t.key) | none => true
  | .drain => !t.sq.any PendStore.sent
  | .peer id => !s.requests.any fun r => decide (r.id = id)
  | .attached => (s.attachedTo t.key).all tetherFinal
  | .vectorQueue => t.vectorRoom
  | .again => true

/-- A thread that can go on is READY again. -/
def State.wake (s : State) (k : ThreadKey) : State :=
  s.onThread k fun s =>
    match s.thr.life with
    | .parked w => if s.wakes w then s.mapThr fun t => { t with life := .ready } else s
    | .blocked =>
      if (if s.thr.started then s.wakes .fop else s.thr.vectorRoom) then s.mapThr fun t => { t with life := .ready } else s
    | _ => s

/-- THREAD_WAKE (R177). -/
def execThreadWake (t : ThreadKey) (s : State) : Host.Outcome State Fault Refusal := .next (s.wake t)

/-! ### Commit, boost and traps -/

/-- The oldest queued vector instruction commits (R234); a thread that waited for room and has it is READY (R231). -/
def Thread.commitOne (t : Thread) : Thread :=
  match t.vq with
  | [] => t
  | _ :: r =>
    let u := { (t.count 3 1) with vq := r }
    if u.life = .blocked ∧ u.started = false ∧ u.vectorRoom = true then { u with life := .ready } else u

/-- VECTOR_COMMIT (R234). -/
def execVectorCommit (t : ThreadKey) (s : State) : Host.Outcome State Fault Refusal := .next (s.mapThread t Thread.commitOne)

/-- ISSUE_BOOST (R241). -/
def execIssueBoost (t : ThreadKey) (s : State) : Host.Outcome State Fault Refusal :=
  .next (match s.thread? t with
    | some u =>
      if u.life = .ready ∧ 64 ≤ u.passed ∧ u.boosted = none then
        { (s.mapThread t fun u => { u with boosted := some s.clock }) with clock := s.clock + 1 }
      else s
    | none => s)

/-- TRAP_ENTRY (R225, R363): the READY thread that has the turn takes a trap at its next instruction, unless that has begun to
perform. A MIGRATED that is pending comes before any other (R225). -/
def execTrapEntry (cause : TrapCause) (tval telem : Word) (s : State) : Host.Outcome State Fault Refusal :=
  .next (if s.thr.life ≠ .ready ∨ s.thr.begun.isSome = true then s
    else if s.thr.migrated && !s.thr.supervisor then s.takeTrap .migrated s.dfver 0 none s.atVector
    else s.takeTrap cause tval telem none s.atVector)

end Sys2Proof.Machine
end

