-- ==== Sys2Proof/Machine/FabricEvents.lean ====
section
/-! DEFINITION. The steps of a running fabric graph as events (R207, R213, R298, R300, R302, R308). -/
namespace Sys2Proof.Machine

/-- `f` on the `fop` that runs on a core, its thread having the turn meanwhile. -/
def State.onRun (s : State) (core : CoreId) (f : State → FabricRun → State) : State :=
  match (s.core core).run with
  | some r => s.onThread r.thread fun s => f s r
  | none => s

/-- The run of the thread's core replaced. -/
def State.setRun (s : State) (r : FabricRun) : State := s.setCore s.thr.core { s.core s.thr.core with run := some r }

/-- The run after a firing or a return: held stores that have settled are issued (R307). -/
def State.settleRun (s : State) (r : FabricRun) : State :=
  let (s1, r1) := FabricRun.release s r
  s1.setRun r1

/-- How many firings the firing of an element counts as (R403): R295 gives the issue of the end-of-round by `eos`, and the value that
`acc` sends, a cycle beside that of the token consumed (DEDUCED, log 111). -/
def FabricRun.firings (r r1 : FabricRun) (fe : Nat) : Nat :=
  let value := (r.fe fe).targets.any fun t => (List.drop (r.buf t.1 t.2).length (r1.buf t.1 t.2)).any fun k => k.data.isSome
  if (r1.round && !r.round) || (decide ((r.fe fe).op = 24) && value) then 2 else 1

/-- FE_FIRE (R207): an element fires, if it can. -/
def execFeFire (core : CoreId) (fe : Nat) (s : State) : Host.Outcome State Fault Refusal :=
  .next (s.onRun core fun s r =>
    if fe < 64 then
      match FabricRun.fire s r fe with
      | .done s1 r1 => (s1.mapThr fun t => t.count 11 (r.firings r1 fe)).settleRun r1
      | .met s1 r1 => s1.settleRun r1
      | .idle | .stalled => s
    else s)

/-- END_OF_ROUND_ARRIVAL (R300). -/
def execEndOfRoundArrival (core : CoreId) (fe : Nat) (s : State) : Host.Outcome State Fault Refusal :=
  .next (s.onRun core fun s r => s.setRun (r.arriveRound fe))

/-- FABRIC_LD_RETURN (R213). -/
def execFabricLdReturn (core : CoreId) (fe : Nat) (s : State) : Host.Outcome State Fault Refusal :=
  .next (s.onRun core fun s r => let (s1, r1) := FabricRun.returnLoad s r fe; s1.settleRun r1)

/-- FOP_COMPLETE (R302). -/
def execFopComplete (core : CoreId) (s : State) : Host.Outcome State Fault Refusal :=
  .next (s.onRun core fun s r => if r.drained then s.completeFop r else s)

/-- A token is left, or an element of a stream with an `in` is not sent (R302). -/
def FabricRun.leftOver (r : FabricRun) : Bool :=
  r.bufs.any (fun b => !b.2.isEmpty) || (graphFes r.graph).any fun e => decide (e.2.op = 3) && !r.ended.contains (4 * e.1)

/-- FOP_STOP (R302, R308): after a stop event, once nothing can fire or the graph's n cycles have passed, which the model leaves
open; or at a quiescence with something left over (DEDUCED, log 17). -/
def execFopStop (core : CoreId) (s : State) : Host.Outcome State Fault Refusal :=
  .next (s.onRun core fun s r =>
    if r.stopping || (FabricRun.quiescent s r && r.leftOver && !r.drained) then s.stopFop r else s)

/-- PLANE_LOAD (R298): the graph is in its plane, if its binding still stands. -/
def execPlaneLoad (core : CoreId) (plane : Nat) (s : State) : Host.Outcome State Fault Refusal :=
  let c := s.core core
  .next (match Assoc.get? c.loading plane with
    | none => s
    | some p =>
      let c1 := { c with loading := Assoc.drop c.loading plane }
      s.setCore core (if ((s.proc p.part p.proc).slot p.slot).bound = some p.gen then
        { c1 with planes := Assoc.put c1.planes plane p } else c1))

end Sys2Proof.Machine
end

