-- ==== Sys2Proof/Machine/MemEvents.lean ====
section
/-! DEFINITION. Memory events: stores performed (R258, R259), table walks and invalidations (R355, R358, R359), peers (R378 to
R380) and write-backs (R390, R391). -/
namespace Sys2Proof.Machine

/-! ### Performing (R258, R259, R262, R374) -/

/-- A held store is performed unless an edge orders an earlier one before it (R259); what a peer holds is sent (R380). Each
element or segment of a vector store is one of them (R155, R257). -/
def State.performHeld (s : State) (k : ThreadKey) (n : Nat) : State :=
  match s.thread? k with
  | none => s
  | some t =>
    let (s1, rest) := s.drainMarked t [] (t.sq.zipIdx.map fun e => (e.1, decide (e.2 = n)))
    s1.mapThread k fun u => { u with sq := rest }

/-- Send runs of bytes to their peers for the control complex, one request for each. -/
def State.controlSend (s : State) : List (Nat × List Byte) → State
  | [] => s
  | (a, bs) :: r => (s.sendPeer .control none controlPart a bs.length true bs (BitVec.ofNat 64 a)).controlSend r

/-- A write of the control complex to memory; a "none" address faults there and writes nothing, and the window of a peer takes
a request (R244, R374). -/
def State.controlWrite (s : State) (dpa : Nat) (data : List Byte) : State :=
  if (List.range data.length).all (fun i => s.mapped (dpa + i)) then
    let (far, near) := remoteCells (cellsAt dpa data)
    let s1 := s.perform near
    if far.isEmpty then s1 else s1.controlSend (cellRuns far)
  else s

/-! ### Translations kept (R355, R358, R359) -/

/-- Entries of a TLB (R358). -/
def tlbSize : TlbHome → Nat
  | .core _ => 128
  | .die _ => 16384

/-- Entries of a die's cache of non-leaf entries (R358). -/
def nodeSize : Nat := 1024

/-- The TLB entries with one more; the oldest of the same TLB leaves when it is full (DESIGN CHOICE, log 9). -/
def keepEntry (l : List TlbEntry) (e : TlbEntry) : List TlbEntry :=
  (if tlbSize e.home ≤ (l.filter fun x => decide (x.home = e.home)).length then l.eraseP fun x => decide (x.home = e.home) else l) ++ [e]

/-- The non-leaf entries with one more, unless it is there; the oldest of the same die leaves when its cache is full. -/
def keepNode (l : List NodeEntry) (e : NodeEntry) : List NodeEntry :=
  if l.contains e then l
  else (if nodeSize ≤ (l.filter fun x => decide (x.die = e.die)).length then l.eraseP fun x => decide (x.die = e.die) else l) ++ [e]

/-- What peers have answered to accesses of a partition that are under way, table entries among it (R379, R380). -/
def State.answeredTo (s : State) (part : Nat) : List Host.Cell :=
  ((s.threads.filter fun t => t.live && decide (t.key.part = part)).flatMap Thread.known) ++
  ((s.tethers.filter fun t => decide (t.part = part)).flatMap Tether.peerData) ++
  ((s.dispatched.filter fun a => decide (a.part = part)).flatMap fun a => cellsAt a.dpa (a.data.getD []))

/-- TABLE_WALK (R355, R358): a walk that ends in a translation leaves it in the TLB that missed, and its non-leaf entries in the
die's cache; one that faults leaves nothing (R359). `space` is the partition and the process. -/
def execTableWalk (home : TlbHome) (space : Nat × Nat) (va : Word) (s : State) : Host.Outcome State Fault Refusal :=
  let (part, proc) := space
  .next (if 2 ^ 49 ≤ va.toNat ∨ (s.tlb.any fun e => decide (e.home = home) && e.covers part proc va.toNat) = true then s
    else
      let known := s.answeredTo part
      match walkBoth s.mem s home part proc va.toNat known with
      | .ok e =>
        let read := nodesStage1 s.mem s ⟨dieOf home, part, proc, known⟩ va.toNat 3 0 (bitsAt (s.proc part proc).root.toNat 14 38 * 2 ^ 14)
        { s with tlb := keepEntry s.tlb e, nodes := read.foldl keepNode s.nodes }
      | .error _ => s)

/-- INVALIDATION (R359, R375, R376): it starts, or waits while another is in progress. A write that names no stage has no effect
(R6). -/
def execInvalidation (part : Nat) (value : Word) (s : State) : Host.Outcome State Fault Refusal :=
  let p := s.part part
  let r := (value, p.invLo, p.invHi)
  .next (if bitsAt value.toNat 0 2 = 0 then s else s.setPart part (match p.invBusy with
    | none => { p with invBusy := some r }
    | some _ => { p with invNext := p.invNext ++ [r] }))

/-- True when `[a, a + n)` meets `[lo, hi)`. -/
def meets (a n lo hi : Nat) : Bool := decide (a < hi ∧ lo < a + n)

/-- True of a translation that an invalidation names: by virtual address for stage 1, by partition-physical address for
stage 2 (R359). -/
def invalidates (part : Nat) (r : Word × Word × Word) (e : TlbEntry) : Bool :=
  let v := r.1.toNat
  let all := bit v 9
  decide (e.part = part) && (bit v 2 || decide (e.proc = bitsAt v 3 6)) &&
  ((bit v 0 && (all || meets e.base e.size r.2.1.toNat r.2.2.toNat)) ||
   (bit v 1 && (all || meets e.ppa e.size r.2.1.toNat r.2.2.toNat)))

/-- True of a non-leaf entry that an invalidation names; one of stage 2 serves every process (R359). -/
def invalidatesNode (part : Nat) (r : Word × Word × Word) (e : NodeEntry) : Bool :=
  let v := r.1.toNat
  let size := 2 ^ levelShift e.level
  decide (e.part = part) && (e.stage2 || bit v 2 || decide (e.proc = bitsAt v 3 6)) && bit v (if e.stage2 then 1 else 0) &&
  (bit v 9 || meets (e.tag * size) size r.2.1.toNat r.2.2.toNat)

/-- True when no access of a partition that may have used a kept translation is under way: no thread holds a store, no running
graph holds one, and no peer owes an answer (R359). -/
def State.settled (s : State) (part : Nat) : Bool :=
  s.threads.all (fun t => !(t.live && decide (t.key.part = part)) || t.sq.isEmpty) &&
  s.cores.all (fun e => match e.2.run with | some r => decide (r.thread.part ≠ part) || r.stores.isEmpty | none => true) &&
  s.requests.all fun r => decide (r.part ≠ part)

/-- Perform the issued stores of every thread of a partition. -/
def State.drainThreads (s : State) : List ThreadKey → State
  | [] => s
  | k :: ks =>
    match s.thread? k with
    | none => s.drainThreads ks
    | some t =>
      let (s1, rest) := s.drainList t t.sq
      (s1.mapThread k fun u => { u with sq := rest }).drainThreads ks

/-- INVALIDATION_COMPLETE (R359): every access of the partition that may have used an old entry has been performed, and the
matching entries are dropped; the next invalidation then starts (DEDUCED, log 56). -/
def execInvalidationComplete (part : Nat) (s : State) : Host.Outcome State Fault Refusal :=
  .next (match (s.part part).invBusy with
    | none => s
    | some r =>
      let s1 := s.drainThreads ((s.threads.filter fun t => t.live && decide (t.key.part = part)).map Thread.key)
      if !s1.settled part then s1
      else
        let p := s1.part part
        { (s1.setPart part { p with invBusy := p.invNext.head?, invNext := p.invNext.drop 1 }) with
          tlb := s1.tlb.filter fun e => !invalidates part r e
          nodes := s1.nodes.filter fun e => !invalidatesNode part r e })

/-! ### Peers (R368, R379, R380) -/

/-- The partition that owns a port (R375); 0 where none does. -/
def State.portOwner (s : State) (port : Nat) : Nat := ((List.range 16).find? fun p => (s.part p).ports.getLsbD port).getD 0

/-- A MACHINE_CHECK entry for a write that a peer did not perform: the window address. One of the control complex is reported to
the owner of the port it was sent on (R380; DESIGN CHOICE, log 18). -/
def State.peerWriteFails (s : State) (r : PeerReq) : State :=
  let pr : Option Nat := match r.who with
    | .thread t _ _ _ | .store t _ | .stale t => some t.proc
    | .tether tok _ => (s.tetherAny? tok).map Tether.proc
    | .control | .dispatcher _ => none
  let part := if r.part = controlPart then s.portOwner (r.port.getD 0) else r.part
  s.report part { w0 := fifoW0 3 ((r.port.getD 0) / 12) pr none, w1 := 0, w2 := BitVec.ofNat 64 r.dpa, w3 := 14 }

/-- The bytes of a store that a peer has answered for are no longer held. -/
def PendStore.answered (seq dpa len : Nat) (p : PendStore) : PendStore :=
  if p.seq = seq ∧ p.sent = true then { p with cells := p.cells.filter fun c => !decide (dpa ≤ c.1 ∧ c.1 < dpa + len) } else p

/-- True of a sent store that no peer still owes an answer: its other bytes are performed with the last of them (R155). -/
def PendStore.acked (seq : Nat) (p : PendStore) : Bool := decide (p.seq = seq) && p.sent && (remoteCells p.cells).1.isEmpty

/-- A peer has answered for bytes of a thread's store. -/
def State.storeAnswered (s : State) (t : ThreadKey) (seq dpa len : Nat) : State :=
  match s.thread? t with
  | none => s
  | some u =>
    let l := u.sq.map (PendStore.answered seq dpa len)
    ((l.filter (PendStore.acked seq)).foldl (fun s p => s.perform p.cells) s).mapThread t fun u =>
      { u with sq := l.filter fun p => !p.acked seq }

/-- True of an answer that the thread's instruction awaits: that at its PC in its mode, or the one that its handler interrupts. -/
def Thread.awaits (t : Thread) (a : PeerAnswer) : Bool :=
  (decide (t.pc = a.pc) && t.supervisor == a.supervisor) || (t.supervisor && !a.supervisor)

/-- An answer joins what peers have answered to a thread. -/
def State.noteAnswer (s : State) (t : ThreadKey) (a : PeerAnswer) : State :=
  s.mapThread t fun u => if u.awaits a then { u with peerData := u.peerData ++ [a] } else u

/-- What the device holds of a segment at the instant of a peer's answer (R155). The thread's own stores that the segment sees were
performed before the peer was asked. -/
def State.noteNear (s : State) (t : ThreadKey) (pc : Word) (sup : Bool) : List (Nat × Nat) → State
  | [] => s
  | (d, n) :: r => (s.noteAnswer t ⟨pc, sup, 0, d, n, some (s.mem.bytes d n)⟩).noteNear t pc sup r

/-- The column node that an MMA's DATA_ERR names: that of the column whose unit read the bytes; 0 for another engine (R190). -/
def State.unitNode (s : State) (tok : Word) (unit : Nat) : Nat :=
  match s.tetherAny? tok with
  | some t => if t.kind = .mma then s.nodeOf t (unit % 2048) else 0
  | none => 0

/-- An answer to a dispatcher's read, which goes on with it (R276, R380). -/
def State.noteDispatch (s : State) (reader : Word) (r : PeerReq) (data : Option (List Byte)) : State :=
  { s with dispatched := s.dispatched ++ [⟨reader, r.part, r.dpa, data⟩] }

/-- A request fails: the peer rejected it or did not answer in time (R380). -/
def State.peerFails (s : State) (r : PeerReq) : State :=
  match r.who with
  | .thread t pc sup slot => s.noteAnswer t ⟨pc, sup, slot, r.dpa, r.len, none⟩
  | .store t seq => (s.storeAnswered t seq r.dpa r.len).peerWriteFails r
  | .stale _ => s
  | .dispatcher reader => s.noteDispatch reader r none
  | .tether tok unit =>
    if r.write then (s.peerWriteFails r).unitAcked tok unit else s.faultTether tok .dataErr r.va (s.unitNode tok unit)
  | .control => if r.write then s.peerWriteFails r else s

/-- A request succeeds with the bytes it asked for. -/
def State.peerAnswers (s : State) (r : PeerReq) (data : List Byte) : State :=
  match r.who with
  | .thread t pc sup slot => (s.noteAnswer t ⟨pc, sup, slot, r.dpa, r.len, some data⟩).noteNear t pc sup r.near
  | .store t seq => s.storeAnswered t seq r.dpa r.len
  | .stale _ => s
  | .dispatcher reader => s.noteDispatch reader r (some data)
  | .tether tok unit =>
    if r.write then s.unitAcked tok unit
    else s.mapTether tok fun u => { u with peerData := u.peerData ++ cellsAt r.dpa data }
  | .control => if r.write then s else { s with cpuRead := BitVec.ofNat 64 (natOfBytes data) }

/-- How many bytes a peer returns: those read, or the old value of an atomic; none for a store (DESIGN CHOICE, log 18). -/
def PeerReq.returns (r : PeerReq) : Nat :=
  match r.who with
  | .thread _ _ _ _ => r.len
  | _ => if r.write then 0 else r.len

/-- True when the partition of a request still owns what carries its reply: the core that sent it and the port. A dispatcher and
the control complex have no core, and the control complex reaches every port (R368; DEDUCED, log 79). -/
def State.stillOwner (s : State) (r : PeerReq) : Bool :=
  (match r.core with
  | some c => (s.core c).ownedBy r.part
  | none => true) &&
  (match r.port with
  | some q => decide (r.part = controlPart) || (s.part r.part).ports.getLsbD q
  | none => true)

/-- A reply of another incarnation, or to a core or a port that the partition no longer owns, is dropped (R368). -/
def State.takeReply (s : State) (id : Nat) (f : State → PeerReq → State) : State :=
  match s.requests.find? fun r => decide (r.id = id) with
  | none => s
  | some r =>
    let s1 := { s with requests := s.requests.filter fun x => decide (x.id ≠ id) }
    if r.inc = (s.part r.part).inc ∧ s.stillOwner r = true then f s1 r else s1

/-- True when the port of a request has its link and carries it, so that an answer can come; a request that no port carried has
none (R378, R379). -/
def State.linked (s : State) (r : PeerReq) : Bool :=
  match r.port with
  | none => false
  | some q =>
    let cfg := (Assoc.getD s.ports q Port.fresh).cfg
    cfg.getLsbD 1 && (r.who.bulk || !cfg.getLsbD 0)

/-- PEER_ACK (R380): `data` is what the peer returns; a wrong number of bytes stands for a rejection (DESIGN CHOICE, log 18).
None comes over a port that does not carry the request. -/
def execPeerAck (req : Nat) (data : List Byte) (s : State) : Host.Outcome State Fault Refusal :=
  .next (if s.requests.any fun r => decide (r.id = req) && !s.linked r then s
    else s.takeReply req fun s r => if data.length = r.returns then s.peerAnswers r data else s.peerFails r)

/-- PEER_TIMEOUT (R380). -/
def execPeerTimeout (req : Nat) (s : State) : Host.Outcome State Fault Refusal := .next (s.takeReply req fun s r => s.peerFails r)

/-- An inbound range that holds a request wholly, with the permissions it needs (R375, R379). -/
def inboundOk (w : Word × Word) (r : InboundReq) : Bool :=
  let base := bitsAt w.1.toNat 16 36 * 65536
  let len := bitsAt w.2.toNat 16 36 * 65536
  decide (len ≠ 0 ∧ base ≤ r.dpa ∧ r.dpa + r.len ≤ base + len) &&
  match r.kind with
  | .read => w.1.getLsbD 0
  | .write => w.1.getLsbD 1
  | .atomic _ _ => w.1.getLsbD 0 && w.1.getLsbD 1

/-- What a request asks of memory of the device that every byte of it names: the state after it and the bytes of its completion.
None where a granule that it reads, or whose other bytes it keeps, holds an uncorrectable error, and for an atomic that is
none of R156 on an aligned word or doubleword (DEDUCED, log 80). -/
def State.serveInbound (s : State) (r : InboundReq) : Option (State × List Byte) :=
  let here : Place := .device r.dpa
  match r.kind with
  | .read => if s.badData Thread.fresh here r.len then none else some (s, s.mem.bytes r.dpa r.len)
  | .write =>
    if decide (r.data.length ≠ r.len) || s.badStore Thread.fresh here r.len then none
    else some (s.perform (cellsAt r.dpa r.data), [])
  | .atomic op cmp =>
    if (r.len ≠ 4 ∧ r.len ≠ 8) ∨ r.dpa % r.len ≠ 0 ∨ r.data.length ≠ r.len ∨ 7 < op ∨ s.badData Thread.fresh here r.len = true then none
    else
      let old := s.mem.load r.dpa r.len
      let s1 := match atomNew op r.len old (natOfBytes r.data) (zext (8 * r.len) cmp) with
        | some new => s.perform (cellsAt r.dpa (bytesOf r.len new))
        | none => s
      some (s1, bytesOf r.len old)

/-- What the port does with a request: it is performed when it lies in an enabled range of the port's owner with what it needs,
and otherwise gets an error completion (R379). -/
def State.inbound (s : State) (port : Nat) (r : InboundReq) : Option (State × List Byte) :=
  match (List.range 16).find? fun p => (s.part p).ports.getLsbD port with
  | none => none
  | some p =>
    if decide (1 ≤ r.len ∧ r.len ≤ 256) && (s.part p).inbound.toList.any (fun w => inboundOk w r) &&
       (List.range r.len).all (fun i => s.mapped (r.dpa + i) && !(Place.device (r.dpa + i)).remote) then s.serveInbound r
    else none

/-- A request that an enabled port carries: any on a mode-0 port, and on a mode-1 port a burst of a peer's COPY, which reads or
writes up to 128 bytes and comes here once every earlier burst of its tether has (R378, R381; DEDUCED, log 80). -/
def Port.carries (p : Port) (r : InboundReq) : Bool :=
  match r.kind with
  | .atomic _ _ => decide (p.cfg = 2)
  | _ => decide (p.cfg = 2) || (decide (p.cfg = 3) && decide (r.len ≤ 128))

/-- INBOUND_PEER_REQUEST (R378, R379): a request on a port that carries it, and its completion. -/
def execInboundPeerRequest (port : Nat) (req : InboundReq) (s : State) : Host.Outcome State Fault Refusal :=
  .next (if !(Assoc.getD s.ports port Port.fresh).carries req then s
    else
      match s.inbound port req with
      | some (s1, bs) => { s1 with completion := some (port, some bs) }
      | none => { s with completion := some (port, none) })

/-! ### Write-backs (R390, R391) -/

/-- True when an entry of a node at a level, or what lies below it, maps an address; `fuel` levels. -/
def nodeMaps (mem : Memory) (dpa : Nat) : Nat → Nat → Nat → Bool
  | 0, _, _ => false
  | fuel + 1, level, node =>
    (List.range 2048).any fun i =>
      match readEntry true level (levelShift level) (mem.load (node + 8 * i) 8) with
      | .leaf l => decide (l.base ≤ dpa ∧ dpa < l.base + l.size)
      | .node n => nodeMaps mem dpa fuel (level + 1) n
      | .fault => false

/-- The partition whose stage-2 tables map a device-physical address. -/
def State.ownerOf (s : State) (dpa : Nat) : Option Nat :=
  (List.range 16).find? fun p =>
    let r := (s.part p).root
    r.getLsbD 0 && nodeMaps s.mem dpa 3 0 (bitsAt r.toNat 14 38 * 2 ^ 14)

/-- A granule whose write was refused: its home keeps what it held before (DEDUCED, log 22). The error counts here unless it counted as
it arose (R390). A class in the low four bits; for class 2 the core lies above them. -/
def State.loseGranule (s : State) (g : Nat × Nat) : State :=
  let a := g.1 / 8 * 8
  let cls := g.2 % 16
  let die := granuleDie a
  let core := g.2 / 16
  let kept := { s with mem := match Assoc.get? s.homes a with | some bs => s.mem.put a bs | none => s.mem, badMem := Assoc.drop s.badMem a }
  let s1 := if (Assoc.get? s.badMem a).isSome then kept else kept.countUncorrected die cls
  match s.ownerOf a with
  | some p =>
    s1.report p { w0 := if cls = 2 then fifoW0 3 (core / 64 % 4) none (some (core % 64)) else fifoW0 3 die none none,
                  w1 := 0, w2 := BitVec.ofNat 64 a, w3 := BitVec.ofNat 64 cls }
  | none => s1

def State.loseGranules (s : State) : List (Nat × Nat) → State
  | [] => s
  | g :: gs => (s.loseGranule g).loseGranules gs

/-- The first of several entries for one granule. -/
def onePerGranule : List Nat → List (Nat × Nat) → List (Nat × Nat)
  | _, [] => []
  | seen, g :: gs => if seen.contains (g.1 / 8) then onePerGranule seen gs else g :: onePerGranule (g.1 / 8 :: seen) gs

/-- LINE_WRITE_BACK (R390): the homes of the line hold what has been written, but for the granules that `lost` names, whose write was
refused. A write-back that succeeds changes nothing that an agent sees. -/
def execLineWriteBack (dpa : Nat) (lost : List (Nat × Nat)) (s : State) : Host.Outcome State Fault Refusal :=
  let named := lost.filter fun g => decide (g.1 / 128 = dpa / 128) && s.mapped g.1 && !(Place.device g.1).remote
  let s1 := s.loseGranules (onePerGranule [] named)
  .next { s1 with homes := s1.homes.filter fun h => decide (h.1 / 128 ≠ dpa / 128) }

end Sys2Proof.Machine
end

