-- ==== Sys2Proof/Machine/SysRegs.lean ====
section
/-! DEFINITION. The control complex's registers: the launch and fault FIFOs (R338 to R340), hardware queues (R341), thread and
process control (R344, R370), and plain registers (R374 to R382, R414). -/
namespace Sys2Proof.Machine

/-! ### Launch and fault FIFOs (R338 to R340) -/

/-- Records submitted and not yet taken: their tethers are still QUEUED (R339). -/
def State.launchDepth (s : State) (part : Nat) : Nat :=
  (s.tethers.filter fun t => decide (t.part = part ∧ t.state = .queued) && (t.launch.map Launch.fromFifo).getD false).length

/-- The record in LREC0 to LREC7 under R337, read by the dispatcher of a die and run in a process: the launch, or how its checks
stop. -/
def State.fifoRecord (s : State) (die part pr : Nat) : Except DispatchStop Launch :=
  let r := recordOf (wordsToBytes (s.part part).lrec.toList)
  let bad : DispatchStop := .fault .illegal 0
  match s.dispatchRead (issueReader part) die part pr .load (BitVec.ofNat 64 r.obj) 64 with
  | .error e => .error e
  | .ok ob =>
    match r.object ob with
    | none => .error bad
    | some o =>
      match s.dispatchRead (issueReader part) die part pr .load (BitVec.ofNat 64 r.headerAt) 64 with
      | .error e => .error e
      | .ok kb =>
        if r.headerFits (s.proc part pr) o kb then .ok (r.launch o (headerOf kb) r.prio (s.liveDeps part pr r) true) else .error bad

/-- What LISSUE reads, kept where the control complex sees it. -/
def State.answerIssue (s : State) (part : Nat) (w : Word) : State :=
  { ((s.setPart part { s.part part with lissue := w }).dropDispatched (issueReader part)) with cpuRead := w }

/-- A refusal with its reason (R339). -/
def issueError (reason : Nat) : Word := BitVec.ofNat 64 (2 ^ 63 + reason)

/-- LISSUE (R339): the reasons are tried in the order 1, 2 for the record's own limits, 3, 2 for its headers, 4 (DESIGN CHOICE, log 19).
Where a peer holds a header that it reads, it has asked the peer and is complete when it is read again after the answer (R380). -/
def execLissue (part : Nat) (s : State) : Host.Outcome State Fault Refusal :=
  let p := s.part part
  let die := bitsAt p.lctl.toNat 6 2
  let pr := bitsAt p.lctl.toNat 0 6
  .next (if 64 ≤ s.launchDepth part then s.answerIssue part (issueError 1)
    else if !(recordOf (wordsToBytes p.lrec.toList)).ok then s.answerIssue part (issueError 2)
    else if !(s.proc part pr).live then s.answerIssue part (issueError 3)
    else
      match s.fifoRecord die part pr with
      | .error (.wait s1) => s1
      | .error (.fault _ _) => s.answerIssue part (issueError 2)
      | .ok l =>
        if s.tableRoom part die then
          let issuer : ThreadKey := ⟨part, pr, BitVec.allOnes 64, s.clock⟩
          let (s2, tok) := s.addLaunch part pr die issuer ⟨die, 0⟩ none l
          s2.answerIssue part tok
        else s.answerIssue part (issueError 4))

/-- FPOP (R338, R340): the head entry leaves; one that waited takes its place in the FIFO (R352), and the tether of a
KERNEL_END entry retires. -/
def execFpop (part : Nat) (s : State) : Host.Outcome State Fault Refusal :=
  let p := s.part part
  .next (match p.fifo with
    | [] => s
    | e :: rest =>
      let s1 := s.setPart part { p with fifo := rest ++ p.fifoWait.take 1, fifoWait := p.fifoWait.drop 1 }
      if e.w0.toNat % 256 = 1 then s1.retire e.w1 else s1)

/-! ### Hardware queues (R341) -/

/-- The process and the queue that QSEL selects. -/
def Partition.selected (p : Partition) : Nat × Nat := (bitsAt p.qsel.toNat 10 6, bitsAt p.qsel.toNat 0 10)

/-- The capacities of a partition's queues, but for one. -/
def State.otherCaps (s : State) (part pr q : Nat) : Nat :=
  (s.procs.flatMap fun e => if e.1.1 = part then
    (e.2.queues.filter fun x => !decide (e.1.2 = pr ∧ x.1 = q)).map fun x => x.2.cap else []).foldl (· + ·) 0

def State.answerQueue (s : State) (part reason : Nat) : State :=
  s.setPart part { s.part part with qans := if reason = 0 then 0 else BitVec.ofNat 64 (2 ^ 63 + reason) }

/-- The scope of a code. -/
def scopeOf (n : Nat) : Scope := match n with | 0 => .core | 1 => .die | 2 => .device | _ => .system

/-- QUEUE_CONFIGURE (R341). -/
def execQueueConfigure (part : Nat) (value : Word) (s : State) : Host.Outcome State Fault Refusal :=
  let (pr, q) := (s.part part).selected
  let p := s.proc part pr
  let cap := bitsAt value.toNat 0 17
  let held := match Assoc.get? p.queues q with | some h => !h.entries.isEmpty | none => false
  .next (if !value.getLsbD 63 then s
    else if cap = 0 ∨ 65536 < cap then s.answerQueue part 1
    else if 262144 < s.otherCaps part pr q + cap then s.answerQueue part 2
    else if held then s.answerQueue part 3
    else if !p.root.getLsbD 0 then s.answerQueue part 4
    else
      (s.setProc part pr { p with queues := Assoc.put p.queues q ⟨cap, scopeOf (bitsAt value.toNat 20 2), []⟩ }).answerQueue part 0)

/-- Handler-table entries that the shadow storage holds for partitions whose places were taken, without those that satisfy
`f` (R367). -/
def State.dropSaved (s : State) (f : HandlerEntry → Bool) : State :=
  { s with parts := s.parts.map fun p => { p with savedHandlers := p.savedHandlers.filter fun e => !f e.2.2 } }

/-- QUEUE_DESTROY (R341): threads that wait for the queue find it gone. -/
def execQueueDestroy (part : Nat) (s : State) : Host.Outcome State Fault Refusal :=
  let (pr, q) := (s.part part).selected
  let p := s.proc part pr
  .next ((((s.setProc part pr { p with queues := Assoc.drop p.queues q }).dropHandlers fun e => e.isFor part pr q).dropSaved
    fun e => e.isFor part pr q).answerQueue part 0)

/-! ### The end of a killed thread (R344, R350) -/

/-- The cause that a killed thread gives its launch, and its TPC. -/
def killRecord (t : Thread) : Nat × Word :=
  let c := t.csaWord 0x280
  (if c = 4 then 3 else if c = 5 then 1 else if c = 6 then 2 else if c = 7 then 4 else if c = 8 then 5 else 0, t.csaWord 0x288)

/-- Cancel each of some tethers. -/
def State.cancelAll (s : State) : List Tether → State
  | [] => s
  | t :: ts => (s.cancelTether (tetherToken t)).cancelAll ts

/-- A thread that is not resident is killed: it leaves its groups, its window is discarded, its attached tethers are cancelled,
and its launch records it (R344; DEDUCED, log 50). -/
def State.killThread (s : State) (k : ThreadKey) : State :=
  s.onThread k fun s =>
    let t := s.thr
    let s1 := s.leaveGroups.cancelAll (s.attachedTo k)
    let note (l : Launch) : Launch := { l with killed := match l.killed with | some x => some x | none => some (killRecord t) }
    s1.endThread note

/-- The HANDLER_END entry of a handler thread that is killed (R350, R351). -/
def handlerEnd (t : Thread) : FifoEntry :=
  { w0 := fifoW0 7 t.core.die (some t.key.proc) (some t.core.site), w1 := BitVec.ofNat 64 t.key.index,
    w2 := (t.csaWord 0x280 &&& 0xFF) <<< 24, w3 := t.csaWord 0x288 }

/-- True while the HANDLER_END entry of a thread waits for room in the fault FIFO (R352). -/
def State.endWaits (s : State) (t : Thread) : Bool :=
  (s.part t.key.part).fifoWait.any fun e => decide (e.w0 = (handlerEnd t).w0 ∧ e.w1 = (handlerEnd t).w1)

/-! ### Thread and process control (R370) -/

/-- The thread that TSEL0 and TSEL1 select. -/
def Partition.target (p : Partition) (part : Nat) : ThreadKey :=
  ⟨part, bitsAt p.tsel1.toNat 24 6, p.tsel0, bitsAt p.tsel1.toNat 0 24⟩

def State.answerCmd (s : State) (part reason : Nat) : State :=
  s.setPart part { s.part part with tans := if reason = 0 then 0 else BitVec.ofNat 64 (2 ^ 62 + reason * 2 ^ 8) }

/-- True while the fault FIFO entry that a halt of the thread appends still waits for room: the thread stays HALTED (R352;
DEDUCED, log 78). -/
def State.eventWaits (s : State) (t : Thread) : Bool :=
  decide (t.life = .halted) && (s.part t.key.part).fifoWait.any fun e =>
    decide (e.w0 = fifoW0 2 t.core.die (some t.key.proc) (some t.core.site) ∧ e.w1 = t.key.launch ∧
      e.w2.toNat % 2 ^ 24 = t.key.index % 2 ^ 24 ∨
      e.w0 = fifoW0 3 t.core.die (some t.key.proc) (some t.core.site) ∧ e.w3 = 11)

/-- A HALTED thread waits to be placed, and enters its handler afresh (R370). -/
def State.resumeHalted (s : State) (k : ThreadKey) : State :=
  { (s.mapThread k fun u => { u with life := .preempted, held := false, afresh := true, queued := s.clock }) with clock := s.clock + 1 }

/-- A thread that a command names, with the command's CMD code, once the thread has left its core and its entry is in the fault
FIFO: PREEMPT is then complete, RESUME sends a HALTED thread back, and KILL ends the thread when its stores have been
performed, a handler thread once its HANDLER_END is in the FIFO: until then, which the command's code 8 says, it stays HALTED
(R344, R350, R352, R370; DEDUCED, log 78). -/
def State.settleThread (s : State) (part cmd : Nat) (t : Thread) : State :=
  let done (s : State) : State := s.setPart part { s.part part with tcmd := none }
  if t.resident || s.eventWaits t then s
  else if cmd = 3 then
    let (s1, rest) := s.drainList t t.sq
    let s2 := s1.mapThread t.key fun u => { u with sq := rest }
    if !rest.isEmpty then s2
    else if t.key.launch ≠ 0 then (done s2).killThread t.key
    else
      let s3 := s2.report part (handlerEnd t)
      if s3.endWaits t then
        (s3.mapThread t.key fun u => { u with life := .halted }).setPart part { s3.part part with tcmd := some (t.key, 8) }
      else (done s3).killThread t.key
  else if cmd = 8 then if s.endWaits t then s else (done s).killThread t.key
  else if cmd = 2 then (done s).resumeHalted t.key
  else done s

/-- A command that waited completes as far as it can. -/
def State.settleCmd (s : State) (part : Nat) : State :=
  match (s.part part).tcmd with
  | none => s
  | some (k, cmd) =>
    match s.thread? k with
    | none => s.setPart part { s.part part with tcmd := none }
    | some t => s.settleThread part cmd t

/-- A command on the selected thread: 4 while one is in progress, 1 with no such thread (R370) (DEDUCED, log 52). -/
def State.command (s : State) (part : Nat) (f : State → Thread → State) : State :=
  let s1 := s.settleCmd part
  let p := s1.part part
  if p.tcmd.isSome then s1.answerCmd part 4
  else
    match s1.thread? (p.target part) with
    | none => s1.answerCmd part 1
    | some t => f s1 t

/-- A command on a thread begins, and completes at once when nothing holds it up. A resident thread is asked to leave. -/
def State.begin (s : State) (t : Thread) (cmd : Nat) : State :=
  let s1 := s.answerCmd t.key.part 0
  let s2 := if t.resident then s1.mapThread t.key fun u => { u with wish := some true } else s1
  (s2.setPart t.key.part { s2.part t.key.part with tcmd := some (t.key, cmd) }).settleCmd t.key.part

/-- PREEMPT (R370). -/
def execPreempt (part : Nat) (s : State) : Host.Outcome State Fault Refusal :=
  .next (s.command part fun s t =>
    if t.resident then s.begin t 1
    else if t.life = .preempted then (s.answerCmd part 0).mapThread t.key fun u => { u with held := true }
    else s.answerCmd part 2)

/-- RESUME (R370): a held thread waits to be placed; a HALTED one does too, and enters its handler afresh. -/
def execResume (part : Nat) (s : State) : Host.Outcome State Fault Refusal :=
  .next (s.command part fun s t =>
    if t.life = .preempted ∧ t.held = true then (s.answerCmd part 0).mapThread t.key fun u => { u with held := false }
    else if t.life = .halted then s.begin t 2
    else s.answerCmd part 2)

/-- KILL (R344, R370). -/
def execKill (part : Nat) (s : State) : Host.Outcome State Fault Refusal :=
  .next (s.command part fun s t => s.begin t 3)

/-- CANCEL (R191, R370): the KERNEL tether that TSEL0 names. -/
def execCancel (part : Nat) (s : State) : Host.Outcome State Fault Refusal :=
  let s1 := s.settleCmd part
  let p := s1.part part
  .next (if p.tcmd.isSome then s1.answerCmd part 4
    else
      match s1.tetherAny? p.tsel0 with
      | some t => if t.part = part ∧ t.kind = .kernel then (s1.cancelTether p.tsel0).answerCmd part 0 else s1.answerCmd part 5
      | none => s1.answerCmd part 5)

/-- Final orphans of a process retire; the count is of faults that nobody saw (R279). -/
def State.retireFinal (s : State) (l : List Tether) : State × Nat :=
  let final := l.filter fun t => match s.tetherAny? (tetherToken t) with | some u => tetherFinal u | none => false
  (s.retireAll final, (final.filter Tether.owes).length)

/-- Planes that hold graphs of some processes become empty. -/
def State.dropPlanes (s : State) (f : Plane → Bool) : State :=
  let g (c : Core) : Core :=
    { c with planes := c.planes.filter fun e => c.busyPlane e.1 || !f e.2, loading := c.loading.filter fun e => !f e.2 }
  { s with cores := s.cores.map fun e => (e.1, g e.2) }

/-- Copy channels that satisfy `f` become IDLE (R252). -/
def State.dropChannels (s : State) (f : Channel → Bool) : State :=
  let g (c : Core) : Core := { c with channels := c.channels.filter fun e => !f e.2 }
  { s with cores := s.cores.map fun e => (e.1, g e.2) }

/-- A process ends (R279, R370): its tethers are cancelled, and retire when they are final; its resources are freed, and the
channels that it leaves KEPT are IDLE for another process (R252). -/
def State.endProcess (s : State) (part pr : Nat) : State :=
  let mine := s.tethers.filter fun t => decide (t.part = part ∧ t.proc = pr) && !((t.launch.map Launch.fromFifo).getD false)
  let s1 := s.cancelAll mine
  let (s2, lost) := s1.retireFinal mine
  let p := s2.proc part pr
  let mineH (h : HandlerEntry) : Bool := decide (h.part = part ∧ h.proc = pr)
  let s3 := (((s2.setProc part pr { p with live := false, queues := [], fabric := [], reel := 0 }).dropHandlers mineH).dropSaved
    mineH).dropPlanes fun x => decide (x.part = part ∧ x.proc = pr)
  let s3 := s3.dropChannels fun c => decide (c.part = part ∧ c.proc = pr ∧ c.state = .kept)
  s3.report part { w0 := fifoW0 4 0 (some pr) none, w1 := BitVec.ofNat 64 pr, w2 := BitVec.ofNat 64 lost, w3 := 0 }

/-- DESTROY (R279, R370). -/
def execDestroy (part : Nat) (s : State) : Host.Outcome State Fault Refusal :=
  let s1 := s.settleCmd part
  let p := s1.part part
  let pr := (p.target part).proc
  .next (if p.tcmd.isSome then s1.answerCmd part 4
    else if s1.threads.any (fun t => t.live && decide (t.key.part = part ∧ t.key.proc = pr)) ||
            s1.tethers.any (fun t => decide (t.part = part ∧ t.proc = pr ∧ t.kind = .kernel) && !tetherFinal t) then s1.answerCmd part 3
    else if !(s1.proc part pr).live then s1.answerCmd part 5
    else (s1.endProcess part pr).answerCmd part 0)

/-! ### Plain registers (R338, R374 to R382, R414) -/

/-- A value under a mask of fields. -/
def fieldsOf (v : Word) (l : List (Nat × Nat)) : Word := BitVec.ofNat 64 ((l.map fun (lo, n) => bitsAt v.toNat lo n * 2 ^ lo).foldl (· + ·) 0)

/-- A process's stage-1 root: the process exists while V is 1 (DEDUCED, log 33). -/
def Process.setRoot (p : Process) (v : Word) : Process :=
  let r := fieldsOf v [(0, 1), (14, 38)]
  { p with root := r, live := r.getLsbD 0 }

/-- A field of `n` bits at `lo` after a write of `v` over `old`: a value outside `least` to `most` has no effect on it (R6). -/
def ranged (old v : Word) (lo n least most : Nat) : Nat :=
  let x := bitsAt v.toNat lo n
  if least ≤ x ∧ x ≤ most then x else bitsAt old.toNat lo n

/-- QEXP and WEIGHT (R375). -/
def quantumWrite (old v : Word) : Word := BitVec.ofNat 64 (ranged old v 0 7 1 64 + ranged old v 8 5 16 28 * 2 ^ 8)

/-- TLS, TACOUNT and TASIZE of a process (R375, R420). -/
def areaCfgWrite (old v : Word) : Word :=
  BitVec.ofNat 64 (ranged old v 0 16 3 65535 + ranged old v 16 14 0 8192 * 2 ^ 16 + bitsAt v.toNat 63 1 * 2 ^ 63)

/-- Word 0 of a peer set: the member count is at least 2 (R382). -/
def peerSetWrite (old v : Word) : Word :=
  fieldsOf v [(0, 16), (48, 10), (62, 2)] + BitVec.ofNat 64 (ranged old v 32 10 1 1023 * 2 ^ 32)

/-- A TCMD write whose CMD is none of the five commands (R370). -/
def State.noCommand (s : State) (part : Nat) : State :=
  let s1 := s.settleCmd part
  s1.answerCmd part (if (s1.part part).tcmd.isSome then 4 else 2)

/-- A register of a partition's block (R338, R341, R370, R375). -/
def State.writePart (s : State) (part off : Nat) (v : Word) : State :=
  let p := s.part part
  if off < 0x40 then s.setPart part { p with lrec := p.lrec.setIfInBounds (off / 8) v }
  else if off = 0x40 then s.setPart part { p with lctl := fieldsOf v [(0, 8)] }
  else if off = 0x100 then s.setPart part { p with qsel := fieldsOf v [(0, 16)] }
  else if off = 0x200 then s.setPart part { p with tsel0 := v }
  else if off = 0x208 then s.setPart part { p with tsel1 := fieldsOf v [(0, 30)] }
  else if off = 0x1020 then s.setPart part { p with root := fieldsOf v [(0, 1), (14, 38)] }
  else if off = 0x1028 then s.setPart part { p with hentry := fieldsOf v [(2, 47)] }
  else if off = 0x210 then (if bitsAt v.toNat 0 3 = 0 ∨ 6 ≤ bitsAt v.toNat 0 3 then s.noCommand part else s)
  else if off = 0x1030 then s.setPart part { p with quantum := quantumWrite p.quantum v }
  else if off = 0x1050 then s.setPart part { p with invLo := v }
  else if off = 0x1058 then s.setPart part { p with invHi := v }
  else if off = 0x1060 then s.setPart part { p with crText := v }
  else if off = 0x1068 then s.setPart part { p with crLen := v }
  else if off = 0x1070 then s.setPart part { p with crMark := v }
  else if off = 0x1080 then s.setPart part { p with ports := v.truncate 48 }
  else if 0x2000 ≤ off ∧ off < 0x2200 then s.setProc part ((off - 0x2000) / 8) ((s.proc part ((off - 0x2000) / 8)).setRoot v)
  else if 0x2400 ≤ off ∧ off < 0x2800 then
    let k := (off - 0x2400) / 16
    if off % 16 = 0 then s.setProc part k { s.proc part k with area := fieldsOf v [(0, 1), (16, 33)] }
    else s.setProc part k { s.proc part k with areaCfg := areaCfgWrite (s.proc part k).areaCfg v }
  else if 0x3000 ≤ off ∧ off < 0x3100 then
    let i := (off - 0x3000) / 16
    let w := p.inbound[i]?.getD (0, 0)
    let x := if off % 16 = 0 then (fieldsOf v [(0, 2), (16, 36)], w.2) else (w.1, fieldsOf v [(16, 36)])
    s.setPart part { p with inbound := p.inbound.setIfInBounds i x }
  else s

/-- A register of the device block (R378, R379, R382, R414). -/
def State.writeDevice (s : State) (off : Nat) (v : Word) : State :=
  if off < 8 * 48 then
    { s with ports := Assoc.put s.ports (off / 8) { Assoc.getD s.ports (off / 8) Port.fresh with cfg := v.truncate 2 } }
  else if 0x1000 ≤ off ∧ off < 0x3000 then
    { s with peers := Assoc.put s.peers ((off - 0x1000) / 8) (fieldsOf v [(0, 10), (10, 48), (63, 1)]) }
  else if 0x4000 ≤ off ∧ off < 0x14000 then
    let n := (off - 0x4000) / 16
    let w := Assoc.getD s.peerSets n (0, 0)
    let x := if off % 16 = 0 then (peerSetWrite w.1 v, w.2) else (w.1, v)
    { s with peerSets := Assoc.put s.peerSets n x }
  else if off = 0x28008 then
    let l := bitsAt v.toNat 0 16
    if 1000 ≤ l ∧ l ≤ 3200 then { s with power := { s.power with limit := l } } else s
  else s

/-- A doubleword of the context window (R370): the CSA of the selected thread while it is HALTED, held or PRE-EMPTED. -/
def State.writeWindow (s : State) (part off : Nat) (v : Word) : State :=
  let k := (s.part part).target part
  match s.thread? k with
  | some t =>
    if t.resident then s
    else { s with badCsa := clearSaved s.badCsa k ((List.range 8).map (off + ·)) }.mapThread k fun u =>
      { u with csa := u.csa.putCells ((placeCells (.csa off) 0 (bytesOf 8 v.toNat)).filterMap (csaCell u.vlen)) }
  | none => s

/-- REGISTER_WRITE (R374): a write to a register that has no row of its own; any other address, and an access that is not
aligned, changes nothing (DEDUCED, log 53). -/
def execRegisterWrite (addr value : Word) (s : State) : Host.Outcome State Fault Refusal :=
  let a := addr.toNat
  .next (if a % 8 ≠ 0 then s
    else if 0x10000000000000 ≤ a ∧ a < 0x10000000100000 then
      s.writePart ((a - 0x10000000000000) / 0x10000) ((a - 0x10000000000000) % 0x10000) value
    else if 0x10000000100000 ≤ a ∧ a < 0x10000000100000 + 0x30000 then s.writeDevice (a - 0x10000000100000) value
    else if 0x10000001000000 ≤ a ∧ a < 0x10000001000000 + 16 * 0x20000 then
      s.writeWindow ((a - 0x10000001000000) / 0x20000) ((a - 0x10000001000000) % 0x20000) value
    else s)

end Sys2Proof.Machine
end

