-- ==== Sys2Proof/Machine/PartEvents.lean ====
section
/-! DEFINITION. A partition's cores, runs, swaps and kills, its quotas and its text registrations (R280, R324, R367 to R369,
R375, R376). -/
namespace Sys2Proof.Machine

/-! ### Quotas and text (R324, R375, R376) -/

/-- The quota of a die in a value of the QUOTA register. -/
def quotaIn (v : Word) (die : Nat) : Nat := bitsAt v.toNat (16 * die) 13

/-- QUOTA_WRITE (R376): nothing changes when the quotas of a die would total more than 4,096. -/
def execQuotaWrite (part : Nat) (value : Word) (s : State) : Host.Outcome State Fault Refusal :=
  let others (die : Nat) : Nat :=
    (((List.range 16).filter fun p => decide (p ≠ part)).map fun p => (s.part p).quotaOf die).foldl (· + ·) 0
  .next (if (List.range 4).all fun die => decide (others die + quotaIn value die ≤ 4096) then
    s.setPart part { s.part part with quota := fieldsOf value [(0, 13), (16, 13), (32, 13), (48, 13)] }
  else s)

/-- CODE_REGISTER (R324, R375, R376): ignored when CRTEXT, CRLEN or CRMARK is not aligned. -/
def execCodeRegister (part : Nat) (value : Word) (s : State) : Host.Outcome State Fault Refusal :=
  let p := s.part part
  let pr := bitsAt value.toNat 0 6
  let q := s.proc part pr
  .next (if value.getLsbD 14 && decide (p.crMark.toNat % 8 = 0 ∧ p.crText.toNat % 65536 = 0 ∧ p.crLen.toNat % 65536 = 0) then
    s.setProc part pr { q with
      texts := Assoc.put q.texts (bitsAt value.toNat 6 8) ⟨p.crText.toNat, p.crLen.toNat, p.crMark.toNat, 0, false⟩ }
  else s)

/-- A fetch parked on a text range that is unregistered raises XLATE (R376). -/
def State.releaseFetch (s : State) (part pr slot base : Nat) (l : List Thread) : State :=
  match l with
  | [] => s
  | t :: ts =>
    let s1 := match t.life with
      | .parked (.text n upTo) =>
        if t.key.part = part ∧ t.key.proc = pr ∧ n = slot then
          s.onThread t.key fun s => s.takeTrap .xlate (BitVec.ofNat 64 (base + upTo - 4)) 0 (plainXlate .fetch).record false
        else s
      | _ => s
    State.releaseFetch s1 part pr slot base ts

/-- CODE_UNREGISTER (R375, R376). -/
def execCodeUnregister (part : Nat) (value : Word) (s : State) : Host.Outcome State Fault Refusal :=
  let pr := bitsAt value.toNat 0 6
  let slot := bitsAt value.toNat 6 8
  let q := s.proc part pr
  .next (if value.getLsbD 14 then s
    else
      match Assoc.get? q.texts slot with
      | none => s
      | some r => (s.setProc part pr { q with texts := Assoc.drop q.texts slot }).releaseFetch part pr slot r.base s.threads)

/-! ### Cores (R375, R376) -/

/-- A bit of a partition's core map. -/
def Partition.ownsBit (p : Partition) (c : CoreId) : Bool := (p.cores[c.die]?.getD 0).getLsbD c.site
def Partition.setOwn (p : Partition) (c : CoreId) (b : Bool) : Partition :=
  let w := p.cores[c.die]?.getD 0
  let m : Word := BitVec.ofNat 64 (2 ^ c.site)
  { p with cores := p.cores.setIfInBounds c.die (if b then w ||| m else w &&& ~~~m) }

/-- A bank's owner set; its blocks are emptied (R286, R376). -/
def Core.setBank (c : Core) (i : Nat) (o : Option Nat) : Core :=
  { c with banks := c.banks.setIfInBounds i o, blocks := c.blocks.filter fun e => decide (e.1.1 ≠ i) }

/-- CORE_ASSIGN (R376): the lowest free bank; with none the bit stays 0. -/
def execCoreAssign (part : Nat) (core : CoreId) (s : State) : Host.Outcome State Fault Refusal :=
  let c := s.core core
  .next (if part < 16 ∧ core.die < 4 ∧ core.site < 64 ∧ c.enabled = true ∧ c.ownedBy part = false then
    match (List.range 4).find? fun i => decide ((c.banks[i]?.getD none) = none) with
    | some i => (s.setCore core (c.setBank i (some part))).setPart part ((s.part part).setOwn core true)
    | none => s
  else s)

/-- CORE_RELEASE (R376): the partition's threads there are asked to leave, and fenced ones that no core is left for are named
(R397). -/
def execCoreRelease (part : Nat) (core : CoreId) (s : State) : Host.Outcome State Fault Refusal :=
  let p := s.part part
  .next (if p.ownsBit core && !p.releasing.contains core then
    let s1 := (s.setPart part { p with releasing := p.releasing ++ [core] }).askLeave fun t => decide (t.core = core ∧ t.key.part = part)
    s1.tellUnplaceable (s1.threads.filter fun t => decide (t.key.part = part))
  else s)

/-- True while a peer owes an answer to a request that a core sent for a partition (R368). -/
def State.coreOwed (s : State) (part : Nat) (core : CoreId) : Bool :=
  s.requests.any fun r => decide (r.part = part ∧ r.core = some core)

/-- CORE_RELEASE_COMPLETE (R376): the threads are saved, and no peer owes the core an answer (DEDUCED, log 79); the bit reads 0,
the bank is emptied, and KEPT channels of the partition are IDLE (R252). -/
def execCoreReleaseComplete (part : Nat) (core : CoreId) (s : State) : Host.Outcome State Fault Refusal :=
  let p := s.part part
  let c := s.core core
  .next (if p.releasing.contains core && !(s.residents core).any (fun t => decide (t.key.part = part)) && !s.coreOwed part core then
    let s1 := s.setPart part { (p.setOwn core false) with releasing := p.releasing.erase core }
    let c := { c with channels := c.channels.filter fun e => !decide (e.2.part = part ∧ e.2.state = .kept) }
    match (List.range 4).find? fun i => decide ((c.banks[i]?.getD none) = some part) with
    | some i => s1.setCore core (c.setBank i none)
    | none => s1.setCore core c
  else s)

/-! ### Running, halting and swapping (R280, R367, R375) -/

/-- Every engine tether of a partition that is at a boundary suspends (R280). -/
def State.suspendAll (s : State) : List Tether → State
  | [] => s
  | t :: ts => (s.settleHalt (tetherToken t)).suspendAll ts

/-- RUN becomes 0: threads are asked to leave and tethers drain to their boundaries. -/
def State.haltPart (s : State) (part : Nat) : State :=
  let s1 := (s.setPart part { s.part part with run := false }).askLeave fun t => decide (t.key.part = part)
  s1.suspendAll (s1.tethers.filter fun t => decide (t.part = part))

/-- Saved handler-table entries of a partition go back to their core, to their own number where it is free and otherwise to the
lowest free one; one whose queue has been bound since is given up, and one that finds no place stays saved (R367; DEDUCED,
log 77). -/
def State.returnHandlers (s : State) (part : Nat) : List (CoreId × Nat × HandlerEntry) → State
  | [] => s
  | e :: r =>
    let (c, n, h) := e
    let given (s : State) : State :=
      let p := s.part part
      s.setPart part { p with savedHandlers := p.savedHandlers.filter fun x => decide (x ≠ e) }
    if s.cores.any (fun k => k.2.handlers.any fun x => x.2.isFor h.part h.proc h.queue) then (given s).returnHandlers part r
    else
      let k := s.core c
      match (n :: List.range 32).find? fun i => (Assoc.get? k.handlers i).isNone with
      | some i => (given (s.setCore c { k with handlers := Assoc.put k.handlers i h })).returnHandlers part r
      | none => s.returnHandlers part r

/-- A partition's state comes back from the shadow storage (R367). -/
def State.swapIn (s : State) (part : Nat) : State :=
  let s1 := (s.setPart part { s.part part with swappedOut := false }).returnAll
  s1.returnHandlers part (s1.part part).savedHandlers

/-- RUN becomes 1: suspended tethers go on (DEDUCED, log 54), a COPY once its channel has returned (R252, R280). -/
def State.runPart (s : State) (part : Nat) : State :=
  let s1 := s.swapIn part
  let away (t : Tether) : Bool := (s1.part part).savedChannels.any fun e => decide (e.2.2.token = tetherToken t)
  let f (t : Tether) : Tether :=
    if t.part = part ∧ away t = false then { t with suspended := false, rowEnded := t.rowEnded && (t.cancelling || t.fenced) } else t
  { (s1.setPart part { s1.part part with run := true }) with tethers := s1.tethers.map f }

/-- PARTITION_HALT (R367); ignored while a kill is in progress (R376). -/
def execPartitionHalt (part : Nat) (s : State) : Host.Outcome State Fault Refusal :=
  .next (if (s.part part).killBusy then s else s.haltPart part)

/-- PARTITION_RUN (R375); ignored while a kill is in progress (R376). -/
def execPartitionRun (part : Nat) (s : State) : Host.Outcome State Fault Refusal :=
  .next (if (s.part part).killBusy then s else s.runPart part)

/-- A halted partition: no thread is resident, and no engine tether is between boundaries. -/
def State.halted (s : State) (part : Nat) : Bool :=
  !(s.part part).run && !s.threads.any (fun t => t.resident && decide (t.key.part = part)) &&
  s.tethers.all fun t => !decide (t.part = part ∧ t.state = .running ∧ t.kind ≠ .kernel) || t.suspended

/-- FILLING channels and handler-table entries of a partition, by core and number. -/
def State.fillingOf (s : State) (part : Nat) : List (CoreId × Nat × Channel) :=
  s.cores.flatMap fun e => (e.2.channels.filter fun x => decide (x.2.part = part ∧ x.2.state = .filling)).map fun x => (e.1, x.1, x.2)
def State.handlersOf (s : State) (part : Nat) : List (CoreId × Nat × HandlerEntry) :=
  s.cores.flatMap fun e => (e.2.handlers.filter fun x => decide (x.2.part = part)).map fun x => (e.1, x.1, x.2)

/-- A halted partition's state goes to the shadow storage, but for what is never swapped: FILLING channels and handler-table
entries are saved, KEPT channels become IDLE, planes are emptied, and the L1 TLBs lose the partition's entries (R252, R298,
R367). -/
def State.swapOut (s : State) (part : Nat) : State :=
  let p := s.part part
  let s1 := s.setPart part { p with swappedOut := true, savedChannels := p.savedChannels ++ s.fillingOf part,
                                    savedHandlers := p.savedHandlers ++ s.handlersOf part }
  let s2 := ((s1.dropChannels fun c => decide (c.part = part)).dropHandlers fun h => decide (h.part = part)).dropPlanes
    fun p => decide (p.part = part)
  { s2 with tlb := s2.tlb.filter fun e => match e.home with | .core _ => decide (e.part ≠ part) | .die _ => true }

/-- PARTITION_SWAP (R252, R298, R367): the outgoing partition's state goes to the shadow storage; the incoming one's comes
back. -/
def execPartitionSwap (outgoing incoming : Nat) (s : State) : Host.Outcome State Fault Refusal :=
  .next (if s.halted outgoing then (s.swapOut outgoing).swapIn incoming else s)

/-! ### Kill (R279, R368, R369) -/

/-- Threads of a partition end without any step of R218, and what they hold is discarded. -/
def State.dropThreads (s : State) (part : Nat) : State :=
  let gone (t : Thread) : Bool := t.live && decide (t.key.part = part)
  let core (c : Core) : Core :=
    { c with order := c.order.filter fun k => decide (k.part ≠ part),
             run := match c.run with | some r => if r.thread.part = part then none else some r | none => none }
  let dead : Thread := { s.thr with life := .ended, sq := [], vq := [], csa := [], localStore := [] }
  { s with others := s.others.filter fun t => !gone t, thr := if gone s.thr then dead else s.thr,
           cores := s.cores.map fun e => (e.1, core e.2), badCsa := s.badCsa.filter fun e => decide (e.1.part ≠ part),
           badReg := s.badReg.filter fun e => decide (e.1.part ≠ part), holds := s.holds.filter fun h => decide (h.1 ≠ part) }

/-- Steps 3 and 4 of R369. Channels of other partitions that waited for a place of this one return to it (R252). -/
def State.clearPart (s : State) (part : Nat) : State :=
  let s1 := s.retireAll (s.tethers.filter fun t => decide (t.part = part))
  let s1 := s1.setPart part { s1.part part with savedChannels := [], savedHandlers := [] }
  let s2 := ((s1.dropHandlers fun h => decide (h.part = part)).dropPlanes fun p => decide (p.part = part)).dropChannels
    fun c => decide (c.part = part)
  let proc (e : (Nat × Nat) × Process) : (Nat × Nat) × Process :=
    if e.1.1 = part then (e.1, { e.2 with slots := [], fabric := [], queues := [], reel := 0 }) else e
  let core (c : Core) : Core := { c with blocks := c.blocks.filter fun b => decide ((c.banks[b.1.1]?.getD none) ≠ some part) }
  let mine (tok : Word) : Bool := s.tethers.any fun t => decide (t.part = part ∧ tetherToken t = tok)
  let port (p : Port) : Port := { p with reseq := p.reseq.filter fun b => !mine b.1 }
  ({ s2 with
    procs := s2.procs.map proc
    cores := s2.cores.map fun e => (e.1, core e.2)
    groups := s2.groups.filter fun g => decide (g.1.1.part ≠ part)
    ports := s2.ports.map fun e => (e.1, port e.2)
    dispatched := s2.dispatched.filter fun a => decide (a.part ≠ part) } : State).returnAll

/-- Requests of an incarnation that a peer has not answered. -/
def State.owed (s : State) (part : Nat) (inc : BitVec 8) : Bool := s.requests.any fun r => decide (r.part = part ∧ r.inc = inc)

/-- Steps 2 to 4 of R369, once no request of the next incarnation is outstanding. -/
def State.advanceKill (s : State) (part : Nat) : State :=
  let p := s.part part
  if s.owed part (p.inc + 1) then s
  else (s.setPart part { p with inc := p.inc + 1, killWait := false }).clearPart part

/-- A kill begins: step 1, and what may follow at once. -/
def State.killPart (s : State) (part : Nat) : State :=
  ((s.setPart part { s.part part with run := false, killBusy := true, killWait := true, tcmd := none }).dropThreads part).advanceKill part

/-- PARTITION_KILL (R369); ignored while one is in progress (R376). -/
def execPartitionKill (part : Nat) (s : State) : Host.Outcome State Fault Refusal :=
  .next (if (s.part part).killBusy then s else s.killPart part)

/-- KILL_COMPLETE (R369): the steps that waited, and completion once no request of an older incarnation remains. -/
def execKillComplete (part : Nat) (s : State) : Host.Outcome State Fault Refusal :=
  let p := s.part part
  .next (if !p.killBusy then s
    else if p.killWait then s.advanceKill part
    else if s.requests.any fun r => decide (r.part = part ∧ r.inc ≠ p.inc) then s
    else s.setPart part { p with killBusy := false })

end Sys2Proof.Machine
end

