-- ==== Sys2Proof/Machine/Firmware.lean ====
section
/-! DEFINITION. Counters, the lifetime record, firmware, attestation, power and bring-up (R378, R402 to R417). -/
namespace Sys2Proof.Machine

/-! ### Counters and links (R378, R404, R405) -/

/-- DEVSEL_WRITE (R404): a reserved code leaves the selector and its counter as they are. -/
def execDevselWrite (die n : Nat) (value : Word) (s : State) : Host.Outcome State Fault Refusal :=
  .next (if die < 4 ∧ n < 16 ∧ 1 ≤ value.toNat % 256 ∧ value.toNat % 256 ≤ 13 then
    { s with devSel := Assoc.put s.devSel (die, n) (value &&& 0xFF), devCnt := Assoc.put s.devCnt (die, n) 0 }
  else s)

/-- PEVSEL_WRITE (R404). -/
def execPevselWrite (port n : Nat) (value : Word) (s : State) : Host.Outcome State Fault Refusal :=
  let p := Assoc.getD s.ports port Port.fresh
  .next (if port < 48 ∧ n < 4 ∧ 1 ≤ value.toNat % 256 ∧ value.toNat % 256 ≤ 7 then
    { s with ports := Assoc.put s.ports port { p with sel := p.sel.setIfInBounds n (value &&& 0xFF), cnt := p.cnt.setIfInBounds n 0 } }
  else s)

/-- The counters of a port that have an event's code selected. -/
def Port.count (p : Port) (code : Nat) : Port :=
  { p with cnt := Vector.zipWith (fun (c sel : Word) => if sel.toNat = code then c + 1 else c) p.cnt p.sel }

def State.portCount (s : State) (port code : Nat) : State :=
  { s with ports := Assoc.put s.ports port ((Assoc.getD s.ports port Port.fresh).count code) }

/-- LINK_RETRAIN (R404, R405). -/
def execLinkRetrain (port : Nat) (s : State) : Host.Outcome State Fault Refusal :=
  let l := s.lifetime
  .next (if port < 48 then
    { (s.portCount port 5) with
      lifetime := { l with retrains := Assoc.put l.retrains port (satAdd 32 (Assoc.getD l.retrains port 0) 1) } }
  else s)

/-- LINK_LEVEL_RETRY (R378, R404): a retry changes nothing but its count. -/
def execLinkLevelRetry (port : Nat) (s : State) : Host.Outcome State Fault Refusal :=
  .next (if port < 48 then s.portCount port 3 else s)

/-! ### The lifetime record (R405, R406) -/

/-- LIFETIME_REFRESH (R406): a refresh writes SEQ + 1, and while SEQ is odd goes on to write the record and then SEQ + 1 again
(DEDUCED, log 81). -/
def execLifetimeRefresh (s : State) : Host.Outcome State Fault Refusal :=
  .next (if s.snapshot.seq % 2 = 0 then { s with snapshot := { s.snapshot with seq := s.snapshot.seq + 1 } }
    else { s with snapshot := { s.lifetime with seq := s.snapshot.seq + 1 } })

/-- LIFETIME_FLASH_WRITE (R405). -/
def execLifetimeFlashWrite (s : State) : Host.Outcome State Fault Refusal := .next { s with flash := s.lifetime }

/-! ### Images (R407, R408, R410) -/

/-- A slot that the boot ROM accepts (R407). -/
def Firmware.accepts (f : Firmware) (img slot : Nat) : Bool :=
  match Assoc.get? f.slots (img, slot) with
  | some i => i.signatureOk && decide (Assoc.getD f.fused img 0 ≤ i.version)
  | none => false

/-- The slot that boots: of two valid ones, the one of higher security version; of two of one version, that which an update has
written last, so that the update takes effect (R407, R410; DEDUCED, log 83). -/
def Firmware.bootSlot (f : Firmware) (img : Nat) : Option Nat :=
  match f.accepts img 0, f.accepts img 1 with
  | false, false => none
  | true, false => some 0
  | false, true => some 1
  | true, true =>
    let v (k : Nat) : Nat := ((Assoc.get? f.slots (img, k)).map FwImage.version).getD 0
    some (if v 0 < v 1 then 1 else if v 1 < v 0 then 0 else Assoc.getD f.written img (Assoc.getD f.active img 0))

/-- Boot an image, or come up for recovery alone. -/
def Firmware.bootImage (f : Firmware) (img : Nat) : Firmware :=
  match f.bootSlot img with
  | none => { f with recovery := true, running := Assoc.drop f.running img }
  | some k =>
    match Assoc.get? f.slots (img, k) with
    | some i => { f with active := Assoc.put f.active img k, running := Assoc.put f.running img i }
    | none => f

def Firmware.boot (f : Firmware) : Firmware :=
  [1, 2, 3, 4].foldl Firmware.bootImage { f with recovery := false, running := [], activating := none, answer := .none }

/-- FIRMWARE_UPDATE (R410): verified, and written to the inactive slot. -/
def execFirmwareUpdate (img : Nat) (image : FwImage) (s : State) : Host.Outcome State Fault Refusal :=
  let f := s.firmware
  .next (if 1 ≤ img ∧ img ≤ 4 ∧ image.signatureOk = true ∧ Assoc.getD f.fused img 0 ≤ image.version then
    let slot := 1 - Assoc.getD f.active img 0
    { s with firmware := { f with slots := Assoc.put f.slots (img, slot) image, written := Assoc.put f.written img slot } }
  else s)

/-- Partitions that run are halted, or run again. -/
def State.haltParts (s : State) : List Nat → State
  | [] => s
  | p :: ps => (s.haltPart p).haltParts ps
def State.runParts (s : State) : List Nat → State
  | [] => s
  | p :: ps => (s.runPart p).runParts ps

/-- DFVER advances by a firmware update (R399, R410). -/
def State.firmwareVer (s : State) : State :=
  let v := s.dfver + 1
  { s with dfver := v, fwver := v, lifetime := { s.lifetime with dfver := v }, flash := { s.flash with dfver := v } }

/-- True when every partition's cores have halted; those of a partition under kill have (R369, R410). -/
def State.allHalted (s : State) : Bool := (List.range 16).all fun p => s.halted p || (s.part p).killBusy

/-- LIVE_ACTIVATION (R410): every partition halts first, those that are made to run meanwhile too; once all are halted the image
is loaded, DFVER advances, and the cores run again (DEDUCED, log 58). -/
def execLiveActivation (img : Nat) (s : State) : Host.Outcome State Fault Refusal :=
  let f := s.firmware
  let slot := 1 - Assoc.getD f.active img 0
  .next (match f.activating with
    | none =>
      if (img = 3 ∨ img = 4) ∧ f.accepts img slot = true then
        let running := (List.range 16).filter fun p => (s.part p).run
        { s.haltParts running with firmware := { f with activating := some (img, running) } }
      else s
    | some (k, running) =>
      let more := (List.range 16).filter fun p => (s.part p).run
      if k ≠ img then s
      else if more ≠ [] then
        { s.haltParts more with firmware := { f with activating := some (k, running ++ more.filter fun p => !running.contains p) } }
      else if s.allHalted then
        match Assoc.get? f.slots (img, slot) with
        | some i =>
          let f1 := { f with active := Assoc.put f.active img slot, running := Assoc.put f.running img i, activating := none }
          { s with firmware := f1 }.firmwareVer.runParts (running.filter fun p => !(s.part p).killBusy)
        | none => s
      else s)

/-- SECURITY_VERSION_RAISE (R410): a fused minimum is only raised. -/
def execSecurityVersionRaise (img version : Nat) (s : State) : Host.Outcome State Fault Refusal :=
  let f := s.firmware
  .next (if 1 ≤ img ∧ img ≤ 4 then
    { s with firmware := { f with fused := Assoc.put f.fused img (max version (Assoc.getD f.fused img 0)) } }
  else s)

/-! ### Attestation (R408, R409) -/

/-- The 256 CORESTATE values; a site that is not enabled reads 0 (R400). -/
def State.coreStates (s : State) : List Nat :=
  (List.range 256).map fun i =>
    let c := s.core ⟨i / 64, i % 64⟩
    if c.enabled then c.stateWord.toNat else 0

/-- The five measurements (R408). -/
def State.measurements (s : State) : List Nat :=
  ([1, 2, 3, 4].map fun img => Config.shake [((Assoc.get? s.firmware.running img).map FwImage.content).getD 0]) ++
  [Config.shake s.coreStates]

/-- An answer to a request that names algorithms: UnsupportedRequest for any but those offered (R409). -/
def State.spdm (s : State) (asym hash : BitVec 16) (a : SpdmAnswer) : State :=
  { s with firmware := { s.firmware with answer := if asym = 1 ∧ hash = 2 then a else .unsupported } }

/-- GET_VERSION (R409). -/
def execGetVersion (s : State) : Host.Outcome State Fault Refusal := .next (s.spdm 1 2 .version)

/-- GET_CAPABILITIES (R409). -/
def execGetCapabilities (s : State) : Host.Outcome State Fault Refusal := .next (s.spdm 1 2 .capabilities)

/-- NEGOTIATE_ALGORITHMS (R409). -/
def execNegotiateAlgorithms (asym hash : BitVec 16) (s : State) : Host.Outcome State Fault Refusal :=
  .next (s.spdm asym hash (.algorithms 1 2))

/-- GET_DIGESTS (R409). -/
def execGetDigests (asym hash : BitVec 16) (s : State) : Host.Outcome State Fault Refusal :=
  .next (s.spdm asym hash (.digests (Config.shake [Config.certificate])))

/-- GET_CERTIFICATE (R409). -/
def execGetCertificate (asym hash : BitVec 16) (s : State) : Host.Outcome State Fault Refusal :=
  .next (s.spdm asym hash (.certificate Config.certificate))

/-- CHALLENGE (R409). -/
def execChallenge (asym hash : BitVec 16) (nonce : Nat) (s : State) : Host.Outcome State Fault Refusal :=
  .next (s.spdm asym hash (.challengeAuth (Config.sign (nonce :: s.measurements))))

/-- GET_MEASUREMENTS (R408, R409). -/
def execGetMeasurements (asym hash : BitVec 16) (nonce : Nat) (s : State) : Host.Outcome State Fault Refusal :=
  .next (s.spdm asym hash (.measurements s.measurements (Config.sign (nonce :: s.measurements))))

/-! ### Power (R412, R414, R415) -/

/-- CLOCK_THROTTLE (R412): the clock falls by one step while power or temperature is above its limit. -/
def execClockThrottle (watts : BitVec 16) (tj : BitVec 8) (s : State) : Host.Outcome State Fault Refusal :=
  let p := s.power
  let hot := decide (105 < tj.toNat)
  let tooMuch := decide (p.limit < watts.toNat)
  let p1 := { p with pwr := watts, tjmax := tj }
  .next { s with power := if hot || tooMuch then
    { p1 with clk := max 12 (p.clk - 1), tlim := p.tlim || hot, plim := p.plim || tooMuch } else p1 }

/-- CLOCK_RAISE (R412): the clock rises by one step while both are below their limits. -/
def execClockRaise (watts : BitVec 16) (tj : BitVec 8) (s : State) : Host.Outcome State Fault Refusal :=
  let p := s.power
  let below := decide (tj.toNat < 105 ∧ watts.toNat < p.limit)
  let p1 := { p with pwr := watts, tjmax := tj }
  .next { s with power := if below then
    { p1 with clk := min 24 (p.clk + 1), tlim := p.tlim && decide (p.clk + 1 < 24), plim := p.plim && decide (p.clk + 1 < 24) } else p1 }

/-- Every partition is killed and told of a die that is too hot (R415). -/
def State.overheat (s : State) (die : Nat) : List Nat → State
  | [] => s
  | p :: ps =>
    let s1 := if (s.part p).killBusy then s else s.killPart p
    (s1.report p { w0 := fifoW0 3 die none none, w1 := 0, w2 := 0, w3 := 13 }).overheat die ps

/-- A compute core after a reset: its repairs, the owners of its banks and its confirmed miscompares stay (R392, R400, R415). -/
def Core.resetState (c : CoreId) (k : Core) : Core :=
  { (Core.fresh c) with enabled := k.enabled, cret := k.cret, lret := k.lret, cap := k.cap, banks := k.banks, changed := k.changed,
                        confirmed := k.confirmed }

/-- OVERTEMPERATURE (R405, R414, R415): the histogram's bin of 120 °C to 130 °C counts it, and TJMAX is at least 125 (DEDUCED,
log 57). -/
def execOvertemperature (die : Nat) (s : State) : Host.Outcome State Fault Refusal :=
  let s1 := s.overheat die (List.range 16)
  let l := s1.lifetime
  .next { s1 with cores := s1.cores.map fun e => (e.1, Core.resetState e.1 e.2), tlb := [], nodes := [],
                  power := { s1.power with tjmax := if s1.power.tjmax.toNat < 125 then 125 else s1.power.tjmax },
                  lifetime := { l with tjHours := Assoc.put l.tjHours (die, 12) (satAdd 32 (Assoc.getD l.tjHours (die, 12) 0) 1) } }

/-! ### Bring-up (R405, R410, R417) -/

/-- A core site with the repairs that a CORESTATE value records (R400). -/
def Core.applied (c : CoreId) (w : Word) : Core :=
  { (Core.fresh c) with cap := w.truncate 25, lret := (w >>> 25).truncate 16, cret := (w >>> 41).truncate 8 }

/-- The updates that a boot brings into effect: images that run from another slot or with other contents than before (R399,
R410). -/
def Firmware.updates (f : Firmware) : Nat :=
  let g := f.boot
  ([1, 2, 3, 4].filter fun i => (Assoc.get? g.running i).isSome &&
    decide (Assoc.get? g.running i ≠ Assoc.get? f.running i ∨ Assoc.get? g.active i ≠ Assoc.get? f.active i)).length

/-- The machine after bring-up from a lifetime record and the firmware in flash; DFVER advances by each update that takes effect
(R399). -/
def bringUp (l flash : Lifetime) (f : Firmware) (untrained : List Nat) : State :=
  let v := l.dfver + BitVec.ofNat 64 f.updates
  let l1 := { l with dfver := v }
  { State.reset with
    cores := l.cores.map fun e => (e.1, Core.applied e.1 e.2), dfver := v, fwver := v, lifetime := l1, snapshot := l1,
    flash := { flash with dfver := v }, firmware := f.boot, untrained := untrained }

/-- The tests of step 5 that miscompare, with whether the repeat does too (R392, R417). -/
def State.laneTests (s : State) : List (CoreId × CheckUnit × Bool) → State
  | [] => s
  | (c, u, again) :: r => (s.laneTest c u true again).laneTests r

/-- POWER_ON (R417): from the record in flash, with what the training of memory finds and, where every image runs, the lane checkers
with image 4. -/
def execPowerOn (found : BringUp) (s : State) : Host.Outcome State Fault Refusal :=
  .next (if s.off then
    let s1 := bringUp s.flash s.flash s.firmware found.untrained
    if s1.firmware.recovery then s1 else s1.laneTests found.tests
  else s)

/-- POWER_LOSS (R405): what is not in flash or in fuses is lost. -/
def execPowerLoss (s : State) : Host.Outcome State Fault Refusal :=
  .next { State.reset with off := true, lifetime := s.flash, snapshot := s.flash, flash := s.flash, firmware := s.firmware,
                           dfver := s.flash.dfver, fwver := s.flash.dfver }

/-- A machine with the confirmed miscompares of another one's cores: they count over the power-on life of a core (R392). -/
def State.withConfirmed (s : State) (cores : Assoc CoreId Core) : State :=
  cores.foldl (fun u e => if e.2.confirmed = [] then u else u.setCore e.1 { u.core e.1 with confirmed := e.2.confirmed }) s

/-- DEVICE_RESET (R410): the images boot from their slots; the lifetime record is kept (DEDUCED, log 23). -/
def execDeviceReset (s : State) : Host.Outcome State Fault Refusal :=
  .next (if s.off then s else (bringUp s.lifetime s.flash s.firmware s.untrained).withConfirmed s.cores)

end Sys2Proof.Machine
end

