-- ==== Sys2Proof/Machine/Permute.lean ====
section
/-! DEFINITION. Permutations (R139, R140) and reductions (R141, R42, R43). -/
namespace Sys2Proof.Machine

/-! ### Permutations (R139, R140) -/

/-- An instruction that moves elements of the operands `src`. -/
def permOp (w : BitVec 32) (d : Reg) (src : List VOp) (p : Reg) (xsrc : List Reg)
    (upd : Thread → Thread) (s : State) : Host.Outcome State Fault Refusal :=
  let t := s.thr
  issueVl { word := w, caps := [3], dst := [t.own d], src := src, psrc := [p], xsrc := xsrc } s fun s =>
    .ok (s.mapThr upd)

/-- Element `j` of a group, 0 at VLMAX and above (R139). -/
def Thread.elemOr0 (t : Thread) (a : Reg) (j : Nat) : Nat := if j < t.vlmax then t.elem a.toNat j t.sew else 0

/-- The number of selected elements below `i` (R140). -/
def Thread.rank (t : Thread) (p : Reg) (i : Nat) : Nat := ((t.actives p).filter fun j => decide (j < i)).length

/-- VSLIDEUP (R139). -/
def execVslideup (d a b p : Reg) (s : State) : Host.Outcome State Fault Refusal :=
  let src := s.thr.own a |>.reading <| (s.thr.actives p).filterMap fun i =>
    if (s.xr b).toNat ≤ i then some (i - (s.xr b).toNat) else none
  permOp (wordVslideup d a b p) d [src] p [b] (fun t =>
    let off := (t.xr b).toNat
    t.writeVec d.toNat (t.pbit p) fun i => if off ≤ i then t.elem a.toNat (i - off) t.sew else t.elem d.toNat i t.sew) s

/-- VSLIDEDOWN (R139). -/
def execVslidedown (d a b p : Reg) (s : State) : Host.Outcome State Fault Refusal :=
  let src := s.thr.own a |>.reading <| (s.thr.actives p).map fun i => i + (s.xr b).toNat
  permOp (wordVslidedown d a b p) d [src] p [b] (fun t =>
    t.writeVec d.toNat (t.pbit p) fun i => t.elemOr0 a (i + (t.xr b).toNat)) s

/-- VRGATHER (R139). -/
def execVrgather (d a b p : Reg) (s : State) : Host.Outcome State Fault Refusal :=
  let src := s.thr.own a |>.reading <| (s.thr.actives p).map fun i => s.thr.elem b.toNat i s.thr.sew
  permOp (wordVrgather d a b p) d [src, s.thr.own b] p [] (fun t =>
    t.writeVec d.toNat (t.pbit p) fun i => t.elemOr0 a (t.elem b.toNat i t.sew)) s

/-- VCOMPRESS (R140). -/
def execVcompress (d a p : Reg) (s : State) : Host.Outcome State Fault Refusal :=
  permOp (wordVcompress d a p) d [s.thr.own a] p [] (fun t =>
    let sel := t.actives p
    t.putElems d.toNat t.sew (fun i =>
      match sel[i]? with
      | some j => t.elem a.toNat j t.sew
      | none => if vtTz t.vtype then 0 else t.elem d.toNat i t.sew) t.grp) s

/-- VEXPAND (R140). -/
def execVexpand (d a p : Reg) (s : State) : Host.Outcome State Fault Refusal :=
  let src := s.thr.own a |>.reading <| List.range (s.thr.actives p).length
  permOp (wordVexpand d a p) d [src] p [] (fun t =>
    t.writeVec d.toNat (t.pbit p) fun i => t.elem a.toNat (t.rank p i) t.sew) s

/-- VBCAST (R139). -/
def execVbcast (d a b p : Reg) (s : State) : Host.Outcome State Fault Refusal :=
  let src := s.thr.own a |>.reading <| (s.thr.actives p).map fun _ => (s.xr b).toNat
  permOp (wordVbcast d a b p) d [src] p [b] (fun t =>
    t.writeVec d.toNat (t.pbit p) fun _ => t.elemOr0 a (t.xr b).toNat) s

/-- VEXTRACT (R139). -/
def execVextract (d a b : Reg) (s : State) : Host.Outcome State Fault Refusal :=
  let t := s.thr
  issueVector (t.vreq { word := (wordVextract d a b), caps := [3], src := [(t.own a).reading [(t.xr b).toNat]], xsrc := [b], always := true }) s fun s =>
    .ok (s.setX d (sextWord s.thr.sew (s.thr.elemOr0 a (s.xr b).toNat)))

/-- VINSERT (R139). -/
def execVinsert (d a b : Reg) (s : State) : Host.Outcome State Fault Refusal :=
  let t := s.thr
  issueVector (t.vreq { word := (wordVinsert d a b), caps := [3], dst := [t.own d], xsrc := [a, b], always := true }) s fun s =>
    .ok (s.mapThr fun t =>
      let k := (t.xr b).toNat
      if k < t.vlmax then
        t.putElems d.toNat t.sew (fun i => if i = k then (t.xr a).toNat else t.elem d.toNat i t.sew) t.grp
      else t)

/-- VID (R139). -/
def execVid (d p : Reg) (s : State) : Host.Outcome State Fault Refusal :=
  permOp (wordVid d p) d [] p [] (fun t => t.writeVec d.toNat (t.pbit p) fun i => i) s

/-! ### Reductions (R141) -/

/-- One element of a register replaced, the others of that register following TZ (R141). -/
def Thread.putReduced (t : Thread) (d : Reg) (v : Nat) : Thread :=
  t.putElems d.toNat t.sew (fun i => if i = 0 then v else if vtTz t.vtype then 0 else t.elem d.toNat i t.sew) 1

/-- The active elements of a group in rising index, each with its index. -/
def Thread.activeElems (t : Thread) (a p : Reg) : List (Nat × Nat) := (t.actives p).map fun i => (i, t.elem a.toNat i t.sew)

/-- A reduction: from the start value and the active elements with their indices, a value and flags. -/
def redOp (w : BitVec 32) (legal : Bool) (cap : Nat) (d a b p : Reg)
    (f : Thread → Nat → List (Nat × Nat) → Nat × Flags) (s : State) : Host.Outcome State Fault Refusal :=
  let t := s.thr
  issueVl { word := w, legal := legal, caps := [cap], dst := [one d.toNat], src := [t.own a, oneOf b.toNat t.sew [0]],
            psrc := [p] } s
    fun s => .ok (s.mapThr fun t =>
      let (v, g) := f t (t.elem b.toNat 0 t.sew) (t.activeElems a p)
      let u := t.putReduced d v
      { u with fcsr := fcsrRaise u.fcsr g })

/-- An integer reduction. -/
def intRed (w : BitVec 32) (d a b p : Reg) (f : Nat → Nat → Nat → Nat) (s : State) : Host.Outcome State Fault Refusal :=
  redOp w true 3 d a b p (fun t x l => (l.foldl (fun acc e => f t.sew acc e.2) x, 0)) s

/-- A fold with flags. -/
def foldFlags (f : Nat → Nat → Nat × Flags) (x : Nat) (l : List Nat) : Nat × Flags :=
  l.foldl (fun acc e => let (v, g) := f acc.1 e; (v, acc.2 ||| g)) (x, 0)

/-- The pairwise tree of R43 over `2^k` positions from `i0` on: none is EMPTY. -/
def redTree (add : Nat → Nat → Nat × Flags) (at_ : Nat → Option Nat) : Nat → Nat → Option Nat × Flags
  | 0, i0 => (at_ i0, 0)
  | k + 1, i0 =>
    let (x, g) := redTree add at_ k i0
    let (y, h) := redTree add at_ k (i0 + 2 ^ k)
    match x, y with
    | some x, some y => let (v, j) := add x y; (some v, g ||| h ||| j)
    | some x, none => (some x, g ||| h)
    | none, y => (y, g ||| h)

/-- VREDSUM (R141). -/
def execVredsum (d a b p : Reg) (s : State) : Host.Outcome State Fault Refusal :=
  intRed (wordVredsum d a b p) d a b p (fun _ x y => x + y) s

/-- VREDMAX (R141). -/
def execVredmax (d a b p : Reg) (s : State) : Host.Outcome State Fault Refusal :=
  intRed (wordVredmax d a b p) d a b p vMax s

/-- VREDMIN (R141). -/
def execVredmin (d a b p : Reg) (s : State) : Host.Outcome State Fault Refusal :=
  intRed (wordVredmin d a b p) d a b p vMin s

/-- VREDAND (R141). -/
def execVredand (d a b p : Reg) (s : State) : Host.Outcome State Fault Refusal :=
  intRed (wordVredand d a b p) d a b p (fun _ x y => x &&& y) s

/-- VREDOR (R141). -/
def execVredor (d a b p : Reg) (s : State) : Host.Outcome State Fault Refusal :=
  intRed (wordVredor d a b p) d a b p (fun _ x y => x ||| y) s

/-- VFREDSUM (R43). -/
def execVfredsum (d a b p : Reg) (s : State) : Host.Outcome State Fault Refusal :=
  redOp (wordVfredsum d a b p) (decide (s.thr.sew ≠ 8)) 11 d a b p (fun t x _ =>
    let add := t.fmt.add t.vfrm
    let (v, g) := redTree add (fun i => if t.active p i then some (t.elem a.toNat i t.sew) else none) 11 0
    match v with
    | some v => let (r, h) := add x v; (r, g ||| h)
    | none => (x, 0)) s

/-- VFREDOSUM (R141). -/
def execVfredosum (d a b p : Reg) (s : State) : Host.Outcome State Fault Refusal :=
  redOp (wordVfredosum d a b p) (decide (s.thr.sew ≠ 8)) 11 d a b p (fun t x l => foldFlags (t.fmt.add t.vfrm) x (l.map Prod.snd)) s

/-- VFREDMAX (R141). -/
def execVfredmax (d a b p : Reg) (s : State) : Host.Outcome State Fault Refusal :=
  redOp (wordVfredmax d a b p) (decide (s.thr.sew ≠ 8)) 11 d a b p (fun t x l => foldFlags (t.fmt.minmax true) x (l.map Prod.snd)) s

/-- VFREDMIN (R141). -/
def execVfredmin (d a b p : Reg) (s : State) : Host.Outcome State Fault Refusal :=
  redOp (wordVfredmin d a b p) (decide (s.thr.sew ≠ 8)) 11 d a b p (fun t x l => foldFlags (t.fmt.minmax false) x (l.map Prod.snd)) s

end Sys2Proof.Machine
end

