-- ==== Sys2Proof/Machine/Registers.lean ====
section
/-! DEFINITION. What the control complex reads: partition, device and context-window registers (R338 to R341, R352, R370, R374,
R375, R400, R401, R404 to R406, R414), and memory accesses performed (R258, R374, R389, R390). -/
namespace Sys2Proof.Machine

/-! ### A partition's block (R338, R339, R341, R352, R370, R375) -/

/-- A word with one bit at `n`. -/
def flagAt (b : Bool) (n : Nat) : Nat := if b then 2 ^ n else 0

/-- FENT0 to FENT3: the head entry of the fault FIFO, 0 when it is empty. -/
def Partition.headWord (p : Partition) (i : Nat) : Word :=
  match p.fifo with
  | [] => 0
  | e :: _ => match i with | 0 => e.w0 | 1 => e.w1 | 2 => e.w2 | _ => e.w3

/-- FCOUNT with FULL. -/
def Partition.fcount (p : Partition) : Word := BitVec.ofNat 64 (p.fifo.length + flagAt (decide (256 ≤ p.fifo.length)) 63)

/-- The code of a scope (R341). -/
def scopeCode : Scope → Nat | .core => 0 | .die => 1 | .device => 2 | .system => 3

/-- QCFG, QSTAT and QTOTAL: the selected queue, the last answer, and the sum of the partition's capacities. -/
def State.queueWord (s : State) (part off : Nat) : Word :=
  let p := s.part part
  let (pr, q) := p.selected
  let h := Assoc.get? (s.proc part pr).queues q
  if off = 0x108 then
    match h with
    | some h => BitVec.ofNat 64 (2 ^ 63 + scopeCode h.scope * 2 ^ 20 + h.cap)
    | none => 0
  else if off = 0x110 then p.qans + BitVec.ofNat 64 ((match h with | some h => h.entries.length | none => 0) * 2 ^ 8)
  else
    BitVec.ofNat 64 ((s.procs.flatMap fun e => if e.1.1 = part then e.2.queues.map fun x => x.2.cap else []).foldl (· + ·) 0)

/-- STATE of the selected thread (R370). -/
def Thread.stateCode (t : Thread) : Nat :=
  if t.resident then 1
  else match t.life with
    | .preempted => if t.held then 3 else 2
    | .halted => 4
    | _ => 0

/-- TSTATE: BUSY, the answer to the last command, and the state of the selected thread. -/
def State.tstate (s : State) (part : Nat) : Word :=
  let p := s.part part
  p.tans + BitVec.ofNat 64 (flagAt p.tcmd.isSome 63 + (match s.thread? (p.target part) with | some t => t.stateCode | none => 0))

/-- What a register of a partition's block reads, but for LISSUE; a write-only one and an unassigned offset read 0 (R374; DEDUCED,
log 53). -/
def State.readPart (s : State) (part off : Nat) : Word :=
  let p := s.part part
  if off = 0x50 then BitVec.ofNat 64 (s.launchDepth part)
  else if 0x60 ≤ off ∧ off < 0x80 then p.headWord ((off - 0x60) / 8)
  else if off = 0x88 then p.fcount
  else if off = 0x100 then p.qsel
  else if 0x108 ≤ off ∧ off ≤ 0x118 then s.queueWord part off
  else if off = 0x200 then p.tsel0
  else if off = 0x208 then p.tsel1
  else if off = 0x218 then s.tstate part
  else if 0x1000 ≤ off ∧ off < 0x1020 then p.cores[(off - 0x1000) / 8]?.getD 0
  else if off = 0x1020 then p.root
  else if off = 0x1028 then p.hentry
  else if off = 0x1030 then p.quantum
  else if off = 0x1038 then p.quota
  else if off = 0x1040 then BitVec.ofNat 64 (p.inc.toNat * 2 ^ 8 + flagAt p.killBusy 2 + flagAt p.run 0)
  else if off = 0x1048 then BitVec.ofNat 64 (flagAt p.invBusy.isSome 63)
  else if off = 0x1050 then p.invLo
  else if off = 0x1058 then p.invHi
  else if off = 0x1060 then p.crText
  else if off = 0x1068 then p.crLen
  else if off = 0x1070 then p.crMark
  else if off = 0x1080 then p.ports.zeroExtend 64
  else if 0x2000 ≤ off ∧ off < 0x2200 then (s.proc part ((off - 0x2000) / 8)).root
  else if 0x2400 ≤ off ∧ off < 0x2800 then
    let q := s.proc part ((off - 0x2400) / 16)
    if off % 16 = 0 then q.area else q.areaCfg
  else if 0x3000 ≤ off ∧ off < 0x3100 then
    let w := p.inbound[(off - 0x3000) / 16]?.getD (0, 0)
    if off % 16 = 0 then w.1 else w.2
  else 0

/-! ### The device block (R378, R379, R382, R400, R401, R404 to R406, R414) -/

/-- RLOG0 and RLOG1: the head entry of the repair log, 0 when it is empty. -/
def State.repairWord (s : State) (second : Bool) : Word :=
  match s.repairs with
  | [] => 0
  | e :: _ => if second then e.w1 else e.w0

/-- The 32 bits of the lifetime record at an offset of its window, a multiple of 4 (R405). -/
def Lifetime.half (l : Lifetime) (o : Nat) : Nat :=
  let part (n : Nat) : Nat := bitsAt n (8 * (o % 8)) 32
  if o < 0x08 then part l.seq
  else if o < 0x10 then part l.hours
  else if o < 0x18 then part l.dfver.toNat
  else if o < 0x20 then 0
  else if o < 0x220 then (if (o - 0x20) % 0x80 < 64 then Assoc.getD l.tjHours ((o - 0x20) / 0x80, (o - 0x20) % 0x80 / 4) 0 else 0)
  else if o < 0x420 then (if (o - 0x220) % 0x80 < 64 then Assoc.getD l.railHours ((o - 0x220) / 0x80, (o - 0x220) % 0x80 / 4) 0 else 0)
  else if o < 0x820 then
    (if (o - 0x420) % 0x100 < 120 then part (Assoc.getD l.corrected ((o - 0x420) / 0x100, (o - 0x420) % 0x100 / 8) 0) else 0)
  else if o < 0xC20 then
    (if (o - 0x820) % 0x100 < 120 then part (Assoc.getD l.uncorrected ((o - 0x820) / 0x100, (o - 0x820) % 0x100 / 8) 0) else 0)
  else if o < 0xC24 then l.laneGroups
  else if o < 0xC28 then l.columnGroups
  else if o < 0xC2C then l.fences
  else if o < 0xC30 then 0
  else if o < 0xCF0 then Assoc.getD l.retrains ((o - 0xC30) / 4) 0
  else if o < 0x14F0 then
    let i := (o - 0xCF0) / 8
    let c : CoreId := ⟨i / 64, i % 64⟩
    part (match Assoc.get? l.cores c with
      | some w => w.toNat
      | none => let k := Core.fresh c; if k.enabled then k.stateWord.toNat else 0)
  else 0

/-- A doubleword of the window (R405). While SEQ is odd a refresh is under way, and each field reads its old or its new value, a
free choice (R406). -/
def State.lifetimeWord (s : State) (o : Nat) : Word × State :=
  let (l, s1) : Lifetime × State :=
    if s.snapshot.seq % 2 = 1 ∧ 8 ≤ o then s.choose [s.snapshot, s.lifetime] s.snapshot else (s.snapshot, s)
  (BitVec.ofNat 64 (l.half o + l.half (o + 4) * 2 ^ 32), s1)

/-- What a counter with a selector reads: its count, a free value when its source depends on time or on caches (R404; DESIGN
CHOICE, log 5). -/
def State.counterWord (s : State) (free : Bool) (count : Word) : Word × State := if free then s.free else (count, s)

/-- What a register of the device block reads, but for RCOUNT. -/
def State.readDevice (s : State) (off : Nat) : Word × State :=
  if off < 8 * 48 then ((Assoc.getD s.ports (off / 8) Port.fresh).cfg.zeroExtend 64, s)
  else if 0x1000 ≤ off ∧ off < 0x3000 then (Assoc.getD s.peers ((off - 0x1000) / 8) 0, s)
  else if 0x4000 ≤ off ∧ off < 0x14000 then
    let w := Assoc.getD s.peerSets ((off - 0x4000) / 16) (0, 0)
    (if off % 16 = 0 then w.1 else w.2, s)
  else if off = 0x20000 then (s.repairWord false, s)
  else if off = 0x20008 then (s.repairWord true, s)
  else if 0x21000 ≤ off ∧ off < 0x21800 then
    let i := (off - 0x21000) / 8
    let k := s.core ⟨i / 64, i % 64⟩
    (if k.enabled then k.stateWord else 0, s)
  else if 0x22000 ≤ off ∧ off < 0x22400 then
    let d := (off - 0x22000) / 0x100
    let o := (off - 0x22000) % 0x100
    let sel := Assoc.getD s.devSel (d, o % 0x80 / 8) 0
    if o < 0x80 then (sel, s)
    else s.counterWord (decide (1 ≤ sel.toNat ∧ sel.toNat ≤ 10)) (Assoc.getD s.devCnt (d, (o - 0x80) / 8) 0)
  else if 0x23000 ≤ off ∧ off < 0x23C00 then
    let p := Assoc.getD s.ports ((off - 0x23000) / 0x40) Port.fresh
    let o := (off - 0x23000) % 0x40
    let sel := p.sel[o % 0x20 / 8]?.getD 0
    if o < 0x20 then (sel, s)
    else s.counterWord ([1, 2, 4, 6, 7].contains sel.toNat) (p.cnt[(o - 0x20) / 8]?.getD 0)
  else if 0x24000 ≤ off ∧ off < 0x28000 then s.lifetimeWord (off - 0x24000)
  else if off = 0x28000 then
    let p := s.power
    (BitVec.ofNat 64 (p.pwr.toNat * 2 ^ 32 + p.tjmax.toNat * 2 ^ 24 + p.clk * 2 ^ 8 + flagAt p.tlim 1 + flagAt p.plim 0), s)
  else if off = 0x28008 then (BitVec.ofNat 64 s.power.limit, s)
  else (0, s)

/-! ### Reads (R374) -/

/-- A doubleword of the context window: the CSA of the selected thread while it is HALTED, held or PRE-EMPTED (R370). -/
def State.readWindow (s : State) (part off : Nat) : Word :=
  match s.thread? ((s.part part).target part) with
  | some t => if t.resident then 0 else BitVec.ofNat 64 (natOfBytes (t.csaBytes off 8))
  | none => 0

/-- The state that a step of the device leaves. -/
def stateOf (s : State) (o : Host.Outcome State Fault Refusal) : State := match o with | .next t => t | _ => s

/-- An aligned read of a register: LISSUE and RCOUNT act as they are read (R339, R401), a TSTATE read finds a command that can
complete complete (R370), and an unassigned offset reads 0. -/
def State.readRegister (s : State) (a : Nat) : State :=
  let keep (e : Word × State) : State := { e.2 with cpuRead := e.1 }
  if 0x10000000000000 ≤ a ∧ a < 0x10000000100000 then
    let part := (a - 0x10000000000000) / 0x10000
    let off := (a - 0x10000000000000) % 0x10000
    if off = 0x48 then stateOf s (execLissue part s)
    else
      let s1 := if off = 0x218 then s.settleCmd part else s
      keep (s1.readPart part off, s1)
  else if 0x10000000100000 ≤ a ∧ a < 0x10000000100000 + 0x30000 then
    if a = 0x10000000100000 + 0x20018 then stateOf s (execRcountRead s) else keep (s.readDevice (a - 0x10000000100000))
  else if 0x10000001000000 ≤ a ∧ a < 0x10000001000000 + 16 * 0x20000 then
    keep (s.readWindow ((a - 0x10000001000000) / 0x20000) ((a - 0x10000001000000) % 0x20000), s)
  else keep (0, s)

/-- A read of `n` bytes of memory by the control complex: a "none" address faults there (R374). What a peer holds is asked for, and
the read is complete when it answers (R379, R380). A granule with an uncorrectable error is a free value (DEDUCED, log 53). -/
def State.readMemory (s : State) (a n : Nat) : State :=
  if !(List.range n).all (fun i => s.mapped (a + i)) then s
  else if n ≠ 0 ∧ (List.range n).all (fun i => (Place.device (a + i)).remote) = true then
    s.sendPeer .control none controlPart a n false [] (BitVec.ofNat 64 a)
  else if (List.range n).any (fun i => (Place.device (a + i)).remote) || s.badData Thread.fresh (.device a) n then
    let (w, s1) := s.free
    { s1 with cpuRead := BitVec.ofNat 64 (w.toNat % 2 ^ (8 * n)) }
  else { s with cpuRead := BitVec.ofNat 64 (s.mem.load a n) }

/-- A read of the control complex (R262, R374): memory below 2^52, and registers in aligned doublewords; any other access reads
0. -/
def State.controlRead (s : State) (a n : Nat) : State :=
  if a < 2 ^ 52 then s.readMemory a n
  else if a % 8 = 0 ∧ n = 8 then s.readRegister a
  else { s with cpuRead := 0 }

/-! ### Accesses performed (R258, R262, R374, R389, R390) -/

/-- An uncorrectable error in control state of a partition: a MACHINE_CHECK entry, and RUN is cleared (R390). -/
def State.controlStateFails (s : State) (part die : Nat) : State :=
  let s1 := (s.countUncorrected die 10).report part { w0 := fifoW0 3 die none none, w1 := 0, w2 := 0, w3 := 10 }
  s1.haltPart part

/-- An uncorrectable error arises in a granule of device memory. It is counted then, once, on the die of the granule (R388, R390;
DESIGN CHOICE, log 102). -/
def State.spoilGranule (s : State) (dpa cls : Nat) : State :=
  let g := dpa / 8 * 8
  if s.mapped g && !(Place.device g).remote && (Assoc.get? s.badMem g).isNone then
    { s with badMem := Assoc.put s.badMem g cls }.countUncorrected (granuleDie g) cls
  else s

/-- True of 64 bits that a resident thread holds in a register or a tile, or a live one in its local store, by class, register or
offset, and number. -/
def Thread.holdsBits (t : Thread) (cls r i : Nat) : Bool :=
  match cls with
  | 0 => t.resident && decide (64 * i < if r < 32 then 64 else if r < 64 then 16384 else 2048)
  | 1 => t.resident && decide (i < 512)
  | _ => decide (r < 0x100000)

/-- An uncorrectable error arises in 64 bits that a thread holds, and is counted on the die of its core (R388, R390; DESIGN CHOICE,
log 102). -/
def State.spoilThread (s : State) (t : ThreadKey) (cls r i : Nat) : State :=
  match s.thread? t with
  | some u =>
    if u.holdsBits cls r i && !s.badReg.contains (t, cls, r, i) then
      { s with badReg := (t, cls, r, i) :: s.badReg }.countUncorrected u.core.die cls
    else s
  | none => s

/-- An uncorrectable error arises in a live thread's context save area, class 11 (R388, R390), and is counted on the die of its core. -/
def State.spoilSaved (s : State) (t : ThreadKey) (off : Nat) : State :=
  let g := off / 8 * 8
  match s.thread? t with
  | some u =>
    if decide (g < 0x20000) && !s.badCsa.contains (t, g) then
      { s with badCsa := (t, g) :: s.badCsa }.countUncorrected u.core.die 11
    else s
  | none => s

/-- MEMORY_ACCESS_PERFORMED (R258, R374, R388, R389, R390). -/
def execMemoryAccessPerformed (acc : PendingAccess) (s : State) : Host.Outcome State Fault Refusal :=
  .next (match acc with
    | .held t k => s.performHeld t k
    | .control dpa data => s.controlWrite dpa data
    | .controlRead a n => s.controlRead a n
    | .corrected die cls => s.countCorrected die cls
    | .unused die cls => s.countUncorrected die cls
    | .controlState part die => s.controlStateFails part die
    | .granule dpa cls => s.spoilGranule dpa cls
    | .localGranule t off => s.spoilThread t 3 (off / 8 * 8) 0
    | .register t cls r i => s.spoilThread t cls r i
    | .saved t off => s.spoilSaved t off)

end Sys2Proof.Machine
end

