-- ==== Sys2Proof/Machine/ScalarFloat.lean ====
section
/-! DEFINITION. Scalar floating point (R72, R113 to R118). -/
namespace Sys2Proof.Machine

/-- The format of a precision (R72, R113). -/
def precFmt : Prec → Fmt | .single => Fmt.f32 | .double => Fmt.f64

/-- The other of binary32 and binary64. -/
def precOther : Prec → Fmt | .single => Fmt.f64 | .double => Fmt.f32

/-- An operand: the low bits of its register (R113). -/
def fpBits (p : Prec) (w : Word) : Nat := w.toNat % 2 ^ (precFmt p).bits

/-- The rounding mode of a word's field (R72, R20). -/
def roundMode (r : FRound) (fcsr : BitVec 8) : RMode :=
  match r with
  | .rne => .rne | .rtz => .rtz | .rdn => .rdn | .rup => .rup | .rna => .rna
  | .dyn => RMode.ofCode (fcsrFrm fcsr).toNat

/-- Write a result and OR its flags into FCSR at completion (R25, R118). -/
def fpWrite (d : Reg) (r : Nat × Flags) (s : State) : State :=
  (s.setX d (BitVec.ofNat 64 r.1)).mapThr fun t => { t with fcsr := fcsrRaise t.fcsr r.2 }

/-- A scalar floating-point instruction: SCALAR_FP, one result, flags at completion. -/
def fpOp (w : BitVec 32) (legal : Bool) (src : List Reg) (d : Reg) (r : Nat × Flags) (s : State) :
    Host.Outcome State Fault Refusal :=
  issue 4 { word := tv w, legal := legal, caps := [2], reads := xs src } s fun s => .ok (fpWrite d r s)

/-- A truth value with its flags. -/
def boolResult (r : Bool × Flags) : Nat × Flags := (if r.1 then 1 else 0, r.2)

/-- A signed integer as 64 bits. -/
def intResult (r : Int × Flags) : Nat × Flags := (wrap 64 r.1, r.2)

/-- Sign injection (R116). -/
def signInject (p : Prec) (v : SgnKind) (a b : Nat) : Nat :=
  let f := precFmt p
  match v with
  | .copy => f.withSign a (f.signOf b)
  | .neg => f.withSign a (!f.signOf b)
  | .xor => f.withSign a (f.signOf a != f.signOf b)

/-- `fcvt` by conversion code (R117). -/
def convertCode (p : Prec) (mode : RMode) (c : Nat) (a : Word) : Nat × Flags :=
  let f := precFmt p
  let v := f.unpack (fpBits p a)
  match c with
  | 0 => f.convert (precOther p) mode (fpBits p a)
  | 1 => intResult (toIntRange mode (-2 ^ 31) (2 ^ 31 - 1) v)
  | 2 => intResult (toIntRange mode 0 (2 ^ 32 - 1) v)
  | 3 => intResult (toIntRange mode (-2 ^ 63) (2 ^ 63 - 1) v)
  | 4 => intResult (toIntRange mode 0 (2 ^ 64 - 1) v)
  | 5 => f.round mode (Dy.ofInt (sext 32 a.toNat))
  | 6 => f.round mode (Dy.ofInt (zext 32 a.toNat))
  | 7 => f.round mode (Dy.ofInt a.toInt)
  | 8 => f.round mode (Dy.ofInt a.toNat)
  | 9 => Fmt.f16.roundVal mode v
  | 10 => Fmt.bf16.roundVal mode v
  | 11 => Fmt.f16.convert f mode (a.toNat % 2 ^ 16)
  | _ => Fmt.bf16.convert f mode (a.toNat % 2 ^ 16)

/-- FADD (R114). -/
def execFadd (d a b : Reg) (p : Prec) (r : FRound) (s : State) : Host.Outcome State Fault Refusal :=
  fpOp (wordFadd d a b p r) true [a, b] d ((precFmt p).add (roundMode r s.thr.fcsr) (fpBits p (s.xr a)) (fpBits p (s.xr b))) s

/-- FSUB (R114). -/
def execFsub (d a b : Reg) (p : Prec) (r : FRound) (s : State) : Host.Outcome State Fault Refusal :=
  fpOp (wordFsub d a b p r) true [a, b] d ((precFmt p).sub (roundMode r s.thr.fcsr) (fpBits p (s.xr a)) (fpBits p (s.xr b))) s

/-- FMUL (R114). -/
def execFmul (d a b : Reg) (p : Prec) (r : FRound) (s : State) : Host.Outcome State Fault Refusal :=
  fpOp (wordFmul d a b p r) true [a, b] d ((precFmt p).mul (roundMode r s.thr.fcsr) (fpBits p (s.xr a)) (fpBits p (s.xr b))) s

/-- FDIV (R114). -/
def execFdiv (d a b : Reg) (p : Prec) (r : FRound) (s : State) : Host.Outcome State Fault Refusal :=
  fpOp (wordFdiv d a b p r) true [a, b] d ((precFmt p).div (roundMode r s.thr.fcsr) (fpBits p (s.xr a)) (fpBits p (s.xr b))) s

/-- FSQRT (R114). -/
def execFsqrt (d a : Reg) (p : Prec) (r : FRound) (s : State) : Host.Outcome State Fault Refusal :=
  fpOp (wordFsqrt d a p r) true [a] d ((precFmt p).sqrt (roundMode r s.thr.fcsr) (fpBits p (s.xr a))) s

/-- FMIN (R115). -/
def execFmin (d a b : Reg) (p : Prec) (s : State) : Host.Outcome State Fault Refusal :=
  fpOp (wordFmin d a b p) true [a, b] d ((precFmt p).minmax false (fpBits p (s.xr a)) (fpBits p (s.xr b))) s

/-- FMAX (R115). -/
def execFmax (d a b : Reg) (p : Prec) (s : State) : Host.Outcome State Fault Refusal :=
  fpOp (wordFmax d a b p) true [a, b] d ((precFmt p).minmax true (fpBits p (s.xr a)) (fpBits p (s.xr b))) s

/-- FMA (R114). -/
def execFma (d a b : Reg) (p : Prec) (r : FRound) (s : State) : Host.Outcome State Fault Refusal :=
  fpOp (wordFma d a b p r) true [a, b, d] d ((precFmt p).fma (roundMode r s.thr.fcsr) (fpBits p (s.xr a)) (fpBits p (s.xr b)) (fpBits p (s.xr d))) s

/-- FEQ (R115). -/
def execFeq (d a b : Reg) (p : Prec) (s : State) : Host.Outcome State Fault Refusal :=
  fpOp (wordFeq d a b p) true [a, b] d (boolResult ((precFmt p).feq (fpBits p (s.xr a)) (fpBits p (s.xr b)))) s

/-- FLT (R115). -/
def execFlt (d a b : Reg) (p : Prec) (s : State) : Host.Outcome State Fault Refusal :=
  fpOp (wordFlt d a b p) true [a, b] d (boolResult ((precFmt p).flt (fpBits p (s.xr a)) (fpBits p (s.xr b)))) s

/-- FLE (R115). -/
def execFle (d a b : Reg) (p : Prec) (s : State) : Host.Outcome State Fault Refusal :=
  fpOp (wordFle d a b p) true [a, b] d (boolResult ((precFmt p).fle (fpBits p (s.xr a)) (fpBits p (s.xr b)))) s

/-- FCLASS (R115). -/
def execFclass (d a : Reg) (p : Prec) (s : State) : Host.Outcome State Fault Refusal :=
  fpOp (wordFclass d a p) true [a] d ((precFmt p).classify (fpBits p (s.xr a)), 0) s

/-- FCVT (R117). -/
def execFcvt (d a k : Reg) (p : Prec) (r : FRound) (s : State) : Host.Outcome State Fault Refusal :=
  fpOp (wordFcvt d a k p r) (codeUpTo k 12) [a] d (convertCode p (roundMode r s.thr.fcsr) k.toNat (s.xr a)) s

/-- FSGNJ (R116). -/
def execFsgnj (d a b : Reg) (p : Prec) (v : SgnKind) (s : State) : Host.Outcome State Fault Refusal :=
  fpOp (wordFsgnj d a b p v) true [a, b] d (signInject p v (fpBits p (s.xr a)) (fpBits p (s.xr b)), 0) s

end Sys2Proof.Machine
end

