-- ==== Sys2Proof/Machine/Tile.lean ====
section
/-! DEFINITION. Tile instructions (R178 to R182). -/
namespace Sys2Proof.Machine

/-! ### Tiles and their shapes (R54, R178) -/

/-- The TSHAPE entry of a tile. -/
def Thread.shape (t : Thread) (m : Reg) : BitVec 16 := t.tshape[m.toNat]?.getD 0

/-- Element width T, columns C and the number of rows (R178). -/
def Thread.tileT (t : Thread) (m : Reg) : Nat := tileTypeBits (shapeType (t.shape m))
def Thread.tileC (t : Thread) (m : Reg) : Nat := 8 * shapeRowBytes (t.shape m) / t.tileT m
def Thread.tileRows (t : Thread) (m : Reg) : Nat := shapeRows (t.shape m) + 1

def Thread.tile (t : Thread) (m : Reg) : Nat := (t.m[m.toNat]?.getD 0).toNat

/-- The place of element (r, c): its lowest bit; a row takes 64 bytes. -/
def tileBit (w r c : Nat) : Nat := 512 * r + w * c
def Thread.tileElem (t : Thread) (m : Reg) (r c : Nat) : Nat := bitsAt (t.tile m) (tileBit (t.tileT m) r c) (t.tileT m)

/-- A tile written: its TDIRTY bit is set (R55, R178). -/
def Thread.putTile (t : Thread) (m : Reg) (v : Nat) : Thread :=
  { t with m := t.m.setIfInBounds m.toNat (BitVec.ofNat 32768 v),
           tdirty := t.tdirty ||| BitVec.ofNat 8 (2 ^ m.toNat) }

/-- A tile number with some elements replaced. -/
def setElems (w : Nat) : List (Nat × Nat × Nat) → Nat → Nat
  | [], v => v
  | (r, c, e) :: l, v => setElems w l (setBitsAt v (tileBit w r c) w e)

/-- The saved image of a tile of the thread itself is discarded (R55); a handler's tiles have none. -/
def Thread.dropImage (t : Thread) (m : Reg) : Thread :=
  if t.supervisor then t else { t with csa := t.csa.put (0x12000 + 4096 * m.toNat) (List.replicate 4096 0) }

/-! ### Checks -/

/-- R80 steps 2 to 4 of an instruction that names a tile (R45, R49, R178). -/
def Thread.tileReq (t : Thread) (a : VArgs) (m : Reg) : Req :=
  let r := t.vreq a
  { r with legal := r.legal && isTile m && decide (m.toNat < classTiles t.cls)
           declared := r.declared && decide (m.toNat < t.hdr.tiles)
           reads := [] }

/-- The registers it reads, whose errors count only after the conditions of R80 step 5; of its tile it reads the elements `cells`, by
row and column. -/
def Thread.tileReads (t : Thread) (a : VArgs) (m : Reg) (cells : List (Nat × Nat)) : List RegRead :=
  { cls := 1, reg := m.toNat, elems := cells.map fun c => 8 * c.1 + t.tileT m * c.2 / 64 } :: (t.vreq a).reads

/-- TILE_UNCFG with the tile number (R178). -/
def State.needTile (s : State) (m : Reg) : Run Unit :=
  need s (shapeCfg (s.thr.shape m)) .tileUncfg (BitVec.ofNat 64 m.toNat)

/-- A tile instruction that VL governs, on a configured tile and with a legal type: R80 step 5, then step 6 (R121). -/
def tileOp (a : VArgs) (m : Reg) (cells : List (Nat × Nat)) (typed : Bool) (s : State) (body : State → Run State) : Host.Outcome State Fault Refusal :=
  issueVector (s.thr.tileReq a m) s fun s =>
    if s.thr.vl = 0 then .ok s
    else do
      s.needTile m
      need s typed .illegal (tv a.word)
      s.checkSources (s.thr.tileReads a m cells)
      body s

/-! ### Configuration (R179, R180) -/

/-- A shape that `tcfg` accepts (R179) (DEDUCED, log 39). -/
def tcfgOk (x : Word) : Bool :=
  let e : BitVec 16 := x.truncate 16
  decide (x.toNat < 2 ^ 14 ∧ shapeType e < 10 ∧ shapeRowBytes e % (tileTypeBits (shapeType e) / 8) = 0)

/-- A tile's entry set, its contents zero and its TDIRTY bit clear. -/
def Thread.shapeTile (t : Thread) (m : Reg) (e : BitVec 16) : Thread :=
  ({ t with tshape := t.tshape.setIfInBounds m.toNat e, m := t.m.setIfInBounds m.toNat 0,
            tdirty := t.tdirty &&& ~~~ (BitVec.ofNat 8 (2 ^ m.toNat)) }).dropImage m

/-- TCFG (R179). -/
def execTcfg (d a : Reg) (s : State) : Host.Outcome State Fault Refusal :=
  let args : VArgs := { word := (wordTcfg d a), caps := [12], xsrc := [a], always := true }
  issueVector (s.thr.tileReq args d) s fun s => do
    let x := s.xr a
    s.checkSources (s.thr.tileReads args d [])
    need s (tcfgOk x) .illegal x
    .ok (s.mapThr fun t => t.shapeTile d (BitVec.ofNat 16 (2 ^ 15 + x.toNat)))

/-- TRELEASE (R179). -/
def execTrelease (d : Reg) (s : State) : Host.Outcome State Fault Refusal :=
  issueVector (s.thr.tileReq { word := (wordTrelease d), caps := [12], always := true } d) s fun s =>
    .ok (s.mapThr fun t => if shapeCfg (t.shape d) then t.shapeTile d 0 else t)

/-- TZERO (R180). -/
def execTzero (d : Reg) (s : State) : Host.Outcome State Fault Refusal :=
  issueVector (s.thr.tileReq { word := (wordTzero d), caps := [12], always := true } d) s fun s => do
    s.needTile d
    .ok (s.mapThr fun t => t.putTile d 0)

/-! ### Rows and memory (R180) -/

/-- The rows that move. -/
def Thread.tileActive (t : Thread) (m p : Reg) : List Nat := (t.actives p).filter fun r => decide (r < t.tileRows m)

/-- The element units of the rows that move; slot = the byte's place in the tile. -/
def Thread.tileUnits (t : Thread) (m a b p : Reg) : List VUnit :=
  let n := t.tileT m / 8
  (t.tileActive m p).flatMap fun r => (List.range (t.tileC m)).map fun c =>
    ⟨r, 64 * r + n * c, t.xr a + BitVec.ofNat 64 r * t.xr b + BitVec.ofNat 64 (n * c), n, n⟩

/-- Rows and columns as elements. -/
def cellsOf (rows cols : List Nat) : List (Nat × Nat) := rows.flatMap fun r => cols.map fun c => (r, c)

/-- TLD (R180). -/
def execTld (d a b p : Reg) (s : State) : Host.Outcome State Fault Refusal :=
  tileOp { word := (wordTld d a b p), caps := [12], psrc := [p], xsrc := [a, b] } d [] true s fun s => do
    let l ← s.vunits .load false (s.thr.tileUnits d a b p)
    let (vs, s) ← s.readUnitsClass 0 VUnit.slot l
    .ok (s.mapThr fun t =>
      t.putTile d (vs.foldl (fun m e => setBitsAt m (8 * e.1) (t.tileT d) e.2) (t.tile d)))

/-- Of several elements at one place, the last: no observer sees the others (R180, R257). -/
def lastUnits : List (Place × List Byte) → List (Place × List Byte)
  | [] => []
  | e :: r => if r.any fun x => decide (x.1 = e.1) then lastUnits r else e :: lastUnits r

/-- TST (R180): where rows overlap, the highest active one is stored. -/
def execTst (src a b p : Reg) (s : State) : Host.Outcome State Fault Refusal :=
  tileOp { word := (wordTst src a b p), caps := [12], psrc := [p], xsrc := [a, b] } src (cellsOf (s.thr.tileActive src p) (List.range (s.thr.tileC src))) true s fun s => do
    let l ← s.vunits .store true (s.thr.tileUnits src a b p)
    .ok (s.storeUnits 0 true (lastUnits (l.map fun (u, pl) => (pl, bytesOf u.n (bitsAt (s.thr.tile src) (8 * u.slot) (8 * u.n))))))

/-! ### Moves (R181) -/

/-- SEW must equal T (R181). -/
def Thread.moveTyped (t : Thread) (m : Reg) : Bool := decide (t.sew = t.tileT m)

/-- The row or column must exist (R181). -/
def State.needLine (s : State) (k bound : Nat) : Run Unit := need s (decide (k < bound)) .bounds (BitVec.ofNat 64 k)

/-- From a tile to a vector group. -/
def tileToVec (w : BitVec 32) (d a b p : Reg) (row : Bool) (s : State) : Host.Outcome State Fault Refusal :=
  let t := s.thr
  tileOp { word := w, caps := [12], dst := [t.own d], psrc := [p], xsrc := [b] } a
    (if row then cellsOf [(t.xr b).toNat] ((t.actives p).filter fun i => decide (i < t.tileC a))
     else cellsOf (t.tileActive a p) [(t.xr b).toNat]) (t.moveTyped a) s fun s => do
    let k := (s.xr b).toNat
    s.needLine k (if row then s.thr.tileRows a else s.thr.tileC a)
    .ok (s.mapThr fun t => t.writeVec d.toNat (t.pbit p) fun i =>
      if row then (if i < t.tileC a then t.tileElem a k i else 0)
      else if i < t.tileRows a then t.tileElem a i k else 0)

/-- From a vector group to a tile. -/
def vecToTile (w : BitVec 32) (d a b p : Reg) (row : Bool) (s : State) : Host.Outcome State Fault Refusal :=
  let t := s.thr
  tileOp { word := w, caps := [12], src := [t.own a], psrc := [p], xsrc := [b] } d [] (t.moveTyped d) s fun s => do
    let k := (s.xr b).toNat
    s.needLine k (if row then s.thr.tileRows d else s.thr.tileC d)
    .ok (s.mapThr fun t =>
      let is := (t.actives p).filter fun i => decide (i < if row then t.tileC d else t.tileRows d)
      let w := t.tileT d
      t.putTile d (setElems w (is.map fun i => if row then (k, i, t.elem a.toNat i w) else (i, k, t.elem a.toNat i w)) (t.tile d)))

/-- TMVRV (R181). -/
def execTmvrv (d a b p : Reg) (s : State) : Host.Outcome State Fault Refusal :=
  tileToVec (wordTmvrv d a b p) d a b p true s

/-- TMVCV (R181). -/
def execTmvcv (d a b p : Reg) (s : State) : Host.Outcome State Fault Refusal :=
  tileToVec (wordTmvcv d a b p) d a b p false s

/-- TMVVR (R181). -/
def execTmvvr (d a b p : Reg) (s : State) : Host.Outcome State Fault Refusal :=
  vecToTile (wordTmvvr d a b p) d a b p true s

/-- TMVVC (R181). -/
def execTmvvc (d a b p : Reg) (s : State) : Host.Outcome State Fault Refusal :=
  vecToTile (wordTmvvc d a b p) d a b p false s

/-! ### Outer product (R182) -/

/-- Legal tile types and source widths (R182). -/
def outerLegal (ty sew2 : Nat) (h16 : Bool) : Bool :=
  match ty with
  | 1 => decide (sew2 = 8)
  | 2 => decide (sew2 ≤ 32)
  | 3 => true
  | 4 => decide (sew2 = 16) && !h16
  | 5 => decide (sew2 = 16) && h16
  | 6 => decide (sew2 = 16 ∨ sew2 = 32)
  | 7 => decide (sew2 = 32 ∨ sew2 = 64)
  | _ => false

/-- One element: the old one plus a product (R182). -/
def Thread.outerElem (t : Thread) (d a b : Reg) (r c : Nat) : Nat × Flags :=
  let x := t.elem a.toNat r t.sew2
  let y := t.elem b.toNat c t.sew2
  let old := t.tileElem d r c
  if shapeType (t.shape d) < 4 then (wrap t.sew ((old : Int) + sext t.sew2 x * sext t.sew2 y), 0)
  else t.fmt.fmaVal t.vfrm (t.fmt2.unpack x) (t.fmt2.unpack y) (t.fmt.unpack old)

/-- TOUTER (R182) (DEDUCED, log 38). -/
def execTouter (d a b p : Reg) (s : State) : Host.Outcome State Fault Refusal :=
  let t := s.thr
  let typed := t.moveTyped d && outerLegal (shapeType (t.shape d)) t.sew2 (vtH16 t.vtype)
  tileOp { word := (wordTouter d a b p), caps := [12], psrc := [p],
           src := [(t.second a).reading (t.tileActive d p),
                   (t.second b).reading (if (t.tileActive d p).isEmpty then [] else List.range (min t.vl (t.tileC d)))] } d
    (cellsOf (t.tileActive d p) (List.range (min t.vl (t.tileC d)))) typed s fun s => do
    let t := s.thr
    let es := (t.tileActive d p).flatMap fun r => (List.range (min t.vl (t.tileC d))).map fun c =>
      (r, c, t.outerElem d a b r c)
    .ok (s.mapThr fun t =>
      let u := t.putTile d (setElems (t.tileT d) (es.map fun e => (e.1, e.2.1, e.2.2.1)) (t.tile d))
      { u with fcsr := fcsrRaise u.fcsr (orFlags (es.map fun e => e.2.2.2)) })

end Sys2Proof.Machine
end

