-- ==== Sys2Proof/Machine/Dispatch.lean ====
section
/-! DEFINITION. The meaning of every instruction and every step of the device: one arm per constructor of `Instr`. -/
namespace Sys2Proof.Machine

def exec (i : Instr) (s : State) : Host.Outcome State Fault Refusal :=
  match i with
  | .add d a b => Sys2Proof.Machine.execAdd d a b s
  | .sub d a b => Sys2Proof.Machine.execSub d a b s
  | .mul d a b => Sys2Proof.Machine.execMul d a b s
  | .mulh d a b => Sys2Proof.Machine.execMulh d a b s
  | .mulhu d a b => Sys2Proof.Machine.execMulhu d a b s
  | .div d a b => Sys2Proof.Machine.execDiv d a b s
  | .divu d a b => Sys2Proof.Machine.execDivu d a b s
  | .rem d a b => Sys2Proof.Machine.execRem d a b s
  | .remu d a b => Sys2Proof.Machine.execRemu d a b s
  | .andr d a b => Sys2Proof.Machine.execAndr d a b s
  | .orr d a b => Sys2Proof.Machine.execOrr d a b s
  | .xorr d a b => Sys2Proof.Machine.execXorr d a b s
  | .shl d a b => Sys2Proof.Machine.execShl d a b s
  | .shr d a b => Sys2Proof.Machine.execShr d a b s
  | .sra d a b => Sys2Proof.Machine.execSra d a b s
  | .slt d a b => Sys2Proof.Machine.execSlt d a b s
  | .sltu d a b => Sys2Proof.Machine.execSltu d a b s
  | .minr d a b => Sys2Proof.Machine.execMinr d a b s
  | .maxr d a b => Sys2Proof.Machine.execMaxr d a b s
  | .clz d a => Sys2Proof.Machine.execClz d a s
  | .ctz d a => Sys2Proof.Machine.execCtz d a s
  | .popc d a => Sys2Proof.Machine.execPopc d a s
  | .addi d a imm => Sys2Proof.Machine.execAddi d a imm s
  | .andi d a imm => Sys2Proof.Machine.execAndi d a imm s
  | .ori d a imm => Sys2Proof.Machine.execOri d a imm s
  | .xori d a imm => Sys2Proof.Machine.execXori d a imm s
  | .slti d a imm => Sys2Proof.Machine.execSlti d a imm s
  | .sltiu d a imm => Sys2Proof.Machine.execSltiu d a imm s
  | .shli d a n => Sys2Proof.Machine.execShli d a n s
  | .shri d a n => Sys2Proof.Machine.execShri d a n s
  | .srai d a n => Sys2Proof.Machine.execSrai d a n s
  | .bfx d a l w => Sys2Proof.Machine.execBfx d a l w s
  | .bfi d a l w => Sys2Proof.Machine.execBfi d a l w s
  | .addpc d imm => Sys2Proof.Machine.execAddpc d imm s
  | .li d imm => Sys2Proof.Machine.execLi d imm s
  | .ldb d a c o => Sys2Proof.Machine.execLdb d a c o s
  | .ldbu d a c o => Sys2Proof.Machine.execLdbu d a c o s
  | .ldh d a c o => Sys2Proof.Machine.execLdh d a c o s
  | .ldhu d a c o => Sys2Proof.Machine.execLdhu d a c o s
  | .ldw d a c o => Sys2Proof.Machine.execLdw d a c o s
  | .ldwu d a c o => Sys2Proof.Machine.execLdwu d a c o s
  | .ldd d a c o => Sys2Proof.Machine.execLdd d a c o s
  | .stb src a c o => Sys2Proof.Machine.execStb src a c o s
  | .sth src a c o => Sys2Proof.Machine.execSth src a c o s
  | .stw src a c o => Sys2Proof.Machine.execStw src a c o s
  | .std src a c o => Sys2Proof.Machine.execStd src a c o s
  | .beq a b o => Sys2Proof.Machine.execBeq a b o s
  | .bne a b o => Sys2Proof.Machine.execBne a b o s
  | .blt a b o => Sys2Proof.Machine.execBlt a b o s
  | .bge a b o => Sys2Proof.Machine.execBge a b o s
  | .bltu a b o => Sys2Proof.Machine.execBltu a b o s
  | .bgeu a b o => Sys2Proof.Machine.execBgeu a b o s
  | .jal o => Sys2Proof.Machine.execJal o s
  | .jump o => Sys2Proof.Machine.execJump o s
  | .jalr d a imm => Sys2Proof.Machine.execJalr d a imm s
  | .fadd d a b p r => Sys2Proof.Machine.execFadd d a b p r s
  | .fsub d a b p r => Sys2Proof.Machine.execFsub d a b p r s
  | .fmul d a b p r => Sys2Proof.Machine.execFmul d a b p r s
  | .fdiv d a b p r => Sys2Proof.Machine.execFdiv d a b p r s
  | .fsqrt d a p r => Sys2Proof.Machine.execFsqrt d a p r s
  | .fmin d a b p => Sys2Proof.Machine.execFmin d a b p s
  | .fmax d a b p => Sys2Proof.Machine.execFmax d a b p s
  | .fma d a b p r => Sys2Proof.Machine.execFma d a b p r s
  | .feq d a b p => Sys2Proof.Machine.execFeq d a b p s
  | .flt d a b p => Sys2Proof.Machine.execFlt d a b p s
  | .fle d a b p => Sys2Proof.Machine.execFle d a b p s
  | .fclass d a p => Sys2Proof.Machine.execFclass d a p s
  | .fcvt d a k p r => Sys2Proof.Machine.execFcvt d a k p r s
  | .fsgnj d a b p v => Sys2Proof.Machine.execFsgnj d a b p v s
  | .amoswap d a b q l z e => Sys2Proof.Machine.execAmoswap d a b q l z e s
  | .amoadd d a b q l z e => Sys2Proof.Machine.execAmoadd d a b q l z e s
  | .amoand d a b q l z e => Sys2Proof.Machine.execAmoand d a b q l z e s
  | .amoor d a b q l z e => Sys2Proof.Machine.execAmoor d a b q l z e s
  | .amoxor d a b q l z e => Sys2Proof.Machine.execAmoxor d a b q l z e s
  | .amomin d a b q l z e => Sys2Proof.Machine.execAmomin d a b q l z e s
  | .amomax d a b q l z e => Sys2Proof.Machine.execAmomax d a b q l z e s
  | .amocas d a b q l z e => Sys2Proof.Machine.execAmocas d a b q l z e s
  | .ldaq d a z e => Sys2Proof.Machine.execLdaq d a z e s
  | .strl a b z e => Sys2Proof.Machine.execStrl a b z e s
  | .syscall => Sys2Proof.Machine.execSyscall s
  | .brk => Sys2Proof.Machine.execBrk s
  | .eret => Sys2Proof.Machine.execEret s
  | .claim => Sys2Proof.Machine.execClaim s
  | .unclaim => Sys2Proof.Machine.execUnclaim s
  | .exitThread => Sys2Proof.Machine.execExitThread s
  | .yield => Sys2Proof.Machine.execYield s
  | .launch d a => Sys2Proof.Machine.execLaunch d a s
  | .trigger => Sys2Proof.Machine.execTrigger s
  | .csrr d c => Sys2Proof.Machine.execCsrr d c s
  | .csrw d a c => Sys2Proof.Machine.execCsrw d a c s
  | .csrset d a c => Sys2Proof.Machine.execCsrset d a c s
  | .csrclr d a c => Sys2Proof.Machine.execCsrclr d a c s
  | .fence k e => Sys2Proof.Machine.execFence k e s
  | .gjoin a => Sys2Proof.Machine.execGjoin a s
  | .gleave a => Sys2Proof.Machine.execGleave a s
  | .gbar a => Sys2Proof.Machine.execGbar a s
  | .garrive d a => Sys2Proof.Machine.execGarrive d a s
  | .gwait a b => Sys2Proof.Machine.execGwait a b s
  | .qpush a b => Sys2Proof.Machine.execQpush a b s
  | .qpop d a => Sys2Proof.Machine.execQpop d a s
  | .qtry d a => Sys2Proof.Machine.execQtry d a s
  | .hreg d a b => Sys2Proof.Machine.execHreg d a b s
  | .hunreg a => Sys2Proof.Machine.execHunreg a s
  | .mma d a b p t => Sys2Proof.Machine.execMma d a b p t s
  | .bload d a b p t => Sys2Proof.Machine.execBload d a b p t s
  | .copy d a b p t => Sys2Proof.Machine.execCopy d a b p t s
  | .coll d a b p t => Sys2Proof.Machine.execColl d a b p t s
  | .twait d a => Sys2Proof.Machine.execTwait d a s
  | .ttest d a => Sys2Proof.Machine.execTtest d a s
  | .tcancel a => Sys2Proof.Machine.execTcancel a s
  | .tdetach d a => Sys2Proof.Machine.execTdetach d a s
  | .tadopt d a => Sys2Proof.Machine.execTadopt d a s
  | .tafter a b => Sys2Proof.Machine.execTafter a b s
  | .tstat d a src => Sys2Proof.Machine.execTstat d a src s
  | .tsetpri a p => Sys2Proof.Machine.execTsetpri a p s
  | .tcfg d a => Sys2Proof.Machine.execTcfg d a s
  | .tzero d => Sys2Proof.Machine.execTzero d s
  | .tld d a b p => Sys2Proof.Machine.execTld d a b p s
  | .tst src a b p => Sys2Proof.Machine.execTst src a b p s
  | .tmvrv d a b p => Sys2Proof.Machine.execTmvrv d a b p s
  | .tmvcv d a b p => Sys2Proof.Machine.execTmvcv d a b p s
  | .tmvvr d a b p => Sys2Proof.Machine.execTmvvr d a b p s
  | .tmvvc d a b p => Sys2Proof.Machine.execTmvvc d a b p s
  | .touter d a b p => Sys2Proof.Machine.execTouter d a b p s
  | .trelease d => Sys2Proof.Machine.execTrelease d s
  | .vsetvli d a imm => Sys2Proof.Machine.execVsetvli d a imm s
  | .vsetvl d a b => Sys2Proof.Machine.execVsetvl d a b s
  | .vsetvlb d a => Sys2Proof.Machine.execVsetvlb d a s
  | .vaddVv d a b p => Sys2Proof.Machine.execVaddVv d a b p s
  | .vsubVv d a b p => Sys2Proof.Machine.execVsubVv d a b p s
  | .vmulVv d a b p => Sys2Proof.Machine.execVmulVv d a b p s
  | .vmulhVv d a b p => Sys2Proof.Machine.execVmulhVv d a b p s
  | .vmulhuVv d a b p => Sys2Proof.Machine.execVmulhuVv d a b p s
  | .vdivVv d a b p => Sys2Proof.Machine.execVdivVv d a b p s
  | .vdivuVv d a b p => Sys2Proof.Machine.execVdivuVv d a b p s
  | .vremVv d a b p => Sys2Proof.Machine.execVremVv d a b p s
  | .vremuVv d a b p => Sys2Proof.Machine.execVremuVv d a b p s
  | .vandVv d a b p => Sys2Proof.Machine.execVandVv d a b p s
  | .vorVv d a b p => Sys2Proof.Machine.execVorVv d a b p s
  | .vxorVv d a b p => Sys2Proof.Machine.execVxorVv d a b p s
  | .vshlVv d a b p => Sys2Proof.Machine.execVshlVv d a b p s
  | .vshrVv d a b p => Sys2Proof.Machine.execVshrVv d a b p s
  | .vsraVv d a b p => Sys2Proof.Machine.execVsraVv d a b p s
  | .vminVv d a b p => Sys2Proof.Machine.execVminVv d a b p s
  | .vmaxVv d a b p => Sys2Proof.Machine.execVmaxVv d a b p s
  | .vminuVv d a b p => Sys2Proof.Machine.execVminuVv d a b p s
  | .vmaxuVv d a b p => Sys2Proof.Machine.execVmaxuVv d a b p s
  | .vmaccVv d a b p => Sys2Proof.Machine.execVmaccVv d a b p s
  | .vsaddVv d a b p => Sys2Proof.Machine.execVsaddVv d a b p s
  | .vssubVv d a b p => Sys2Proof.Machine.execVssubVv d a b p s
  | .vmergeVv d a b p => Sys2Proof.Machine.execVmergeVv d a b p s
  | .vmvVv d b p => Sys2Proof.Machine.execVmvVv d b p s
  | .vaddVx d a b p => Sys2Proof.Machine.execVaddVx d a b p s
  | .vsubVx d a b p => Sys2Proof.Machine.execVsubVx d a b p s
  | .vmulVx d a b p => Sys2Proof.Machine.execVmulVx d a b p s
  | .vmulhVx d a b p => Sys2Proof.Machine.execVmulhVx d a b p s
  | .vmulhuVx d a b p => Sys2Proof.Machine.execVmulhuVx d a b p s
  | .vdivVx d a b p => Sys2Proof.Machine.execVdivVx d a b p s
  | .vdivuVx d a b p => Sys2Proof.Machine.execVdivuVx d a b p s
  | .vremVx d a b p => Sys2Proof.Machine.execVremVx d a b p s
  | .vremuVx d a b p => Sys2Proof.Machine.execVremuVx d a b p s
  | .vandVx d a b p => Sys2Proof.Machine.execVandVx d a b p s
  | .vorVx d a b p => Sys2Proof.Machine.execVorVx d a b p s
  | .vxorVx d a b p => Sys2Proof.Machine.execVxorVx d a b p s
  | .vshlVx d a b p => Sys2Proof.Machine.execVshlVx d a b p s
  | .vshrVx d a b p => Sys2Proof.Machine.execVshrVx d a b p s
  | .vsraVx d a b p => Sys2Proof.Machine.execVsraVx d a b p s
  | .vminVx d a b p => Sys2Proof.Machine.execVminVx d a b p s
  | .vmaxVx d a b p => Sys2Proof.Machine.execVmaxVx d a b p s
  | .vminuVx d a b p => Sys2Proof.Machine.execVminuVx d a b p s
  | .vmaxuVx d a b p => Sys2Proof.Machine.execVmaxuVx d a b p s
  | .vmaccVx d a b p => Sys2Proof.Machine.execVmaccVx d a b p s
  | .vsaddVx d a b p => Sys2Proof.Machine.execVsaddVx d a b p s
  | .vssubVx d a b p => Sys2Proof.Machine.execVssubVx d a b p s
  | .vmergeVx d a b p => Sys2Proof.Machine.execVmergeVx d a b p s
  | .vmvVx d b p => Sys2Proof.Machine.execVmvVx d b p s
  | .vaddVi d a imm p => Sys2Proof.Machine.execVaddVi d a imm p s
  | .vsubVi d a imm p => Sys2Proof.Machine.execVsubVi d a imm p s
  | .vmulVi d a imm p => Sys2Proof.Machine.execVmulVi d a imm p s
  | .vmulhVi d a imm p => Sys2Proof.Machine.execVmulhVi d a imm p s
  | .vmulhuVi d a imm p => Sys2Proof.Machine.execVmulhuVi d a imm p s
  | .vdivVi d a imm p => Sys2Proof.Machine.execVdivVi d a imm p s
  | .vdivuVi d a imm p => Sys2Proof.Machine.execVdivuVi d a imm p s
  | .vremVi d a imm p => Sys2Proof.Machine.execVremVi d a imm p s
  | .vremuVi d a imm p => Sys2Proof.Machine.execVremuVi d a imm p s
  | .vandVi d a imm p => Sys2Proof.Machine.execVandVi d a imm p s
  | .vorVi d a imm p => Sys2Proof.Machine.execVorVi d a imm p s
  | .vxorVi d a imm p => Sys2Proof.Machine.execVxorVi d a imm p s
  | .vshlVi d a imm p => Sys2Proof.Machine.execVshlVi d a imm p s
  | .vshrVi d a imm p => Sys2Proof.Machine.execVshrVi d a imm p s
  | .vsraVi d a imm p => Sys2Proof.Machine.execVsraVi d a imm p s
  | .vminVi d a imm p => Sys2Proof.Machine.execVminVi d a imm p s
  | .vmaxVi d a imm p => Sys2Proof.Machine.execVmaxVi d a imm p s
  | .vminuVi d a imm p => Sys2Proof.Machine.execVminuVi d a imm p s
  | .vmaxuVi d a imm p => Sys2Proof.Machine.execVmaxuVi d a imm p s
  | .vmaccVi d a imm p => Sys2Proof.Machine.execVmaccVi d a imm p s
  | .vsaddVi d a imm p => Sys2Proof.Machine.execVsaddVi d a imm p s
  | .vssubVi d a imm p => Sys2Proof.Machine.execVssubVi d a imm p s
  | .vmergeVi d a imm p => Sys2Proof.Machine.execVmergeVi d a imm p s
  | .vmvVi d imm p => Sys2Proof.Machine.execVmvVi d imm p s
  | .vfaddVv d a b p => Sys2Proof.Machine.execVfaddVv d a b p s
  | .vfsubVv d a b p => Sys2Proof.Machine.execVfsubVv d a b p s
  | .vfmulVv d a b p => Sys2Proof.Machine.execVfmulVv d a b p s
  | .vfdivVv d a b p => Sys2Proof.Machine.execVfdivVv d a b p s
  | .vfminVv d a b p => Sys2Proof.Machine.execVfminVv d a b p s
  | .vfmaxVv d a b p => Sys2Proof.Machine.execVfmaxVv d a b p s
  | .vfmaccVv d a b p => Sys2Proof.Machine.execVfmaccVv d a b p s
  | .vfnmaccVv d a b p => Sys2Proof.Machine.execVfnmaccVv d a b p s
  | .vfmsacVv d a b p => Sys2Proof.Machine.execVfmsacVv d a b p s
  | .vfnmsacVv d a b p => Sys2Proof.Machine.execVfnmsacVv d a b p s
  | .vfsgnjVv d a b p => Sys2Proof.Machine.execVfsgnjVv d a b p s
  | .vfsgnjnVv d a b p => Sys2Proof.Machine.execVfsgnjnVv d a b p s
  | .vfsgnjxVv d a b p => Sys2Proof.Machine.execVfsgnjxVv d a b p s
  | .vfaddVx d a b p => Sys2Proof.Machine.execVfaddVx d a b p s
  | .vfsubVx d a b p => Sys2Proof.Machine.execVfsubVx d a b p s
  | .vfmulVx d a b p => Sys2Proof.Machine.execVfmulVx d a b p s
  | .vfdivVx d a b p => Sys2Proof.Machine.execVfdivVx d a b p s
  | .vfminVx d a b p => Sys2Proof.Machine.execVfminVx d a b p s
  | .vfmaxVx d a b p => Sys2Proof.Machine.execVfmaxVx d a b p s
  | .vfmaccVx d a b p => Sys2Proof.Machine.execVfmaccVx d a b p s
  | .vfnmaccVx d a b p => Sys2Proof.Machine.execVfnmaccVx d a b p s
  | .vfmsacVx d a b p => Sys2Proof.Machine.execVfmsacVx d a b p s
  | .vfnmsacVx d a b p => Sys2Proof.Machine.execVfnmsacVx d a b p s
  | .vfsgnjVx d a b p => Sys2Proof.Machine.execVfsgnjVx d a b p s
  | .vfsgnjnVx d a b p => Sys2Proof.Machine.execVfsgnjnVx d a b p s
  | .vfsgnjxVx d a b p => Sys2Proof.Machine.execVfsgnjxVx d a b p s
  | .vfsqrt d a p => Sys2Proof.Machine.execVfsqrt d a p s
  | .vfrsqrte d a p => Sys2Proof.Machine.execVfrsqrte d a p s
  | .vfrece d a p => Sys2Proof.Machine.execVfrece d a p s
  | .vfclass d a p => Sys2Proof.Machine.execVfclass d a p s
  | .vfcvt d a k p => Sys2Proof.Machine.execVfcvt d a k p s
  | .vmxcvt d a t f p => Sys2Proof.Machine.execVmxcvt d a t f p s
  | .vsext d a p => Sys2Proof.Machine.execVsext d a p s
  | .vzext d a p => Sys2Proof.Machine.execVzext d a p s
  | .vnarrow d a k p => Sys2Proof.Machine.execVnarrow d a k p s
  | .vcmpVv d a b p c u => Sys2Proof.Machine.execVcmpVv d a b p c u s
  | .vcmpVx d a b p c u => Sys2Proof.Machine.execVcmpVx d a b p c u s
  | .vfcmpVv d a b p c => Sys2Proof.Machine.execVfcmpVv d a b p c s
  | .vfcmpVx d a b p c => Sys2Proof.Machine.execVfcmpVx d a b p c s
  | .pand d a b p => Sys2Proof.Machine.execPand d a b p s
  | .por d a b p => Sys2Proof.Machine.execPor d a b p s
  | .pxor d a b p => Sys2Proof.Machine.execPxor d a b p s
  | .pnot d a p => Sys2Proof.Machine.execPnot d a p s
  | .pset d p => Sys2Proof.Machine.execPset d p s
  | .pclr d p => Sys2Proof.Machine.execPclr d p s
  | .pmsbf d a p => Sys2Proof.Machine.execPmsbf d a p s
  | .pmsif d a p => Sys2Proof.Machine.execPmsif d a p s
  | .pfirst d a p => Sys2Proof.Machine.execPfirst d a p s
  | .pcount d a p => Sys2Proof.Machine.execPcount d a p s
  | .pld d a => Sys2Proof.Machine.execPld d a s
  | .pst src a => Sys2Proof.Machine.execPst src a s
  | .vslideup d a b p => Sys2Proof.Machine.execVslideup d a b p s
  | .vslidedown d a b p => Sys2Proof.Machine.execVslidedown d a b p s
  | .vrgather d a b p => Sys2Proof.Machine.execVrgather d a b p s
  | .vcompress d a p => Sys2Proof.Machine.execVcompress d a p s
  | .vexpand d a p => Sys2Proof.Machine.execVexpand d a p s
  | .vbcast d a b p => Sys2Proof.Machine.execVbcast d a b p s
  | .vextract d a b => Sys2Proof.Machine.execVextract d a b s
  | .vinsert d a b => Sys2Proof.Machine.execVinsert d a b s
  | .vid d p => Sys2Proof.Machine.execVid d p s
  | .vredsum d a b p => Sys2Proof.Machine.execVredsum d a b p s
  | .vredmax d a b p => Sys2Proof.Machine.execVredmax d a b p s
  | .vredmin d a b p => Sys2Proof.Machine.execVredmin d a b p s
  | .vredand d a b p => Sys2Proof.Machine.execVredand d a b p s
  | .vredor d a b p => Sys2Proof.Machine.execVredor d a b p s
  | .vfredsum d a b p => Sys2Proof.Machine.execVfredsum d a b p s
  | .vfredosum d a b p => Sys2Proof.Machine.execVfredosum d a b p s
  | .vfredmax d a b p => Sys2Proof.Machine.execVfredmax d a b p s
  | .vfredmin d a b p => Sys2Proof.Machine.execVfredmin d a b p s
  | .vrenc d a p => Sys2Proof.Machine.execVrenc d a p s
  | .vradd d a b p => Sys2Proof.Machine.execVradd d a b p s
  | .vrsub d a b p => Sys2Proof.Machine.execVrsub d a b p s
  | .vrmul d a b p => Sys2Proof.Machine.execVrmul d a b p s
  | .vrmacc d a b p => Sys2Proof.Machine.execVrmacc d a b p s
  | .vrdec d a p => Sys2Proof.Machine.execVrdec d a p s
  | .vrchk d a p => Sys2Proof.Machine.execVrchk d a p s
  | .vslice d a k p => Sys2Proof.Machine.execVslice d a k p s
  | .vunslice d a p => Sys2Proof.Machine.execVunslice d a p s
  | .vwadd d a b p => Sys2Proof.Machine.execVwadd d a b p s
  | .vwsub d a b p => Sys2Proof.Machine.execVwsub d a b p s
  | .vwmul d a b p => Sys2Proof.Machine.execVwmul d a b p s
  | .vwmacc d a b p => Sys2Proof.Machine.execVwmacc d a b p s
  | .vwfmacc d a b p => Sys2Proof.Machine.execVwfmacc d a b p s
  | .vqdot d a b p => Sys2Proof.Machine.execVqdot d a b p s
  | .vld d a p c e => Sys2Proof.Machine.execVld d a p c e s
  | .vlds d a b p c e => Sys2Proof.Machine.execVlds d a b p c e s
  | .vldff d a p c e => Sys2Proof.Machine.execVldff d a p c e s
  | .vldq d q p e => Sys2Proof.Machine.execVldq d q p e s
  | .vst src a p c e => Sys2Proof.Machine.execVst src a p c e s
  | .vsts src a b p c e => Sys2Proof.Machine.execVsts src a b p c e s
  | .vldx d a b p c e => Sys2Proof.Machine.execVldx d a b p c e s
  | .vlseg d a n p c e => Sys2Proof.Machine.execVlseg d a n p c e s
  | .vlsegmx d a f p c => Sys2Proof.Machine.execVlsegmx d a f p c s
  | .vstx src a b p c e => Sys2Proof.Machine.execVstx src a b p c e s
  | .vsseg src a n p c e => Sys2Proof.Machine.execVsseg src a n p c e s
  | .vssegmx src a f p c => Sys2Proof.Machine.execVssegmx src a f p c s
  | .vamo d a b p o q l u => Sys2Proof.Machine.execVamo d a b p o q l u s
  | .vwait a b p c => Sys2Proof.Machine.execVwait a b p c s
  | .chwin o a b => Sys2Proof.Machine.execChwin o a b s
  | .vchadd a b p => Sys2Proof.Machine.execVchadd a b p s
  | .vchmin a b p => Sys2Proof.Machine.execVchmin a b p s
  | .vchmax a b p => Sys2Proof.Machine.execVchmax a b p s
  | .vchfadd a b p => Sys2Proof.Machine.execVchfadd a b p s
  | .churn => Sys2Proof.Machine.execChurn s
  | .chdrop => Sys2Proof.Machine.execChdrop s
  | .fop d a b p src => Sys2Proof.Machine.execFop d a b p src s
  | .fopVlb d a b p src => Sys2Proof.Machine.execFopVlb d a b p src s
  | .fbind d a b => Sys2Proof.Machine.execFbind d a b s
  | .funbind a => Sys2Proof.Machine.execFunbind a s
  | .fprefetch a => Sys2Proof.Machine.execFprefetch a s
  | .fquery d a => Sys2Proof.Machine.execFquery d a s
  | .qbind d a b => Sys2Proof.Machine.execQbind d a b s
  | .qunbind a => Sys2Proof.Machine.execQunbind a s
  | .qget d a => Sys2Proof.Machine.execQget d a s
  | .qavail d a => Sys2Proof.Machine.execQavail d a s
  | .dvdot d a b => Sys2Proof.Machine.execDvdot d a b s
  | .dvsum d a => Sys2Proof.Machine.execDvsum d a s
  | .dvperm d a b => Sys2Proof.Machine.execDvperm d a b s
  | .lpxPair l => Sys2Proof.Machine.execLpxPair l s
  | .vectorCommit t => Sys2Proof.Machine.execVectorCommit t s
  | .trapEntry cause tval telem => Sys2Proof.Machine.execTrapEntry cause tval telem s
  | .threadWake t => Sys2Proof.Machine.execThreadWake t s
  | .issueBoost t => Sys2Proof.Machine.execIssueBoost t s
  | .threadSpawn token core => Sys2Proof.Machine.execThreadSpawn token core s
  | .threadResume t core => Sys2Proof.Machine.execThreadResume t core s
  | .handlerSpawn core entry => Sys2Proof.Machine.execHandlerSpawn core entry s
  | .threadPreemption t => Sys2Proof.Machine.execThreadPreemption t s
  | .quantumBoundary core shares => Sys2Proof.Machine.execQuantumBoundary core shares s
  | .passedThreadHold part w => Sys2Proof.Machine.execPassedThreadHold part w s
  | .launchEligible token => Sys2Proof.Machine.execLaunchEligible token s
  | .tetherStart eng => Sys2Proof.Machine.execTetherStart eng s
  | .mmaKblock core row col up => Sys2Proof.Machine.execMmaKblock core row col up s
  | .bloadColumn core => Sys2Proof.Machine.execBloadColumn core s
  | .copyBurst token k => Sys2Proof.Machine.execCopyBurst token k s
  | .collStep token data => Sys2Proof.Machine.execCollStep token data s
  | .feFire core fe => Sys2Proof.Machine.execFeFire core fe s
  | .endOfRoundArrival core fe => Sys2Proof.Machine.execEndOfRoundArrival core fe s
  | .fabricLdReturn core fe => Sys2Proof.Machine.execFabricLdReturn core fe s
  | .fopComplete core => Sys2Proof.Machine.execFopComplete core s
  | .fopStop core => Sys2Proof.Machine.execFopStop core s
  | .planeLoad core plane => Sys2Proof.Machine.execPlaneLoad core plane s
  | .memoryAccessPerformed acc => Sys2Proof.Machine.execMemoryAccessPerformed acc s
  | .tableWalk home space va => Sys2Proof.Machine.execTableWalk home space va s
  | .invalidationComplete part => Sys2Proof.Machine.execInvalidationComplete part s
  | .peerAck req data => Sys2Proof.Machine.execPeerAck req data s
  | .peerTimeout req => Sys2Proof.Machine.execPeerTimeout req s
  | .inboundPeerRequest port req => Sys2Proof.Machine.execInboundPeerRequest port req s
  | .portBurstArrival port token k data => Sys2Proof.Machine.execPortBurstArrival port token k data s
  | .laneCheckTest core unit first again => Sys2Proof.Machine.execLaneCheckTest core unit first again s
  | .columnGroupRetirement core => Sys2Proof.Machine.execColumnGroupRetirement core s
  | .lineWriteBack dpa lost => Sys2Proof.Machine.execLineWriteBack dpa lost s
  | .partitionSwap outgoing incoming => Sys2Proof.Machine.execPartitionSwap outgoing incoming s
  | .killComplete part => Sys2Proof.Machine.execKillComplete part s
  | .clockThrottle watts tj => Sys2Proof.Machine.execClockThrottle watts tj s
  | .clockRaise watts tj => Sys2Proof.Machine.execClockRaise watts tj s
  | .overtemperature die => Sys2Proof.Machine.execOvertemperature die s
  | .lifetimeRefresh => Sys2Proof.Machine.execLifetimeRefresh s
  | .lifetimeFlashWrite => Sys2Proof.Machine.execLifetimeFlashWrite s
  | .powerOn found => Sys2Proof.Machine.execPowerOn found s
  | .deviceReset => Sys2Proof.Machine.execDeviceReset s
  | .firmwareUpdate img image => Sys2Proof.Machine.execFirmwareUpdate img image s
  | .liveActivation img => Sys2Proof.Machine.execLiveActivation img s
  | .securityVersionRaise img version => Sys2Proof.Machine.execSecurityVersionRaise img version s
  | .getVersion => Sys2Proof.Machine.execGetVersion s
  | .getCapabilities => Sys2Proof.Machine.execGetCapabilities s
  | .negotiateAlgorithms asym hash => Sys2Proof.Machine.execNegotiateAlgorithms asym hash s
  | .getDigests asym hash => Sys2Proof.Machine.execGetDigests asym hash s
  | .getCertificate asym hash => Sys2Proof.Machine.execGetCertificate asym hash s
  | .challenge asym hash nonce => Sys2Proof.Machine.execChallenge asym hash nonce s
  | .getMeasurements asym hash nonce => Sys2Proof.Machine.execGetMeasurements asym hash nonce s
  | .lissue part => Sys2Proof.Machine.execLissue part s
  | .fpop part => Sys2Proof.Machine.execFpop part s
  | .queueConfigure part value => Sys2Proof.Machine.execQueueConfigure part value s
  | .queueDestroy part => Sys2Proof.Machine.execQueueDestroy part s
  | .preempt part => Sys2Proof.Machine.execPreempt part s
  | .resume part => Sys2Proof.Machine.execResume part s
  | .kill part => Sys2Proof.Machine.execKill part s
  | .cancel part => Sys2Proof.Machine.execCancel part s
  | .destroy part => Sys2Proof.Machine.execDestroy part s
  | .coreAssign part core => Sys2Proof.Machine.execCoreAssign part core s
  | .coreRelease part core => Sys2Proof.Machine.execCoreRelease part core s
  | .coreReleaseComplete part core => Sys2Proof.Machine.execCoreReleaseComplete part core s
  | .partitionKill part => Sys2Proof.Machine.execPartitionKill part s
  | .partitionHalt part => Sys2Proof.Machine.execPartitionHalt part s
  | .partitionRun part => Sys2Proof.Machine.execPartitionRun part s
  | .invalidation part value => Sys2Proof.Machine.execInvalidation part value s
  | .codeRegister part value => Sys2Proof.Machine.execCodeRegister part value s
  | .codeUnregister part value => Sys2Proof.Machine.execCodeUnregister part value s
  | .quotaWrite part value => Sys2Proof.Machine.execQuotaWrite part value s
  | .corestateCret core bits => Sys2Proof.Machine.execCorestateCret core bits s
  | .corestateLret core bits => Sys2Proof.Machine.execCorestateLret core bits s
  | .corestateCap core bits => Sys2Proof.Machine.execCorestateCap core bits s
  | .rpop => Sys2Proof.Machine.execRpop s
  | .rcountRead => Sys2Proof.Machine.execRcountRead s
  | .devselWrite die n value => Sys2Proof.Machine.execDevselWrite die n value s
  | .pevselWrite port n value => Sys2Proof.Machine.execPevselWrite port n value s
  | .registerWrite addr value => Sys2Proof.Machine.execRegisterWrite addr value s
  | .powerLoss => Sys2Proof.Machine.execPowerLoss s
  | .linkRetrain port => Sys2Proof.Machine.execLinkRetrain port s
  | .linkLevelRetry port => Sys2Proof.Machine.execLinkLevelRetry port s
  | .peerMemberFailure part proc pset => Sys2Proof.Machine.execPeerMemberFailure part proc pset s

end Sys2Proof.Machine
end

