-- ==== Sys2Proof/Machine/Turn.lean ====
section
/-! DEFINITION. Whose turn it is: the wake of parked threads and the issue selection (R231, R241), and the device steps that
come when none is asked for (DESIGN CHOICE, log 4). -/
namespace Sys2Proof.Machine

/-! ### Wakes and requests to leave -/

/-- Threads whose wait may be over are looked at again; a thread that is BLOCKED on its own vector work finds its oldest
instruction committed (R231, R242). -/
def State.wakeThreads (s : State) : List Thread → State
  | [] => s
  | t :: ts =>
    let s1 := match t.life with
      | .parked _ => s.wake t.key
      | .blocked => if t.vq.isEmpty || t.onFop then s.wake t.key else s.mapThread t.key Thread.commitOne
      | _ => s
    State.wakeThreads s1 ts

/-- Threads that were asked to leave their cores go, as far as they can. -/
def State.serveWishes (s : State) : List Thread → State
  | [] => s
  | t :: ts => (if t.wish.isSome then s.preempt t.key else s).serveWishes ts

/-- A COPY whose destination lies in the window starts at once, unless a predecessor or an older one holds it back (R249,
R276). -/
def State.startAtOnce (s : State) : List Tether → State
  | [] => s
  | t :: ts =>
    (if toWindow t && (s.startable (.window t.core)).contains t then s.startTether t else s).startAtOnce ts

/-- A hold for an entry of a handler table ends when the entry is freed (R166, R346). -/
def State.settleHolds (s : State) : State :=
  let bound (h : Nat × Waiting) : Bool := match h.2 with
    | .handler c i => (Assoc.get? (s.core c).handlers i).isSome
    | _ => true
  { s with holds := s.holds.filter bound }

/-- What peers have answered for the headers of a handler serves no later spawn than the one that is due (R349, R419). -/
def State.settleDispatched (s : State) : State :=
  if s.dispatched.isEmpty then s
  else
    let due (a : DispatchAnswer) : Bool := s.cores.any fun c => c.2.handlers.any fun e => decide (handlerReader e.2 = a.reader) && s.runnable e.2
    { s with dispatched := s.dispatched.filter fun a => decide (a.reader.toNat / 2 ^ 61 ≠ 1) || due a }

/-- What comes before every issue. -/
def State.settle (s : State) : State :=
  let s1 := s.settleDispatched.settleHolds.wakeThreads s.threads
  let s2 := s1.serveWishes s1.threads
  s2.startAtOnce s2.tethers

/-! ### Issue selection (R241) -/

/-- The READY threads of a core. -/
def State.readyOn (s : State) (c : CoreId) : List Thread := s.threads.filter fun t => decide (t.life = .ready ∧ t.core = c)

/-- The first of a core's boosted threads by order of boosting; of those boosted in one cycle, the first of the list (DESIGN CHOICE,
log 91). -/
def firstBoosted : List Thread → Option Thread
  | [] => none
  | t :: ts =>
    match t.boosted, firstBoosted ts with
    | none, r => r
    | some _, none => some t
    | some n, some u => if n ≤ u.boosted.getD 0 then some t else some u

/-- The thread of highest PRIO, the first of several in the core's order. -/
def firstByPrio (order : List ThreadKey) (l : List Thread) : Option Thread :=
  let top := (l.map fun t => t.prio.toNat).foldl max 0
  let best := l.filter fun t => decide (t.prio.toNat = top)
  match order.find? fun k => best.any fun t => decide (t.key = k) with
  | some k => best.find? fun t => decide (t.key = k)
  | none => best.head?

/-- The thread that a core selects. -/
def State.select (s : State) (c : CoreId) : Option Thread :=
  let l := s.readyOn c
  match firstBoosted l with
  | some t => some t
  | none => firstByPrio (s.core c).order l

/-- A READY thread that is passed over; after 64 times it is boosted (DESIGN CHOICE, log 61). -/
def Thread.pass (t : Thread) (n : Nat) : Thread :=
  { t with passed := t.passed + 1, boosted := if t.boosted.isNone && decide (64 ≤ t.passed + 1) then some n else t.boosted }

/-- A thread takes the issue cycle of its core: it goes to the end of the order, and the others are passed over. -/
def State.issueFrom (s : State) (t : Thread) : State :=
  let f (u : Thread) : Thread :=
    if u.key = t.key then { u with passed := 0, boosted := none }
    else if u.life = .ready ∧ u.core = t.core then u.pass s.clock else u
  let s1 := (s.mapThreads f).giveTurn t.key
  { s1.toEnd with clock := s.clock + 1 }

/-- Cores in the order in which they are asked: those named for the next issue cycles, then every core in turn, that of the
thread that last had the turn at the end. -/
def State.coreOrder (s : State) : List CoreId :=
  let l := s.cores.map Prod.fst
  let later := l.dropWhile fun c => decide (c ≠ s.thr.core)
  s.turns ++ later.drop 1 ++ (l.takeWhile fun c => decide (c ≠ s.thr.core)) ++ [s.thr.core]

/-- The state with the next thread given the turn, if a thread can issue. -/
def State.turn (s : State) : Option State :=
  match s.coreOrder.findSome? fun c => s.select c with
  | some t => some { s.issueFrom t with turns := s.turns.drop 1, pulse := s.pulse + 1 }
  | none => none

/-! ### Device steps that are due (DESIGN CHOICE, log 4) -/

/-- The first of some steps that is due. -/
def firstDue {α : Type} (f : α → Option State) : List α → Option State
  | [] => none
  | a :: as => match f a with | some s => some s | none => firstDue f as

/-- A load of a fabric graph that can go on: it returns or fails, or a store before it is performed, or its peer is asked. -/
def State.loadReady (s : State) (r : FabricRun) (l : FabricAccess) : Bool :=
  let (s1, r1) := FabricRun.returnLoad s r l.fe
  decide (r1.loads.length < r.loads.length ∨ s1.requests.length ≠ s.requests.length ∨ s1.thr.sq ≠ s.thr.sq)

/-- The next step of the `fop` that runs on a core. -/
def State.fabricDue (s : State) (c : CoreId) : Option State :=
  match (s.core c).run with
  | none => none
  | some r =>
    match s.thread? r.thread with
    | none => none
    | some _ =>
      let u := s.giveTurn r.thread
      match (List.range 64).find? fun f => match FabricRun.fire u r f with | .done _ _ | .met _ _ => true | .idle | .stalled => false with
      | some f => some (stateOf s (execFeFire c f s))
      | none =>
        match r.loads.find? fun l => u.loadReady r l with
        | some l => some (stateOf s (execFabricLdReturn c l.fe s))
        | none =>
          match (if r.round then (List.range 64).find? fun f => !r.reached.contains f else none) with
          | some f => some (stateOf s (execEndOfRoundArrival c f s))
          | none =>
            if r.drained && !u.thr.sq.any PendStore.sent then some (stateOf s (execFopComplete c s))
            else if (r.stopping && FabricRun.still u r) || (FabricRun.quiescent u r && r.leftOver && !r.drained) then
              some (stateOf s (execFopStop c s))
            else none

/-- A graph that is being loaded. -/
def State.planeDue (s : State) (c : CoreId) : Option State :=
  match (s.core c).loading with
  | [] => none
  | (p, _) :: _ => some (stateOf s (execPlaneLoad c p s))

/-- True when a unit of a tether waits for a peer. -/
def State.tetherWaits (s : State) (tok : Word) : Bool := s.requests.any fun r => match r.who with | .tether t _ => decide (t = tok) | _ => false

/-- A tether's start or its next unit of work; a collective's steps come from outside. -/
def State.tetherDue (s : State) (t : Tether) : Option State :=
  let tok := tetherToken t
  match t.state with
  | .queued =>
    (match engineOf t with
    | some e => if s.engineRoom e && decide (firstTether (s.startable e) = some t) then some (s.startTether t) else none
    | none =>
      match t.launch with
      | some l => if s.mayStart t l && !s.dispatchWaits tok then some (stateOf s (execLaunchEligible tok s)) else none
      | none => none)
  | .running =>
    if !s.engineMay t || s.tetherWaits tok then none
    else
      (match t.kind with
      | .mma =>
        match (List.range (mmaCols t)).find? fun j => !t.colDone t.progress j with
        | some j => some (stateOf s (execMmaKblock t.core t.progress j ⟨[], [], false⟩ s))
        | none => none
      | .bload => if ((s.core t.core).bankOf t.part).isSome then some (stateOf s (execBloadColumn t.core s)) else none
      | .copy => some (stateOf s (execCopyBurst tok (t.progress / 128) s))
      | _ => none)
  | _ => none

/-- The first store of a thread that can be performed. -/
def Thread.nextStore (t : Thread) : Option Nat :=
  (List.range t.sq.length).find? fun n =>
    match t.sq[n]? with
    | some p => !p.sent && !(t.sq.take n).any fun q => q.before p
    | none => false

/-- A store or a commit of a thread. -/
def State.threadDue (s : State) (t : Thread) : Option State :=
  if !t.live then none
  else
    match t.nextStore with
    | some n => some (s.performHeld t.key n)
    | none => if t.vq.isEmpty then none else some (stateOf s (execVectorCommit t.key s))

/-- A handler-table entry of a core whose spawn fails, whether or not a thread of it would fit (R419). -/
def State.spawnFailDue (s : State) (c : CoreId) : Option State :=
  firstDue (fun (e : Nat × HandlerEntry) =>
    if s.runnable e.2 && (s.part e.2.part).run && decide ((s.proc e.2.part e.2.proc).freeSlots ≠ []) then
      if s.dispatchWaits (handlerReader e.2) then none
      else match s.handlerKernel c.die e.2 with
      | .error _ => some (stateOf s (execHandlerSpawn c e.1 s))
      | .ok _ => none
    else none) (s.core c).handlers

/-- A thread to place on a core. -/
def State.placeDue (s : State) (c : CoreId) : Option State :=
  firstDue (fun part =>
    firstDue (fun (e : Waiting × Rank × Placing) =>
      if s.placeChoices part c e.1 = [] then none
      else match e.1 with
        | .preempted k => some (stateOf s (execThreadResume k c s))
        | .handler _ i =>
          (match Assoc.get? (s.core c).handlers i with
          | some h => if s.dispatchWaits (handlerReader h) then none else some (stateOf s (execHandlerSpawn c i s))
          | none => none)
        | .unspawned tok => if s.dispatchWaits (spawnReader tok) then none else some (stateOf s (execThreadSpawn tok c s))) (s.waitingOf part c))
    ((List.range 16).filter fun p => (s.core c).ownedBy p)

/-- A retirement on a core that can go on. -/
def State.retireDue (s : State) (c : CoreId) : Option State :=
  if (s.core c).retiring.isEmpty || s.arrayBusy c then none
  else if (s.residents c).isEmpty || (s.residents c).any (fun t => t.wish.isNone) then some (stateOf s (execColumnGroupRetirement c s))
  else none

/-- What a partition's registers have asked for and can now complete. -/
def State.partDue (s : State) (part : Nat) : Option State :=
  let p := s.part part
  let away (t : Thread) : Bool := t.live && decide (t.key.part = part) && t.sq.any PendStore.sent
  let holds (e : CoreId × Core) : Bool := match e.2.run with | some r => decide (r.thread.part = part) && !r.stores.isEmpty | none => false
  if (match p.tcmd with
      | some (k, c) =>
        (match s.thread? k with
        | some t => !t.resident && !s.eventWaits t && !t.sq.any PendStore.sent && !(decide (c = 8) && s.endWaits t)
        | none => true)
      | none => false) then some (s.settleCmd part)
  else if p.invBusy.isSome && !s.threads.any away && !s.cores.any holds && !s.requests.any (fun r => decide (r.part = part)) then
    some (stateOf s (execInvalidationComplete part s))
  else if p.killBusy && (if p.killWait then !s.owed part (p.inc + 1) else !s.requests.any fun r => decide (r.part = part ∧ r.inc ≠ p.inc)) then
    some (stateOf s (execKillComplete part s))
  else
    firstDue (fun c => if (s.residents c).any (fun t => decide (t.key.part = part)) || s.coreOwed part c then none
                       else some (stateOf s (execCoreReleaseComplete part c s))) p.releasing

/-- An activation that can go on. -/
def State.activationDue (s : State) : Option State :=
  match s.firmware.activating with
  | some (k, _) =>
    if (List.range 16).any (fun p => (s.part p).run) || s.allHalted then some (stateOf s (execLiveActivation k s)) else none
  | none => none

/-- A list begun at another place, so that each of its elements comes first in its turn. -/
def turned {α : Type} (n : Nat) (l : List α) : List α := l.drop (n % l.length) ++ l.take (n % l.length)

/-- The first step that is due of one of the eight kinds. -/
def State.dueOf (s : State) (kind : Nat) : Option State :=
  let n := s.duty / 8
  let cores := turned n (s.cores.map Prod.fst)
  match kind with
  | 0 => firstDue s.partDue (turned n (List.range 16))
  | 1 => s.activationDue
  | 2 => firstDue s.fabricDue cores
  | 3 => firstDue s.planeDue cores
  | 4 => firstDue s.retireDue cores
  | 5 => firstDue s.tetherDue (turned n s.tethers)
  | 6 => firstDue s.threadDue (turned n s.threads)
  | _ => firstDue (fun c => match s.spawnFailDue c with | some t => some t | none => s.placeDue c) cores

/-- The device step that comes next when none is asked for, if one is due; every kind has its turn to come first (R242). -/
def State.due (s : State) : Option State := firstDue s.dueOf (turned s.duty (List.range 8))

end Sys2Proof.Machine
end

