-- ==== Sys2Proof/Machine/Run.lean ====
section
/-! DEFINITION. What one step does: a device step that the agenda names, the next instruction of the thread that has the
turn, or a device step that is due (DESIGN CHOICE, log 4). -/
namespace Sys2Proof.Machine

noncomputable section

/-- A fetch that stops short: its thread parks, or goes on when it next issues (R177, R271, R324). -/
def Thread.await (t : Thread) (w : Wait) : Thread := match w with | .again => t | _ => { t with life := .parked w }

/-- The thread that has the turn runs: MIGRATED comes before its first instruction on a core of another FVER (R399);
otherwise it fetches its instruction and executes it. -/
def runTurn (s : State) : Host.Outcome State Fault Refusal :=
  if s.thr.migrated && !s.thr.supervisor then .next (s.takeTrap .migrated s.dfver 0 none s.atVector)
  else
    match s.fetch with
    | .ok (s1, i) => exec i s1
    | .error (.trap s1 c tv te rec) => .next (s1.takeTrap c tv te rec s.atVector)
    | .error (.park s1 w) => .next (s1.mapThr fun t => t.await w)

/-- The steps that the management port serves when no image of one kind is valid (R407). -/
def onManagementPort : Instr → Bool
  | .firmwareUpdate _ _ | .securityVersionRaise _ _ | .deviceReset | .powerLoss | .getVersion | .getCapabilities
  | .negotiateAlgorithms _ _ | .getDigests _ _ | .getCertificate _ _ | .challenge _ _ _ | .getMeasurements _ _ _ => true
  | _ => false

/-- True of POWER_ON, the one step of a device without power (R417). -/
def isPowerOn : Instr → Bool
  | .powerOn _ => true
  | _ => false

/-- True when a step of the agenda can happen: it is a step of the device, and the device has what it takes. -/
def State.agendaOpen (s : State) (i : Instr) : Bool :=
  !i.isEncoded && (if s.off then isPowerOn i else !s.firmware.recovery || onManagementPort i)

/-- The step that the agenda names. -/
def runAgenda (i : Instr) (rest : List Instr) (s : State) : Host.Outcome State Fault Refusal :=
  let s1 := { s with agenda := rest }
  if s.agendaOpen i then exec i s1 else .next s1

/-- A device step that is due after this many instructions comes before the next instruction (DESIGN CHOICE, log 4). -/
def pulseMax : Nat := 64

/-- A device step that is due, with the count of instructions since the last one begun again, and the turn passed on among the
kinds of steps. -/
def State.device (s : State) : Option State := (s.due).map fun t => { t with pulse := 0, duty := s.duty + 1 }

/-- The step when the agenda names none. -/
def runOn (s : State) : Host.Outcome State Fault Refusal :=
  if s.off || s.firmware.recovery then .next s
  else
    let s1 := s.settle
    match if pulseMax ≤ s1.pulse then s1.device else none with
    | some s2 => .next s2
    | none =>
      match s1.turn with
      | some s2 => runTurn s2
      | none => .next (s1.device.getD s1)

/-- A step of the machine. -/
def runStep (s : State) : Host.Outcome State Fault Refusal :=
  match s.agenda with
  | i :: rest => runAgenda i rest s
  | [] => runOn s

end

/-! ### A program from outside (DESIGN CHOICE, log 2) -/

/-- The header of a kernel of the widest class that declares everything (R321). -/
def programHeader : Header :=
  { usemask := 0x1FFFFFF, entry := 0, lstore := 4096, churnb := 0, stack := 0, fslots := 0, order := 0, vregs := 32,
    pregs := 24, tiles := 8, groups := 255, width := 3 }

/-- Where the program that is loaded from outside starts. -/
def programBase : Nat := 0x10000

/-- The root node of stage 1 and that of stage 2, each with one leaf of 256 GiB at 0 that grants everything (R354). -/
def programNodes : List Host.Cell :=
  cellsAt 0x4000 (bytesOf 8 0x1F) ++ cellsAt 0x8000 (bytesOf 8 0x1F)

/-- The thread of the program: class F on core 0.0 in user mode, READY at the program's first word. -/
def programThread (token : Word) (s : State) : Thread :=
  { Thread.fresh with
    key := ⟨0, 0, token, 0⟩, pc := BitVec.ofNat 64 programBase, life := .ready, core := ⟨0, 0⟩, lanes := List.range 16,
    cls := 3, vlen := 16384, mcols := 128, capmask := 0x1FFFFFF, fver := s.dfver, savedVer := s.dfver,
    hdr := programHeader, boosted := some 0 }

/-- A machine that a program is loaded into from outside: partition 0 runs on core 0.0, its process 0 is live under identity
tables, and one thread of a RUNNING launch stands at the program's first word. -/
def State.loadProgram (s : State) : State :=
  let tether := { (Tether.blank .kernel 0 0 0 ⟨0, 0, 0, 0⟩ ⟨0, 0⟩) with
    state := .running, gen := s.genOf 0 0, arrival := s.clock }
  let token := tetherToken tether
  let c := s.core ⟨0, 0⟩
  let s1 := s.setCore ⟨0, 0⟩ { c with enabled := true, cap := 0x1FFFFFF, banks := c.banks.set 0 (some 0),
                                      order := ⟨0, 0, token, 0⟩ :: c.order }
  let s2 := s1.setPart 0 { s1.part 0 with run := true, root := 0x4001 }
  let s3 := s2.setProc 0 0 { s2.proc 0 0 with live := true, root := 0x8001 }
  { s3 with
    thr := programThread token s
    others := if s.thr.live then s.thr :: s.others else s.others
    tethers := tether :: s3.tethers
    mem := s3.mem.putCells programNodes
    tlb := []
    nodes := []
    turns := [⟨0, 0⟩] }

/-- True when the next step fetches these bytes: the thread that has the next turn has nothing to take before its fetch, and
its fetch reads them. -/
def State.fetches (s : State) (bs : List Byte) : Bool :=
  match s.settle.turn with
  | none => false
  | some s1 =>
    !s1.thr.migrated && s1.thr.micro.isNone && s1.thr.begun.isNone && s1.thr.half.isNone && s1.thr.breakpoint.isNone &&
    (match s1.fetchWords with
    | .ok (_, ws) => decide (ws = (wordsOfBytes bs).take ws.length)
    | .error _ => false)

/-- The state with eight bytes stored where the thread that has the next turn fetches, if its place is in the device. -/
def State.storeAtFetch (s : State) (bs : List Byte) : Option State :=
  match s.settle.turn with
  | none => none
  | some s1 =>
    match s1.place .fetch s1.thr.pc 4, s1.place .fetch (s1.thr.pc + 4) 4 with
    | .ok (.device d1), .ok (.device d2) => some { s with mem := (s.mem.put d1 (bs.take 4)).put d2 (bs.drop 4) }
    | _, _ => none

/-- The machine with the agenda empty, no device step before the next instruction, and power and firmware to run. -/
def State.readyToRun (s : State) : State :=
  { s with agenda := [], breaks := [], pulse := 0, off := false, firmware := { s.firmware with recovery := false } }

/-- A program loaded from outside whose first bytes are these. -/
def State.loadBytes (s : State) (bs : List Byte) : State :=
  let s1 := s.loadProgram
  { s1 with mem := s1.mem.put programBase bs }

/-- An instruction of `nbits` bits, zeros above them, where the next step fetches: in the place of the running thread's next
instruction, or as the first words of a program that is loaded from outside. -/
def State.placeWord (s : State) (nbits w : Nat) : State :=
  let s1 := s.readyToRun
  let bs := bytesOfNat 8 (w % 2 ^ nbits)
  match s1.storeAtFetch bs with
  | some s2 => if s2.fetches bs then s2 else s1.loadBytes bs
  | none => s1.loadBytes bs

end Sys2Proof.Machine
end

