-- ==== Sys2Proof/Safety.lean ====
section
/-! DEFINITION. What the statements say of a state and of a run: the conditions under which an instruction runs, what an
instruction that completes leaves as it was, the canonical form of memory, and a run that goes on. -/
namespace Sys2Proof.Machine

/-! ### Conditions on the state -/

/-- The thread declares the capabilities, and its core's mask holds them (R80 steps 3 and 4, R396); no register of the
thread holds an uncorrectable error (R390). -/
def State.fit (s : State) (caps : List Nat) : Prop :=
  (∀ c ∈ caps, s.thr.hdr.usemask.getLsbD c = true ∧ (s.core s.thr.core).cap.getLsbD c = true) ∧
  ∀ e ∈ s.badReg, e.1 ≠ s.thr.key

/-- A scalar instruction can issue: the vector queue and the run-ahead window have room too (R233). -/
def State.scalarFit (s : State) (caps : List Nat) : Prop := s.fit caps ∧ s.thr.vq.length < 64 ∧ s.thr.ahead < 64

/-- A vector instruction can issue: the vector queue and the run-ahead window have room (R233), and the thread is no handler before
`claim` (R217). -/
def State.vectorFit (s : State) (caps : List Nat) : Prop :=
  s.fit caps ∧ (s.thr.vq.length < 64 ∧ s.thr.ahead < 64) ∧ (s.thr.supervisor = false ∨ s.thr.claimed = true)

/-- The vector figures of a thread agree (R47, R51): VLEN is 1,024 bits for each of 1 to 16 lane groups, VTYPE is legal, and
VL and VLB are at most VLMAX. -/
def Thread.vectorOk (t : Thread) : Prop :=
  t.vlen % 1024 = 0 ∧ 1024 ≤ t.vlen ∧ t.vlen ≤ 16384 ∧ vtLegal t.vtype = true ∧ t.vl ≤ t.vlmax ∧ t.vlb ≤ t.vlmax

/-- A register operand of the thread's own group is legal and declared (R48, R49, R122). -/
def Thread.groupOk (t : Thread) (r : Reg) : Prop := r.toNat % t.grp = 0 ∧ r.toNat + t.grp ≤ t.hdr.vregs ∧ r.toNat + t.grp ≤ 32

/-- An operand at SEW2 is legal and declared (R123). -/
def Thread.secondOk (t : Thread) (r : Reg) : Prop := (t.second r).legal = true ∧ (t.second r).base + (t.second r).count ≤ t.hdr.vregs

/-- A predicate may be read (R44, R49). -/
def Thread.predOk (t : Thread) (p : Reg) : Prop := p.toNat < 24 ∧ (p.toNat = 0 ∨ p.toNat < t.hdr.pregs)

/-- A predicate may be written: p0 may not (R44). -/
def Thread.predDestOk (t : Thread) (p : Reg) : Prop := 0 < p.toNat ∧ p.toNat < 24 ∧ p.toNat < t.hdr.pregs

/-! ### What an instruction leaves -/

/-- Nothing of the machine but the running thread has changed. -/
def State.onlyThread (s t : State) : Prop := t = { s with thr := t.thr }

/-- True of the bytes of BPSKIP in the context save area (R362, R373). -/
def isSkip (a : Nat) : Prop := 0x260 ≤ a ∧ a < 0x268

/-- True of a byte of BPSKIP. -/
def Place.skip : Place → Prop
  | .csa a => isSkip a
  | _ => False

/-- The context save area of a thread, but for BPSKIP, which is cleared where its bit 0 is set when the first instruction after `eret`
completes (R373). -/
def Thread.sameCsa (t u : Thread) : Prop :=
  (∀ a, ¬isSkip a → u.csa.byte a = t.csa.byte a) ∧
  ∀ a, isSkip a → u.csa.byte a = if t.supervisor = false ∧ (t.csa.byte 0x260).getLsbD 0 = true then 0 else t.csa.byte a

/-- A thread whose instruction has ended: what belonged to the instruction under way is gone, and the run-ahead window holds it
(R233, R380, R396). -/
def Thread.ended (t : Thread) : Thread :=
  { t with peerData := t.otherAnswers, begun := none, micro := none, started := false, vq := ranOn t.vq }

/-- What a completed scalar instruction leaves of its thread: everything but x registers and the PC, which other clauses
give, the event counters (R402), and what belonged to the instruction under way. -/
def Thread.scalarFrame (t u : Thread) : Prop :=
  u = { t.ended with x := u.x, pc := u.pc, evcnt := u.evcnt, csa := u.csa } ∧ t.sameCsa u

/-- A completed scalar instruction that writes `v` to register `d` and goes on at `pc`: x0 stays 0 (R44, R99). -/
def State.wrote (s t : State) (d : Reg) (v pc : Word) : Prop :=
  s.onlyThread t ∧ s.thr.scalarFrame t.thr ∧ t.thr.pc = pc ∧ ∀ r, t.xr r = if r = d ∧ d ≠ 0 then v else s.xr r

/-- A completed scalar instruction that writes no register. -/
def State.wroteNothing (s t : State) (pc : Word) : Prop :=
  s.onlyThread t ∧ s.thr.scalarFrame t.thr ∧ t.thr.pc = pc ∧ ∀ r, t.xr r = s.xr r

/-- A completed scalar instruction with the effect `u`: it goes on at `pc`, and everything else of the machine is as `u` has
it, but for the event counters and for what belonged to the instruction under way. -/
def State.done (t u : State) (pc : Word) : Prop :=
  t = { u with thr := { u.thr.ended with pc := pc, evcnt := t.thr.evcnt, csa := t.thr.csa } } ∧ u.thr.sameCsa t.thr

/-- A completed scalar instruction that waited until every older vector instruction had committed (R236), with the
effect `u`. -/
def State.heldDone (t u : State) (pc : Word) : Prop :=
  t = { u with thr := { u.thr.ended with pc := pc, vq := [], evcnt := t.thr.evcnt, csa := t.thr.csa } } ∧ u.thr.sameCsa t.thr

/-! ### Memory as the running thread sees it -/

/-- The byte that the running thread reads at a place: device memory under its own issued stores (R109), its local store,
or the bits that its context save area has there (R362). -/
def State.seen (s : State) : Place → Byte
  | .device d => (s.thr.view s.mem).byte d
  | .localStore o => s.thr.localStore.byte o
  | .csa o => s.thr.csa.byte o &&& csaMask s.thr.vlen o

/-- How far a place lies above another of its kind. -/
def Place.above : Place → Place → Option Nat
  | .device a, .device b => if b ≤ a then some (a - b) else none
  | .localStore a, .localStore b => if b ≤ a then some (a - b) else none
  | .csa a, .csa b => if b ≤ a then some (a - b) else none
  | _, _ => none

/-- The bits of a byte that a store changes: those of the CSA that hold something (R7, R362), and all elsewhere. -/
def Place.kept (vlen : Nat) : Place → Byte
  | .csa o => csaMask vlen o
  | _ => 0xFF

/-- The byte at place `q` after a store of `bs` at place `pl`. -/
def Place.newByte (vlen : Nat) (q pl : Place) (bs : List Byte) (old : Byte) : Byte :=
  match q.above pl with
  | some i => (match bs[i]? with | some b => b &&& q.kept vlen | none => old)
  | none => old

/-- After a store of `bs` at a place every byte that the thread can read is the stored one or the one before it. BPSKIP is
apart, which a completed instruction of user code clears (R373). -/
def State.stored (s t : State) (pl : Place) (bs : List Byte) : Prop :=
  ∀ q : Place, (q.skip → s.thr.supervisor = true) →
    t.seen q = q.newByte s.thr.vlen pl bs (s.seen q)

/-- An aligned access of `n` bytes that R108 lets pass, in the device or in a window, and that no watermark stalls (R255). -/
def State.accessible (s : State) (acc : Access) (ea : Word) (n : Nat) (pl : Place) : Prop :=
  ea.toNat % n = 0 ∧ s.place acc ea n = .ok pl ∧ pl.remote = false ∧
  (inWindow ea.toNat = true ∨ s.stalled s.thr ea.toNat n = false)

/-- Data that can be read (R390). -/
def State.loadable (s : State) (ea : Word) (n : Nat) (pl : Place) : Prop :=
  s.accessible .load ea n pl ∧ s.badData s.thr pl n = false

/-- Data that can be stored (R108). -/
def State.storable (s : State) (ea : Word) (n : Nat) (pl : Place) : Prop :=
  s.accessible .store ea n pl ∧ s.badStore s.thr pl n = false

/-- The little-endian number in `n` bytes that the thread reads from a place (R5). -/
def State.number (s : State) (pl : Place) : Nat → Nat
  | 0 => 0
  | n + 1 => (s.seen pl).toNat + 256 * State.number s (pl.plus 1) n

/-- A completed vector instruction: it goes on at the next word and enters the vector queue. `f` gives the vector registers,
predicates, x registers, tiles and FCSR; everything else of the thread stays. -/
def State.vectorDone (s t : State) (f : Thread → Thread) : Prop :=
  s.onlyThread t ∧ s.thr.sameCsa t.thr ∧
  t.thr = { (f s.thr) with pc := s.thr.pc + 4, vq := s.thr.vq ++ [(s.thr.pc, 0)], evcnt := t.thr.evcnt, csa := t.thr.csa,
                           peerData := s.thr.otherAnswers, begun := none, micro := none, started := false }

/-- The elements of a destination group under R120: below VL the result where the element is active and 0 or the old value
elsewhere, as MZ says; from VL on 0 or the old value, as TZ says. Registers outside the group keep their values. -/
def Thread.vecResult (t u : Thread) (d p : Reg) (res : Nat → Nat) : Prop :=
  (∀ i < t.vlmax, u.elem d.toNat i t.sew =
    if i < t.vl then
      (if t.pbit p i then res i % 2 ^ t.sew else if t.vtype.getLsbD 14 then 0 else t.elem d.toNat i t.sew)
    else if t.vtype.getLsbD 13 then 0 else t.elem d.toNat i t.sew) ∧
  ∀ r : Fin 32, (r.val < d.toNat ∨ d.toNat + t.grp ≤ r.val) → u.v[r] = t.v[r]

/-- The bits of a destination predicate under R136. -/
def Thread.predResult (t u : Thread) (d p : Reg) (res : Nat → Bool) : Prop :=
  (∀ i < t.vlen / 8, (u.p[d.toNat]?.getD 0).getLsbD i =
    if i < t.vl then
      (if t.pbit p i then res i else if t.vtype.getLsbD 14 then false else (t.p[d.toNat]?.getD 0).getLsbD i)
    else if t.vtype.getLsbD 13 then false else (t.p[d.toNat]?.getD 0).getLsbD i) ∧
  ∀ r : Fin 24, r.val ≠ d.toNat → u.p[r] = t.p[r]

/-- A completed vector instruction that changes the vector registers and FCSR alone. -/
def State.vecDone (s t : State) : Prop :=
  s.vectorDone t fun u => { u with v := t.thr.v, fcsr := t.thr.fcsr }

/-- A completed vector instruction that changes the predicates and FCSR alone. -/
def State.predDone (s t : State) : Prop :=
  s.vectorDone t fun u => { u with p := t.thr.p, fcsr := t.thr.fcsr }

/-! ### Issued stores that a later access waits for -/

/-- Every issued store of a thread is for the device itself, and no peer holds a byte of it. -/
def Thread.near (t : Thread) : Prop := ∀ p ∈ t.sq, ∀ c ∈ p.cells, (Place.device c.1).remote = false

/-- Of any two issued stores of a thread, the alias classes are compatible or no byte is shared (R256). -/
def Thread.orderly (t : Thread) : Prop :=
  ∀ p ∈ t.sq, ∀ q ∈ t.sq, compatible p.cls q.cls = true ∨ ∀ c ∈ p.cells, ∀ d ∈ q.cells, c.1 ≠ d.1

/-- A read of the ranges waits for no peer: no issued store of the thread has bytes there, or all are for the device itself and none
hides a byte of another in an incompatible class. -/
def State.calm (s : State) (rs : List Range) : Prop := (∀ p ∈ s.thr.sq, p.meets rs = false) ∨ s.thr.near ∧ s.thr.orderly

/-- The machine once the issued stores of the thread that `l` marks have been performed, in their order; the others wait on. -/
def State.afterStores (s : State) (l : List (PendStore × Bool)) : State :=
  { s with
    mem := ((l.filter Prod.snd).map Prod.fst).foldl (fun m p => m.putCells p.cells) s.mem
    thr := { s.thr with sq := (l.filter fun e => !e.2).map Prod.fst } }

/-- `l` lists the issued stores of the thread, and once those that it marks have been performed the thread sees what it saw. -/
def State.marks (s : State) (l : List (PendStore × Bool)) : Prop :=
  l.map Prod.fst = s.thr.sq ∧
    ∀ a, ((s.afterStores l).thr.view (s.afterStores l).mem).byte a = (s.thr.view s.mem).byte a

/-- No part of an instruction has been performed, and no peer has answered to the one at the PC. -/
def Thread.atStart (t : Thread) : Prop :=
  t.begun = none ∧
    ∀ a ∈ t.peerData, ¬(a.pc = t.pc ∧ a.supervisor = t.supervisor)

/-! ### Memory and runs -/

/-- Every memory that a thread holds is in canonical form. -/
def Thread.canonical (t : Thread) : Bool := t.localStore.wf && t.csa.wf

/-- Every memory of the machine is in canonical form: device memory, and each thread's local store and context save area. -/
def State.canonical (s : State) : Bool := s.mem.wf && s.threads.all Thread.canonical

/-- An outcome that is a next state with a property. -/
def Goes (o : Host.Outcome State Fault Refusal) (p : State → Prop) : Prop := ∃ s, o = .next s ∧ p s

/-- A run that has gone on for `n` steps: it met no fault and no refusal. -/
def SafeFor (s : State) : Nat → Prop
  | 0 => True
  | n + 1 => Goes (step s) fun t => SafeFor t n

end Sys2Proof.Machine
end

