-- ==== Sys2Proof/Certificates/Slice0/Obligations.lean ====
section
/-! DEFINITION. The statements for the provers, from the numbered rules of the spec. -/

namespace Sys2Proof.Statements
open Sys2Proof.Machine

/-! ### Tables: one row an instruction, its capability and its value -/

/-- R101: instructions on two x registers. -/
noncomputable def aluTable : List ((Reg → Reg → Reg → Instr) × Nat × (Word → Word → Word)) := [
  (.add, 0, fun a b => a + b),
  (.sub, 0, fun a b => a - b),
  (.andr, 0, fun a b => a &&& b),
  (.orr, 0, fun a b => a ||| b),
  (.xorr, 0, fun a b => a ^^^ b),
  (.shl, 0, fun a b => a <<< (b.toNat % 64)),
  (.shr, 0, fun a b => a >>> (b.toNat % 64)),
  (.sra, 0, fun a b => BitVec.ofInt 64 (a.toInt / 2 ^ (b.toNat % 64))),
  (.slt, 0, fun a b => if a.toInt < b.toInt then 1 else 0),
  (.sltu, 0, fun a b => if a.toNat < b.toNat then 1 else 0),
  (.minr, 0, fun a b => BitVec.ofInt 64 (min a.toInt b.toInt)),
  (.maxr, 0, fun a b => BitVec.ofInt 64 (max a.toInt b.toInt)),
  (.mul, 1, fun a b => a * b),
  (.mulh, 1, fun a b => BitVec.ofInt 64 (a.toInt * b.toInt / 2 ^ 64)),
  (.mulhu, 1, fun a b => BitVec.ofNat 64 (a.toNat * b.toNat / 2 ^ 64))]

/-- R103: immediate operations on the widened immediate, with their short and their prefixed form. -/
noncomputable def immTable : List ((Reg → Reg → BitVec 16 → Instr) × ImmOp × Bool × (Word → Word → Word)) := [
  (.addi, .addi, true, fun a i => a + i),
  (.andi, .andi, false, fun a i => a &&& i),
  (.ori, .ori, false, fun a i => a ||| i),
  (.xori, .xori, false, fun a i => a ^^^ i),
  (.slti, .slti, true, fun a i => if a.toInt < i.toInt then 1 else 0),
  (.sltiu, .sltiu, true, fun a i => if a.toNat < i.toNat then 1 else 0)]

/-- R67, R69: a field widened to 64 bits, with its sign or with zeros. -/
def widened {n : Nat} (signed : Bool) (i : BitVec n) : Word := if signed then i.signExtend 64 else i.zeroExtend 64

/-- R107: loads with their prefixed form, their bytes and whether they extend the sign. -/
noncomputable def loadTable : List ((Reg → Reg → BitVec 2 → BitVec 11 → Instr) × LoadOp × Nat × Bool) := [
  (.ldb, .ldb, 1, true), (.ldbu, .ldbu, 1, false), (.ldh, .ldh, 2, true), (.ldhu, .ldhu, 2, false),
  (.ldw, .ldw, 4, true), (.ldwu, .ldwu, 4, false), (.ldd, .ldd, 8, true)]

/-- R107: stores with their prefixed form and their bytes. -/
noncomputable def storeTable : List ((Reg → Reg → BitVec 2 → BitVec 11 → Instr) × StoreOp × Nat) := [
  (.stb, .stb, 1), (.sth, .sth, 2), (.stw, .stw, 4), (.std, .std, 8)]

/-- The `8 * n` low bits of a number as a 64-bit value. -/
def extended (n : Nat) (signed : Bool) (v : Nat) : Word :=
  if signed then BitVec.ofInt 64 (sext (8 * n) v) else BitVec.ofNat 64 v

/-- R107: base plus the offset in units of the access size. -/
def address {n : Nat} (base : Word) (o : BitVec n) (size : Nat) : Word := base + o.signExtend 64 * BitVec.ofNat 64 size

/-- What a load of class `c` gets at a place: what the thread sees, or that without its issued stores that the load may miss, but
for those that `l` marks, which it comes after (R155, R261). -/
def loadSees (s : State) (l : List (PendStore × Bool)) (c : BitVec 2) (pl : Place) (n v : Nat) : Prop :=
  v = s.number pl n ∨ v = ((s.afterStores l).seeing c (pl.range n)).number pl n

/-- The machine once the stores that `l` marks have been performed, with what R259 notes of the read among the others; a free choice
may be used up, and errors cleared. -/
def loadedFrom (s t : State) (l : List (PendStore × Bool)) (c : BitVec 2) (all : Bool) (rs : List Range) : State :=
  { s.afterStores l with freeCtr := t.freeCtr, homes := t.homes, badMem := t.badMem, thr := (s.afterStores l).thr.noteRead c all rs }

/-- The thread after a store: its issued stores, its count of them and its two windows are those of `t`. -/
def storedThread (s t : State) : Thread :=
  { s.thr with sq := t.thr.sq, stores := s.thr.stores + 1, localStore := t.thr.localStore, csa := t.thr.csa }

/-- R110: branches with their prefixed form and their condition. -/
noncomputable def branchTable : List ((Reg → Reg → BitVec 16 → Instr) × BranchOp × (Word → Word → Bool)) := [
  (.beq, .beq, fun a b => decide (a = b)), (.bne, .bne, fun a b => decide (a ≠ b)),
  (.blt, .blt, fun a b => decide (a.toInt < b.toInt)), (.bge, .bge, fun a b => decide (b.toInt ≤ a.toInt)),
  (.bltu, .bltu, fun a b => decide (a.toNat < b.toNat)), (.bgeu, .bgeu, fun a b => decide (b.toNat ≤ a.toNat))]

/-- R114: arithmetic on two operands under a rounding mode. -/
noncomputable def fpArithTable :
    List ((Reg → Reg → Reg → Prec → FRound → Instr) × (Fmt → RMode → Nat → Nat → Nat × Flags)) := [
  (.fadd, Fmt.add), (.fsub, Fmt.sub), (.fmul, Fmt.mul), (.fdiv, Fmt.div)]

/-- R115, R116: instructions on two operands that round nothing. -/
noncomputable def fpPlainTable : List ((Reg → Reg → Reg → Prec → Instr) × (Fmt → Nat → Nat → Nat × Flags)) := [
  (.fmin, fun f => f.minmax false), (.fmax, fun f => f.minmax true),
  (.feq, fun f a b => ((f.feq a b).1.toNat, (f.feq a b).2)), (.flt, fun f a b => ((f.flt a b).1.toNat, (f.flt a b).2)),
  (.fle, fun f a b => ((f.fle a b).1.toNat, (f.fle a b).2)),
  (fun d a b p => .fsgnj d a b p .copy, fun f a b => (f.withSign a (f.signOf b), 0)),
  (fun d a b p => .fsgnj d a b p .neg, fun f a b => (f.withSign a (!f.signOf b), 0)),
  (fun d a b p => .fsgnj d a b p .xor, fun f a b => (f.withSign a (f.signOf a != f.signOf b), 0))]

/-- The machine with a floating-point result in xD and its flags ORed into FCSR (R25, R118). -/
def fpEffect (s : State) (d : Reg) (r : Nat × Flags) : State :=
  { s with thr := { (s.thr.setX d (BitVec.ofNat 64 r.1)) with fcsr := s.thr.fcsr ||| r.2.zeroExtend 8 } }

/-- R13: the formats that a result is rounded to, E8M0 apart. -/
def roundedFormats : List Fmt := [Fmt.f64, Fmt.f32, Fmt.f16, Fmt.bf16, Fmt.e4m3, Fmt.e5m2, Fmt.e3m2, Fmt.e2m3, Fmt.e2m1]

/-- The number that an exact value stands for. -/
noncomputable def numberOf (x : Dy) : ℝ := (if x.neg then -1 else 1) * ((x.m : ℝ) * 2 ^ x.e)

/-- R13: the magnitude of the code `n` of a format without its sign, with the exponent range unbounded above. -/
noncomputable def codeMagnitude (f : Fmt) (n : Nat) : ℝ :=
  if n < 2 ^ f.fbits then (n : ℝ) * 2 ^ (f.emin - f.fbits)
  else ((2 ^ f.fbits + n % 2 ^ f.fbits : Nat) : ℝ) * 2 ^ (((n / 2 ^ f.fbits : Nat) : Int) - (f.bias : Int) - f.fbits)

/-- R20: a magnitude `v` between the neighbours `lo` and `hi` goes to `hi`; `odd` says that the least significant digit of `lo` is 1. -/
def goesUp (mode : RMode) (neg odd : Bool) (lo hi v : ℝ) : Prop :=
  match mode with
  | .rne => hi - v < v - lo ∨ hi - v = v - lo ∧ odd = true
  | .rtz => False
  | .rdn => neg = true
  | .rup => neg = false
  | .rna => hi - v ≤ v - lo

/-- R22: the code of an overflow. -/
def overflowCode (f : Fmt) (mode : RMode) (neg : Bool) : Nat :=
  f.signed neg (if f.hasInf ∧ (mode = .rne ∨ mode = .rna ∨ mode = .rdn ∧ neg = true ∨ mode = .rup ∧ neg = false) then f.maxFinite + 1
    else f.maxFinite)

/-- R23: rounded with the precision of the format and an unbounded exponent range, a magnitude lies below the smallest normal; the
number below that one lies half of the smallest subnormal below it. -/
def isTiny (f : Fmt) (mode : RMode) (neg : Bool) (v : ℝ) : Prop :=
  v < 2 ^ f.emin ∧ (v ≤ 2 ^ f.emin - 2 ^ (f.emin - f.fbits - 1) ∨
    ¬goesUp mode neg true (2 ^ f.emin - 2 ^ (f.emin - f.fbits - 1)) (2 ^ f.emin) v)

/-- R20 to R23: `r` is the code and the flags of a nonzero number `v` rounded to a format. -/
def rounds (f : Fmt) (mode : RMode) (v : ℝ) (r : Nat × Flags) : Prop :=
  ∃ n k neg lost tiny, (neg = true ↔ v < 0) ∧ codeMagnitude f n ≤ |v| ∧ |v| < codeMagnitude f (n + 1) ∧
    (lost = true ↔ codeMagnitude f n ≠ |v|) ∧ (tiny = true ↔ isTiny f mode neg |v|) ∧ (k = n ∨ k = n + 1) ∧
    (k = n + 1 ↔ lost = true ∧ goesUp mode neg (decide (n % 2 = 1)) (codeMagnitude f n) (codeMagnitude f (n + 1)) |v|) ∧
    r = if f.maxFinite < k then (overflowCode f mode neg, Flags.of ||| Flags.nx)
      else (f.signed neg k, (if lost then Flags.nx else 0) ||| (if lost && tiny then Flags.uf else 0))

/-- R20: the integer to which a number is rounded, and whether it is another number. -/
def roundsToInt (mode : RMode) (v : ℝ) (i : Int) (lost : Bool) : Prop :=
  ∃ n neg, (neg = true ↔ v < 0) ∧ ((n : Nat) : ℝ) ≤ |v| ∧ |v| < (n : ℝ) + 1 ∧ (lost = true ↔ (n : ℝ) ≠ |v|) ∧ 0 ≤ (i : ℝ) * v ∧
    (i.natAbs = n ∨ i.natAbs = n + 1) ∧
    (i.natAbs = n + 1 ↔ lost = true ∧ goesUp mode neg (decide (n % 2 = 1)) n ((n : ℝ) + 1) |v|)

/-- Formats in which arithmetic is done (R113, R130). -/
def arithmeticFormats : List Fmt := [Fmt.f64, Fmt.f32, Fmt.f16, Fmt.bf16]

/-- R21: the sign of an exact sum that is zero. -/
def zeroSign (mode : RMode) (x y : Dy) : Bool := if x.m = 0 ∧ y.m = 0 ∧ x.neg = y.neg then x.neg else decide (mode = .rdn)

/-- The same number with the other sign. -/
def opposite (x : Dy) : Dy := { x with neg := !x.neg }

/-- R31: a conversion to an integer of `w` bits in a range. -/
def toWhole (w : Nat) (lo hi : Int) (mode : RMode) (v : FVal) : Nat × Flags :=
  (((toIntRange mode lo hi v).1 % 2 ^ w).toNat, (toIntRange mode lo hi v).2)

/-- R117: the conversions by code. -/
noncomputable def fcvtTable : List (Reg × (Prec → RMode → Word → Nat × Flags)) := [
  (0, fun p m a => match p with
    | .single => Fmt.f32.convert Fmt.f64 m (a.toNat % 2 ^ 32) | .double => Fmt.f64.convert Fmt.f32 m a.toNat),
  (1, fun p m a => toWhole 64 (-2 ^ 31) (2 ^ 31 - 1) m ((precFmt p).unpack (fpBits p a))),
  (2, fun p m a => toWhole 64 0 (2 ^ 32 - 1) m ((precFmt p).unpack (fpBits p a))),
  (3, fun p m a => toWhole 64 (-2 ^ 63) (2 ^ 63 - 1) m ((precFmt p).unpack (fpBits p a))),
  (4, fun p m a => toWhole 64 0 (2 ^ 64 - 1) m ((precFmt p).unpack (fpBits p a))),
  (5, fun p m a => (precFmt p).round m (Dy.ofInt (a.truncate 32 : BitVec 32).toInt)),
  (6, fun p m a => (precFmt p).round m (Dy.ofInt (a.toNat % 2 ^ 32 : Nat))),
  (7, fun p m a => (precFmt p).round m (Dy.ofInt a.toInt)),
  (8, fun p m a => (precFmt p).round m (Dy.ofInt a.toNat)),
  (9, fun p m a => (precFmt p).convert Fmt.f16 m (fpBits p a)),
  (10, fun p m a => (precFmt p).convert Fmt.bf16 m (fpBits p a)),
  (11, fun p m a => Fmt.f16.convert (precFmt p) m (a.toNat % 2 ^ 16)),
  (12, fun p m a => Fmt.bf16.convert (precFmt p) m (a.toNat % 2 ^ 16))]

/-- The largest floor(log2|v|) over the finite nonzero numbers of a list (R19, R38, R144). -/
def isTop (vals : List FVal) (e : Int) : Prop :=
  (∃ x, FVal.fin x ∈ vals ∧ (2 : ℝ) ^ e ≤ |numberOf x|) ∧ ∀ x, FVal.fin x ∈ vals → |numberOf x| < 2 ^ (e + 1)

/-- R19: emax. -/
def emaxOf : MxFmt → Int | .e4m3 => 8 | .e5m2 => 15 | .e3m2 => 4 | .e2m3 => 2 | .e2m1 => 2 | .mxint8 => 0

/-- R18: the number of a finite element of an MX format, none for a NaN or an infinity. -/
noncomputable def elementNumber (f : MxFmt) (c : Nat) : Option ℝ :=
  let float (g : Fmt) : Option ℝ := match g.unpack (c % 2 ^ g.bits) with | .fin x => some (numberOf x) | _ => none
  match f with
  | .e4m3 => float Fmt.e4m3 | .e5m2 => float Fmt.e5m2 | .e3m2 => float Fmt.e3m2 | .e2m3 => float Fmt.e2m3 | .e2m1 => float Fmt.e2m1
  | .mxint8 => some ((((c % 256 : Nat) : ℝ) - if 128 ≤ c % 256 then 256 else 0) * 2 ^ (-6 : Int))

/-- R18: the floating-point formats of MX elements. -/
def mxFloats : List (MxFmt × Fmt) :=
  [(.e4m3, Fmt.e4m3), (.e5m2, Fmt.e5m2), (.e3m2, Fmt.e3m2), (.e2m3, Fmt.e2m3), (.e2m1, Fmt.e2m1)]

/-- R38: `i` is `v` truncated towards zero. -/
def truncates (v : ℝ) (i : Int) : Prop := |(i : ℝ)| ≤ |v| ∧ |v| < |(i : ℝ)| + 1 ∧ 0 ≤ (i : ℝ) * v

/-- R39: the digits of an integer, the lowest first. -/
def digitsOf (slices : Nat) (i : Int) (ds : List Int) : Prop :=
  ds.length = slices ∧ i = ((List.range slices).map fun j => ds.getD j 0 * 128 ^ j).sum ∧ ∀ d ∈ ds, d.natAbs ≤ 127 ∧ 0 ≤ d * i

/-- The integer of some digits. -/
def digitSum (slices : Nat) (ds : List Int) : Int := ((List.range slices).map fun j => ds.getD j 0 * 128 ^ j).sum

/-- R282: bits of an operand of a matrix product by format. -/
def operandBits (f : Nat) : Nat := [8, 4, 8, 8, 6, 6, 4, 16, 16, 32, 64].getD f 0

/-- R17, R18, R283: where the block of an element begins among the packed bytes, in bits: a scale byte and 32 elements. -/
def operandBlock (f k : Nat) : Nat := 8 * (k / 32 * (1 + 4 * operandBits f))

/-- The code of element `k` of packed operands, with or without block scales. -/
def operandCode (f : Nat) (mxb : Bool) (n k : Nat) : Nat :=
  n / 2 ^ (if mxb then operandBlock f k + 8 + operandBits f * (k % 32) else operandBits f * k) % 2 ^ operandBits f

/-- The scale of element `k`, its block's and the row's or the column's as a power of two; none for a NaN. -/
def operandScale (f : Nat) (mxb : Bool) (scale n k : Nat) : Option Int :=
  let x := if mxb then n / 2 ^ operandBlock f k % 256 else 127
  if x = 255 ∨ scale = 255 then none else some ((x : Int) - 127 + (scale - 127))

/-- The number that element `k` stands for, scales included; none for a NaN or an infinity. INT8 stands for multiples of 2^-6. -/
noncomputable def operand (f : Nat) (mxb : Bool) (scale n k : Nat) : Option ℝ :=
  let c := operandCode f mxb n k
  let float (g : Fmt) : Option ℝ := match g.unpack c with | .fin x => some (numberOf x) | _ => none
  let own : Option ℝ := match f with
    | 2 => float Fmt.e4m3 | 3 => float Fmt.e5m2 | 4 => float Fmt.e3m2 | 5 => float Fmt.e2m3 | 6 => float Fmt.e2m1
    | 7 => float Fmt.bf16 | 8 => float Fmt.f16 | 9 => float Fmt.f32 | 10 => float Fmt.f64
    | _ => some (((if c = 128 then -127 else sext 8 c : Int) : ℝ) * 2 ^ (-6 : Int))
  match operandScale f mxb scale n k, own with
  | some e, some v => some (v * 2 ^ e)
  | _, _ => none

/-- R156: what each atomic writes, from the old value, xB and xD, as numbers of `w` bits. -/
noncomputable def atomicTable :
    List ((Reg → Reg → Reg → Bool → Bool → AtomSize → Scope → Instr) × (Nat → Nat → Nat → Nat → Option Nat)) := [
  (.amoswap, fun _ _ b _ => some b),
  (.amoadd, fun w old b _ => some ((old + b) % 2 ^ w)),
  (.amoand, fun _ old b _ => some (old &&& b)),
  (.amoor, fun _ old b _ => some (old ||| b)),
  (.amoxor, fun _ old b _ => some (old ^^^ b)),
  (.amomin, fun w old b _ => some (if sext w old ≤ sext w b then old else b)),
  (.amomax, fun w old b _ => some (if sext w b ≤ sext w old then old else b)),
  (.amocas, fun _ old b d => if old = d then some b else none)]

/-- Bytes of an atomic (R73). -/
def atomBytes : AtomSize → Nat | .w => 4 | .d => 8

/-- A place that user code can write: the device or the local store. -/
def userPlace (pl : Place) : Prop := ∀ o, pl ≠ .csa o

/-- The group of the thread's launch that a number names, as a whole (R161). -/
def groupAt (s : State) (g : Nat) : Group := s.group s.thr.groupOwner g

/-- A group once a member has arrived or left: when every member has arrived, one at least, the phase completes and the
arrived flags are cleared (R162). -/
def phaseRule (members : Assoc ThreadKey Bool) (phase : BitVec 32) : Group :=
  if (∃ e ∈ members, e.2 = true) ∧ ∀ e ∈ members, e.2 = true then ⟨members.map fun e => (e.1, false), phase + 1⟩
  else ⟨members, phase⟩

/-- The groups with one of the thread's launch replaced. -/
def groupsWith (s t : State) (g : Nat) (x : Group) : Prop :=
  ∀ o k, t.group o k = if o = s.thr.groupOwner ∧ k = g then x else s.group o k

/-- The stores that an entry's stamp counts have been performed: its producer holds none of them, and no peer owes an answer (R165). -/
def stampDone (s : State) (e : QEntry) : Prop :=
  (∀ u, s.thread? e.producer = some u → ∀ p ∈ u.sq, e.stamp < p.seq) ∧
  ∀ r ∈ s.requests, ∀ n, r.who = .store e.producer n → e.stamp < n

/-- The binding of a queue of the thread's process, as `hreg` names queue, priority and header in its registers (R166). -/
def bindingOf (s : State) (a b : Word) : HandlerEntry :=
  ⟨s.thr.key.part, s.thr.key.proc, a.toNat % 1024, BitVec.ofNat 3 (a.toNat / 1024), b⟩

/-- True of an entry for the same queue of the same process. -/
def sameQueue (h g : HandlerEntry) : Bool := decide (g.part = h.part ∧ g.proc = h.proc ∧ g.queue = h.queue)

/-- The machine with an entry of the running thread's core holding a binding, and the queue bound nowhere else (R166). -/
def boundAt (s : State) (i : Nat) (h : HandlerEntry) : State :=
  let u : State := { s with cores := s.cores.map fun (c, k) => (c, { k with handlers := k.handlers.filter fun e => !sameQueue h e.2 }) }
  u.setCore s.thr.core { u.core s.thr.core with handlers := Assoc.put (u.core s.thr.core).handlers i h }

/-- The machine with a hardware queue of the thread's process replaced. -/
def queueWith (s : State) (n : Nat) (q : HwQueue) : State :=
  s.setProc s.thr.key.part s.thr.key.proc
    { s.proc s.thr.key.part s.thr.key.proc with
      queues := Assoc.put (s.proc s.thr.key.part s.thr.key.proc).queues n q }

/-- The queue that a register names, of the thread's process (R164). -/
def queueNamed (s : State) (a : Word) (q : HwQueue) : Prop :=
  a.toNat < 1024 ∧ Assoc.get? (s.proc s.thr.key.part s.thr.key.proc).queues a.toNat = some q

/-! ### Vector instructions: one row an instruction -/

/-- An element-wise instruction: its form on destination, two operand fields and mask, when its operands are legal and
declared, its capability, and the value of element `i` with its flags. -/
structure VRow where
  make : Reg → Reg → Reg → Reg → Instr
  ok : Thread → Reg → Reg → Reg → Prop
  cap : Thread → Nat
  value : Thread → Reg → Reg → Reg → Nat → Nat × Flags

/-- Every row completes: R120's elements in the destination group, the flags of the active elements in FCSR (R25), and
nothing else changed but the PC, the vector queue, event counters and BPSKIP. -/
def elementwise (rows : List VRow) : Prop :=
  ∀ e ∈ rows, ∀ (s : State) (d a b p : Reg), s.vectorFit [e.cap s.thr] → s.thr.vectorOk → s.thr.vl ≠ 0 → s.thr.groupOk d →
    s.thr.predOk p → e.ok s.thr d a b →
    ∃ t, exec (e.make d a b p) s = .next t ∧ s.vecDone t ∧
      s.thr.vecResult t.thr d p (fun i => (e.value s.thr d a b i).1) ∧
      t.thr.fcsr = s.thr.fcsr ||| (orFlags ((s.thr.actives p).map fun i => (e.value s.thr d a b i).2)).zeroExtend 8

/-- Operands at SEW (R128): an element, the low bits of an x register, an immediate with its sign, one without. -/
def elemAt (t : Thread) (r : Reg) (i : Nat) : Nat := t.elem r.toNat i t.sew
def xLow (t : Thread) (r : Reg) : Nat := (t.xr r).toNat % 2 ^ t.sew
def immLow (t : Thread) (n : Reg) : Nat := wrap t.sew (sext 5 n.toNat)
def elem2At (t : Thread) (r : Reg) (i : Nat) : Nat := t.elem r.toNat i t.sew2

/-- The three forms of an integer instruction (R127, R128); a shift by an immediate takes it without a sign. -/
def intRows (vv vx vi : Reg → Reg → Reg → Reg → Instr) (cap : Nat) (shift : Bool) (f : Nat → Nat → Nat → Nat → Nat) : List VRow := [
  ⟨vv, fun t _ a b => t.groupOk a ∧ t.groupOk b, fun _ => cap,
    fun t d a b i => (f t.sew (elemAt t a i) (elemAt t b i) (elemAt t d i), 0)⟩,
  ⟨vx, fun t _ a _ => t.groupOk a, fun _ => cap, fun t d a b i => (f t.sew (elemAt t a i) (xLow t b) (elemAt t d i), 0)⟩,
  ⟨vi, fun t _ a _ => t.groupOk a, fun _ => cap,
    fun t d a b i => (f t.sew (elemAt t a i) (if shift then b.toNat else immLow t b) (elemAt t d i), 0)⟩]

/-- R127: integer arithmetic from a, b and the old destination d at width w. -/
noncomputable def vectorIntegerRows : List VRow :=
  (intRows .vaddVv .vaddVx .vaddVi 3 false fun _ a b _ => a + b) ++
  (intRows .vsubVv .vsubVx .vsubVi 3 false fun w a b _ => a + (2 ^ w - b % 2 ^ w)) ++
  (intRows .vmulVv .vmulVx .vmulVi 4 false fun _ a b _ => a * b) ++
  (intRows .vmulhVv .vmulhVx .vmulhVi 4 false fun w a b _ => wrap w (sext w a * sext w b / 2 ^ w)) ++
  (intRows .vmulhuVv .vmulhuVx .vmulhuVi 4 false fun w a b _ => a * b / 2 ^ w) ++
  (intRows .vdivVv .vdivVx .vdivVi 4 false fun w a b _ => if b = 0 then 2 ^ w - 1 else wrap w (Int.tdiv (sext w a) (sext w b))) ++
  (intRows .vdivuVv .vdivuVx .vdivuVi 4 false fun w a b _ => if b = 0 then 2 ^ w - 1 else a / b) ++
  (intRows .vremVv .vremVx .vremVi 4 false fun w a b _ => if b = 0 then a else wrap w (Int.tmod (sext w a) (sext w b))) ++
  (intRows .vremuVv .vremuVx .vremuVi 4 false fun _ a b _ => if b = 0 then a else a % b) ++
  (intRows .vandVv .vandVx .vandVi 3 false fun _ a b _ => a &&& b) ++
  (intRows .vorVv .vorVx .vorVi 3 false fun _ a b _ => a ||| b) ++
  (intRows .vxorVv .vxorVx .vxorVi 3 false fun _ a b _ => a ^^^ b) ++
  (intRows .vshlVv .vshlVx .vshlVi 3 true fun w a b _ => a <<< (b % w)) ++
  (intRows .vshrVv .vshrVx .vshrVi 3 true fun w a b _ => a >>> (b % w)) ++
  (intRows .vsraVv .vsraVx .vsraVi 3 true fun w a b _ => wrap w (sext w a / 2 ^ (b % w))) ++
  (intRows .vminVv .vminVx .vminVi 3 false fun w a b _ => wrap w (min (sext w a) (sext w b))) ++
  (intRows .vmaxVv .vmaxVx .vmaxVi 3 false fun w a b _ => wrap w (max (sext w a) (sext w b))) ++
  (intRows .vminuVv .vminuVx .vminuVi 3 false fun _ a b _ => min a b) ++
  (intRows .vmaxuVv .vmaxuVx .vmaxuVi 3 false fun _ a b _ => max a b) ++
  (intRows .vmaccVv .vmaccVx .vmaccVi 4 false fun _ a b d => d + a * b) ++
  (intRows .vsaddVv .vsaddVx .vsaddVi 3 false fun w a b _ => wrap w (clampInt (-(2 ^ (w - 1))) (2 ^ (w - 1) - 1) (sext w a + sext w b))) ++
  (intRows .vssubVv .vssubVx .vssubVi 3 false fun w a b _ => wrap w (clampInt (-(2 ^ (w - 1))) (2 ^ (w - 1) - 1) (sext w a - sext w b)))

/-- R127: `vmv`. -/
noncomputable def vectorMoveRows : List VRow := [
  ⟨fun d _ b p => .vmvVv d b p, fun t _ _ b => t.groupOk b, fun _ => 3, fun t _ _ b i => (elemAt t b i, 0)⟩,
  ⟨fun d _ b p => .vmvVx d b p, fun _ _ _ _ => True, fun _ => 3, fun t _ _ b _ => (xLow t b, 0)⟩,
  ⟨fun d _ b p => .vmvVi d b p, fun _ _ _ _ => True, fun _ => 3, fun t _ _ b _ => (immLow t b, 0)⟩]

/-- R129: `vmerge` in its three forms, with its second operand. -/
noncomputable def mergeTable : List ((Reg → Reg → Reg → Reg → Instr) × Bool × (Thread → Reg → Nat → Nat)) := [
  (.vmergeVv, true, elemAt), (.vmergeVx, false, fun t b _ => xLow t b), (.vmergeVi, false, fun t b _ => immLow t b)]

/-- The capability of vector floating point at SEW (R71). -/
def fpCapAt (t : Thread) : Nat := if t.sew = 64 then 7 else if t.sew = 32 then 6 else 5

/-- The two forms of a floating-point instruction (R130). -/
def fpRows (vv vx : Reg → Reg → Reg → Reg → Instr) (f : Fmt → RMode → Nat → Nat → Nat → Nat × Flags) : List VRow := [
  ⟨vv, fun t _ a b => t.sew ≠ 8 ∧ t.groupOk a ∧ t.groupOk b, fpCapAt,
    fun t d a b i => f t.fmt t.vfrm (elemAt t a i) (elemAt t b i) (elemAt t d i)⟩,
  ⟨vx, fun t _ a _ => t.sew ≠ 8 ∧ t.groupOk a, fpCapAt,
    fun t d a b i => f t.fmt t.vfrm (elemAt t a i) (xLow t b) (elemAt t d i)⟩]

/-- A floating-point function of one source (R131). -/
def fpUnary (v : Reg → Reg → Reg → Instr) (f : Fmt → RMode → Nat → Nat × Flags) : VRow :=
  ⟨fun d a _ p => v d a p, fun t _ a _ => t.sew ≠ 8 ∧ t.groupOk a, fpCapAt, fun t _ a _ i => f t.fmt t.vfrm (elemAt t a i)⟩

/-- R130, R131: vector floating point. -/
noncomputable def vectorFloatRows : List VRow :=
  (fpRows .vfaddVv .vfaddVx fun f m a b _ => f.add m a b) ++
  (fpRows .vfsubVv .vfsubVx fun f m a b _ => f.sub m a b) ++
  (fpRows .vfmulVv .vfmulVx fun f m a b _ => f.mul m a b) ++
  (fpRows .vfdivVv .vfdivVx fun f m a b _ => f.div m a b) ++
  (fpRows .vfminVv .vfminVx fun f _ a b _ => f.minmax false a b) ++
  (fpRows .vfmaxVv .vfmaxVx fun f _ a b _ => f.minmax true a b) ++
  (fpRows .vfmaccVv .vfmaccVx fun f m a b d => f.fmaVal m (f.unpack a) (f.unpack b) (f.unpack d)) ++
  (fpRows .vfnmaccVv .vfnmaccVx fun f m a b d => f.fmaVal m (f.unpack a).opp (f.unpack b) (f.unpack d).opp) ++
  (fpRows .vfmsacVv .vfmsacVx fun f m a b d => f.fmaVal m (f.unpack a) (f.unpack b) (f.unpack d).opp) ++
  (fpRows .vfnmsacVv .vfnmsacVx fun f m a b d => f.fmaVal m (f.unpack a).opp (f.unpack b) (f.unpack d)) ++
  (fpRows .vfsgnjVv .vfsgnjVx fun f _ a b _ => (f.withSign a (f.signOf b), 0)) ++
  (fpRows .vfsgnjnVv .vfsgnjnVx fun f _ a b _ => (f.withSign a (!f.signOf b), 0)) ++
  (fpRows .vfsgnjxVv .vfsgnjxVx fun f _ a b _ => (f.withSign a (f.signOf a != f.signOf b), 0)) ++
  [fpUnary .vfsqrt fun f m a => f.sqrt m a, fpUnary .vfrsqrte fun f _ a => f.rsqrte a,
   fpUnary .vfrece fun f _ a => f.rece a, fpUnary .vfclass fun f _ a => (f.classify a, 0)]

/-- R132: the conversions of `vfcvt` by code: the pairs of SEW and SEW2 that each allows, and its value. -/
noncomputable def vfcvtTable : List (Reg × (Nat → Nat → Prop) × (Thread → Nat → Nat × Flags)) := [
  (0, fun w v => w ∈ [16, 32, 64] ∧ v ∈ [16, 32, 64] ∧ v ≠ w, fun t c => t.fmt2.convert t.fmt t.vfrm c),
  (1, fun w v => w ∈ [8, 16, 32, 64] ∧ v ∈ [16, 32, 64],
    fun t c => toWhole t.sew (-2 ^ (t.sew - 1)) (2 ^ (t.sew - 1) - 1) t.vfrm (t.fmt2.unpack c)),
  (2, fun w v => w ∈ [8, 16, 32, 64] ∧ v ∈ [16, 32, 64], fun t c => toWhole t.sew 0 (2 ^ t.sew - 1) t.vfrm (t.fmt2.unpack c)),
  (3, fun w v => w ∈ [16, 32, 64] ∧ v ∈ [8, 16, 32, 64], fun t c => t.fmt.round t.vfrm (Dy.ofInt (sext t.sew2 c))),
  (4, fun w v => w ∈ [16, 32, 64] ∧ v ∈ [8, 16, 32, 64], fun t c => t.fmt.round t.vfrm (Dy.ofInt c)),
  (5, fun w v => w = 16 ∧ v = 16, fun t c => Fmt.f16.convert Fmt.bf16 t.vfrm c),
  (6, fun w v => w = 16 ∧ v = 16, fun t c => Fmt.bf16.convert Fmt.f16 t.vfrm c),
  (7, fun w v => w ∈ [16, 32, 64] ∧ v = 8, fun t c => Fmt.e4m3.convert t.fmt t.vfrm c),
  (8, fun w v => w ∈ [16, 32, 64] ∧ v = 8, fun t c => Fmt.e5m2.convert t.fmt t.vfrm c),
  (9, fun w v => w = 8 ∧ v ∈ [16, 32, 64], fun t c => t.fmt2.convert Fmt.e4m3 t.vfrm c),
  (10, fun w v => w = 8 ∧ v ∈ [16, 32, 64], fun t c => t.fmt2.convert Fmt.e5m2 t.vfrm c)]

/-- R132, R134: conversions, from SEW2 to SEW; the code of `vfcvt` and of `vnarrow` is the second field. -/
noncomputable def vectorConversionRows : List VRow := (vfcvtTable.map fun e =>
    ⟨.vfcvt, fun t _ a k => k = e.1 ∧ e.2.1 t.sew t.sew2 ∧ t.secondOk a, fun _ => 8, fun t _ a _ i => e.2.2 t (elem2At t a i)⟩) ++ [
  ⟨fun d a _ p => .vsext d a p, fun t _ a _ => t.sew2 < t.sew ∧ t.secondOk a, fun _ => 8,
    fun t _ a _ i => (wrap t.sew (sext t.sew2 (elem2At t a i)), 0)⟩,
  ⟨fun d a _ p => .vzext d a p, fun t _ a _ => t.sew2 < t.sew ∧ t.secondOk a, fun _ => 8,
    fun t _ a _ i => (elem2At t a i, 0)⟩,
  ⟨.vnarrow, fun t _ a k => t.sew < t.sew2 ∧ k = 0 ∧ t.secondOk a, fun _ => 8, fun t _ a _ i => (elem2At t a i, 0)⟩,
  ⟨.vnarrow, fun t _ a k => t.sew < t.sew2 ∧ k = 1 ∧ t.secondOk a, fun _ => 8, fun t _ a _ i =>
    (wrap t.sew (clampInt (-(2 ^ (t.sew - 1))) (2 ^ (t.sew - 1) - 1) (sext t.sew2 (elem2At t a i))), 0)⟩,
  ⟨.vnarrow, fun t _ a k => t.sew < t.sew2 ∧ k = 2 ∧ t.secondOk a, fun _ => 8, fun t _ a _ i =>
    (min (elem2At t a i) (2 ^ t.sew - 1), 0)⟩,
  ⟨.vnarrow, fun t _ a k => t.sew < t.sew2 ∧ k = 3 ∧ t.secondOk a, fun _ => 8, fun t _ a _ i =>
    ((clampInt 0 (2 ^ t.sew - 1) (sext t.sew2 (elem2At t a i))).toNat, 0)⟩] ++
  [MxFmt.e4m3, .e5m2, .e3m2, .e2m3, .e2m1, .mxint8].map fun f =>
    ⟨fun d a _ p => .vmxcvt d a false f p, fun t _ a _ => t.sew ≠ 8 ∧ t.sew2 = 8 ∧ t.secondOk a ∧ a.toNat + 2 ≤ 32 ∧
      a.toNat + 2 ≤ t.hdr.vregs, fun _ => 8,
    fun t _ a _ i => t.fmt.roundVal t.vfrm (mxElement f (t.elem (a.toNat + 1) (i / 32) 8) (elem2At t a i))⟩

/-- The residues of the low bits of a word under the four moduli (R33). -/
def residues (x : Int) : Nat :=
  (x % 256).toNat + 2 ^ 8 * (x % 255).toNat + 2 ^ 16 * (x % 257).toNat + 2 ^ 25 * (x % 127).toNat

/-- The four residues that a word holds, each below its modulus (R35). -/
def residueOf (w : Nat) (k : Fin 4) : Int :=
  match k with
  | 0 => (w % 256 : Nat) | 1 => (w / 2 ^ 8 % 256 % 255 : Nat) | 2 => (w / 2 ^ 16 % 512 % 257 : Nat) | 3 => (w / 2 ^ 25 % 128 % 127 : Nat)

/-- A word from an operation on each residue (R35). -/
def byResidue (f : Fin 4 → Int) : Nat :=
  (f 0 % 256).toNat + 2 ^ 8 * (f 1 % 255).toNat + 2 ^ 16 * (f 2 % 257).toNat + 2 ^ 25 * (f 3 % 127).toNat

/-- Operands of three groups at SEW 32. -/
def threeAt32 (t : Thread) (_ a b : Reg) : Prop := t.sew = 32 ∧ t.groupOk a ∧ t.groupOk b

/-- R142 to R146: residue words, slices and mixed widths. -/
noncomputable def vectorResidueRows : List VRow := [
  ⟨fun d a _ p => .vrenc d a p, fun t _ a _ => t.sew = 32 ∧ t.secondOk a, fun _ => 9,
    fun t _ a _ i => (residues (sext t.sew2 (elem2At t a i)), 0)⟩,
  ⟨.vradd, threeAt32, fun _ => 9, fun t _ a b i =>
    (byResidue fun k => residueOf (elemAt t a i) k + residueOf (elemAt t b i) k, 0)⟩,
  ⟨.vrsub, threeAt32, fun _ => 9, fun t _ a b i =>
    (byResidue fun k => residueOf (elemAt t a i) k - residueOf (elemAt t b i) k, 0)⟩,
  ⟨.vrmul, threeAt32, fun _ => 9, fun t _ a b i =>
    (byResidue fun k => residueOf (elemAt t a i) k * residueOf (elemAt t b i) k, 0)⟩,
  ⟨.vrmacc, threeAt32, fun _ => 9, fun t d a b i =>
    (byResidue fun k => residueOf (elemAt t d i) k + residueOf (elemAt t a i) k * residueOf (elemAt t b i) k, 0)⟩,
  ⟨fun d a _ p => .vrdec d a p, fun t _ a _ => t.sew = 32 ∧ t.groupOk a, fun _ => 9, fun t _ a _ i =>
    (wrap 32 (Rnw.ofWord (elemAt t a i)).crt, if (Rnw.ofWord (elemAt t a i)).consistent then 0 else Flags.nv)⟩,
  ⟨.vwadd, fun t _ a b => t.sew2 ≤ t.sew ∧ t.groupOk a ∧ t.secondOk b, fun _ => 3, fun t _ a b i =>
    (wrap t.sew (elemAt t a i + sext t.sew2 (elem2At t b i)), 0)⟩,
  ⟨.vwsub, fun t _ a b => t.sew2 ≤ t.sew ∧ t.groupOk a ∧ t.secondOk b, fun _ => 3, fun t _ a b i =>
    (wrap t.sew (elemAt t a i - sext t.sew2 (elem2At t b i)), 0)⟩,
  ⟨.vwmul, fun t _ a b => t.sew2 ≤ t.sew ∧ t.groupOk a ∧ t.secondOk b, fun _ => 4, fun t _ a b i =>
    (wrap t.sew (elemAt t a i * sext t.sew2 (elem2At t b i)), 0)⟩,
  ⟨.vwmacc, fun t _ a b => t.sew2 ≤ t.sew ∧ t.groupOk a ∧ t.secondOk b, fun _ => 4, fun t d a b i =>
    (wrap t.sew (elemAt t d i + elemAt t a i * sext t.sew2 (elem2At t b i)), 0)⟩,
  ⟨.vwfmacc, fun t _ a b => t.sew ≠ 8 ∧ t.sew2 ≠ 8 ∧ t.sew2 ≤ t.sew ∧ t.groupOk a ∧ t.secondOk b, fpCapAt, fun t d a b i =>
    t.fmt.fmaVal t.vfrm (t.fmt.unpack (elemAt t a i)) (t.fmt2.unpack (elem2At t b i)) (t.fmt.unpack (elemAt t d i))⟩,
  ⟨.vqdot, fun t _ a b => t.sew = 32 ∧ t.sew2 = 32 ∧ t.groupOk a ∧ t.groupOk b, fun _ => 4, fun t d a b i =>
    (wrap 32 (elemAt t d i + sext 8 (elemAt t a i) * sext 8 (elemAt t b i) +
      sext 8 (elemAt t a i / 2 ^ 8) * sext 8 (elemAt t b i / 2 ^ 8) +
      sext 8 (elemAt t a i / 2 ^ 16) * sext 8 (elemAt t b i / 2 ^ 16) +
      sext 8 (elemAt t a i / 2 ^ 24) * sext 8 (elemAt t b i / 2 ^ 24)), 0)⟩,
  ⟨fun d a _ p => .vunslice d a p, fun t _ a _ => 32 ≤ t.sew ∧ t.sew2 = 8 ∧ t.secondOk a, fun _ => 10, fun t d a _ i =>
    (wrap t.sew (elemAt t d i * 128 + sext 8 (elem2At t a i)), 0)⟩]

/-- Comparisons and predicates: the form on destination, two operand fields and mask, when the operands are legal and
declared, its capability, and bit `i` with its flags. -/
structure PRow where
  make : Reg → Reg → Reg → Reg → Instr
  ok : Thread → Reg → Reg → Prop
  cap : Thread → Nat
  value : Thread → Reg → Reg → Reg → Nat → Bool × Flags

/-- R135: an integer condition on elements of `w` bits, signed or unsigned. -/
def conditionOn (c : CmpCond) (u : Bool) (w a b : Nat) : Bool :=
  let x : Int := if u then a else sext w a
  let y : Int := if u then b else sext w b
  match c with
  | .eq => decide (x = y) | .ne => decide (x ≠ y) | .lt => decide (x < y) | .le => decide (x ≤ y)
  | .gt => decide (y < x) | .ge => decide (y ≤ x) | .unord => false

/-- The conditions that an integer comparison has: eq and ne have no unsigned form (R135). -/
def integerConditions : List (CmpCond × Bool) := [(.eq, false), (.ne, false), (.lt, false), (.le, false), (.gt, false),
  (.ge, false), (.lt, true), (.le, true), (.gt, true), (.ge, true)]

/-- R135: `vcmp` and `vfcmp`. -/
noncomputable def compareRows : List PRow :=
  (integerConditions.flatMap fun c => [
    ⟨fun d a b p => .vcmpVv d a b p c.1 c.2, fun t a b => t.groupOk a ∧ t.groupOk b, fun _ => 3,
      fun t a b _ i => (conditionOn c.1 c.2 t.sew (elemAt t a i) (elemAt t b i), 0)⟩,
    ⟨fun d a b p => .vcmpVx d a b p c.1 c.2, fun t a _ => t.groupOk a, fun _ => 3,
      fun t a b _ i => (conditionOn c.1 c.2 t.sew (elemAt t a i) (xLow t b), 0)⟩]) ++
  [CmpCond.eq, .ne, .lt, .le, .gt, .ge, .unord].flatMap fun c => [
    ⟨fun d a b p => .vfcmpVv d a b p c, fun t a b => t.sew ≠ 8 ∧ t.groupOk a ∧ t.groupOk b, fpCapAt,
      fun t a b _ i => fpCmp c t.fmt (elemAt t a i) (elemAt t b i)⟩,
    ⟨fun d a b p => .vfcmpVx d a b p c, fun t a _ => t.sew ≠ 8 ∧ t.groupOk a, fpCapAt,
      fun t a b _ i => fpCmp c t.fmt (elemAt t a i) (xLow t b)⟩]

/-- Index `i` lies before, or at, the lowest active set bit of predicate `a` (R137). -/
def beforeFirst (t : Thread) (a p : Reg) (i : Nat) : Bool := (t.actives p).all fun j => !t.pbit a j || decide (i < j)
def upToFirst (t : Thread) (a p : Reg) (i : Nat) : Bool := (t.actives p).all fun j => !t.pbit a j || decide (i ≤ j)

/-- R137, R143: operations on predicates and `vrchk`. -/
noncomputable def predicateRows : List PRow := [
  ⟨.pand, fun t a b => t.predOk a ∧ t.predOk b, fun _ => 3, fun t a b _ i => (t.pbit a i && t.pbit b i, 0)⟩,
  ⟨.por, fun t a b => t.predOk a ∧ t.predOk b, fun _ => 3, fun t a b _ i => (t.pbit a i || t.pbit b i, 0)⟩,
  ⟨.pxor, fun t a b => t.predOk a ∧ t.predOk b, fun _ => 3, fun t a b _ i => (t.pbit a i != t.pbit b i, 0)⟩,
  ⟨fun d a _ p => .pnot d a p, fun t a _ => t.predOk a, fun _ => 3, fun t a _ _ i => (!t.pbit a i, 0)⟩,
  ⟨fun d _ _ p => .pset d p, fun _ _ _ => True, fun _ => 3, fun _ _ _ _ _ => (true, 0)⟩,
  ⟨fun d _ _ p => .pclr d p, fun _ _ _ => True, fun _ => 3, fun _ _ _ _ _ => (false, 0)⟩,
  ⟨fun d a _ p => .pmsbf d a p, fun t a _ => t.predOk a, fun _ => 3, fun t a _ p i => (beforeFirst t a p i, 0)⟩,
  ⟨fun d a _ p => .pmsif d a p, fun t a _ => t.predOk a, fun _ => 3, fun t a _ p i => (upToFirst t a p i, 0)⟩,
  ⟨fun d a _ p => .vrchk d a p, fun t a _ => t.sew = 32 ∧ t.groupOk a, fun _ => 9, fun t a _ _ i =>
    (!(Rnw.ofWord (elemAt t a i)).consistent, 0)⟩]

/-- The machine whose thread has come to a micro-step of a deprecated instruction (R224). -/
def atMicro (s : State) (m : Micro) : State := { s with thr := { s.thr with micro := some m } }

/-- Element `j` of a group, 0 from VLMAX on (R139). -/
def elemOr0 (t : Thread) (a : Reg) (j : Nat) : Nat := if j < t.vlmax then elemAt t a j else 0

/-- The number of selected elements below `i` (R140). -/
def rankAt (t : Thread) (p : Reg) (i : Nat) : Nat := ((List.range i).filter fun j => t.active p j).length

/-- R139: permutations, without flags. -/
noncomputable def permuteRows : List VRow := [
  ⟨.vslideup, fun t _ a _ => t.groupOk a, fun _ => 3, fun t d a b i =>
    (if (t.xr b).toNat ≤ i then elemAt t a (i - (t.xr b).toNat) else elemAt t d i, 0)⟩,
  ⟨.vslidedown, fun t _ a _ => t.groupOk a, fun _ => 3, fun t _ a b i => (elemOr0 t a (i + (t.xr b).toNat), 0)⟩,
  ⟨.vrgather, fun t _ a b => t.groupOk a ∧ t.groupOk b, fun _ => 3, fun t _ a b i => (elemOr0 t a (elemAt t b i), 0)⟩,
  ⟨.vbcast, fun t _ a _ => t.groupOk a, fun _ => 3, fun t _ a b _ => (elemOr0 t a (t.xr b).toNat, 0)⟩,
  ⟨fun d _ _ p => .vid d p, fun _ _ _ _ => True, fun _ => 3, fun _ _ _ _ i => (i, 0)⟩]

/-- What a reduction leaves: element 0 of one register, the others following TZ, no other register (R141). -/
def reduced (t u : Thread) (d : Reg) (v : Nat) : Prop :=
  u.elem d.toNat 0 t.sew = v % 2 ^ t.sew ∧
  (∀ i, 0 < i → i < t.vlen / t.sew → u.elem d.toNat i t.sew = if t.vtype.getLsbD 13 then 0 else t.elem d.toNat i t.sew) ∧
  ∀ r : Fin 32, r.val ≠ d.toNat → u.v[r] = t.v[r]

/-- The active elements of a group, in rising index. -/
def activeElems (t : Thread) (a p : Reg) : List Nat := (t.actives p).map fun i => elemAt t a i

/-- R141: integer reductions from a start value. -/
noncomputable def integerReductions : List ((Reg → Reg → Reg → Reg → Instr) × (Nat → Nat → Nat → Nat)) := [
  (.vredsum, fun _ x y => x + y), (.vredmax, fun w x y => wrap w (max (sext w x) (sext w y))),
  (.vredmin, fun w x y => wrap w (min (sext w x) (sext w y))), (.vredand, fun _ x y => x &&& y), (.vredor, fun _ x y => x ||| y)]

/-- R141: floating-point reductions that take the elements in order. -/
noncomputable def orderedReductions : List ((Reg → Reg → Reg → Reg → Instr) × (Fmt → RMode → Nat → Nat → Nat × Flags)) := [
  (.vfredosum, fun f m x y => f.add m x y), (.vfredmax, fun f _ x y => f.minmax true x y),
  (.vfredmin, fun f _ x y => f.minmax false x y)]

/-! ### Vector memory: one row an instruction -/

/-- Bytes and bits of an element in memory (R75, R147). -/
def elemBytes : ElemWidth → Nat | .e8 => 1 | .e16 => 2 | .e32 => 4 | .e64 => 8

/-- R147: where element `i` lies: unit stride, a stride in an x register, an index element of SEW2 bits. -/
def unitAddr (t : Thread) (a _ : Reg) (e : ElemWidth) (i : Nat) : Word := t.xr a + BitVec.ofNat 64 (i * elemBytes e)
def strideAddr (t : Thread) (a b : Reg) (_ : ElemWidth) (i : Nat) : Word := t.xr a + BitVec.ofNat 64 i * t.xr b
def indexAddr (t : Thread) (a b : Reg) (_ : ElemWidth) (i : Nat) : Word := t.xr a + BitVec.ofInt 64 (sext t.sew2 (elem2At t b i))

/-- A vector load or store: its form on data register, base, second operand and mask, its capability, whether the second
operand is a group of indices, and its addresses. -/
structure MRow where
  make : Reg → Reg → Reg → Reg → BitVec 2 → ElemWidth → Instr
  cap : Nat
  indexed : Bool
  addr : Thread → Reg → Reg → ElemWidth → Nat → Word

noncomputable def vectorLoadRows : List MRow := [
  ⟨fun d a _ p c e => .vld d a p c e, 3, false, unitAddr⟩, ⟨.vlds, 24, false, strideAddr⟩, ⟨.vldx, 24, true, indexAddr⟩]

noncomputable def vectorStoreRows : List MRow := [
  ⟨fun r a _ p c e => .vst r a p c e, 3, false, unitAddr⟩, ⟨.vsts, 24, false, strideAddr⟩, ⟨.vstx, 24, true, indexAddr⟩]

/-- The element `i` of a load that reads `n` bytes at a place, at SEW (R147). -/
def loadedAt (s : State) (pl : Place) (e : ElemWidth) : Nat := wrap s.thr.sew (sext (8 * elemBytes e) (s.number pl (elemBytes e)))

/-- What an element of a load of class `c` takes: with the thread's own issued stores of a compatible class, and those of the other
classes seen or not, but for those that `l` marks, which it comes after (R155, R261). -/
def loadedEither (s : State) (l : List (PendStore × Bool)) (c : BitVec 2) (pl : Place) (e : ElemWidth) (v : Nat) : Prop :=
  v = loadedAt s pl e ∨ v = wrap s.thr.sew (sext (8 * elemBytes e) (((s.afterStores l).seeing c (pl.range (elemBytes e))).number pl (elemBytes e)))

/-- The device bytes of some accesses. -/
def deviceRanges (l : List (Place × Nat)) : List Range := l.flatMap fun e => e.1.range e.2

/-- After a store of several pieces one of the pieces at each place is stored, and every other byte that the thread can read
is as it was (R152). BPSKIP is apart (R373). -/
def scattered (s t : State) (ws : List (Place × List Byte)) : Prop :=
  ∃ cs : List (Place × List Byte), (∀ c ∈ cs, c ∈ ws) ∧ (∀ w ∈ ws, ∃ c ∈ cs, c.1 = w.1) ∧ (cs.map Prod.fst).Nodup ∧
    ∀ q : Place, (q.skip → s.thr.supervisor = true) →
      t.seen q = cs.foldl (fun b c => q.newByte s.thr.vlen c.1 c.2 b) (s.seen q)

/-- Issued stores but for what R259 notes of reads among them. -/
def bare (l : List PendStore) : List PendStore := l.map fun p => { p with reads := [], after := [] }

/-- The machine after a vector load, but for the registers it writes: a choice among free ones is used up, the issued stores that the
load comes after have been performed, and the others wait on, with the order that R259 gives them beside the reads. -/
def readBy (s t : State) : State :=
  { s with freeCtr := t.freeCtr, mem := t.mem, homes := t.homes, badMem := t.badMem, thr := { s.thr with sq := t.thr.sq } }

/-- The issued stores that `l` marks have been performed, and the thread sees what it saw (R261); errors are cleared at most. -/
def tookIn (s t : State) (l : List (PendStore × Bool)) : Prop :=
  s.marks l ∧ t.mem = (s.afterStores l).mem ∧ bare t.thr.sq = bare (s.afterStores l).thr.sq ∧
    ∀ g, Assoc.get? t.badMem g = Assoc.get? s.badMem g ∨ Assoc.get? t.badMem g = none

/-- A completed vector load that changes the vector registers and FCSR alone. -/
def loadDone (s t : State) (l : List (PendStore × Bool)) : Prop := (readBy s t).vecDone t ∧ tookIn s t l

/-- What a vector store leaves of the machine: its issued stores, its windows and its count of stores may change, errors in
the context save area may be cleared, and a choice among free ones is used up. -/
def storedOnly (s t : State) : Prop :=
  ({ s with
      freeCtr := t.freeCtr
      badCsa := t.badCsa
      thr := { s.thr with sq := t.thr.sq, stores := t.thr.stores, localStore := t.thr.localStore, csa := t.thr.csa } } : State).vectorDone t id

/-- Elements of one field of a segment load under R120, and what R153 leaves alone. -/
def segmentResult (t u : Thread) (d p : Reg) (nf : Nat) (res : Nat → Nat → Nat) : Prop :=
  (∀ f < nf, ∀ i < t.vlmax, u.elem (d.toNat + f * t.grp) i t.sew =
    if i < t.vl then
      (if t.pbit p i then res f i % 2 ^ t.sew else if t.vtype.getLsbD 14 then 0 else t.elem (d.toNat + f * t.grp) i t.sew)
    else if t.vtype.getLsbD 13 then 0 else t.elem (d.toNat + f * t.grp) i t.sew) ∧
  ∀ r : Fin 32, (r.val < d.toNat ∨ d.toNat + nf * t.grp ≤ r.val) → u.v[r] = t.v[r]

/-- The address of field `f` of segment `i` (R153), and of byte `k` of MX segment `j` (R154). -/
def fieldAddr (t : Thread) (a : Reg) (nf : Nat) (e : ElemWidth) (i f : Nat) : Word :=
  t.xr a + BitVec.ofNat 64 ((i * nf + f) * elemBytes e)
def blockAddr (t : Thread) (a : Reg) (f : MxFmt) (j k : Nat) : Word := t.xr a + BitVec.ofNat 64 (j * mxBlockBytes f + k)

/-- The registers of the fields are legal and declared (R153). -/
def segmentOk (t : Thread) (d n : Reg) : Prop :=
  1 ≤ n.toNat ∧ n.toNat ≤ 7 ∧ d.toNat % t.grp = 0 ∧ d.toNat + (n.toNat + 1) * t.grp ≤ 32 ∧
    d.toNat + (n.toNat + 1) * t.grp ≤ t.hdr.vregs

/-- The segments of an MX instruction that are performed (R154). -/
def activeBlocks (t : Thread) (p : Reg) : List Nat := (List.range (t.vl / 32)).filter fun j => t.active p (32 * j)

/-- The number in `n` bytes from a place (R5). -/
def numberIn (m : Place → Byte) (pl : Place) : Nat → Nat
  | 0 => 0
  | n + 1 => (m pl).toNat + 256 * numberIn m (pl.plus 1) n

/-- Atomics at places, one after another: what memory then holds, and the old value of each (R167). -/
def swept (vlen n : Nat) (pl : Nat → Place) (new : Nat → Nat → Nat) : List Nat → (Place → Byte) → (Place → Byte) × (Nat → Nat)
  | [], m => (m, fun _ => 0)
  | i :: r, m =>
    let old := numberIn m (pl i) n
    let rest := swept vlen n pl new r fun q => q.newByte vlen (pl i) (bytesOf n (new i old)) (m q)
    (rest.1, fun j => if j = i then old else rest.2 j)

/-- R156, R167: what an element of `vamo` writes. -/
def vamoResult (o : VAmoOp) (u : Bool) (w old b : Nat) : Nat :=
  match o, u with
  | .swap, _ => b | .add, _ => (old + b) % 2 ^ w | .and, _ => old &&& b | .or, _ => old ||| b | .xor, _ => old ^^^ b
  | .min, true => min old b | .max, true => max old b
  | .min, false => if sext w old ≤ sext w b then old else b
  | .max, false => if sext w b ≤ sext w old then old else b

/-- R168: the conditions of `vwait`, on the value in memory and the element of vb. -/
def waitHolds (c : WaitCond) (w m b : Nat) : Bool :=
  match c with
  | .eq => decide (m = b) | .ne => decide (m ≠ b) | .lt => decide (sext w m < sext w b) | .ge => decide (sext w b ≤ sext w m)
  | .ltu => decide (m < b) | .geu => decide (b ≤ m)

/-- R169, R170: the operation of a churn window. -/
def churnResult (o : ChOp) (mode : RMode) (w x y : Nat) : Nat × Flags :=
  match o with
  | .add => ((x + y) % 2 ^ w, 0)
  | .min => (if sext w x ≤ sext w y then x else y, 0)
  | .max => (if sext w y ≤ sext w x then x else y, 0)
  | .fadd => (if w = 32 then Fmt.f32 else Fmt.f64).add mode x y

/-- A copy after the values of some elements, in order: the first one makes it (R170). -/
def copyAfter (o : ChOp) (mode : RMode) (w : Nat) : Option Nat → List Nat → Option Nat × Flags
  | c, [] => (c, 0)
  | none, v :: r => copyAfter o mode w (some v) r
  | some x, v :: r =>
    let y := churnResult o mode w x v
    let z := copyAfter o mode w (some y.1) r
    (z.1, y.2 ||| z.2)

/-- Lane and table index of element `i`, and the elements that update a copy (R170). -/
def copyKey (t : Thread) (a : Reg) (i : Nat) : Nat × Nat := (i % (t.vlen / 128), elem2At t a i)
def copyValues (t : Thread) (a b p : Reg) (k : Nat × Nat) : List Nat :=
  ((t.actives p).filter fun i => decide (copyKey t a i = k)).map fun i => elemAt t b i

/-- The copy that a window holds, as a number. -/
def copyIn (c : ChurnWin) (k : Nat × Nat) : Option Nat := (Assoc.get? c.copies k).map BitVec.toNat

/-- Copies by rising lane, and within a lane by rising index: the order in which `churn` folds them (R171). -/
def inLaneOrder (l : Assoc (Nat × Nat) Word) : Prop := l.Pairwise fun x y => x.1.1 < y.1.1 ∨ x.1.1 = y.1.1 ∧ x.1.2 < y.1.2

noncomputable def churnTable : List ((Reg → Reg → Reg → Instr) × ChOp) := [
  (.vchadd, .add), (.vchmin, .min), (.vchmax, .max), (.vchfadd, .fadd)]

/-- Copies folded into the table in order, and the flags (R171). -/
def foldedInto (vlen : Nat) (o : ChOp) (mode : RMode) (w : Nat) (pl : Nat → Place) :
    List ((Nat × Nat) × Word) → (Place → Byte) → (Place → Byte) × Flags
  | [], m => (m, 0)
  | (k, v) :: r, m =>
    let x := churnResult o mode w (numberIn m (pl k.2) (w / 8)) v.toNat
    let rest := foldedInto vlen o mode w pl r fun q => q.newByte vlen (pl k.2) (bytesOf (w / 8) x.1) (m q)
    (rest.1, x.2 ||| rest.2)

/-- A stream register with `n` elements that have arrived (R174, R175). -/
def streamHas (s : State) (q : Reg) (b : StreamBind) (n : Nat) : Prop :=
  q.toNat < 8 ∧ Assoc.get? s.thr.binds q.toNat = some b ∧ (b.pos + n) * b.bytes ≤ b.len ∧
    (b.pos + n) * b.bytes ≤ (s.arrived b).1

/-- Address of the `k`th next element of a stream (R173). -/
def streamAddr (b : StreamBind) (k : Nat) : Word := BitVec.ofNat 64 (b.base + (b.pos + k) * b.bytes)

/-- The binds of a thread after a stream has given `n` elements. -/
def streamAfter (t : Thread) (q : Reg) (b : StreamBind) (n : Nat) : Assoc Nat StreamBind :=
  Assoc.put t.binds q.toNat { b with pos := b.pos + n }

/-! ### Tiles and tethers -/

/-- A tile that an instruction may name: of the thread's width class and declared (R45, R49). -/
def tileNamed (t : Thread) (m : Reg) : Prop := m.toNat < classTiles t.cls ∧ m.toNat < 8 ∧ m.toNat < t.hdr.tiles

/-- The same, configured (R178). -/
def tileOk (t : Thread) (m : Reg) : Prop := tileNamed t m ∧ shapeCfg (t.shape m) = true

/-- A tile written in some elements: the others, the bits beyond a row's elements and the other tiles keep their values, and
its TDIRTY bit is set (R55, R178). -/
def tileWritten (t u : Thread) (m : Reg) (w : Nat → Nat → Option Nat) : Prop :=
  (∀ r < 64, ∀ c < t.tileC m, u.tileElem m r c = match w r c with
    | some v => v % 2 ^ t.tileT m
    | none => t.tileElem m r c) ∧
  (∀ k, t.tileT m * t.tileC m ≤ k % 512 → (u.tile m).testBit k = (t.tile m).testBit k) ∧
  (∀ r : Fin 8, r.val ≠ m.toNat → u.m[r] = t.m[r]) ∧
  u.tdirty = t.tdirty ||| BitVec.ofNat 8 (2 ^ m.toNat)

/-- Rows that a tile access moves (R180). -/
def tileRow (t : Thread) (m p : Reg) (r : Nat) : Prop := t.active p r = true ∧ r < t.tileRows m

/-- Where element (r, c) of a tile lies in memory (R180). -/
def tileAddr (t : Thread) (m a b : Reg) (r c : Nat) : Word :=
  t.xr a + BitVec.ofNat 64 r * t.xr b + BitVec.ofNat 64 (t.tileT m / 8 * c)

/-- After a store of several pieces the last one at a byte is stored, and every other byte that the thread can read is as it
was (R180). BPSKIP is apart (R373). -/
def storedInOrder (s t : State) (ws : List (Place × List Byte)) : Prop :=
  ∀ q : Place, (q.skip → s.thr.supervisor = true) →
    t.seen q = ws.foldl (fun b w => q.newByte s.thr.vlen w.1 w.2 b) (s.seen q)

/-- A vector instruction that changes tiles, TDIRTY and FCSR alone. -/
def tileDone (s t : State) : Prop := s.vectorDone t fun u => { u with m := t.thr.m, tdirty := t.thr.tdirty, fcsr := t.thr.fcsr }

/-- The configuration of a tile changed: its entry, its contents zero, its TDIRTY bit clear, and, outside a handler, its saved
image discarded; all else as it was (R55, R179). -/
def tileShaped (s t : State) (m : Reg) (e : BitVec 16) : Prop :=
  ({ s with thr := { s.thr with csa := t.thr.csa } } : State).vectorDone t (fun u => { u with
    tshape := u.tshape.setIfInBounds m.toNat e, m := u.m.setIfInBounds m.toNat 0,
    tdirty := u.tdirty &&& ~~~(BitVec.ofNat 8 (2 ^ m.toNat)) }) ∧
  ∀ o, (isSkip o → s.thr.supervisor = true) → t.thr.csa.byte o =
    if s.thr.supervisor = false ∧ 0x12000 + 4096 * m.toNat ≤ o ∧ o < 0x12000 + 4096 * m.toNat + 4096 then 0 else s.thr.csa.byte o

/-- The element moves with a tile's row or column (R181): `true` a row. -/
noncomputable def tileToVectorTable : List ((Reg → Reg → Reg → Reg → Instr) × Bool) := [(.tmvrv, true), (.tmvcv, false)]
noncomputable def vectorToTileTable : List ((Reg → Reg → Reg → Reg → Instr) × Bool) := [(.tmvvr, true), (.tmvvc, false)]

/-- R182: the types of tile and the widths of sources that `touter` takes. -/
def outerTypes (ty sew2 : Nat) (h16 : Bool) : Prop :=
  (ty = 1 ∧ sew2 = 8) ∨ (ty = 2 ∧ sew2 ≤ 32) ∨ ty = 3 ∨ (ty = 4 ∧ sew2 = 16 ∧ h16 = false) ∨ (ty = 5 ∧ sew2 = 16 ∧ h16 = true) ∨
    (ty = 6 ∧ (sew2 = 16 ∨ sew2 = 32)) ∨ (ty = 7 ∧ (sew2 = 32 ∨ sew2 = 64))

/-- R182: element (r, c) after `touter`, with its flags. -/
def outerAt (t : Thread) (d a b : Reg) (r c : Nat) : Nat × Flags :=
  if shapeType (t.shape d) < 4 then
    (wrap t.sew (t.tileElem d r c + sext t.sew2 (elem2At t a r) * sext t.sew2 (elem2At t b c)), 0)
  else t.fmt.fmaVal t.vfrm (t.fmt2.unpack (elem2At t a r)) (t.fmt2.unpack (elem2At t b c)) (t.fmt.unpack (t.tileElem d r c))

/-- The operands of an issue: the triple that xA names, and the layout below VL (R184). -/
structure Issued where
  src : Word
  dst : Word
  ctl : Word
  dims : List (BitVec 40 × BitVec 24)

def issuedBy (t : Thread) (a b : Reg) : Issued := ⟨t.xr a, t.xr (a + 1), t.xr (a + 2), t.layout b⟩

/-- Signed stride and extent of dimension `d`. -/
def Issued.stride (i : Issued) (d : Nat) : Int := ((i.dims[d]?.getD (0, 0)).1).toInt
def Issued.extent (i : Issued) (d : Nat) : Nat := ((i.dims[d]?.getD (0, 0)).2).toNat

/-- R185: a COPY that issues. -/
def copyIssues (i : Issued) : Prop :=
  let e := 2 ^ (i.ctl.toNat / 16 % 4)
  i.ctl.getLsbD 6 = false ∧ (i.ctl.getLsbD 7 = false → bitsAt i.ctl.toNat 8 24 = 0) ∧ 1 ≤ i.dims.length ∧ i.dims.length ≤ 4 ∧
  i.src.toNat % e = 0 ∧ i.dst.toNat % e = 0 ∧ (∀ x ∈ i.dims, x.1.toInt % e = 0) ∧
  e * (i.dims.map fun x => x.2.toNat).prod ≤ 2 ^ 40

/-- R186: a BLOAD that issues; `w` is the width of its source format, as R282 has it. -/
def bloadIssues (i : Issued) : Prop :=
  let f := i.ctl.toNat % 32
  let sl := i.ctl.toNat / 32 % 8 + 1
  let mx := i.ctl.getLsbD 8
  bitsAt i.ctl.toNat 26 38 = 0 ∧ bitsAt i.ctl.toNat 9 9 = 0 ∧ f ≤ 10 ∧ (f ≤ 1 → sl = 1) ∧ (mx = true → f ≠ 1 ∧ f ≤ 6) ∧
  i.dims.length = 2 ∧
  (srcBits f < 8 ∨ mx = true → i.stride 0 = 0 ∧ i.extent 0 * srcBits f % 8 = 0 ∧ (mx = true → i.extent 0 % 32 = 0)) ∧
  (8 ≤ srcBits f ∧ mx = false → i.src.toNat % (srcBits f / 8) = 0 ∧ i.stride 0 % (srcBits f / 8 : Nat) = 0 ∧
    i.stride 1 % (srcBits f / 8 : Nat) = 0) ∧
  i.extent 0 * sl ≤ 4096 ∧ i.dst.toNat + i.extent 1 ≤ 2048

/-- R187: an MMA that issues; bytes of an element of C by CFMT. -/
def mmaIssues (i : Issued) : Prop :=
  let acls := bitsAt i.ctl.toNat 11 2
  let cf := bitsAt i.ctl.toNat 16 4
  bitsAt i.ctl.toNat 25 39 = 0 ∧ bitsAt i.ctl.toNat 13 3 = 0 ∧ bitsAt i.ctl.toNat 22 3 ≤ 4 ∧ bitsAt i.ctl.toNat 20 2 ≤ 1 ∧
  cf ≤ 4 ∧ acls ≤ 2 ∧ (acls < 2 → cf ≤ 2) ∧ (acls = 2 → cf ≠ 0) ∧ i.dims.length = 2 ∧
  i.dst.toNat % mmaCsize i.ctl = 0 ∧ i.stride 1 % (mmaCsize i.ctl : Nat) = 0 ∧ i.ctl.toNat % 2048 + i.extent 1 ≤ 2048

/-- R188: a COLL that issues. -/
def collIssues (s : State) (i : Issued) : Prop :=
  bitsAt i.ctl.toNat 40 24 = 0 ∧ bitsAt i.ctl.toNat 13 3 = 0 ∧ bitsAt i.ctl.toNat 10 3 ≤ 4 ∧ bitsAt i.ctl.toNat 6 4 ≤ 5 ∧
  bitsAt i.ctl.toNat 4 2 ≤ 2 ∧ i.ctl.toNat % 16 ≤ 3 ∧ (i.ctl.toNat % 16 ≠ 3 → bitsAt i.ctl.toNat 28 12 = 0) ∧
  1 ≤ i.dims.length ∧ i.dims.length ≤ 4 ∧ s.psetOk s.thr.key.part (bitsAt i.ctl.toNat 16 12) = true

/-- The four issues, with their kind, capabilities and conditions (R185 to R188). -/
noncomputable def issueTable : List ((Reg → Reg → Reg → BitVec 3 → Bool → Instr) × TKind × (Issued → List Nat) ×
    (State → Issued → Prop)) := [
  (.copy, .copy, fun _ => [17], fun _ => copyIssues),
  (.bload, .bload, fun i => [if i.ctl.toNat % 32 = 0 then 13 else if i.ctl.toNat % 32 = 1 then 14 else 15], fun _ => bloadIssues),
  (.mma, .mma, fun i => (13 + bitsAt i.ctl.toNat 11 2) :: (if bitsAt i.ctl.toNat 16 4 = 2 then [16] else []), fun _ => mmaIssues),
  (.coll, .coll, fun _ => [18], collIssues)]

/-- Predecessors of the thread's record that still name tethers of its process (R193). -/
def recordedPreds (s : State) : List Word :=
  match s.thr.preds with
  | none => []
  | some (x, y) => [x, y].filter fun w => (s.myTether? w).isSome

/-- No queued tether, and none that the record would make, waits behind a failed one (R193 ends such a tether at once). -/
def noBrokenPred (s : State) : Prop :=
  (∀ t ∈ s.tethers, t.state = .queued → ∀ p ∈ t.preds, ∀ q, s.tether? t.part t.proc p = some q → tetherFailed q = false) ∧
  ∀ p ∈ recordedPreds s, ∀ q, s.myTether? p = some q → tetherFailed q = false

/-- The machine without a tether: its entry is free under the next generation, and bindings of a COPY keep what had arrived
(R176, R272). -/
def withoutTether (s : State) (y : Tether) : State :=
  { s with tethers := s.tethers.filter fun u => decide (tetherToken u ≠ tetherToken y),
           gens := Assoc.put s.gens (y.die, y.index) (if y.gen = 0xFFFF then 1 else y.gen + 1),
           thr := freezeBinds y s.thr, others := s.others.map (freezeBinds y) }

/-- State codes of R183. -/
def stateCode : TState → Word | .queued => 0 | .running => 1 | .done => 2 | .faulted => 3 | .cancelled => 4

/-- The process of the thread with another count of reel slots (R278). -/
def withReel (s : State) (n : Nat) : State := s.setThrPr { s.thrPr with reel := n }

/-- Codes of the kinds (R183) and of the causes (R190). -/
def kindCode : TKind → BitVec 4 | .kernel => 0 | .mma => 1 | .bload => 2 | .copy => 3 | .coll => 4
def recordedCause : TCause → BitVec 4
  | .none => 0 | .xlate => 1 | .protect => 2 | .align => 3 | .bounds => 4 | .dataErr => 5 | .format => 6 | .residue => 7 | .peer => 8
  | .pred => 9 | .cancel => 10

/-- What the end of a tether may change besides: QUEUED tethers behind a failed one are CANCELLED with PRED; a COPY whose channel was
saved goes on; a channel is kept, and a saved one returns or is given up; bursts that wait in ports go; entries join the fault FIFO. -/
def endsBeside (s t : State) (tok : Word) : Prop :=
  t.tethers.map tetherToken = s.tethers.map tetherToken ∧
  (∀ x ∈ t.tethers, tetherToken x ≠ tok → ∃ y ∈ s.tethers, tetherToken y = tetherToken x ∧
    (x = { y with suspended := x.suspended } ∨ y.state = .queued ∧ x.state = .cancelled ∧ x.cause = .pred)) ∧
  (t.ports.map fun e => (e.1, { e.2 with reseq := [] })) = s.ports.map (fun e => (e.1, { e.2 with reseq := [] })) ∧
  (∀ c, t.core c = { s.core c with channels := (t.core c).channels }) ∧
  ∀ n, t.part n = { s.part n with
    savedChannels := (t.part n).savedChannels, fifo := (t.part n).fifo, fifoWait := (t.part n).fifoWait }

/-- What `tstat` reads of a tether by selector, the fields of selector 0 from the highest down (R190). -/
def statField (y : Tether) : Nat → Word
  | 0 => (recordedCause y.cause ++ kindCode y.kind ++ BitVec.ofBool y.detached ++ y.prio ++ BitVec.ofBool y.delivered ++
      (stateCode y.state).truncate 3).zeroExtend 64
  | 1 => BitVec.ofNat 64 y.progress | 2 => y.addr | 3 => y.flags.zeroExtend 64
  | 4 => BitVec.ofNat 64 y.clamps | _ => BitVec.ofNat 64 y.node

/-! ### The fabric -/

/-- The binding of a slot of the thread's process (R196). -/
def slotOf (s : State) (n : Nat) : FabricSlot := Assoc.getD (s.proc s.thr.key.part s.thr.key.proc).fabric n ⟨none, 0⟩

/-- The machine with a slot of the thread's process bound or unbound. -/
def withSlot (s : State) (n : Nat) (b : FabricSlot) : State :=
  s.setProc s.thr.key.part s.thr.key.proc
    { s.proc s.thr.key.part s.thr.key.proc with fabric := Assoc.put (s.proc s.thr.key.part s.thr.key.proc).fabric n b }

/-- Cores differ in their planes alone, and planes of other bindings, or in use, stay. -/
def planesOnly (s t : State) (n : Nat) : Prop :=
  ∀ c, t.core c = { s.core c with planes := (t.core c).planes } ∧
    ∀ e ∈ (s.core c).planes, (s.core c).busyPlane e.1 = true ∨ e.2.part ≠ s.thr.key.part ∨ e.2.proc ≠ s.thr.key.proc ∨
      e.2.slot ≠ n → e ∈ (t.core c).planes

/-- The registers of a `fop` (R200): at SEW 32 or 64, outside a handler, with a destination that meets no source. -/
def fopOk (t : Thread) (d a b p : Reg) : Prop :=
  t.supervisor = false ∧ 32 ≤ t.sew ∧ t.groupOk d ∧ t.groupOk a ∧ t.groupOk b ∧ t.predOk p ∧
  (d.toNat + t.grp ≤ a.toNat ∨ a.toNat + t.grp ≤ d.toNat) ∧ (d.toNat + t.grp ≤ b.toNat ∨ b.toNat + t.grp ≤ d.toNat)

/-- The plane of a core that holds the thread's binding of a slot (R298). -/
def planeOf (s : State) (n : Nat) : Option Nat :=
  (s.core s.thr.core).resident s.thr.key.part s.thr.key.proc n (slotOf s n).gen

/-- The two forms of `fop`: whether stream 1 has length VLB. -/
noncomputable def fopTable : List ((Reg → Reg → Reg → Reg → BitVec 4 → Instr) × Bool) := [(.fop, false), (.fopVlb, true)]

/-- The thread that has the turn runs `r` on its core, and no store of the run is held. -/
def runsHere (s : State) (r : FabricRun) : Prop :=
  s.thr.live = true ∧ (s.core s.thr.core).run = some r ∧ r.thread = s.thr.key ∧ r.stores = []

/-- The machine with the run of the thread's core replaced. -/
def withRun (s : State) (r : Option FabricRun) : State := s.setCore s.thr.core { s.core s.thr.core with run := r }

/-- Element `f` fires: the run becomes `q`, and event counters may count it. -/
def firesTo (s : State) (f : Nat) (q : FabricRun) : Prop :=
  ∃ t, exec (.feFire s.thr.core f) s = .next t ∧ t = { withRun s (some q) with thr := { s.thr with evcnt := t.thr.evcnt } }

/-- Element `f` meets a stop event and does not fire. -/
def meets (s : State) (f : Nat) (r : FabricRun) (e : FabricEvent) : Prop :=
  e ∉ r.events → exec (.feFire s.thr.core f) s = .next (withRun s (some (r.event e)))

/-- The fixed-rate operations that only compute (R209). -/
def computing : List Nat := [1, 2, 5, 6, 7, 8, 9, 10, 11, 12, 13, 14, 15, 16, 17, 18, 19, 20, 21, 22, 23]

/-- What the tokens of a firing derive from. -/
def sources (toks : List Token) : List Source := joinSrc (toks.map Token.src)

/-- R211: the running value with one more token added, and the flags of the addition. -/
def addedTo (e : Fe) (mode : RMode) (v : RunVal) (w : Word) : RunVal × Flags :=
  if e.op = 25 then
    let x := Fmt.f32.add mode (v.val.toNat % 2 ^ 32) (w.toNat % 2 ^ 32)
    (⟨BitVec.ofNat 64 x.1, true, v.k⟩, x.2)
  else (⟨writeAs e.ty (readAs e.ty v.val.toNat + readAs e.ty w.toNat), true, v.k⟩, 0)

/-- R211: `acc` and `facc` on data tokens, the first of them `w`, and at the end of their streams. -/
def accData (mode : RMode) (r : FabricRun) (f : Nat) (w : Word) (cut : Bool) (src : List Source) : FabricRun :=
  let x := addedTo (r.fe f) mode (r.val f) w
  let p := { r.popAll f (r.fe f).slots with flags := r.flags ||| x.2 }
  if cut then (p.setVal f src (r.fe f).initVal).send f (some x.1.val) src else p.setVal f src x.1
def accEnd (r : FabricRun) (f : Nat) (src : List Source) : FabricRun :=
  let p := r.popAll f (r.fe f).slots
  ((if bit (r.fe f).flags 1 = false ∨ (r.val f).added = true then p.send f (some (r.val f).val) src else p).setVal f src
    (r.fe f).initVal).send f none src

/-- R209: `count` on a data token, and at the end of its stream. -/
def countData (r : FabricRun) (f : Nat) (src : List Source) : FabricRun :=
  ((r.pop f 0).setVal f src { r.val f with k := (r.val f).k + 1 }).send f (some (writeAs (r.fe f).ty ((r.val f).k : Int))) src
def countEnd (r : FabricRun) (f : Nat) (src : List Source) : FabricRun :=
  (if bit (r.fe f).cond 0 then (r.pop f 0).send f (some (writeAs (r.fe f).ty ((r.val f).k : Int))) src else r.pop f 0).send f none src

/-- R210: `filter` and `gate` on a value and a predicate; a value for a target that is not valid goes nowhere. -/
def filtered (r : FabricRun) (f : Nat) (w c : Word) (src : List Source) : FabricRun :=
  let yes := truthAs (r.fe f).ty c.toNat
  if (r.fe f).op = 31 then
    match tgtOf (if yes then (r.fe f).tgtA else (r.fe f).tgtB) with
    | some g => (r.popAll f [0, 2]).sendTo (some w) src [g]
    | none => (r.popAll f [0, 2]).drop src
  else if yes then (r.popAll f [0, 2]).send f (some w) src else (r.popAll f [0, 2]).drop src

/-- R210: `merge` and `isect` on two tokens, one of data at least. -/
def merged (r : FabricRun) (f : Nat) (a b : Token) : FabricRun :=
  let less (x y : Word) : Bool := decide (readAs (r.fe f).ty x.toNat < readAs (r.fe f).ty y.toNat)
  let same (x y : Word) : Bool := decide (readAs (r.fe f).ty x.toNat = readAs (r.fe f).ty y.toNat)
  match a.data, b.data with
  | some x, some y =>
    if (r.fe f).op = 29 then
      if same x y then (r.popAll f [0, 1]).send f (some x) (sources [a, b])
      else if less x y then (r.pop f 0).drop a.src else (r.pop f 1).drop b.src
    else if less y x then (r.pop f 1).send f (some y) b.src else (r.pop f 0).send f (some x) a.src
  | some x, none => if (r.fe f).op = 29 then (r.pop f 0).drop a.src else (r.pop f 0).send f (some x) a.src
  | none, some y => if (r.fe f).op = 29 then (r.pop f 1).drop b.src else (r.pop f 1).send f (some y) b.src
  | none, none => (r.popAll f [0, 1]).send f none (sources [a, b])

/-- R209: one firing of `dup`, of which `n` copies are due: the last takes the tokens. -/
def duplicated (r : FabricRun) (f n : Nat) (w : Word) (src : List Source) : FabricRun :=
  let p := if (r.val f).k < n then r.send f (some w) src else r.drop src
  if (r.val f).k + 1 < n then p.setVal f src { r.val f with k := (r.val f).k + 1 }
  else (p.setVal f src { r.val f with k := 0 }).popAll f [0, 1]

/-- R212: one step of an `agen` whose run has `n` of them: the last takes the tokens. -/
def stepped (r : FabricRun) (f n : Nat) (a : Nat) (src : List Source) : FabricRun :=
  let k := (r.val f).k
  let p := { r with steps := Assoc.put r.steps f (r.stepsOf f ++ [(⟨k, r.runOf f, src⟩ : AgenStep)]) }.send f
    (some (BitVec.ofNat 64 a + BitVec.ofInt 64 ((k : Int) * (sext 12 ((r.fe f).imm / 4096) * 2 ^ (r.fe f).cond))))
    [.step f (r.stepsOf f).length]
  if k + 1 < n then { p with vals := Assoc.put p.vals f { r.val f with k := k + 1 } }
  else { p with vals := Assoc.put p.vals f { r.val f with k := 0 }, runs := Assoc.put r.runs f (r.runOf f + 1) }.popAll f (r.fe f).slots

/-- The address, the bytes and the place of an access of a memory element (R213). -/
def memWidth (e : Fe) : Nat := if e.ty = 3 then 8 else 4
def memAddr (e : Fe) (a : Word) : Word := BitVec.ofInt 64 (readAs e.ty a.toNat)

/-- A memory element whose access is accepted (R206, R303): its turn in its chain has come. -/
def accepts (r : FabricRun) (f : Nat) : Prop := r.room f 1 = true ∧ r.chainTurn f = true

/-- The run once an element has taken its tokens for an access. -/
def issuedBy1 (r : FabricRun) (f : Nat) : FabricRun :=
  { r.popAll f (r.fe f).slots with issued := Assoc.put r.issued f (r.issuedOf f + 1) }

/-- The outputs that a stop keeps: those that derive only from what lies below its restart point (R306, R308). -/
def settledOutputs (s : State) (r : FabricRun) : List Nat :=
  (r.outs.filter fun o => o.2.all (FabricRun.restart s r).below).map Prod.fst

/-- The elements of vd that a stop leaves: those before the run, then the settled outputs, and above them what was there; registers
outside the group keep their values (R203, R308). -/
def outputsStand (s t : State) (r : FabricRun) : Prop :=
  (∀ i < s.thr.vlmax, t.thr.elem r.vd i s.thr.sew =
    if r.outBase ≤ i ∧ i < r.outBase + (settledOutputs s r).length then
      (settledOutputs s r)[i - r.outBase]?.getD 0 % 2 ^ s.thr.sew
    else s.thr.elem r.vd i s.thr.sew) ∧
  ∀ k : Fin 32, (k.val < r.vd ∨ r.vd + s.thr.grp ≤ k.val) → t.thr.v[k] = s.thr.v[k]

/-- R203: the causes of a failing access, as FFCAUSE numbers them; and FFCAUSE of a stop of a run. -/
def failTable : List (TrapCause × Nat) := [(.xlate, 1), (.protect, 2), (.align, 3), (.bounds, 4), (.dataErr, 5)]
def stopRecord (r : FabricRun) (cause : Nat) : Word := BitVec.ofNat 64 (2 ^ 63 + r.slot * 2 ^ 8 + cause)

/-- R201: `i` is the next element that an `in` of stream `c` presents. -/
def nextOf (s : State) (r : FabricRun) (c i : Nat) : Prop :=
  (if c = 0 then r.next0 else r.next1) ≤ i ∧
    ∀ j, (if c = 0 then r.next0 else r.next1) ≤ j → j < i → FabricRun.presents s r c j = false

/-- The run whose stream `c` goes on at `i`. -/
def seekTo (r : FabricRun) (c i : Nat) : FabricRun := if c = 0 then { r with next0 := i } else { r with next1 := i }

/-- R81: an element word: OP8, the two targets, IMM24, COND and TYPE, with FLAGS 0. -/
def elementWord (op a b imm cond ty : Nat) : Nat := op * 2 ^ 56 + a * 2 ^ 47 + b * 2 ^ 38 + imm * 2 ^ 14 + cond * 2 ^ 10 + ty * 2 ^ 8

/-- R81: a valid target: slot `q` (0 left, 1 right, 2 predicate, 3 port-out) of FE `f`. -/
def target (f q : Nat) : Nat := 2 ^ 8 + 4 * f + q

/-- R95: an image with a header and the words of some FEs; every other FE holds 0. -/
def imageOf (h : Nat) (l : List (Nat × Nat)) : List Word :=
  BitVec.ofNat 64 h :: (List.range 64).map fun f => BitVec.ofNat 64 (((l.find? fun e => e.1 = f).map Prod.snd).getD 0)

/-- An `in` of stream 0 with its targets, an `out` that sends nothing on, and an `eos` of the left slot. -/
def inWord (ty a b : Nat) : Nat := elementWord 3 a b 0 0 ty
def outWord (ty : Nat) : Nat := elementWord 4 0 0 0 0 ty
def eosWord : Nat := elementWord 36 0 0 0 0 0

/-- R198: graphs of a TYPE, a header and their code, none of which breaks an earlier rule: `in` at FE 0, `out` at FE 7, `eos` at
FE 9, and what else each family has. -/
def boundFamilies (ty : Nat) : List (List (Nat × Nat) × Nat) := [
  ([(0, inWord ty (target 7 3) (target 9 0)), (7, outWord ty), (9, eosWord)], 0),
  -- PLACE: the `out` or the `in` off the edge
  ([(0, inWord ty (target 18 3) (target 9 0)), (18, outWord ty), (9, eosWord)], 4),
  ([(27, inWord ty (target 7 3) (target 9 0)), (7, outWord ty), (9, eosWord)], 4),
  -- COUNT: no `eos`, two, no `in`, two of one stream, two `out`
  ([(0, inWord ty (target 7 3) 0), (7, outWord ty)], 5),
  ([(0, inWord ty (target 9 0) (target 10 0)), (9, eosWord), (10, eosWord)], 5),
  ([(7, outWord ty), (9, eosWord)], 5),
  ([(0, inWord ty (target 7 3) 0), (8, inWord ty (target 9 0) 0), (7, outWord ty), (9, eosWord)], 5),
  ([(0, inWord ty (target 7 3) (target 6 3)), (7, elementWord 4 (target 9 0) 0 0 0 ty), (6, outWord ty), (9, eosWord)], 5),
  -- TARGET: a slot that its consumer does not use, a port-out target of another FE, a used slot without a producer, no target at all
  ([(0, inWord ty (target 7 3) (target 9 1)), (7, outWord ty), (9, eosWord)], 6),
  ([(0, inWord ty (target 7 3) (target 9 3)), (7, outWord ty), (9, eosWord)], 6),
  ([(0, inWord ty (target 7 3) (target 9 0)), (7, outWord ty), (9, elementWord 36 0 0 0 1 0)], 6),
  ([(0, inWord ty 0 0), (7, outWord ty), (9, eosWord)], 6),
  -- RATE: two producers of a slot, a cycle
  ([(0, inWord ty (target 1 0) (target 9 0)), (1, elementWord 1 (target 9 0) 0 0 0 ty), (9, eosWord)], 7),
  ([(0, inWord ty (target 9 0) 0), (9, eosWord), (1, elementWord 1 (target 2 0) 0 0 0 ty), (2, elementWord 1 (target 1 0) 0 0 0 ty)], 7),
  -- CHAIN: an `ld` with its number that the header does not count
  ([(0, inWord ty (target 10 0) 0), (10, elementWord 34 (target 7 3) (target 9 0) 0x100 0 ty), (7, outWord ty), (9, eosWord)], 8)]

/-- R198, rule 7: two paths that meet again at an `add`, one through FE 10: `count`, or `acc`, which is marked V. -/
def meetingPaths (ty op : Nat) : List (Nat × Nat) := [
  (0, inWord ty (target 10 0) (target 11 0)), (10, elementWord op (target 11 1) 0 0 0 ty),
  (11, elementWord 5 (target 7 3) (target 9 0) 0 0 ty), (7, outWord ty), (9, eosWord)]

/-- R97: `in`, an `ld` whose IMM24 is given, `out` and `eos`. -/
def oneLoad (imm : Nat) : List (Nat × Nat) := [
  (0, inWord 3 (target 10 0) 0), (10, elementWord 34 (target 7 3) (target 9 0) imm 0 3), (7, outWord 3), (9, eosWord)]

/-- R198: what the binder answers, by the first rule that a graph breaks. -/
def binderCodes : Prop :=
  (∀ (h : Word) (l : List Word), l.length = 64 →
    (2 ^ 24 ≤ h.toNat ∨ h.toNat % 2 ^ 16 = 0 ∨ 8192 < h.toNat % 2 ^ 16 → bindCode (h :: l) = 1) ∧
    (h.toNat < 2 ^ 24 → h.toNat % 2 ^ 16 ≠ 0 → h.toNat % 2 ^ 16 ≤ 8192 →
      ((∃ w ∈ l, 37 * 2 ^ 56 ≤ w.toNat) → bindCode (h :: l) = 2) ∧
      ((∀ w ∈ l, w.toNat < 37 * 2 ^ 56) →
        (∃ w ∈ l, w.toNat < 2 ^ 56 ∧ w ≠ 0 ∨ 0 < w.toNat / 2 ^ 47 % 2 ^ 9 ∧ w.toNat / 2 ^ 47 % 2 ^ 9 < 2 ^ 8 ∨
          0 < w.toNat / 2 ^ 38 % 2 ^ 9 ∧ w.toNat / 2 ^ 38 % 2 ^ 9 < 2 ^ 8 ∨
          w.toNat / 2 ^ 56 = 32 ∧ (2 ^ 8 ≤ w.toNat / 2 ^ 47 % 2 ^ 9 ∨ 2 ^ 8 ≤ w.toNat / 2 ^ 38 % 2 ^ 9) ∨
          w.toNat / 2 ^ 56 = 36 ∧ 3 ≤ w.toNat / 2 ^ 10 % 2 ^ 4 ∨ 17 ≤ w.toNat / 2 ^ 56 ∧ w.toNat / 2 ^ 56 ≤ 23 ∧ w.toNat / 2 ^ 8 % 4 ≠ 2) →
        bindCode (h :: l) = 3))) ∧
  ∀ n, 0 < n → n ≤ 8192 → (∀ ty < 4, ∀ e ∈ boundFamilies ty, bindCode (imageOf n e.1) = e.2) ∧
    (∀ ty ∈ [0, 1, 3], bindCode (imageOf n (meetingPaths ty 26)) = 0 ∧ bindCode (imageOf n (meetingPaths ty 24)) = 7) ∧
    bindCode (imageOf (n + 2 ^ 16) (oneLoad 0x100)) = 0 ∧ bindCode (imageOf (n + 2 ^ 16) (oneLoad 0)) = 8 ∧
    bindCode (imageOf (n + 2 ^ 16) (oneLoad 0x102)) = 8

/-! ### Traps, system instructions and CSRs -/

/-- R363: the x registers of a handler at entry. -/
def handlerReg (r : Reg) : Word := if r = 2 then 0x1FFFFFFF80000 else if r = 4 then 0x1FFFFFFF60000 else 0

/-- R224: TSTEP of a trap: for MIGRATED the micro-step at which the thread left its core, else that of the deprecated instruction
under way, or 0. -/
def trapStepOf (s : State) (cause : Nat) : Nat :=
  if cause = 15 then s.thr.leftStep else match s.thr.micro with | some m => m.step | none => 0

/-- R357, R362, R373: what the CSA holds after a trap beside the victim's x registers and FCSR: the trap CSRs, and its other bytes as
they were but for the translation record of XLATE and PROTECT and for BPSKIP, which is cleared. -/
def trapArea (s t : State) (cause : Nat) : Prop :=
  (∀ e ∈ [(0x280, t.thr.tcause), (0x288, t.thr.tpc), (0x290, t.thr.tval), (0x298, t.thr.telem), (0x2A0, t.thr.tvcp),
    (0x2A8, t.thr.tstep)], t.thr.csa.load e.1 8 = e.2.toNat) ∧
  ∀ o, ¬(8 ≤ o ∧ o < 0x108) → ¬(0x280 ≤ o ∧ o < 0x2B0) → ¬((cause = 5 ∨ cause = 6) ∧ 0x268 ≤ o ∧ o < 0x278) →
    t.thr.csa.byte o = if 0x260 ≤ o ∧ o < 0x268 ∧ cause ≠ 15 ∧ (s.thr.csa.byte 0x260).getLsbD 0 = true then 0 else s.thr.csa.byte o

/-- R225, R363: the handler of the partition entered with a trap: the trap CSRs written, the victim's x registers and FCSR in
its CSA, the handler's own registers, every older vector instruction committed, and memory, the vector registers and every
other thread as they were. -/
def trapEntered (s t : State) (cause : Nat) (tpc tval telem : Word) : Prop :=
  t.thr.supervisor = true ∧ t.thr.claimed = false ∧ t.thr.life = .ready ∧
  t.thr.pc = (s.part s.thr.key.part).hentry &&& 0x1FFFFFFFFFFFC ∧
  (t.thr.tcause, t.thr.tpc, t.thr.tval, t.thr.telem) = (BitVec.ofNat 64 cause, tpc, tval, telem) ∧
  t.thr.tvcp &&& 0x7FFFFFFFFFFF0000 = 0 ∧ t.thr.tstep = BitVec.ofNat 64 (trapStepOf s cause) ∧
  (∀ r, t.thr.xr r = handlerReg r) ∧ t.thr.fcsr = s.thr.fcsr &&& 0xE0 ∧
  (∀ r : Reg, r ≠ 0 → BitVec.ofNat 64 (t.thr.csa.load (8 * r.toNat) 8) = s.xr r) ∧
  t.thr.csa.load 0x100 8 = s.thr.fcsr.toNat ∧ trapArea s t cause ∧
  (t.thr.v, t.thr.p, t.thr.m, t.thr.vl, t.thr.vtype, t.thr.vq) = (s.thr.v, s.thr.p, s.thr.m, s.thr.vl, s.thr.vtype, []) ∧
  t.mem = s.mem ∧ t.others = s.others ∧ t.cores = s.cores ∧ t.parts = s.parts

/-- The thread halted by a trap of its handler: off its core, with a HANDLER_FAULT entry of its cause and PC (R221, R351). -/
def haltedBy (s t : State) (cause : Nat) : Prop :=
  t.thr.life = .halted ∧ t.mem = s.mem ∧ t.others = s.others ∧
  ∃ e, (t.part s.thr.key.part).fifo ++ (t.part s.thr.key.part).fifoWait =
      (s.part s.thr.key.part).fifo ++ (s.part s.thr.key.part).fifoWait ++ [e] ∧
    e.w0.toNat % 256 = 2 ∧ e.w1 = s.thr.key.launch ∧ e.w2 = BitVec.ofNat 64 (s.thr.key.index % 2 ^ 24 + cause * 2 ^ 24) ∧
    e.w3 = s.thr.pc

/-- TVAL of a trap that reports an instruction: its word, or the prefix below the word of a pair (R79). -/
noncomputable def wordsOf (i : Instr) : Word :=
  match encode i with
  | [w] => w.zeroExtend 64
  | [p, w] => w ++ p
  | _ => 0

/-- The scalar instructions of the tables, and those beside them, with the capability that each requires (R71). -/
def scalarNeeds (i : Instr) (c : Nat) : Prop :=
  (∃ e ∈ aluTable, ∃ d a b, i = e.1 d a b ∧ c = e.2.1) ∨
  (c = 1 ∧ ∃ d a b, i = .div d a b ∨ i = .divu d a b ∨ i = .rem d a b ∨ i = .remu d a b) ∨
  (c = 0 ∧ ((∃ d a, i = .clz d a ∨ i = .ctz d a ∨ i = .popc d a) ∨
    (∃ d a, ∃ n : BitVec 6, i = .shli d a n ∨ i = .shri d a n ∨ i = .srai d a n) ∨
    (∃ d a, ∃ l w : BitVec 6, l.toNat + (w.toNat + 1) ≤ 64 ∧ (i = .bfx d a l w ∨ i = .bfi d a l w)) ∨
    (∃ e ∈ immTable, ∃ d a, (∃ n, i = e.1 d a n) ∨ ∃ n, i = .lpxPair (.imm e.2.1 d a n)) ∨
    (∃ d, (∃ n, i = .li d n ∨ i = .addpc d n) ∨ ∃ n, i = .lpxPair (.li d n) ∨ i = .lpxPair (.addpc d n)) ∨
    (∃ e ∈ loadTable, ∃ d a k, (∃ o, i = e.1 d a k o) ∨ ∃ o, i = .lpxPair (.load e.2.1 d a k o)) ∨
    (∃ e ∈ storeTable, ∃ d a k, (∃ o, i = e.1 d a k o) ∨ ∃ o, i = .lpxPair (.store e.2.1 d a k o)) ∨
    (∃ e ∈ branchTable, ∃ a b, (∃ o, i = e.1 a b o) ∨ ∃ o, i = .lpxPair (.branch e.2.1 a b o)) ∨
    (∃ o, i = .jal o ∨ i = .jump o) ∨ (∃ o, i = .lpxPair (.jal o) ∨ i = .lpxPair (.jump o)) ∨
    ∃ d a, (∃ n, i = .jalr d a n) ∨ ∃ n, i = .lpxPair (.jalr d a n))) ∨
  (c = 2 ∧ ((∃ e ∈ fpArithTable, ∃ d a b p m, i = e.1 d a b p m) ∨ (∃ e ∈ fpPlainTable, ∃ d a b p, i = e.1 d a b p) ∨
    ∃ d a p, i = .fclass d a p ∨ (∃ m, i = .fsqrt d a p m) ∨ (∃ b m, i = .fma d a b p m) ∨
      ∃ k m, k.toNat ≤ 12 ∧ i = .fcvt d a k p m)) ∨
  (c = 22 ∧ ((∃ e ∈ atomicTable, ∃ d a b q l z k, i = e.1 d a b q l z k) ∨ (∃ d a z k, i = .ldaq d a z k) ∨
    ∃ a b z k, i = .strl a b z k))

/-- The vector instructions of the tables with legal declared operands in a thread, and the capability that each requires. -/
def vectorNeeds (t : Thread) (i : Instr) (c : Nat) : Prop :=
  (∃ e ∈ vectorIntegerRows ++ vectorMoveRows ++ vectorFloatRows ++ vectorConversionRows ++ vectorResidueRows ++ permuteRows,
    ∃ d a b p, i = e.make d a b p ∧ c = e.cap t ∧ t.groupOk d ∧ t.predOk p ∧ e.ok t d a b) ∨
  (∃ e ∈ compareRows ++ predicateRows, ∃ d a b p, i = e.make d a b p ∧ c = e.cap t ∧ t.predDestOk d ∧ t.predOk p ∧ e.ok t a b) ∨
  (∃ e ∈ vectorLoadRows ++ vectorStoreRows, ∃ d a b p k w, i = e.make d a b p k w ∧ c = e.cap ∧ t.groupOk d ∧ t.predOk p ∧
    8 * elemBytes w ≤ t.sew ∧ (e.indexed = true → t.secondOk b))

/-- A thread fenced off its core: pre-empted with the trap CSRs of FENCED, never to return there, and no handler entered (R397). -/
def fencedOff (s t : State) (c : Nat) : Prop :=
  t.thr.life = .preempted ∧ t.thr.avoid = s.thr.core :: s.thr.avoid ∧ t.thr.supervisor = false ∧
  (t.thr.tcause, t.thr.tpc, t.thr.tval, t.thr.tstep) = (3, s.thr.pc, BitVec.ofNat 64 c, BitVec.ofNat 64 (trapStepOf s 3)) ∧
  (t.thr.x, t.thr.v, t.thr.p, t.thr.m, t.thr.pc) = (s.thr.x, s.thr.v, s.thr.p, s.thr.m, s.thr.pc) ∧
  t.mem = s.mem ∧ t.others = s.others

/-- A register of a vector unit as bytes of the CSA (R362). -/
def bytesAre (m : Memory) (o n v : Nat) : Prop := ∀ i < n, (m.byte (o + i)).toNat = v / 256 ^ i % 256

/-- The bytes of a register of the vector unit in the CSA, as a number (R362). -/
def savedV (t : Thread) (r : Nat) : Nat := t.csa.load (0x2000 + 2048 * r) (t.vlen / 8)
def savedP (t : Thread) (r : Nat) : Nat := t.csa.load (0x400 + 256 * r) 256 % 2 ^ (t.vlen / 8)
def savedM (t : Thread) (m : Nat) : Nat := t.csa.load (0x12000 + 4096 * m) 4096

/-- The vector state of a thread as its CSA holds it (R217, R366, R418): registers, predicates but p0, configured tiles, VTYPE,
VL and VLB at most VLMAX, TDIRTY, and TSHAPE for the tiles that its class has, bit 14 reading 0. -/
def vectorRestored (t u : Thread) : Prop :=
  (∀ r : Fin 32, u.v[r] = BitVec.ofNat 16384 (savedV t r.val)) ∧
  (∀ r : Fin 24, r.val ≠ 0 → u.p[r] = BitVec.ofNat 2048 (savedP t r.val)) ∧
  (∀ m : Fin 8, u.m[m] = if u.tshape[m].getLsbD 15 then BitVec.ofNat 32768 (savedM t m.val) else 0) ∧
  u.vtype.toNat = t.csa.load 0x130 8 % 2 ^ 16 ∧ u.tdirty.toNat = t.csa.load 0x148 8 % 256 ∧
  u.vl = min (t.csa.load 0x120 8) (vlmaxOf u.vtype t.vlen) ∧ u.vlb = min (t.csa.load 0x128 8) (vlmaxOf u.vtype t.vlen) ∧
  (∀ m : Fin 8, u.tshape[m] = if m.val < classTiles t.cls then BitVec.ofNat 16 (t.csa.load (0x138 + 2 * m.val) 2) &&& 0xBFFF else 0) ∧
  (∀ o, ¬(0x118 ≤ o ∧ o < 0x120) → u.csa.byte o = t.csa.byte o) ∧ u.csa.load 0x118 8 = t.csa.load 0x118 8 % 2

/-- R61: CSRs whose read waits for older vector instructions. -/
def waitingCsrs : List Nat := [0, 1, 2, 3, 4, 8, 9, 10, 0x20, 0x21, 0x28, 0x29, 0x2A, 0x2B, 0x2C, 0x2D, 0x2E, 0x2F]

/-- The four TSHAPE entries of a half, the lowest tile lowest (R54). -/
def shapesWord (t : Thread) (b : Nat) : Word :=
  BitVec.ofNat 64 ((t.tshape[b]?.getD 0).toNat + 2 ^ 16 * (t.tshape[b + 1]?.getD 0).toNat +
    2 ^ 32 * (t.tshape[b + 2]?.getD 0).toNat + 2 ^ 48 * (t.tshape[b + 3]?.getD 0).toNat)

/-- R58: CSRs that user code reads, with their values. -/
def userCsrs : List (BitVec 12 × (State → Word)) := [
  (0x000, fun s => s.thr.fcsr.zeroExtend 64), (0x001, fun s => BitVec.ofNat 64 s.thr.vl),
  (0x002, fun s => BitVec.ofNat 64 s.thr.vlb), (0x003, fun s => s.thr.vtype.zeroExtend 64),
  (0x004, fun s => BitVec.ofNat 64 s.thr.vlmax), (0x005, fun s => BitVec.ofNat 64 (s.thr.vlen / 128)),
  (0x006, fun s => BitVec.ofNat 64 (s.thr.cls % 4 + 2 ^ 8 * (s.thr.vlen / 256))),
  (0x010, fun s => BitVec.ofNat 64 (if s.thr.key.launch = 0 then 0 else s.thr.key.index)),
  (0x007, fun s => BitVec.ofNat 64 s.thr.mcols), (0x008, fun s => shapesWord s.thr 0), (0x009, fun s => shapesWord s.thr 4),
  (0x00A, fun s => s.thr.tdirty.zeroExtend 64), (0x011, fun s => s.thr.key.launch), (0x012, fun s => s.thr.prio.zeroExtend 64),
  (0x013, fun _ => 3), (0x014, fun s => s.thr.fver), (0x015, fun s => s.thr.capmask.zeroExtend 64),
  (0x016, fun s => s.thr.hdr.usemask), (0x020, fun s => s.thr.ffcause), (0x021, fun s => s.thr.ffaddr),
  (0x028, fun s => s.thr.ffidx[0]), (0x029, fun s => s.thr.ffidx[1]), (0x02A, fun s => s.thr.ffidx[2]),
  (0x02B, fun s => s.thr.ffidx[3]), (0x02C, fun s => s.thr.ffidx[4]), (0x02D, fun s => s.thr.ffidx[5]),
  (0x02E, fun s => s.thr.ffidx[6]), (0x02F, fun s => s.thr.ffidx[7])]

/-- R53, R58: CSRs of supervisor code alone, with their values. -/
def supervisorCsrs : List (BitVec 12 × (State → Word)) := [
  (0x040, fun s => s.thr.tcause), (0x041, fun s => s.thr.tpc), (0x042, fun s => s.thr.tval), (0x043, fun s => s.thr.telem),
  (0x044, fun s => s.thr.tvcp), (0x045, fun s => s.thr.tstep)]

/-- CWMARK, CWBASE and CWLEN of a channel, 0 unless it is FILLING or KEPT for the process of the thread (R56). -/
def channelField (s : State) (n : Nat) (f : Channel → Nat) : Word :=
  match Assoc.get? (s.core s.thr.core).channels n with
  | some c => if c.state ≠ .idle ∧ c.part = s.thr.key.part ∧ c.proc = s.thr.key.proc then BitVec.ofNat 64 (f c) else 0
  | none => 0

/-- Sources of events whose counts do not depend on time or on caches (R403). -/
def plainSource (e : BitVec 9) : Prop := e.toNat % 256 ∉ ([1, 4, 5, 6, 7, 8, 9, 10, 15] : List Nat)

/-- R58, R59: the numbers that a mode reads, and those that it writes. -/
def csrReadable (supervisor : Bool) (n : Nat) : Prop :=
  n ≤ 0x00A ∨ (0x010 ≤ n ∧ n ≤ 0x016) ∨ n = 0x020 ∨ n = 0x021 ∨ (0x028 ≤ n ∧ n ≤ 0x02F) ∨ (0x088 ≤ n ∧ n ≤ 0x08F) ∨
  (0x100 ≤ n ∧ n ≤ 0x12F) ∨ (supervisor = true ∧ ((0x040 ≤ n ∧ n ≤ 0x045) ∨ (0x080 ≤ n ∧ n ≤ 0x087)))
def csrWritable (supervisor : Bool) (n : Nat) : Prop :=
  n = 0x000 ∨ n = 0x012 ∨ n = 0x020 ∨ (supervisor = true ∧ ((0x040 ≤ n ∧ n ≤ 0x045) ∨ (0x080 ≤ n ∧ n ≤ 0x08F)))

/-- An illegal access of a CSR: the handler is entered in user mode, and a handler is halted (R59, R221). -/
def csrIllegal (s : State) (i : Instr) : Prop :=
  (s.thr.supervisor = false → ∃ t, exec i s = .next t ∧ trapEntered s t 1 s.thr.pc (wordsOf i) 0) ∧
  (s.thr.supervisor = true → s.thr.key.part < 16 → ∃ t, exec i s = .next t ∧ haltedBy s t 1)

/-- CSRs that can be written: whether supervisor code alone may, the value that is read, and the thread with the whole
register written (R24, R58, R59). -/
def writtenCsrs : List (BitVec 12 × Bool × (State → Word) × (Thread → Word → Thread)) := [
  (0x000, false, fun s => s.thr.fcsr.zeroExtend 64, fun t w =>
    { t with fcsr := if w.toNat / 32 % 8 < 5 then w.truncate 8 else (t.fcsr &&& 0xE0) ||| (w.truncate 8 &&& 0x1F) }),
  (0x012, false, fun s => s.thr.prio.zeroExtend 64, fun t w => { t with prio := if w.toNat % 8 ≤ t.launchPrio.toNat then w.truncate 3 else t.launchPrio }),
  (0x040, true, fun s => s.thr.tcause, fun t w => { t with tcause := w &&& 0xFF }),
  (0x041, true, fun s => s.thr.tpc, fun t w => { t with tpc := w }),
  (0x042, true, fun s => s.thr.tval, fun t w => { t with tval := w }),
  (0x043, true, fun s => s.thr.telem, fun t w => { t with telem := w }),
  (0x044, true, fun s => s.thr.tvcp, fun t w => { t with tvcp := w &&& 0x800000000000FFFF }),
  (0x045, true, fun s => s.thr.tstep, fun t w => { t with tstep := w })]

/-- The write forms with the value that they write (R222). -/
noncomputable def csrWriteForms : List ((Reg → Reg → BitVec 12 → Instr) × (Word → Word → Word)) := [
  (.csrw, fun _ x => x), (.csrset, fun old x => old ||| x), (.csrclr, fun old x => old &&& ~~~x)]

/-- The tether of a launch that passed, before its token is known (R219, R340). -/
def launched (s : State) (r : LaunchRecord) (o : ObjHeader) (h : Header) (i : Nat) : Tether :=
  let prio : BitVec 3 := if r.prio.toNat ≤ s.thr.launchPrio.toNat then r.prio else s.thr.launchPrio
  let deps := s.liveDeps s.thr.key.part s.thr.key.proc r
  { Tether.blank .kernel s.thr.key.part s.thr.key.proc s.thr.core.die s.thr.key s.thr.core with
    index := i, gen := Assoc.getD s.gens (s.thr.core.die, i) 1, arrival := s.clock, prio := prio, owner := some s.thr.key,
    preds := deps, launch := some (r.launch o h prio deps false) }

/-! ### Events of the device -/

/-- Only the live thread of a name has changed, and it is now `u`. -/
def oneThread (s t : State) (k : ThreadKey) (u : Thread) : Prop :=
  t = { s with thr := t.thr, others := t.others } ∧ t.thread? k = some u ∧ ∀ j ≠ k, t.thread? j = s.thread? j

/-- Only the tether of a token has changed, and it is now `y`. -/
def oneTether (s t : State) (tok : Word) (y : Tether) : Prop :=
  t = { s with tethers := t.tethers } ∧ t.tetherAny? tok = some y ∧ ∀ o ≠ tok, t.tetherAny? o = s.tetherAny? o

/-- A RUNNING tether of a partition that runs, with nothing that would end or suspend it at a boundary, and no owner that is about to
leave its core. -/
def atWork (s : State) (y : Tether) : Prop :=
  s.tetherAny? (tetherToken y) = some y ∧ y.state = .running ∧ y.suspended = false ∧ y.cancelling = false ∧ y.fenced = false ∧
  y.rowEnded = false ∧ (s.part y.part).run = true ∧ ∀ u ∈ s.threads, u.leaving = true → y.leftBy u = false

/-- The end of a tether brings no other change with it: its process is live, no burst waits in a port for it, no other tether waits
behind a failed one, and no partition has a channel in the shadow storage. -/
def endsAlone (s : State) (y : Tether) : Prop :=
  (s.proc y.part y.proc).live = true ∧ y.launch = none ∧ (∀ e ∈ s.ports, ∀ b ∈ e.2.reseq, b.1 ≠ tetherToken y) ∧
  (∀ z ∈ s.tethers, z.state = .queued → ∀ p ∈ z.preds, ∀ q, s.tether? z.part z.proc p = some q → tetherFailed q = false) ∧
  ∀ n < 16, (s.part n).savedChannels = []

/-- A tether that has become DONE with its progress (R183, R190). -/
def ended (y : Tether) (n : Nat) : Tether :=
  { y with state := .done, cause := .none, progress := n, work := [], packets := [], peerData := [] }

/-- The machine with device memory as `w` has it, which differs from `s` in nothing else. -/
def memoryOnly (s w : State) : Prop := w = { s with mem := w.mem, homes := w.homes, badMem := w.badMem }

/-- Bytes at a device-physical address, over what memory held. -/
def laid (m : Memory) (dpa : Nat) (bs : List Byte) (a : Nat) : Byte :=
  (if dpa ≤ a then bs[a - dpa]? else none).getD (m.byte a)

/-- A thread with a peer's answer, if its instruction awaits it, and with what the device holds of the same segment (R155, R380). -/
def answered (s : State) (u : Thread) (a : PeerAnswer) (near : List (Nat × Nat)) : Thread :=
  if u.awaits a then
    { u with peerData := u.peerData ++ a :: near.map fun d => ⟨a.pc, a.supervisor, 0, d.1, d.2, some (s.mem.bytes d.1 d.2)⟩ }
  else u

/-- The issued stores of a thread after a peer's answer for bytes of one of them (R155, R380). -/
def afterAnswer (u : Thread) (seq : Nat) (r : PeerReq) : List PendStore := u.sq.map (PendStore.answered seq r.dpa r.len)

/-- A request that a port carries: any on a mode-0 port, and reads and writes of a burst on a mode-1 port (R378, R381). -/
def carried (p : Port) (q : InboundReq) : Prop :=
  p.cfg = 2 ∨ p.cfg = 3 ∧ q.len ≤ 128 ∧ ∀ op cmp, q.kind ≠ .atomic op cmp

/-- Threads that a core or a partition asks to leave (R364, R376). -/
def asked (f : Thread → Bool) (u : Thread) : Thread :=
  if u.resident && f u && u.wish.isNone then { u with wish := some false } else u

/-- Every thread is as it was, but for those that `f` selects, which were asked to leave. -/
def leaveAsked (s t : State) (f : Thread → Bool) : Prop := ∀ k, t.thread? k = (s.thread? k).map (asked f)

/-- Only one partition's registers have changed. -/
def onePart (s t : State) (n : Nat) (p : Partition) : Prop :=
  t = { s with parts := t.parts } ∧ t.part n = p ∧ ∀ m ≠ n, t.part m = s.part m

/-- Every write of the thread block by the dispatcher of a die succeeds at home, whichever slot is chosen (R420). -/
def blocksWritable (s : State) (reader : Word) (die : Nat) (i : SpawnInfo) : Prop :=
  ∀ n, ∀ slot ∈ (s.proc i.key.part i.key.proc).freeSlots, ∃ w : State,
    State.dispatchWrite { s with freeCtr := n } reader die i.key
      (BitVec.ofNat 64 ((s.proc i.key.part i.key.proc).areaBase + slot * (s.proc i.key.part i.key.proc).slotSize))
      (wordsToBytes (threadBlock i (s.proc i.key.part i.key.proc)
        ((s.proc i.key.part i.key.proc).areaBase + slot * (s.proc i.key.part i.key.proc).slotSize))) = .ok w ∧
    w = { s with freeCtr := n, mem := w.mem, homes := w.homes, badMem := w.badMem }

/-- A thread as a spawn leaves it on a core (R228, R345, R350). -/
def started (s : State) (i : SpawnInfo) (c : CoreId) (lanes : List Nat) (slot : Nat) (v : Thread) : Prop :=
  v.key = i.key ∧ v.pc = BitVec.ofNat 64 i.pc ∧ v.life = .ready ∧ v.supervisor = false ∧ v.core = c ∧ v.lanes = lanes ∧
  v.vlen = 1024 * lanes.length ∧ v.hdr = i.hdr ∧ v.cls = i.hdr.width ∧ v.prio = i.prio ∧ v.slot = slot ∧ v.fver = s.dfver ∧
  v.vl = 0 ∧ v.vtype = 0 ∧ v.fcsr = 0 ∧
  ∀ r, v.xr r =
    if r = 2 then BitVec.ofNat 64 ((s.proc i.key.part i.key.proc).areaBase + slot * (s.proc i.key.part i.key.proc).slotSize +
      (s.proc i.key.part i.key.proc).slotSize)
    else if r = 3 then BitVec.ofNat 64 i.linkTable
    else if r = 4 then BitVec.ofNat 64 ((s.proc i.key.part i.key.proc).areaBase + slot * (s.proc i.key.part i.key.proc).slotSize)
    else 0

/-! ### Repairs, partitions, firmware and the machine as a whole -/

/-- Only one core has changed, and it is now `k`. -/
def oneCore (s t : State) (c : CoreId) (k : Core) : Prop :=
  t = { s with cores := t.cores } ∧ t.core c = k ∧ ∀ d ≠ c, t.core d = s.core d

/-- Column groups that a CORESTATE write names anew. -/
def newGroups (k : Core) (bits : BitVec 8) : List Nat :=
  (List.range 8).filter fun g => bits.getLsbD g && !k.cret.getLsbD g && !k.retiring.contains g

/-- A repair of a core: the device version advances, and the lifetime record, the flash and the repair log say so. -/
def repaired (s t : State) : Prop :=
  t = { s with cores := t.cores, dfver := t.dfver, lifetime := t.lifetime, flash := t.flash, repairs := t.repairs,
               dropped := t.dropped }

/-- An answer under the algorithms that the device offers (R409). -/
def offered (asym hash : BitVec 16) (a : SpdmAnswer) : SpdmAnswer := if asym = 1 ∧ hash = 2 then a else .unsupported

/-- The machine with an answer on the management port. -/
def withAnswer (s : State) (a : SpdmAnswer) : State := { s with firmware := { s.firmware with answer := a } }

/-- A read of a doubleword by the control complex (R374). -/
noncomputable def readOf (a : Nat) : Instr := .memoryAccessPerformed (.controlRead a 8)

/-- An outcome that goes on with only one partition's registers changed. -/
def goesPart (s : State) (o : Host.Outcome State Fault Refusal) (n : Nat) (p : Partition) : Prop := ∃ t, o = .next t ∧ onePart s t n p

/-- No thread of a partition is live, and no tether is its own. -/
def gonePart (t : State) (n : Nat) : Prop :=
  (∀ u ∈ t.threads, u.live = true → u.key.part ≠ n) ∧ ∀ y ∈ t.tethers, y.part ≠ n

/-- A device that runs, with nothing asked for: the next step is an instruction of a thread, if one can issue. -/
def quiet (s : State) : Prop :=
  s.agenda = [] ∧ s.off = false ∧ s.firmware.recovery = false ∧ s.settle.pulse < 64

/-- A word of an instruction that the thread can fetch from device memory (R63, R112). -/
def fetches (s : State) (a : Word) (w : BitVec 32) : Prop :=
  s.thrProc.textAt a.toNat = none ∧ ∃ d, s.accessible .fetch a 4 (.device d) ∧ s.badData s.thr (.device d) 4 = false ∧
    s.number (.device d) 4 = w.toNat

/-- What every step keeps: memories in canonical form; every thread's VLEN a legal number of lane groups, its VTYPE legal (R47,
R51); a thread that has claimed the vector unit is a handler (R217). -/
def Inv (s : State) : Prop :=
  s.canonical = true ∧ ∀ u ∈ s.threads, u.vlen % 1024 = 0 ∧ 1024 ≤ u.vlen ∧ u.vlen ≤ 16384 ∧ vtLegal u.vtype = true ∧
    (u.claimed = true → u.supervisor = true)

/-- Words written out from the formats of R64 and the codes of R71, with the instruction that each is. -/
noncomputable def wordTable : List (BitVec 32 × Instr) := [
  (0b000001_00011_00100_00101_00000000000, .add 3 4 5),
  (0b000010_00011_00100_1111111111111111, .addi 3 4 0xFFFF),
  (0b001100_00111_00000_1000000000000001, .li 7 0x8001),
  (0b001101_00011_00100_10_110_11111111111, .ldd 3 4 2 0x7FF),
  (0b001110_00011_00100_00_011_00000000010, .std 3 4 0 2),
  (0b001111_00001_00010_0000000000000100, .beq 1 2 4),
  (0b010101_00000000000000000000000010, .jal 2),
  (0b011010_00000_00000_00000_00000000000, .syscall),
  (0b100001_00010_00100_00110_00001_000000, .vaddVv 2 4 6 1)]

end Sys2Proof.Statements

open Sys2Proof Sys2Proof.Machine Sys2Proof.Statements

/-- Fifteen instructions on two x registers (add, sub, and, or, xor, shl, shr, sra, slt, sltu, min, max, mul, mulh, mulhu) complete in every state that declares and holds their capability: xD takes the value of the table of R101, a write to x0 is discarded, the PC moves on by 4, and everything else of the machine stays as it was but event counters and BPSKIP. clz, ctz and popc count leading zeros, trailing zeros and ones; shli, shri and srai shift by their constant; bfx extracts the field of W bits from bit L and zero-extends it, and bfi replaces that field of xD, both when L + W is at most 64. Each completes with all else as it was. The six immediate operations, li and addpc complete on every operand, each in its short form of 4 bytes with a 16-bit immediate and, as an LPX pair, in its prefixed form of 8 bytes with a 42-bit immediate: addi, slti and sltiu extend the sign, andi, ori and xori extend with zeros, li writes the sign-extended immediate, and addpc adds it, shifted by 16, to the address of the instruction or of its prefix. -/
def Obligations.ScalarAluResults : Prop :=
  (∀ e ∈ aluTable, ∀ (s : State) (d a b : Reg), s.scalarFit [e.2.1] →
    ∃ t, exec (e.1 d a b) s = .next t ∧ s.wrote t d (e.2.2 (s.xr a) (s.xr b)) (s.thr.pc + 4)) ∧
  (∀ (s : State) (d a : Reg), s.scalarFit [0] →
    (∃ t n, exec (.clz d a) s = .next t ∧ n ≤ 64 ∧ s.wrote t d (BitVec.ofNat 64 n) (s.thr.pc + 4) ∧
      (∀ k, 64 - n ≤ k → (s.xr a).getLsbD k = false) ∧ (n < 64 → (s.xr a).getLsbD (63 - n) = true)) ∧
    (∃ t n, exec (.ctz d a) s = .next t ∧ n ≤ 64 ∧ s.wrote t d (BitVec.ofNat 64 n) (s.thr.pc + 4) ∧
      (∀ k < n, (s.xr a).getLsbD k = false) ∧ (n < 64 → (s.xr a).getLsbD n = true)) ∧
    (∃ t, exec (.popc d a) s = .next t ∧
      s.wrote t d (BitVec.ofNat 64 ((List.range 64).filter fun k => (s.xr a).getLsbD k).length) (s.thr.pc + 4)) ∧
    (∀ n : BitVec 6,
      (∃ t, exec (.shli d a n) s = .next t ∧ s.wrote t d (s.xr a <<< n.toNat) (s.thr.pc + 4)) ∧
      (∃ t, exec (.shri d a n) s = .next t ∧ s.wrote t d (s.xr a >>> n.toNat) (s.thr.pc + 4)) ∧
      ∃ t, exec (.srai d a n) s = .next t ∧ s.wrote t d (BitVec.ofInt 64 ((s.xr a).toInt / 2 ^ n.toNat)) (s.thr.pc + 4)) ∧
    ∀ l w : BitVec 6, l.toNat + (w.toNat + 1) ≤ 64 →
      (∃ t v, exec (.bfx d a l w) s = .next t ∧ s.wrote t d v (s.thr.pc + 4) ∧
        ∀ k < 64, v.getLsbD k = (decide (k < w.toNat + 1) && (s.xr a).getLsbD (l.toNat + k))) ∧
      ∃ t v, exec (.bfi d a l w) s = .next t ∧ s.wrote t d v (s.thr.pc + 4) ∧
        ∀ k < 64, v.getLsbD k =
          if l.toNat ≤ k ∧ k < l.toNat + (w.toNat + 1) then (s.xr a).getLsbD (k - l.toNat) else (s.xr d).getLsbD k) ∧
  ∀ (s : State) (d a : Reg), s.scalarFit [0] →
    (∀ e ∈ immTable,
      (∀ i : BitVec 16, ∃ t, exec (e.1 d a i) s = .next t ∧
        s.wrote t d (e.2.2.2 (s.xr a) (widened e.2.2.1 i)) (s.thr.pc + 4)) ∧
      ∀ i : BitVec 42, ∃ t, exec (.lpxPair (.imm e.2.1 d a i)) s = .next t ∧
        s.wrote t d (e.2.2.2 (s.xr a) (widened e.2.2.1 i)) (s.thr.pc + 8)) ∧
    (∀ i : BitVec 16,
      (∃ t, exec (.li d i) s = .next t ∧ s.wrote t d (i.signExtend 64) (s.thr.pc + 4)) ∧
      ∃ t, exec (.addpc d i) s = .next t ∧ s.wrote t d (s.thr.pc + (i.signExtend 64 <<< 16)) (s.thr.pc + 4)) ∧
    ∀ i : BitVec 42,
      (∃ t, exec (.lpxPair (.li d i)) s = .next t ∧ s.wrote t d (i.signExtend 64) (s.thr.pc + 8)) ∧
      ∃ t, exec (.lpxPair (.addpc d i)) s = .next t ∧ s.wrote t d (s.thr.pc + (i.signExtend 64 <<< 16)) (s.thr.pc + 8)

/-- div, divu, rem and remu complete on all operands and never trap for their operands: signed division truncates towards zero and the remainder takes the sign of the dividend, with a = q * b + r and |r| < |b|; by 0 the quotients are all ones and the remainders are a; -2^63 by -1 gives -2^63 and 0. -/
def Obligations.DivisionResults : Prop :=
  ∀ (s : State) (d a b : Reg), s.scalarFit [1] →
    (∃ t q, exec (.div d a b) s = .next t ∧ s.wrote t d q (s.thr.pc + 4) ∧
      ∃ u r, exec (.rem d a b) s = .next u ∧ s.wrote u d r (s.thr.pc + 4) ∧
        (s.xr b = 0 → q = BitVec.allOnes 64 ∧ r = s.xr a) ∧
        ((s.xr a).toInt = -2 ^ 63 ∧ (s.xr b).toInt = -1 → q.toInt = -2 ^ 63 ∧ r = 0) ∧
        (s.xr b ≠ 0 ∧ ¬((s.xr a).toInt = -2 ^ 63 ∧ (s.xr b).toInt = -1) →
          (s.xr a).toInt = q.toInt * (s.xr b).toInt + r.toInt ∧ r.toInt.natAbs < (s.xr b).toInt.natAbs ∧
          (0 ≤ (s.xr a).toInt → 0 ≤ r.toInt) ∧ ((s.xr a).toInt ≤ 0 → r.toInt ≤ 0) ∧
          q.toInt.natAbs = (s.xr a).toInt.natAbs / (s.xr b).toInt.natAbs)) ∧
    ∃ t q, exec (.divu d a b) s = .next t ∧ s.wrote t d q (s.thr.pc + 4) ∧
      ∃ u r, exec (.remu d a b) s = .next u ∧ s.wrote u d r (s.thr.pc + 4) ∧
        (s.xr b = 0 → q = BitVec.allOnes 64 ∧ r = s.xr a) ∧
        (s.xr b ≠ 0 → q.toNat = (s.xr a).toNat / (s.xr b).toNat ∧ r.toNat = (s.xr a).toNat % (s.xr b).toNat)

/-- In binary64, binary32, binary16 and BF16, on finite operands and in every rounding mode: the sum, the difference, the product, the quotient, the square root of a positive number and the fused sum of a product and an addend are the exact real number rounded once by R20 to R23; a zero result has the sign of R21 and no flag; the quotient by zero and the invalid operations are those of R26; a NaN operand gives the canonical NaN, and an infinite one what R26 and IEEE 754 give. A conversion between any two formats of R13, or of an integer, rounds the exact value; one to an integer rounds it and takes the nearest end of the range beyond it. An MX element reads as its scale times its own value, a block with scale 0xFF as a quiet NaN (log 105); an element code is the source value over 2^E rounded, E from the largest magnitude of the block (R19). The exponent that vslice takes is the largest floor(log2) of the active finite nonzero values, and its digits are those of R39 of the value truncated by R38. Choices of the model that clauses rest on: log 74. -/
def Obligations.ExactFloatResults : Prop :=
  ∀ mode : RMode,
    (∀ f ∈ arithmeticFormats, ∀ (a b : Nat) (x y : Dy), f.unpack a = .fin x → f.unpack b = .fin y →
      (numberOf x + numberOf y ≠ 0 → rounds f mode (numberOf x + numberOf y) (f.add mode a b)) ∧
      (numberOf x + numberOf y = 0 → f.add mode a b = (f.zero (zeroSign mode x y), 0)) ∧
      (numberOf x - numberOf y ≠ 0 → rounds f mode (numberOf x - numberOf y) (f.sub mode a b)) ∧
      (numberOf x - numberOf y = 0 → f.sub mode a b = (f.zero (zeroSign mode x (opposite y)), 0)) ∧
      (x.m ≠ 0 → y.m ≠ 0 → rounds f mode (numberOf x * numberOf y) (f.mul mode a b) ∧
        rounds f mode (numberOf x / numberOf y) (f.div mode a b)) ∧
      (x.m = 0 ∨ y.m = 0 → f.mul mode a b = (f.zero (x.neg != y.neg), 0)) ∧
      (x.m = 0 → y.m ≠ 0 → f.div mode a b = (f.zero (x.neg != y.neg), 0)) ∧
      (x.m ≠ 0 → y.m = 0 → f.div mode a b = (f.inf (x.neg != y.neg), Flags.dz)) ∧
      (x.m = 0 → y.m = 0 → f.div mode a b = (f.qnan, Flags.nv)) ∧
      (x.m ≠ 0 → x.neg = false → rounds f mode (√(numberOf x)) (f.sqrt mode a)) ∧
      (x.m = 0 → f.sqrt mode a = (f.zero x.neg, 0)) ∧
      (x.m ≠ 0 → x.neg = true → f.sqrt mode a = (f.qnan, Flags.nv))) ∧
    (∀ f ∈ arithmeticFormats,
      (∀ x y z : Dy,
        (numberOf x * numberOf y + numberOf z ≠ 0 →
          rounds f mode (numberOf x * numberOf y + numberOf z) (f.fmaVal mode (.fin x) (.fin y) (.fin z))) ∧
        (numberOf x * numberOf y + numberOf z = 0 → f.fmaVal mode (.fin x) (.fin y) (.fin z) =
          (f.zero (if (x.m = 0 ∨ y.m = 0) ∧ z.m = 0 ∧ (x.neg != y.neg) = z.neg then z.neg else decide (mode = .rdn)), 0)) ∧
        (FVal.fin x).opp = .fin (opposite x)) ∧
      (∀ a b c, f.fma mode a b c = f.fmaVal mode (f.unpack a) (f.unpack b) (f.unpack c)) ∧
      (∀ (i n : Bool) (y : Dy) (v : FVal), y.m = 0 → f.fmaVal mode (.inf i) (.fin y) v = (f.qnan, Flags.nv) ∧
        f.fmaVal mode (.fin y) (.inf n) v = (f.qnan, Flags.nv)) ∧
      (∀ a b, (f.unpack a).isNan = true ∨ (f.unpack b).isNan = true → ∀ op ∈ [f.add, f.sub, f.mul, f.div],
        op mode a b = (f.qnan, if (f.unpack a).isSignalling || (f.unpack b).isSignalling then Flags.nv else 0)) ∧
      (∀ (a b : Nat) (i n : Bool), f.unpack a = .inf i → f.unpack b = .inf n →
        f.add mode a b = (if i = n then (f.inf i, 0) else (f.qnan, Flags.nv)) ∧
        f.sub mode a b = (if i = n then (f.qnan, Flags.nv) else (f.inf i, 0)) ∧
        f.mul mode a b = (f.inf (i != n), 0) ∧ f.div mode a b = (f.qnan, Flags.nv)) ∧
      ∀ (a b : Nat) (i : Bool) (y : Dy), f.unpack a = .inf i → f.unpack b = .fin y →
        f.add mode a b = (f.inf i, 0) ∧ f.add mode b a = (f.inf i, 0) ∧ f.sub mode a b = (f.inf i, 0) ∧
        f.sub mode b a = (f.inf !i, 0) ∧
        (y.m = 0 → f.mul mode a b = (f.qnan, Flags.nv) ∧ f.mul mode b a = (f.qnan, Flags.nv)) ∧
        (y.m ≠ 0 → f.mul mode a b = (f.inf (i != y.neg), 0) ∧ f.mul mode b a = (f.inf (i != y.neg), 0)) ∧
        f.div mode a b = (f.inf (i != y.neg), 0) ∧ f.div mode b a = (f.zero (i != y.neg), 0) ∧
        f.sqrt mode a = (if i then (f.qnan, Flags.nv) else (f.inf false, 0))) ∧
    (∀ f ∈ roundedFormats,
      (∀ i : Int, i ≠ 0 → rounds f mode i (f.round mode (Dy.ofInt i))) ∧
      ∀ g ∈ roundedFormats, ∀ c : Nat,
        (∀ x, g.unpack c = .fin x → (x.m ≠ 0 → rounds f mode (numberOf x) (g.convert f mode c)) ∧
          (x.m = 0 → g.convert f mode c = (f.zero x.neg, 0))) ∧
        (∀ n, g.unpack c = .inf n → g.convert f mode c =
          if f.hasInf then (f.inf n, 0) else (f.signed n f.maxFinite, Flags.of ||| Flags.nx)) ∧
        ∀ n, g.unpack c = .nan n → g.convert f mode c = (f.nan.getD 0, if n = true ∨ f.nan = none then Flags.nv else 0)) ∧
    (∀ (lo hi : Int) (x : Dy), ∃ i lost, roundsToInt mode (numberOf x) i lost ∧ toIntRange mode lo hi (.fin x) =
      if i < lo then (lo, Flags.nv) else if hi < i then (hi, Flags.nv) else (i, if lost then Flags.nx else 0)) ∧
    (∀ lo hi : Int, toIntRange mode lo hi (.inf true) = (lo, Flags.nv) ∧ toIntRange mode lo hi (.inf false) = (hi, Flags.nv) ∧
      ∀ n, toIntRange mode lo hi (.nan n) = (hi, Flags.nv)) ∧
    (∀ (f : MxFmt) (c scale : Nat), (scale = 255 → mxElement f scale c = .nan false) ∧
      (scale < 255 → ∀ v, elementNumber f c = some v →
        ∃ y, mxElement f scale c = .fin y ∧ numberOf y = 2 ^ ((scale : Int) - 127) * v)) ∧
    ∀ vals : List FVal,
      (∀ e, maxTop vals = some e ↔ isTop vals e) ∧
      (∀ e, isTop vals e →
        (vals.any FVal.isNan = false → ∀ x, FVal.fin x ∈ vals → x.m ≠ 0 →
          (∀ h ∈ mxFloats, ∀ k, k = max (-127) (min 127 (e - emaxOf h.1)) →
            rounds h.2 mode (numberOf x / 2 ^ k) (mxCode h.1 mode vals (.fin x))) ∧
          ∀ k i lost, k = max (-127) (min 127 e) → roundsToInt mode (numberOf x / 2 ^ k * 64) i lost → -128 < i → i < 128 →
            mxCode .mxint8 mode vals (.fin x) = ((i % 256).toNat, if lost then Flags.nx else 0)) ∧
        ∀ (slices w : Nat) (x : Dy), 1 ≤ slices → slices ≤ 8 → FVal.fin x ∈ vals → ∃ i ds,
          truncates (numberOf x * 2 ^ (7 * (slices : Int) - 1 - e)) i ∧ digitsOf slices i ds ∧
          (∀ j < slices, slices ≤ 8 → j ≠ 8 → sliceValue slices w (some e) j (.fin x) = ((ds.getD j 0 % 256).toNat, 0)) ∧
          sliceValue slices w (some e) 8 (.fin x) = ((e % 2 ^ w).toNat, 0)) ∧
      (∀ v ∈ vals, vals.any FVal.isNan = true → ∀ f, mxCode f mode vals v = (0, Flags.nv)) ∧
      ∀ (slices w j : Nat) (top : Option Int) (v : FVal), j < 8 → (∀ x, v ≠ .fin x) → sliceValue slices w top j v = (0, Flags.nv)

/-- Of K-blocks: elements of INT8 without block scales and of INT4 are their own digit, -128 of INT8 counting as -127, under the exponent SCALE - 121; any other block has the exponent E of the largest magnitude among its finite values, scales included, and each finite value v the digits of v * 2^(7S - 1 - E) truncated; a block with a NaN, an infinity or a scale 0xFF is marked. The product sum of a row and a column is the sum over k of the products of their integers, times 2^(E_A + E_B - 14S + 2), exactly, from class sums that the residue channels give back up to 8,258,048; that of a marked block is a NaN. The epilogue rounds C plus the product sum once, to a format or to a saturating int32; a NaN gives the canonical NaN, or 0x7FFFFFFF, with NV. Of collectives: two codes are reduced by a wrapping sum or the order of integers, or as the format adds and orders, element by element; in step i of a reduction, the member that is i + 2 after j in the ring adds its own part to chunk j, the last of them keeping it; the reduced chunks and those of an all-gather travel on to the members after, and a broadcast from ROOT. Choices of the model that clauses rest on: logs 48, 75 and 86. -/
def Obligations.EngineValueResults : Prop :=
  (∀ (f slices scale n lo len : Nat) (mxb : Bool) (cut : (Int × Bool) × List (List Int)), f ≤ 10 → 1 ≤ slices → slices ≤ 8 →
      cut = cutBlock f mxb slices scale n lo len →
      (f = 1 ∨ f = 0 ∧ mxb = false → cut.1 = ((scale : Int) - 121, decide (scale = 255)) ∧
        ∀ k < len, cut.2[k]? = some [if f = 1 then sext 4 (operandCode f mxb n (lo + k))
          else if operandCode f mxb n (lo + k) = 128 then -127 else sext 8 (operandCode f mxb n (lo + k))]) ∧
      (f ≠ 1 → (f = 0 → mxb = true) →
        (cut.1.2 = true ↔ ∃ k < len, operand f mxb scale n (lo + k) = none) ∧
        (∀ k < len, ∀ v, operand f mxb scale n (lo + k) = some v → |v| < 2 ^ (cut.1.1 + 1)) ∧
        ((∃ k < len, ∃ v, operand f mxb scale n (lo + k) = some v ∧ v ≠ 0) →
          ∃ k < len, ∃ v, operand f mxb scale n (lo + k) = some v ∧ 2 ^ cut.1.1 ≤ |v|) ∧
        ∀ k < len, ∀ v, operand f mxb scale n (lo + k) = some v → ∃ i ds, cut.2[k]? = some ds ∧
          truncates (v * 2 ^ (7 * (slices : Int) - 1 - cut.1.1)) i ∧ digitsOf slices i ds)) ∧
  (∀ (mode : RMode) (slices : Nat) (ea eb : Int) (das dbs : List (List Int)), 1 ≤ slices → das.length = dbs.length →
      (∀ ds ∈ das ++ dbs, ds.length = slices) →
      ∃ x, productSum mode slices (ea, false) (eb, false) (classSums slices das dbs) = .fin x ∧
        numberOf x = ((((das.zip dbs).map fun e => digitSum slices e.1 * digitSum slices e.2).sum : Int) : ℝ) *
          2 ^ (ea + eb - 14 * (slices : Int) + 2)) ∧
  (∀ (mode : RMode) (slices : Nat) (ea eb : Int × Bool) (xs : List Int), ea.2 = true ∨ eb.2 = true →
      productSum mode slices ea eb xs = .nan false) ∧
  (∀ xs : List Int, (∀ x ∈ xs, x.natAbs ≤ 8258048) → attemptSums xs [] = some xs) ∧
  (∀ (mode : RMode) (p : Dy),
    (∀ e ∈ [(1, Fmt.f32), (2, Fmt.f64), (3, Fmt.bf16), (4, Fmt.f16)],
      (p.m ≠ 0 → rounds e.2 mode (numberOf p) (epilogue e.1 mode none (.fin p))) ∧
      (∀ c x, e.2.unpack c = .fin x → numberOf x + numberOf p ≠ 0 →
        rounds e.2 mode (numberOf x + numberOf p) (epilogue e.1 mode (some c) (.fin p))) ∧
      ∀ old, epilogue e.1 mode old (.nan false) = (e.2.qnan, Flags.nv)) ∧
    (∀ old, epilogue 0 mode old (.nan false) = (0x7FFFFFFF, Flags.nv)) ∧
    ∀ old, ∃ i lost, roundsToInt mode ((match old with | some c => (sext 32 c : ℝ) | none => 0) + numberOf p) i lost ∧
      epilogue 0 mode old (.fin p) = if i < -2 ^ 31 then (0x80000000, Flags.nv) else if 2 ^ 31 - 1 < i then (0x7FFFFFFF, Flags.nv)
        else ((i % 2 ^ 32).toNat, if lost then Flags.nx else 0)) ∧
  (∀ (ctl : Word) (a b : Nat),
    (∀ e ∈ [(0, 32), (1, 64)], collDtype ctl = e.1 →
      (collRop ctl = 0 → collReduce ctl a b = (((sext e.2 a + sext e.2 b) % 2 ^ e.2).toNat, 0)) ∧
      (collRop ctl = 1 → collReduce ctl a b = ((max (sext e.2 a) (sext e.2 b) % 2 ^ e.2).toNat, 0)) ∧
      (collRop ctl = 2 → collReduce ctl a b = ((min (sext e.2 a) (sext e.2 b) % 2 ^ e.2).toNat, 0))) ∧
    ∀ e ∈ [(2, Fmt.f32), (3, Fmt.f64), (4, Fmt.bf16), (5, Fmt.f16)], collDtype ctl = e.1 →
      (collRop ctl = 0 → collReduce ctl a b = e.2.add (RMode.ofCode (collFrm ctl)) a b) ∧
      (collRop ctl = 1 → collReduce ctl a b = e.2.minmax true a b) ∧
      (collRop ctl = 2 → collReduce ctl a b = e.2.minmax false a b)) ∧
  (∀ (ctl : Word) (a b : List Byte) (n e : Nat), e = collSize ctl → a.length = e * n → b.length = e * n →
      (reduceChunk ctl a b).1.length = e * n ∧ ∀ i < n, natOfBytes (((reduceChunk ctl a b).1.drop (e * i)).take e) =
        (collReduce ctl (natOfBytes ((a.drop (e * i)).take e)) (natOfBytes ((b.drop (e * i)).take e))).1 % 2 ^ (8 * e)) ∧
  ∀ (s : State) (y : Tether) (data own : List Byte) (r n j i len e : Nat) (out : List Byte × Flags), s.collRank y = (r, n) → r < n → j < n →
    y.progress = i → len = volume y.layout → e = collSize y.ops.2.2 → out = reduceChunk y.ops.2.2 data own →
    (collOp y.ops.2.2 < 2 → i + 1 < n → r = (j + 2 + i) % n → s.collOwn y (j * len / n) ((j + 1) * len / n) = .ok own →
      (i = 0 → ∃ l, s.collOwn y ((r + n - 1) % n * len / n) (((r + n - 1) % n + 1) * len / n) = .ok l) →
      (i + 2 < n → s.collWork y data = .ok (s, out)) ∧
      (i + 2 = n → ∀ w, s.collPut y (if collOp y.ops.2.2 = 0 then e * (j * len / n) else 0) out.1 = .ok w →
        s.collWork y data = .ok (w, out))) ∧
    (∀ w, collOp y.ops.2.2 = 0 → n ≤ i + 1 → i + 2 < 2 * n → r = (j + 1 + (i - (n - 1))) % n → s.collPut y (e * (j * len / n)) data = .ok w →
      s.collWork y data = .ok (w, data, 0)) ∧
    (∀ w, collOp y.ops.2.2 = 2 → 0 < i → i + 1 < n → r = (j + 1 + i) % n → s.collPut y (e * len * j) data = .ok w →
      s.collWork y data = .ok (w, data, 0)) ∧
    (∀ u w, collOp y.ops.2.2 = 2 → i = 0 → 1 < n → r = (j + 1) % n → s.collOwn y 0 len = .ok own → s.collPut y (e * len * r) own = .ok u →
      u.collPut y (e * len * j) data = .ok w → s.collWork y data = .ok (w, data, 0)) ∧
    (∀ w, collOp y.ops.2.2 = 3 → i + 1 < n →
      (r = collRoot y.ops.2.2 → i = 0 → s.collOwn y 0 len = .ok own → s.collPut y 0 own = .ok w → s.collWork y data = .ok (w, own, 0)) ∧
      (r ≠ collRoot y.ops.2.2 → r = (collRoot y.ops.2.2 + 1 + i) % n → s.collPut y 0 data = .ok w →
        s.collWork y data = .ok (w, data, 0)))

/-- Every branch, short or prefixed, goes on at its PC plus four times its offset where its condition holds and at the next instruction otherwise, and writes no register; jal writes the address of the next instruction to ra and jumps; j jumps; jalr jumps to xA plus its immediate, which must be a multiple of 4, and writes the address of the next instruction to xD, its base read first. -/
def Obligations.BranchResults : Prop :=
  ∀ (s : State) (d a b : Reg), s.scalarFit [0] →
    (∀ e ∈ branchTable,
      (∀ o : BitVec 16, ∃ t, exec (e.1 a b o) s = .next t ∧
        s.wroteNothing t (if e.2.2 (s.xr a) (s.xr b) then s.thr.pc + o.signExtend 64 * 4 else s.thr.pc + 4)) ∧
      ∀ o : BitVec 42, ∃ t, exec (.lpxPair (.branch e.2.1 a b o)) s = .next t ∧
        s.wroteNothing t (if e.2.2 (s.xr a) (s.xr b) then s.thr.pc + o.signExtend 64 * 4 else s.thr.pc + 8)) ∧
    (∀ o : BitVec 26,
      (∃ t, exec (.jal o) s = .next t ∧ s.wrote t 1 (s.thr.pc + 4) (s.thr.pc + o.signExtend 64 * 4)) ∧
      ∃ t, exec (.jump o) s = .next t ∧ s.wroteNothing t (s.thr.pc + o.signExtend 64 * 4)) ∧
    (∀ o : BitVec 52,
      (∃ t, exec (.lpxPair (.jal o)) s = .next t ∧ s.wrote t 1 (s.thr.pc + 8) (s.thr.pc + o.signExtend 64 * 4)) ∧
      ∃ t, exec (.lpxPair (.jump o)) s = .next t ∧ s.wroteNothing t (s.thr.pc + o.signExtend 64 * 4)) ∧
    (∀ i : BitVec 16, (s.xr a + i.signExtend 64).toNat % 4 = 0 →
      ∃ t, exec (.jalr d a i) s = .next t ∧ s.wrote t d (s.thr.pc + 4) (s.xr a + i.signExtend 64)) ∧
    ∀ i : BitVec 42, (s.xr a + i.signExtend 64).toNat % 4 = 0 →
      ∃ t, exec (.lpxPair (.jalr d a i)) s = .next t ∧ s.wrote t d (s.thr.pc + 8) (s.xr a + i.signExtend 64)

/-- Every scalar load, short or prefixed, whose aligned address may be read and is held back by no watermark writes to xD the little-endian number that the thread sees there, with its sign or zeros extended as the mnemonic says, and changes nothing else but the order that R259 gives the waiting stores of the thread beside this read: its own earlier stores of a compatible alias class are among what it sees, and those of an incompatible class may be or not (a free choice, which is used up: log 26). Where it needs bytes of more than one of the thread's stores, or of one and of memory, those stores are performed first, in their order, and the thread sees what it saw; the clauses ask that no such store is for a peer and none hides a byte of another in an incompatible class. -/
def Obligations.ScalarLoadResults : Prop :=
  ∀ e ∈ loadTable, ∀ (s : State) (d a : Reg) (c : BitVec 2), s.scalarFit [0] →
    (∀ (o : BitVec 11) (pl : Place), s.loadable (address (s.xr a) o e.2.2.1) e.2.2.1 pl → s.calm (pl.range e.2.2.1) →
      ∃ t l v all, exec (e.1 d a c o) s = .next t ∧ s.marks l ∧ loadSees s l c pl e.2.2.1 v ∧
        (loadedFrom s t l c all (pl.range e.2.2.1)).wrote t d (extended e.2.2.1 e.2.2.2 v) (s.thr.pc + 4)) ∧
    ∀ (o : BitVec 37) (pl : Place), s.loadable (address (s.xr a) o e.2.2.1) e.2.2.1 pl → s.calm (pl.range e.2.2.1) →
      ∃ t l v all, exec (.lpxPair (.load e.2.1 d a c o)) s = .next t ∧ s.marks l ∧ loadSees s l c pl e.2.2.1 v ∧
        (loadedFrom s t l c all (pl.range e.2.2.1)).wrote t d (extended e.2.2.1 e.2.2.2 v) (s.thr.pc + 8)

/-- Every scalar store, short or prefixed, whose aligned address may be written and is held back by no watermark completes: the thread then reads the low bytes of xS, lowest first, at the address stored to and what it read before at every other place; no x register changes, and nothing of the machine changes but the thread: its issued stores, its two windows with errors that the store clears, its count of stores, its committed vector queue, the PC and event counters. -/
def Obligations.ScalarStoreResults : Prop :=
  ∀ e ∈ storeTable, ∀ (s : State) (r a : Reg) (c : BitVec 2), s.scalarFit [0] →
    (∀ (o : BitVec 11) (pl : Place), s.storable (address (s.xr a) o e.2.2) e.2.2 pl →
      ∃ t, exec (e.1 r a c o) s = .next t ∧ s.stored t pl (bytesOf e.2.2 (s.xr r).toNat) ∧
        t.heldDone { s with badCsa := t.badCsa, thr := storedThread s t } (s.thr.pc + 4)) ∧
    ∀ (o : BitVec 37) (pl : Place), s.storable (address (s.xr a) o e.2.2) e.2.2 pl →
      ∃ t, exec (.lpxPair (.store e.2.1 r a c o)) s = .next t ∧ s.stored t pl (bytesOf e.2.2 (s.xr r).toNat) ∧
        t.heldDone { s with badCsa := t.badCsa, thr := storedThread s t } (s.thr.pc + 8)

/-- The scalar floating-point instructions complete on all operands, in both precisions and in each rounding field: the operation of R114 to R117 on the low bits of their registers is written zero-extended to xD, its exception flags are ORed into FCSR, and nothing else of the machine changes but the PC, event counters and BPSKIP. -/
def Obligations.ScalarFloatResults : Prop :=
  ∀ (s : State) (d a b : Reg) (p : Prec), s.scalarFit [2] →
    (∀ e ∈ fpArithTable, ∀ r : FRound, ∃ t, exec (e.1 d a b p r) s = .next t ∧
      t.done (fpEffect s d (e.2 (precFmt p) (roundMode r s.thr.fcsr) (fpBits p (s.xr a)) (fpBits p (s.xr b)))) (s.thr.pc + 4)) ∧
    (∀ e ∈ fpPlainTable, ∃ t, exec (e.1 d a b p) s = .next t ∧
      t.done (fpEffect s d (e.2 (precFmt p) (fpBits p (s.xr a)) (fpBits p (s.xr b)))) (s.thr.pc + 4)) ∧
    (∃ t, exec (.fclass d a p) s = .next t ∧
      t.done (fpEffect s d ((precFmt p).classify (fpBits p (s.xr a)), 0)) (s.thr.pc + 4)) ∧
    ∀ r : FRound,
      (∃ t, exec (.fsqrt d a p r) s = .next t ∧
        t.done (fpEffect s d ((precFmt p).sqrt (roundMode r s.thr.fcsr) (fpBits p (s.xr a)))) (s.thr.pc + 4)) ∧
      (∃ t, exec (.fma d a b p r) s = .next t ∧
        t.done (fpEffect s d ((precFmt p).fma (roundMode r s.thr.fcsr) (fpBits p (s.xr a)) (fpBits p (s.xr b))
          (fpBits p (s.xr d)))) (s.thr.pc + 4)) ∧
      ∀ e ∈ fcvtTable, ∃ t, exec (.fcvt d a e.1 p r) s = .next t ∧
        t.done (fpEffect s d (e.2 p (roundMode r s.thr.fcsr) (s.xr a))) (s.thr.pc + 4)

/-- In every floating-point format of R13 but E8M0, which holds block scales and is never rounded to, and in every rounding mode: the value of a finite nonzero code rounds to that code and raises no flag; and any nonzero exact number lies at the magnitude of a code or between those of two neighbouring codes, the exponent range unbounded above. At one it gives that code with its sign and raises no flag; between two it gives the one that R20 picks for the mode, sets NX, and sets UF when the result is tiny by R23. A code above the largest finite one is an overflow instead: infinity or the largest finite value as R22 says for the format, the mode and the sign, with OF and NX. -/
def Obligations.RoundingResults : Prop :=
  ∀ f ∈ roundedFormats, ∀ mode : RMode,
    (∀ (c : Nat) (x : Dy), c < 2 ^ f.bits → f.unpack c = .fin x → x.m ≠ 0 → f.round mode x = (c, 0)) ∧
    ∀ x : Dy, x.m ≠ 0 → rounds f mode (numberOf x) (f.round mode x)

/-- With no store of the thread waiting, an aligned atomic of either size on the device or the local store completes, whatever its order bits and its scope: xD takes the old value with its sign extended, the bytes at the address take the operation on the old value and xB (amocas: xB where the old value equals xD), and every other byte that the thread sees is as before; ldaq only reads, and strl only writes, as one of the thread's issued stores. Nothing else of the machine changes but errors that the write clears, the count of stores, the committed vector queue, the PC, event counters and BPSKIP. Choices of the model that clauses rest on: logs 32 and 63. -/
def Obligations.ScalarAtomicResults : Prop :=
  ∀ (s : State) (d a b : Reg) (z : AtomSize) (e : Scope) (pl : Place), s.scalarFit [22] → s.thr.sq = [] → s.thr.begun = none → userPlace pl →
    (s.accessible .atomic (s.xr a) (atomBytes z) pl → s.badData s.thr pl (atomBytes z) = false →
      ∀ r ∈ atomicTable, ∀ q l : Bool, ∃ t, exec (r.1 d a b q l z e) s = .next t ∧
        (∀ k, t.xr k = if k = d ∧ d ≠ 0 then extended (atomBytes z) true (s.number pl (atomBytes z)) else s.xr k) ∧
        (match r.2 (8 * atomBytes z) (s.number pl (atomBytes z)) ((s.xr b).toNat % 2 ^ (8 * atomBytes z))
            ((s.xr d).toNat % 2 ^ (8 * atomBytes z)) with
          | some v => s.stored t pl (bytesOf (atomBytes z) v)
          | none => s.stored t pl []) ∧
        t.heldDone { s with mem := t.mem, homes := t.homes, badMem := t.badMem, thr := { s.thr with
          x := t.thr.x, localStore := t.thr.localStore, stores := t.thr.stores } } (s.thr.pc + 4)) ∧
    (s.accessible .atomicRead (s.xr a) (atomBytes z) pl → s.badData s.thr pl (atomBytes z) = false →
      ∃ t, exec (.ldaq d a z e) s = .next t ∧
        t.heldDone (s.setX d (extended (atomBytes z) true (s.number pl (atomBytes z)))) (s.thr.pc + 4)) ∧
    (s.accessible .atomic (s.xr a) (atomBytes z) pl → s.badStore s.thr pl (atomBytes z) = false →
      ∃ t, exec (.strl a b z e) s = .next t ∧ s.stored t pl (bytesOf (atomBytes z) (s.xr b).toNat) ∧
        t.heldDone { s with thr := { s.thr with
          sq := t.thr.sq, localStore := t.thr.localStore, stores := t.thr.stores } } (s.thr.pc + 4))

/-- A fence of every kind and every scope completes when every issued store of the thread is for the device itself. A full, release or store fence performs them all, so that memory holds what the thread saw; an acquire fence, whose earlier reads have been performed, performs the stores that such a read took in with those that come before them, in their order, and no others: memory then holds the bytes of each performed store, and no other byte has changed; and the thread sees what it saw where no store hides a byte of another in an incompatible class. No store that a read took in waits on. Choices of the model that clauses rest on: logs 7 and 32. -/
def Obligations.FenceResults : Prop :=
  ∀ (s : State) (e : Scope), s.scalarFit [] → s.thr.near →
    (∃ t l, exec (.fence .acq e) s = .next t ∧ l.map Prod.fst = s.thr.sq ∧ t.mem = (s.afterStores l).mem ∧
      (∀ x ∈ l, x.1.read = true → x.2 = true) ∧
      (∀ x ∈ l, x.2 = true → x.1.read = true ∨ ∃ y ∈ l, y.2 = true ∧ x.1.before y.1 = true) ∧
      (s.thr.orderly → ∀ a, (t.thr.view t.mem).byte a = (s.thr.view s.mem).byte a) ∧
      t.heldDone { s.afterStores l with homes := t.homes, badMem := t.badMem } (s.thr.pc + 4)) ∧
    ∀ k : FenceKind, k ≠ .acq →
      ∃ t, exec (.fence k e) s = .next t ∧ (∀ a, t.mem.byte a = (s.thr.view s.mem).byte a) ∧
        t.heldDone { s with mem := t.mem, homes := t.homes, badMem := t.badMem, thr := { s.thr with sq := [] } } (s.thr.pc + 4)

/-- For a group below GROUPS and with no store waiting: gjoin makes the thread a member whose arrived flag is clear, or changes nothing for a member; gleave removes it, and garrive sets the flag of a member whose flag is clear and answers the phase it arrived in, each completing the phase when every member has then arrived, one at least; a thread that is no member only reads the phase; gwait goes on when the phase differs from the one given; gbar goes on at once for the last member to arrive, and, at the PC and in the mode in which it has arrived, once the phase of its arrival is over. Other groups keep their members and phases. Choices of the model that clauses rest on: log 78. -/
def Obligations.GroupResults : Prop :=
  ∀ (s : State) (d a b : Reg), s.scalarFit [] → (s.xr a).toNat < s.thr.hdr.groups → s.thr.sq = [] →
    (∃ t, exec (.gjoin a) s = .next t ∧ t.heldDone { s with groups := t.groups } (s.thr.pc + 4) ∧
      groupsWith s t (s.xr a).toNat (if (Assoc.get? (groupAt s (s.xr a).toNat).members s.thr.key).isSome then
        groupAt s (s.xr a).toNat else { groupAt s (s.xr a).toNat with
          members := Assoc.put (groupAt s (s.xr a).toNat).members s.thr.key false })) ∧
    (∃ t, exec (.gleave a) s = .next t ∧ t.heldDone { s with groups := t.groups } (s.thr.pc + 4) ∧
      groupsWith s t (s.xr a).toNat (if (Assoc.get? (groupAt s (s.xr a).toNat).members s.thr.key).isSome then
        phaseRule (Assoc.drop (groupAt s (s.xr a).toNat).members s.thr.key) (groupAt s (s.xr a).toNat).phase
        else groupAt s (s.xr a).toNat)) ∧
    (Assoc.get? (groupAt s (s.xr a).toNat).members s.thr.key ≠ some true →
      ∃ t, exec (.garrive d a) s = .next t ∧
        t.heldDone { (s.setX d ((groupAt s (s.xr a).toNat).phase.zeroExtend 64)) with groups := t.groups } (s.thr.pc + 4) ∧
        groupsWith s t (s.xr a).toNat (if (Assoc.get? (groupAt s (s.xr a).toNat).members s.thr.key).isSome then
          phaseRule (Assoc.put (groupAt s (s.xr a).toNat).members s.thr.key true) (groupAt s (s.xr a).toNat).phase
          else groupAt s (s.xr a).toNat)) ∧
    ((s.xr b).truncate 32 ≠ (groupAt s (s.xr a).toNat).phase →
      ∃ t, exec (.gwait a b) s = .next t ∧ t.heldDone s (s.thr.pc + 4)) ∧
    (∀ ph, Assoc.get? s.thr.awaiting s.thr.here = some ((s.xr a).toNat, ph) → (groupAt s (s.xr a).toNat).phase ≠ ph →
      ∃ t, exec (.gbar a) s = .next t ∧
        t.heldDone { s with thr := { s.thr with awaiting := Assoc.drop s.thr.awaiting s.thr.here } } (s.thr.pc + 4)) ∧
    ((∀ ph, Assoc.get? s.thr.awaiting s.thr.here ≠ some ((s.xr a).toNat, ph)) → Assoc.get? (groupAt s (s.xr a).toNat).members s.thr.key = some false →
      (∀ e ∈ (groupAt s (s.xr a).toNat).members, e.1 ≠ s.thr.key → e.2 = true) →
      ((groupAt s (s.xr a).toNat).members.map Prod.fst).Nodup →
      ∃ t, exec (.gbar a) s = .next t ∧
        t.heldDone { s with groups := t.groups, thr := { s.thr with awaiting := Assoc.drop s.thr.awaiting s.thr.here } } (s.thr.pc + 4) ∧
        groupsWith s t (s.xr a).toNat
          ⟨(groupAt s (s.xr a).toNat).members.map fun e => (e.1, false), (groupAt s (s.xr a).toNat).phase + 1⟩)

/-- On a queue of its process: qpush with room appends xB with the number of stores the thread has issued; qpop removes the oldest entry and writes its value to xD once the stores its stamp counts are performed, or writes that of the entry that it removed before; qtry does so too, writing 1 to xD and the value to the next register; qtry of an empty queue, or of one whose head has stores to come, writes 0. hreg registers a header for a queue, with the priority that its first operand gives, in the entry that the core has for that queue, or else in the lowest free entry of the core with the queue bound nowhere else, and answers the number; with all 32 in use it answers all ones and changes nothing (that a binding on another core stays then is the choice of log 82); hunreg frees an entry of the process. Nothing else changes. Choices of the model that clauses rest on: logs 6, 32 and 78. -/
def Obligations.QueueResults : Prop :=
  ∀ (s : State) (d a b : Reg) (q : HwQueue), s.scalarFit [] →
    (queueNamed s (s.xr a) q → q.entries.length < q.cap →
      ∃ t, exec (.qpush a b) s = .next t ∧
        t.heldDone (queueWith s (s.xr a).toNat { q with entries := q.entries ++ [⟨s.xr b, s.thr.key, s.thr.stores⟩] })
          (s.thr.pc + 4)) ∧
    (∀ e es, queueNamed s (s.xr a) q → q.entries = e :: es → stampDone s e →
      (Assoc.get? s.thr.popped s.thr.here = none → ∃ t, exec (.qpop d a) s = .next t ∧
        t.heldDone ((queueWith s (s.xr a).toNat { q with entries := es }).setX d e.value) (s.thr.pc + 4)) ∧
      (0 < d.toNat ∧ d.toNat < 31 → ∃ t, exec (.qtry d a) s = .next t ∧
        t.heldDone (((queueWith s (s.xr a).toNat { q with entries := es }).setX d 1).setX (d + 1) e.value) (s.thr.pc + 4))) ∧
    (∀ e, Assoc.get? s.thr.popped s.thr.here = some e → stampDone s e → ∃ t, exec (.qpop d a) s = .next t ∧
      t.heldDone ({ s with thr := { s.thr with popped := Assoc.drop s.thr.popped s.thr.here } }.setX d e.value) (s.thr.pc + 4)) ∧
    (queueNamed s (s.xr a) q → (∀ e es, q.entries = e :: es → ¬stampDone s e) → 0 < d.toNat ∧ d.toNat < 31 →
      ∃ t, exec (.qtry d a) s = .next t ∧ t.heldDone (s.setX d 0) (s.thr.pc + 4)) ∧
    (∀ ps, (s.xr a).toNat < 2 ^ 13 → queueNamed s (BitVec.ofNat 64 ((s.xr a).toNat % 1024)) q → (s.xr b).toNat % 8 = 0 →
      placePieces (s.place .load) (pieces 65 (s.xr b) 64) = .ok ps →
      (∀ i h, (s.core s.thr.core).handlers.find? (fun e => sameQueue (bindingOf s (s.xr a) (s.xr b)) e.2) = some (i, h) →
        ∃ t, exec (.hreg d a b) s = .next t ∧
          t.heldDone ((s.setCore s.thr.core { s.core s.thr.core with
            handlers := Assoc.put (s.core s.thr.core).handlers i (bindingOf s (s.xr a) (s.xr b)) }).setX d (BitVec.ofNat 64 i))
            (s.thr.pc + 4)) ∧
      ((∀ e ∈ (s.core s.thr.core).handlers, sameQueue (bindingOf s (s.xr a) (s.xr b)) e.2 = false) →
        (∀ i, i < 32 → Assoc.get? (s.core s.thr.core).handlers i = none →
          (∀ j < i, (Assoc.get? (s.core s.thr.core).handlers j).isSome) →
          ∃ t, exec (.hreg d a b) s = .next t ∧
            t.heldDone ((boundAt s i (bindingOf s (s.xr a) (s.xr b))).setX d (BitVec.ofNat 64 i)) (s.thr.pc + 4)) ∧
        ((∀ i < 32, (Assoc.get? (s.core s.thr.core).handlers i).isSome) →
          ∃ t, exec (.hreg d a b) s = .next t ∧ t.heldDone (s.setX d (BitVec.allOnes 64)) (s.thr.pc + 4)))) ∧
    (∀ h, (s.xr a).toNat < 32 → Assoc.get? (s.core s.thr.core).handlers (s.xr a).toNat = some h → h.part = s.thr.key.part →
      h.proc = s.thr.key.proc →
      ∃ t, exec (.hunreg a) s = .next t ∧
        t.heldDone (s.setCore s.thr.core { s.core s.thr.core with
          handlers := Assoc.drop (s.core s.thr.core).handlers (s.xr a).toNat }) (s.thr.pc + 4))

/-- With a legal VTYPE, vsetvli and vsetvl set VTYPE, set VL to the requested length or VLMAX, whichever is less, bound VLB by VLMAX, and write VL to xD; the requested length is xA, or VLMAX when A is 0 and D is not, or the old VL when both are 0. vsetvlb sets VLB alone. Nothing else changes but the PC, the vector queue, event counters and BPSKIP. -/
def Obligations.VectorSetResults : Prop :=
  ∀ (s : State) (d a b : Reg), s.vectorFit [3] →
    (∀ vt : BitVec 16, vtLegal vt = true → ∀ n,
      n = min (if a ≠ 0 then (s.xr a).toNat else if d ≠ 0 then vlmaxOf vt s.thr.vlen else s.thr.vl) (vlmaxOf vt s.thr.vlen) →
      (∃ t, exec (.vsetvli d a vt) s = .next t ∧ s.vectorDone t fun u =>
        { u with vtype := vt, vl := n, vlb := min u.vlb (vlmaxOf vt u.vlen) }.setX d (BitVec.ofNat 64 n)) ∧
      (s.xr b = vt.zeroExtend 64 → ∃ t, exec (.vsetvl d a b) s = .next t ∧ s.vectorDone t fun u =>
        { u with vtype := vt, vl := n, vlb := min u.vlb (vlmaxOf vt u.vlen) }.setX d (BitVec.ofNat 64 n))) ∧
    ∃ t, exec (.vsetvlb d a) s = .next t ∧ s.vectorDone t fun u =>
      { u with vlb := min (s.xr a).toNat u.vlmax }.setX d (BitVec.ofNat 64 (min (s.xr a).toNat u.vlmax))

/-- The integer instructions of R127 in their three forms, the moves and the merges complete with legal declared operands and VL above 0: each active element of the destination takes the operation on the elements at SEW, inactive and tail elements follow MZ and TZ, vmerge chooses between its operands by the predicate in every element below VL, FCSR and every other register keep their values. At SEW 16, 32 or 64 the vector floating-point instructions in both forms and the single-source functions complete too: each active element takes the operation rounded by VTYPE.FRM in the format that SEW and H16 name, and the flags of the active elements alone are ORed into FCSR. -/
def Obligations.VectorArithmeticResults : Prop :=
  elementwise (vectorIntegerRows ++ vectorMoveRows) ∧ elementwise vectorFloatRows ∧
    ∀ e ∈ mergeTable, ∀ (s : State) (d a b p : Reg), s.vectorFit [3] → s.thr.vectorOk → s.thr.vl ≠ 0 → s.thr.groupOk d →
      s.thr.groupOk a → (e.2.1 = true → s.thr.groupOk b) → s.thr.predOk p →
      ∃ t, exec (e.1 d a b p) s = .next t ∧ s.vecDone t ∧ t.thr.fcsr = s.thr.fcsr ∧
        s.thr.vecResult t.thr d 0 fun i => if s.thr.pbit p i then e.2.2 s.thr b i else elemAt s.thr a i

/-- vfcvt with a legal code and pair of widths, vsext, vzext, the four narrowings, and vmxcvt from every MX format, whose block scale is a byte of the register after its source, complete element by element from SEW2 to SEW. vmxcvt towards MX at SEW 8 writes the element codes, and for each block with an active element a scale byte of the register after its destination: 255 for a block that holds a NaN, the biased clamped exponent for one with a finite nonzero value, 0 for one whose active values are all zero, and a free value for one that holds an infinity besides (R19 gives none: log 20); the scale bytes of blocks without an active element stay. Choices of the model that clauses rest on: logs 21 and 74. -/
def Obligations.VectorConversionResults : Prop :=
  elementwise vectorConversionRows ∧
    ∀ (f : MxFmt) (s : State) (d a p : Reg), s.vectorFit [8] → s.thr.vectorOk → s.thr.vl ≠ 0 → s.thr.groupOk d → s.thr.predOk p →
      s.thr.sew = 8 → s.thr.sew2 ≠ 8 → s.thr.secondOk a → d.toNat + 2 ≤ 32 → d.toNat + 2 ≤ s.thr.hdr.vregs →
      ∃ t, exec (.vmxcvt d a true f p) s = .next t ∧ ({ s with freeCtr := t.freeCtr } : State).vecDone t ∧
        t.thr.fcsr = s.thr.fcsr ||| (orFlags ((s.thr.actives p).map fun i => (mxCode f s.thr.vfrm (s.thr.mxVals a p (i / 32))
          (s.thr.fmt2.unpack (elem2At s.thr a i))).2)).zeroExtend 8 ∧
        (∀ i < s.thr.vlmax, t.thr.elem d.toNat i 8 =
          if i < s.thr.vl then
            (if s.thr.pbit p i then (mxCode f s.thr.vfrm (s.thr.mxVals a p (i / 32)) (s.thr.fmt2.unpack (elem2At s.thr a i))).1 % 2 ^ 8
             else if s.thr.vtype.getLsbD 14 then 0 else s.thr.elem d.toNat i 8)
          else if s.thr.vtype.getLsbD 13 then 0 else s.thr.elem d.toNat i 8) ∧
        (∀ j < s.thr.vlen / 8,
          ((∀ k < 32, s.thr.active p (32 * j + k) = false) →
            t.thr.elem (d.toNat + 1) j 8 = s.thr.elem (d.toNat + 1) j 8) ∧
          ((s.thr.mxVals a p j).any FVal.isNan = true → t.thr.elem (d.toNat + 1) j 8 = 255) ∧
          ∀ m, (s.thr.mxVals a p j).any FVal.isNan = false → maxTop (s.thr.mxVals a p j) = some m →
            (t.thr.elem (d.toNat + 1) j 8 : Int) = clampInt (-127) 127 (m - mxEmax f) + 127) ∧
        (∀ j < s.thr.vlen / 8, (∃ k < 32, s.thr.active p (32 * j + k) = true) → (s.thr.mxVals a p j).any FVal.isNan = false →
          maxTop (s.thr.mxVals a p j) = none →
          ((∀ n, FVal.inf n ∉ s.thr.mxVals a p j) → t.thr.elem (d.toNat + 1) j 8 = 0) ∧
          ((∃ n, FVal.inf n ∈ s.thr.mxVals a p j) →
            t.thr.elem (d.toNat + 1) j 8 = (Config.freeWord (s.freeCtr + j)).toNat % 256)) ∧
        ∀ r : Fin 32, r.val ≠ d.toNat → r.val ≠ d.toNat + 1 → t.thr.v[r] = s.thr.v[r]

/-- The channel instructions work residue by residue on words of SEW 32, vrdec writes the integer of the first three residues and raises NV for an inconsistent word, vslice writes the digit it names or the alignment exponent of the active elements, vunslice appends a digit, and the mixed-width instructions take their second operand at SEW2, each completing element by element with legal declared operands. -/
def Obligations.VectorResidueResults : Prop :=
  elementwise vectorResidueRows ∧
    ∀ (s : State) (d a k p : Reg), s.vectorFit [10] → s.thr.vectorOk → s.thr.vl ≠ 0 → s.thr.groupOk d → s.thr.predOk p →
      s.thr.secondOk a → s.thr.sew2 ≠ 8 → (k = 8 ∧ s.thr.sew ≠ 8 ∨ k.toNat < vtSlices s.thr.vtype ∧ s.thr.sew = 8) →
      ∃ t, exec (.vslice d a k p) s = .next t ∧ s.vecDone t ∧
        s.thr.vecResult t.thr d p (fun i => (sliceValue (vtSlices s.thr.vtype) s.thr.sew
          (maxTop ((s.thr.actives p).map fun j => s.thr.fmt2.unpack (elem2At s.thr a j))) k.toNat
          (s.thr.fmt2.unpack (elem2At s.thr a i))).1) ∧
        t.thr.fcsr = s.thr.fcsr ||| (orFlags ((s.thr.actives p).map fun i => (sliceValue (vtSlices s.thr.vtype) s.thr.sew
          (maxTop ((s.thr.actives p).map fun j => s.thr.fmt2.unpack (elem2At s.thr a j))) k.toNat
          (s.thr.fmt2.unpack (elem2At s.thr a i))).2)).zeroExtend 8

/-- The comparisons, integer and floating-point, with a vector or a scalar operand and every condition they have, the operations on predicates and vrchk complete with legal declared operands and VL above 0: each active bit of the destination takes the truth of the condition, the others follow MZ and TZ, and the flags of the active comparisons are ORed into FCSR. pfirst answers the lowest active index whose bit is set, or all ones, and pcount the number of them. -/
def Obligations.PredicateResults : Prop :=
  (∀ e ∈ compareRows ++ predicateRows, ∀ (s : State) (d a b p : Reg), s.vectorFit [e.cap s.thr] → s.thr.vectorOk →
      s.thr.vl ≠ 0 → s.thr.predDestOk d → s.thr.predOk p → e.ok s.thr a b →
      ∃ t, exec (e.make d a b p) s = .next t ∧ s.predDone t ∧
        s.thr.predResult t.thr d p (fun i => (e.value s.thr a b p i).1) ∧
        t.thr.fcsr = s.thr.fcsr ||| (orFlags ((s.thr.actives p).map fun i => (e.value s.thr a b p i).2)).zeroExtend 8) ∧
    ∀ (s : State) (d a p : Reg), s.vectorFit [3] → s.thr.vl ≠ 0 → s.thr.predOk a → s.thr.predOk p →
      (∃ t v, exec (.pfirst d a p) s = .next t ∧ s.vectorDone t (fun u => u.setX d v) ∧
        ((∀ i, s.thr.active p i = true → s.thr.pbit a i = false) → v = BitVec.allOnes 64) ∧
        ∀ i, s.thr.active p i = true → s.thr.pbit a i = true →
          (∀ j < i, s.thr.active p j = true → s.thr.pbit a j = false) → v = BitVec.ofNat 64 i) ∧
      ∃ t, exec (.pcount d a p) s = .next t ∧ s.vectorDone t fun u =>
        u.setX d (BitVec.ofNat 64 ((List.range s.thr.vl).filter fun i => s.thr.pbit p i && s.thr.pbit a i).length)

/-- The slides, gather, broadcast and vid complete element by element, with 0 for an index from VLMAX on; vcompress packs the active elements from index 0 and leaves the rest to TZ; vexpand gives each active element the one of its rank; vextract writes an element with its sign to xD, and vinsert replaces one element, whatever VL and the mask are. -/
def Obligations.PermutationResults : Prop :=
  elementwise permuteRows ∧
    (∀ (s : State) (d a p : Reg), s.vectorFit [3] → s.thr.vectorOk → s.thr.vl ≠ 0 → s.thr.groupOk d → s.thr.groupOk a →
      s.thr.predOk p →
      (∃ t, exec (.vexpand d a p) s = .next t ∧ s.vecDone t ∧ t.thr.fcsr = s.thr.fcsr ∧
        s.thr.vecResult t.thr d p fun i => elemAt s.thr a (rankAt s.thr p i)) ∧
      ∃ t, exec (.vcompress d a p) s = .next t ∧ s.vecDone t ∧ t.thr.fcsr = s.thr.fcsr ∧
        (∀ i < s.thr.vlmax, t.thr.elem d.toNat i s.thr.sew = (match (s.thr.actives p)[i]? with
          | some j => elemAt s.thr a j
          | none => if s.thr.vtype.getLsbD 13 then 0 else elemAt s.thr d i)) ∧
        ∀ r : Fin 32, (r.val < d.toNat ∨ d.toNat + s.thr.grp ≤ r.val) → t.thr.v[r] = s.thr.v[r]) ∧
    ∀ (s : State) (d a b : Reg), s.vectorFit [3] → s.thr.vectorOk →
      (s.thr.groupOk a → ∃ t, exec (.vextract d a b) s = .next t ∧ s.vectorDone t fun u =>
        u.setX d (BitVec.ofInt 64 (sext s.thr.sew (elemOr0 s.thr a (s.xr b).toNat)))) ∧
      (s.thr.groupOk d → ∃ t, exec (.vinsert d a b) s = .next t ∧ s.vecDone t ∧ t.thr.fcsr = s.thr.fcsr ∧
        (∀ i < s.thr.vlmax, t.thr.elem d.toNat i s.thr.sew =
          if i = (s.xr b).toNat then (s.xr a).toNat % 2 ^ s.thr.sew else elemAt s.thr d i) ∧
        ∀ r : Fin 32, (r.val < d.toNat ∨ d.toNat + s.thr.grp ≤ r.val) → t.thr.v[r] = s.thr.v[r])

/-- A reduction with VL above 0 writes element 0 of one register alone, from the start value and the active elements: integer sums wrap, and maxima, minima, ands and ors are taken bit by bit at SEW; the ordered floating-point reductions take the elements one after another with one rounding each, and vfredsum adds the start value to the pairwise tree of R43 over the 2,048 positions, where an inactive one is empty; with no active element the start value is returned and no flag is raised. -/
def Obligations.ReductionResults : Prop :=
  ∀ (s : State) (d a b p : Reg), s.thr.vectorOk → s.thr.vl ≠ 0 → d.toNat < s.thr.hdr.vregs → b.toNat < s.thr.hdr.vregs →
    s.thr.groupOk a → s.thr.predOk p →
    (s.vectorFit [3] → ∀ e ∈ integerReductions, ∃ t, exec (e.1 d a b p) s = .next t ∧ s.vecDone t ∧ t.thr.fcsr = s.thr.fcsr ∧
      reduced s.thr t.thr d ((activeElems s.thr a p).foldl (e.2 s.thr.sew) (elemAt s.thr b 0))) ∧
    (s.vectorFit [11] → s.thr.sew ≠ 8 →
      (∀ e ∈ orderedReductions, ∃ t r, exec (e.1 d a b p) s = .next t ∧ s.vecDone t ∧
        r = foldFlags (e.2 s.thr.fmt s.thr.vfrm) (elemAt s.thr b 0) (activeElems s.thr a p) ∧
        t.thr.fcsr = s.thr.fcsr ||| r.2.zeroExtend 8 ∧ reduced s.thr t.thr d r.1) ∧
      ∃ t, exec (.vfredsum d a b p) s = .next t ∧ s.vecDone t ∧
        (match redTree (s.thr.fmt.add s.thr.vfrm) (fun i => if s.thr.active p i then some (elemAt s.thr a i) else none) 11 0 with
        | (some v, g) => reduced s.thr t.thr d (s.thr.fmt.add s.thr.vfrm (elemAt s.thr b 0) v).1 ∧
            t.thr.fcsr = s.thr.fcsr ||| (g ||| (s.thr.fmt.add s.thr.vfrm (elemAt s.thr b 0) v).2).zeroExtend 8
        | (none, _) => reduced s.thr t.thr d (elemAt s.thr b 0) ∧ t.thr.fcsr = s.thr.fcsr))

/-- With VL = 0 and legal declared operands every vector instruction that VL governs writes no register, predicate, flag or memory, whatever its addresses are: the PC moves on, and the instruction enters the vector queue. These are every element-wise instruction of the tables, vmerge, vmxcvt in both directions, vslice and vunslice, every permutation that VL governs (vcompress and vexpand among them), every comparison and operation on predicates with pfirst and pcount, the reductions, integer and floating-point, every vector load and store (vld, vlds, vldx, vldff, vldq, vlseg, vlsegmx, pld, vst, vsts, vstx, vsseg, vssegmx, pst), vamo and vwait, the updates of an open churn window, which fold nothing, and dvdot, dvsum and dvperm, whose micro-steps follow one another and write nothing. -/
def Obligations.VlZeroExecutesNothing : Prop :=
  (∀ e ∈ vectorIntegerRows ++ vectorMoveRows ++ vectorFloatRows ++ vectorConversionRows ++ vectorResidueRows ++ permuteRows,
      ∀ (s : State) (d a b p : Reg), s.vectorFit [e.cap s.thr] → s.thr.vectorOk → s.thr.vl = 0 → s.thr.groupOk d →
      s.thr.predOk p → e.ok s.thr d a b → ∃ t, exec (e.make d a b p) s = .next t ∧ s.vectorDone t id) ∧
    (∀ e ∈ compareRows ++ predicateRows, ∀ (s : State) (d a b p : Reg), s.vectorFit [e.cap s.thr] → s.thr.vectorOk →
      s.thr.vl = 0 → s.thr.predDestOk d → s.thr.predOk p → e.ok s.thr a b →
      ∃ t, exec (e.make d a b p) s = .next t ∧ s.vectorDone t id) ∧
    (∀ (s : State) (d a b p : Reg), s.vectorFit [3] → s.thr.vl = 0 → s.thr.groupOk a → s.thr.predOk p →
      (s.thr.groupOk d →
        (∀ e ∈ mergeTable, (e.2.1 = true → s.thr.groupOk b) → ∃ t, exec (e.1 d a b p) s = .next t ∧ s.vectorDone t id) ∧
        (∃ t, exec (.vcompress d a p) s = .next t ∧ s.vectorDone t id) ∧
        ∃ t, exec (.vexpand d a p) s = .next t ∧ s.vectorDone t id) ∧
      (d.toNat < s.thr.hdr.vregs → b.toNat < s.thr.hdr.vregs → ∀ e ∈ integerReductions,
        ∃ t, exec (e.1 d a b p) s = .next t ∧ s.vectorDone t id)) ∧
    (∀ (s : State) (d a p : Reg), s.vectorFit [3] → s.thr.vl = 0 → s.thr.predOk a → s.thr.predOk p →
      (∃ t, exec (.pfirst d a p) s = .next t ∧ s.vectorDone t id) ∧ ∃ t, exec (.pcount d a p) s = .next t ∧ s.vectorDone t id) ∧
    (∀ (f : MxFmt) (s : State) (d a p : Reg), s.vectorFit [8] → s.thr.vl = 0 → s.thr.groupOk d → s.thr.predOk p →
      s.thr.sew = 8 → s.thr.sew2 ≠ 8 → s.thr.secondOk a → d.toNat + 2 ≤ 32 → d.toNat + 2 ≤ s.thr.hdr.vregs →
      ∃ t, exec (.vmxcvt d a true f p) s = .next t ∧ s.vectorDone t id) ∧
    (∀ (s : State) (d a k p : Reg), s.vectorFit [10] → s.thr.vl = 0 → s.thr.groupOk d → s.thr.predOk p → s.thr.secondOk a →
      s.thr.sew2 ≠ 8 → (k = 8 ∧ s.thr.sew ≠ 8 ∨ k.toNat < vtSlices s.thr.vtype ∧ s.thr.sew = 8) →
      ∃ t, exec (.vslice d a k p) s = .next t ∧ s.vectorDone t id) ∧
    (∀ (s : State) (d a b p : Reg), s.vectorFit [11] → s.thr.vl = 0 → s.thr.sew ≠ 8 → d.toNat < s.thr.hdr.vregs →
      b.toNat < s.thr.hdr.vregs → s.thr.groupOk a → s.thr.predOk p →
      (∀ e ∈ orderedReductions, ∃ t, exec (e.1 d a b p) s = .next t ∧ s.vectorDone t id) ∧
      ∃ t, exec (.vfredsum d a b p) s = .next t ∧ s.vectorDone t id) ∧
    (∀ (s : State) (d a b p : Reg) (c : BitVec 2) (e : ElemWidth), s.thr.vectorOk → s.thr.vl = 0 → s.thr.predOk p →
      (s.thr.groupOk d → 8 * elemBytes e ≤ s.thr.sew →
        (∀ r ∈ vectorLoadRows ++ vectorStoreRows, s.vectorFit [r.cap] → (r.indexed = true → s.thr.secondOk b) →
          ∃ t, exec (r.make d a b p c e) s = .next t ∧ s.vectorDone t id) ∧
        (s.vectorFit [3] →
          (∃ t, exec (.vldff d a p c e) s = .next t ∧ s.vectorDone t id) ∧
          (∀ q x, s.thr.supervisor = false → q.toNat < 8 → Assoc.get? s.thr.binds q.toNat = some x → x.bytes = elemBytes e →
            ∃ t, exec (.vldq d q p e) s = .next t ∧ s.vectorDone t id) ∧
          ∀ n, segmentOk s.thr d n →
            (∃ t, exec (.vlseg d a n p c e) s = .next t ∧ s.vectorDone t id) ∧
            ∃ t, exec (.vsseg d a n p c e) s = .next t ∧ s.vectorDone t id)) ∧
      (s.vectorFit [3] → s.thr.sew = 8 → d.toNat + 2 ≤ 32 → d.toNat + 2 ≤ s.thr.hdr.vregs → ∀ f : MxFmt,
        (∃ t, exec (.vlsegmx d a f p c) s = .next t ∧ s.vectorDone t id) ∧
        ∃ t, exec (.vssegmx d a f p c) s = .next t ∧ s.vectorDone t id) ∧
      (s.vectorFit [3] → (s.thr.predDestOk d → ∃ t, exec (.pld d a) s = .next t ∧ s.vectorDone t id) ∧
        (s.thr.predOk d → ∃ t, exec (.pst d a) s = .next t ∧ s.vectorDone t id)) ∧
      (s.vectorFit [22] → 32 ≤ s.thr.sew → s.thr.sew2 = 64 → s.thr.secondOk a → s.thr.groupOk b →
        (∀ (o : VAmoOp) (u q l : Bool), (u = true → o = .min ∨ o = .max) → s.thr.groupOk d →
          ∃ t, exec (.vamo d a b p o q l u) s = .next t ∧ s.vectorDone t id) ∧
        ∀ w : WaitCond, ∃ t, exec (.vwait a b p w) s = .next t ∧ s.vectorDone t id) ∧
      (s.vectorFit [23] → s.thr.secondOk a → s.thr.groupOk b → ∀ x ∈ churnTable, ∀ w, s.thr.window = some w → w.op = x.2 →
        w.bits = s.thr.sew → ∃ t, exec (x.1 a b p) s = .next t ∧ s.vectorDone t id)) ∧
    ∀ (s : State) (d a b : Reg), s.vectorFit [3, 4] → s.thr.vl = 0 → s.thr.groupOk a → s.thr.micro = none →
      (s.thr.groupOk b → ∃ m n t, exec (.dvdot d a b) s = .next (atMicro s m) ∧
        exec (.dvdot d a b) (atMicro s m) = .next (atMicro s n) ∧
        exec (.dvdot d a b) (atMicro s n) = .next t ∧ s.vectorDone t id) ∧
      (∃ m t, exec (.dvsum d a) s = .next (atMicro s m) ∧ exec (.dvsum d a) (atMicro s m) = .next t ∧ s.vectorDone t id) ∧
      (s.thr.groupOk b → s.thr.groupOk d → ∃ m t, exec (.dvperm d a b) s = .next (atMicro s m) ∧
        exec (.dvperm d a b) (atMicro s m) = .next t ∧ s.vectorDone t id)

/-- With VL above 0, EW at most SEW, legal declared registers, and every active element readable and not held back, vld, vlds, vldx and vldff write each active element with the sign-extended number that the thread sees at its address, and MZ and TZ govern the others; where a later active element of vldff may not be read, or its data hold an uncorrectable error, VL becomes the index of the first such one and the elements below it are written. Outside a handler, vldq takes the next elements of a bound stream that have arrived, one for each active element, and advances it. Each element sees earlier stores of the thread of a compatible alias class, and those of an incompatible class or not. Where it needs bytes of more than one of the thread's stores, or of one and of memory, those stores are performed first, in their order, and the thread goes on seeing what it saw; the clauses ask that no such store is for a peer, that none hides a byte of another in an incompatible class, and that no peer has answered to the instruction. No other register and no flag changes. Choices of the model that clauses rest on: logs 7, 26 and 40. -/
def Obligations.VectorLoadResults : Prop :=
  ∀ (s : State) (d a b p : Reg) (c : BitVec 2) (e : ElemWidth), s.thr.vectorOk → s.thr.vl ≠ 0 → s.thr.groupOk d →
    s.thr.predOk p → 8 * elemBytes e ≤ s.thr.sew → s.thr.atStart →
    (∀ r ∈ vectorLoadRows, ∀ pl : Nat → Place, s.vectorFit [r.cap] → (r.indexed = true → s.thr.secondOk b) →
      (∀ i ∈ s.thr.actives p, s.loadable (r.addr s.thr a b e i) (elemBytes e) (pl i)) →
      s.calm (deviceRanges ((s.thr.actives p).map fun i => (pl i, elemBytes e))) →
      ∃ t l res, exec (r.make d a b p c e) s = .next t ∧ loadDone s t l ∧
        t.thr.fcsr = s.thr.fcsr ∧ s.thr.vecResult t.thr d p res ∧ ∀ i ∈ s.thr.actives p, loadedEither s l c (pl i) e (res i)) ∧
    (∀ pl : Nat → Place, s.vectorFit [3] →
      (∀ i ∈ s.thr.actives p, s.loadable (unitAddr s.thr a b e i) (elemBytes e) (pl i)) →
      s.calm (deviceRanges ((s.thr.actives p).map fun i => (pl i, elemBytes e))) →
      ∃ t l res, exec (.vldff d a p c e) s = .next t ∧ loadDone s t l ∧
        t.thr.fcsr = s.thr.fcsr ∧ s.thr.vecResult t.thr d p res ∧ ∀ i ∈ s.thr.actives p, loadedEither s l c (pl i) e (res i)) ∧
    (∀ (pl : Nat → Place) (f k : Nat), s.vectorFit [3] → f ∈ s.thr.actives p → k ∈ s.thr.actives p → k < f →
      (∀ i ∈ s.thr.actives p, i < f → s.loadable (unitAddr s.thr a b e i) (elemBytes e) (pl i)) →
      ((∃ x, s.place .load (unitAddr s.thr a b e f) (elemBytes e) = .error x ∧ x.ask = none) ∨
        ∃ h, s.place .load (unitAddr s.thr a b e f) (elemBytes e) = .ok h ∧ s.badData s.thr h (elemBytes e) = true) →
      s.calm (deviceRanges (((s.thr.actives p).filter fun i => decide (i < f)).map fun i => (pl i, elemBytes e))) →
      ∃ t l res, exec (.vldff d a p c e) s = .next t ∧
        ((readBy s t).vectorDone t fun u => { u with vl := f, v := t.thr.v }) ∧ tookIn s t l ∧
        ({ s.thr with vl := f } : Thread).vecResult t.thr d p res ∧
        ∀ i ∈ s.thr.actives p, i < f → loadedEither s l c (pl i) e (res i)) ∧
    ∀ (q : Reg) (x : StreamBind) (pl : Nat → Place), s.vectorFit [3] → s.thr.supervisor = false → streamHas s q x (s.thr.actives p).length →
      x.bytes = elemBytes e →
      (∀ k < (s.thr.actives p).length, s.loadable (streamAddr x k) (elemBytes e) (pl k)) →
      s.calm (deviceRanges ((List.range (s.thr.actives p).length).map fun k => (pl k, elemBytes e))) →
      ∃ t l, exec (.vldq d q p e) s = .next t ∧
        ((readBy s t).vectorDone t fun u =>
          { u with v := t.thr.v, binds := streamAfter u q x (u.actives p).length }) ∧ tookIn s t l ∧
        s.thr.vecResult t.thr d p fun i => loadedAt s (pl (rankAt s.thr p i)) e

/-- With EW at most SEW, legal declared registers, and every active element writable and not held back, vst, vsts and vstx complete: at the address of each active element the thread then reads the low EW bits of an element stored there, where several are stored at one address those of exactly one of them, and every byte that no active element covers as before. No register changes. Choices of the model that clauses rest on: logs 8 and 40. -/
def Obligations.VectorStoreResults : Prop :=
  ∀ (s : State) (v a b p : Reg) (c : BitVec 2) (e : ElemWidth), s.thr.vectorOk → s.thr.groupOk v →
    s.thr.predOk p → 8 * elemBytes e ≤ s.thr.sew →
    ∀ r ∈ vectorStoreRows, ∀ pl : Nat → Place, s.vectorFit [r.cap] → (r.indexed = true → s.thr.secondOk b) →
      (∀ i ∈ s.thr.actives p, s.storable (r.addr s.thr a b e i) (elemBytes e) (pl i)) →
      ∃ t, exec (r.make v a b p c e) s = .next t ∧ storedOnly s t ∧
        scattered s t ((s.thr.actives p).map fun i => (pl i, bytesOf (elemBytes e) (elemAt s.thr v i)))

/-- With VL above 0, legal declared registers, and every byte of the active segments accessible and not held back: vlseg writes element i of the group of each field from field f of segment i, and vsseg stores it there; vlsegmx writes the 32 packed elements of each performed block, read at one instant (where no byte of memory holds an error), and its scale byte, and vssegmx stores them packed; pld writes bit i of a predicate below VL from bit i mod 8 of byte i / 8, and pst stores the predicate bits below VL, with zeros above them. What a load sees of the thread's own stores of an incompatible alias class is a free choice; stores that it needs only in part are performed first, as for the vector loads, and no peer has answered to the instruction. Nothing else changes. Choices of the model that clauses rest on: logs 26 and 40. -/
def Obligations.SegmentResults : Prop :=
  ∀ (s : State) (d a p : Reg) (c : BitVec 2), s.vectorFit [3] → s.thr.vectorOk → s.thr.vl ≠ 0 → s.thr.atStart →
    (∀ (n : Reg) (e : ElemWidth) (pl : Nat → Nat → Place), segmentOk s.thr d n → s.thr.predOk p → 8 * elemBytes e ≤ s.thr.sew →
      ((∀ i ∈ s.thr.actives p, ∀ f < n.toNat + 1, s.loadable (fieldAddr s.thr a (n.toNat + 1) e i f) (elemBytes e) (pl i f)) →
        s.calm (deviceRanges ((s.thr.actives p).flatMap fun i => (List.range (n.toNat + 1)).map fun f => (pl i f, elemBytes e))) →
        ∃ t l res, exec (.vlseg d a n p c e) s = .next t ∧
          ((readBy s t).vectorDone t fun u => { u with v := t.thr.v }) ∧ tookIn s t l ∧
          segmentResult s.thr t.thr d p (n.toNat + 1) res ∧
          ∀ i ∈ s.thr.actives p, ∀ f < n.toNat + 1, loadedEither s l c (pl i f) e (res f i)) ∧
      ((∀ i ∈ s.thr.actives p, ∀ f < n.toNat + 1, s.storable (fieldAddr s.thr a (n.toNat + 1) e i f) (elemBytes e) (pl i f)) →
        ∃ t, exec (.vsseg d a n p c e) s = .next t ∧ storedOnly s t ∧
          scattered s t ((s.thr.actives p).flatMap fun i => (List.range (n.toNat + 1)).map fun f =>
            (pl i f, bytesOf (elemBytes e) (s.thr.elem (d.toNat + f * s.thr.grp) i s.thr.sew))))) ∧
    (∀ (f : MxFmt) (pl : Nat → Nat → Place), s.thr.sew = 8 → s.thr.vl % 32 = 0 → d.toNat + 2 ≤ 32 → d.toNat + 2 ≤ s.thr.hdr.vregs →
      s.thr.predOk p →
      ((∀ j ∈ activeBlocks s.thr p, ∀ k < mxBlockBytes f, s.loadable (blockAddr s.thr a f j k) 1 (pl j k)) →
        s.calm (deviceRanges ((activeBlocks s.thr p).flatMap fun j => (List.range (mxBlockBytes f)).map fun k => (pl j k, 1))) →
        ∃ t l, exec (.vlsegmx d a f p c) s = .next t ∧
          ((readBy s t).vectorDone t fun u => { u with v := t.thr.v }) ∧ tookIn s t l ∧
          (∀ j ∈ activeBlocks s.thr p, ∃ m : Nat → State, (∀ k, m k = s ∨ m k = (s.afterStores l).seeing c (deviceRanges ((List.range (mxBlockBytes f)).map fun k => (pl j k, 1)))) ∧
            (s.badMem = [] → ∀ k, m k = m 0) ∧
            (∀ i < 32, t.thr.elem d.toNat (32 * j + i) 8 =
              packElems 8 ((List.range (mxBlockBytes f)).map fun k => ((m k).seen (pl j k)).toNat) / 2 ^ (8 + i * mxBits f) %
                2 ^ mxBits f) ∧
            t.thr.elem (d.toNat + 1) j 8 = ((m 0).seen (pl j 0)).toNat) ∧
          (∀ j, j < s.thr.vlen / 8 → j ∉ activeBlocks s.thr p →
            t.thr.elem (d.toNat + 1) j 8 = s.thr.elem (d.toNat + 1) j 8 ∧
            ∀ i < 32, 32 * j + i < s.thr.vlmax → t.thr.elem d.toNat (32 * j + i) 8 =
              if s.thr.vtype.getLsbD (if 32 * j + i < s.thr.vl then 14 else 13) then 0 else s.thr.elem d.toNat (32 * j + i) 8) ∧
          ∀ r : Fin 32, r.val ≠ d.toNat → r.val ≠ d.toNat + 1 → t.thr.v[r] = s.thr.v[r]) ∧
      ((∀ j ∈ activeBlocks s.thr p, ∀ k < mxBlockBytes f, s.storable (blockAddr s.thr a f j k) 1 (pl j k)) →
        ∃ t, exec (.vssegmx d a f p c) s = .next t ∧ storedOnly s t ∧
          scattered s t ((activeBlocks s.thr p).flatMap fun j => (List.range (mxBlockBytes f)).map fun k =>
            (pl j k, [BitVec.ofNat 8 ((s.thr.elem (d.toNat + 1) j 8 +
              2 ^ 8 * packElems (mxBits f) ((List.range 32).map fun i => s.thr.elem d.toNat (32 * j + i) 8)) / 2 ^ (8 * k))])))) ∧
    ∀ pl : Nat → Place,
      (s.thr.predDestOk d → (∀ k < (s.thr.vl + 7) / 8, s.loadable (s.xr a + BitVec.ofNat 64 k) 1 (pl k)) →
        s.calm (deviceRanges ((List.range ((s.thr.vl + 7) / 8)).map fun k => (pl k, 1))) →
        ∃ t l, exec (.pld d a) s = .next t ∧ ((readBy s t).vectorDone t fun u => { u with p := t.thr.p }) ∧ tookIn s t l ∧
          s.thr.predResult t.thr d 0 fun i => (s.seen (pl (i / 8))).getLsbD (i % 8)) ∧
      (s.thr.predOk d → (∀ k < (s.thr.vl + 7) / 8, s.storable (s.xr a + BitVec.ofNat 64 k) 1 (pl k)) →
        ∃ t, exec (.pst d a) s = .next t ∧ storedOnly s t ∧
          scattered s t ((List.range ((s.thr.vl + 7) / 8)).map fun k => (pl k, [BitVec.ofNat 8
            (packElems 1 ((List.range 8).map fun i => (s.thr.active d (8 * k + i)).toNat))])))

/-- With SEW 32 or 64, SEW2 64, legal declared registers, no store of the thread waiting, every active address accessible, no break asked for between two elements (log 4) and no part of the instruction performed before: vamo performs one atomic for each active element in rising index, writes the old values under R120, and leaves each location with the operation on its old value and the element of vb; vwait completes, changing nothing, when the condition holds for every active element. Choices of the model that clauses rest on: logs 6 and 32. -/
def Obligations.VectorAtomicResults : Prop :=
  ∀ (s : State) (d a b p : Reg) (pl : Nat → Place), s.vectorFit [22] → s.thr.vectorOk → s.thr.vl ≠ 0 → s.thr.sq = [] →
    s.breaks = [] → s.thr.atStart → 32 ≤ s.thr.sew → s.thr.sew2 = 64 → s.thr.secondOk a → s.thr.groupOk b → s.thr.predOk p → (∀ i, userPlace (pl i)) →
    (∀ (o : VAmoOp) (u q l : Bool), (u = true → o = .min ∨ o = .max) → s.thr.groupOk d →
      (∀ i ∈ s.thr.actives p, s.accessible .atomic (BitVec.ofNat 64 (elem2At s.thr a i)) (s.thr.sew / 8) (pl i) ∧
        s.badData s.thr (pl i) (s.thr.sew / 8) = false) →
      ∃ t m, exec (.vamo d a b p o q l u) s = .next t ∧
        m = swept s.thr.vlen (s.thr.sew / 8) pl (fun i old => vamoResult o u s.thr.sew old (elemAt s.thr b i)) (s.thr.actives p) s.seen ∧
        (∀ x, userPlace x → t.seen x = m.1 x) ∧ s.thr.vecResult t.thr d p m.2 ∧
        ({ s with mem := t.mem, homes := t.homes, badMem := t.badMem, thr := { s.thr with
          v := t.thr.v, localStore := t.thr.localStore, stores := t.thr.stores } } : State).vectorDone t id) ∧
    ∀ c : WaitCond,
      (∀ i ∈ s.thr.actives p, s.accessible .atomicRead (BitVec.ofNat 64 (elem2At s.thr a i)) (s.thr.sew / 8) (pl i) ∧
        s.badData s.thr (pl i) (s.thr.sew / 8) = false ∧
        waitHolds c s.thr.sew (s.number (pl i) (s.thr.sew / 8)) (elemAt s.thr b i) = true) →
      ∃ t, exec (.vwait a b p c) s = .next t ∧ s.vectorDone t id

/-- At SEW 32 or 64: chwin opens a window on an aligned table when none is open and the copies fit in CHURNB; an update of the open operation folds the element of vb of each active element into the copy of its lane and index, the first value making the copy, with the flags of a floating-point addition ORed into FCSR, and keeps the copies, of which chwin leaves none, in the order of rising lane and, within a lane, of rising index; churn, when no break is asked for between two folds (log 4) and none has been made before, folds the copies into the table in that order, ORs the flags of the folds into FCSR and closes the window; chdrop closes it without writing. Choices of the model that clauses rest on: log 41. -/
def Obligations.ChurnResults : Prop :=
  ∀ (s : State) (a b p : Reg), s.vectorFit [23] → 32 ≤ s.thr.sew →
    (∀ o : ChOp, s.thr.window = none → (s.xr a).toNat % (s.thr.sew / 8) = 0 → (s.xr b).toNat ≠ 0 →
      s.thr.vlen / 128 * (s.xr b).toNat * (s.thr.sew / 8) ≤ s.thr.hdr.churnb →
      ((s.xr a).toNat + (s.xr b).toNat * (s.thr.sew / 8) ≤ localBase ∨ 2 ^ 49 ≤ (s.xr a).toNat) →
      ∃ t, exec (.chwin o a b) s = .next t ∧ s.vectorDone t fun u =>
        { u with window := some ⟨o, u.sew, s.xr a, (s.xr b).toNat, [], 0, []⟩ }) ∧
    (∀ e ∈ churnTable, ∀ c, s.thr.vectorOk → s.thr.vl ≠ 0 → s.thr.secondOk a → s.thr.groupOk b → s.thr.predOk p →
      s.thr.window = some c → c.op = e.2 → c.bits = s.thr.sew → (∀ i ∈ s.thr.actives p, elem2At s.thr a i < c.n) →
      ∃ t w, exec (e.1 a b p) s = .next t ∧
        (s.vectorDone t fun u => { u with window := some w, fcsr := t.thr.fcsr }) ∧
        w = { c with copies := w.copies } ∧ (inLaneOrder c.copies → inLaneOrder w.copies) ∧
        (∀ k, copyIn w k = (copyAfter c.op s.thr.vfrm c.bits (copyIn c k) (copyValues s.thr a b p k)).1) ∧
        t.thr.fcsr = s.thr.fcsr ||| (orFlags ((s.thr.actives p).map fun i => (copyAfter c.op s.thr.vfrm c.bits
          (copyIn c (copyKey s.thr a i)) (copyValues s.thr a b p (copyKey s.thr a i))).2)).zeroExtend 8) ∧
    (∃ t, exec .chdrop s = .next t ∧ s.vectorDone t fun u => { u with window := none }) ∧
    (s.thr.window = none → ∃ t, exec .churn s = .next t ∧ s.vectorDone t id) ∧
    ∀ (c : ChurnWin) (pl : Nat → Place), s.thr.window = some c → (c.bits = 32 ∨ c.bits = 64) → s.thr.sq = [] → s.badMem = [] →
      s.breaks = [] → s.thr.atStart → c.told = [] →
      (∀ x ∈ c.copies, userPlace (pl x.1.2) ∧
        s.accessible .store (c.base + BitVec.ofNat 64 (x.1.2 * (c.bits / 8))) (c.bits / 8) (pl x.1.2)) →
      ∃ t m, exec .churn s = .next t ∧ m = foldedInto s.thr.vlen c.op s.thr.vfrm c.bits pl c.copies s.seen ∧
        (∀ x, userPlace x → t.seen x = m.1 x) ∧ t.thr.fcsr = s.thr.fcsr ||| (c.flags ||| m.2).zeroExtend 8 ∧
        ({ s with mem := t.mem, homes := t.homes, thr := { s.thr with
          window := none, fcsr := t.thr.fcsr, localStore := t.thr.localStore, stores := t.thr.stores } } : State).vectorDone t id

/-- Outside a handler: qbind binds a stream register to the destination of a COPY that the thread knows, with elements of 1, 2, 4 or 8 bytes on which base and length are whole; qunbind removes the binding; qget of an element that has arrived writes it with its sign to xD and moves on; qavail writes the number of whole elements that have arrived beyond the read position, with bit 63 when no further one will. Choices of the model that clauses rest on: log 24. -/
def Obligations.StreamResults : Prop :=
  ∀ (s : State) (d a b q : Reg), s.scalarFit [17] → s.thr.supervisor = false → q.toNat < 8 →
    (∀ y, s.myTether? (s.xr a) = some y → y.kind = .copy → (toWindow y = true → y.issuer = s.thr.key) → (s.xr b).toNat < 4 →
      y.ops.2.1.toNat % 2 ^ (s.xr b).toNat = 0 → copyEsz y.ops.2.2 * volume y.layout % 2 ^ (s.xr b).toNat = 0 →
      ∃ t, exec (.qbind q a b) s = .next t ∧ t.heldDone { s with thr := { s.thr with
        binds := Assoc.put s.thr.binds q.toNat
          ⟨s.xr a, y.ops.2.1.toNat, copyEsz y.ops.2.2 * volume y.layout, 2 ^ (s.xr b).toNat, 0, none⟩ } } (s.thr.pc + 4)) ∧
    (∃ t, exec (.qunbind q) s = .next t ∧
      t.heldDone { s with thr := { s.thr with binds := Assoc.drop s.thr.binds q.toNat } } (s.thr.pc + 4)) ∧
    ∀ x : StreamBind, Assoc.get? s.thr.binds q.toNat = some x →
      (∀ pl, streamHas s q x 1 → s.loadable (streamAddr x 0) x.bytes pl → s.calm (pl.range x.bytes) →
        ∃ t l, exec (.qget d q) s = .next t ∧ tookIn s t l ∧ t.heldDone
          (({ s with mem := t.mem, homes := t.homes, badMem := t.badMem, thr := { s.thr with sq := t.thr.sq, binds := streamAfter s.thr q x 1 } } : State).setX d
            (extended x.bytes true (s.number pl x.bytes))) (s.thr.pc + 4)) ∧
      ∃ t, exec (.qavail d q) s = .next t ∧ t.heldDone (s.setX d (BitVec.ofNat 64
        ((s.arrived x).1 / x.bytes - x.pos + if (s.arrived x).2 = true ∨ x.pos * x.bytes = x.len then 2 ^ 63 else 0)))
          (s.thr.pc + 4)

/-- On a tile that the thread may name: tcfg with a legal shape configures it with zero contents, trelease unconfigures it, tzero clears a configured one. With VL above 0, on a configured tile: tld and tst move the rows that are active, between the tile and a row stride in memory, the highest row last; the moves take a row or a column into a vector group under R120, with 0 beyond the tile, or out of one; touter adds the product of two vector elements to each element of the active rows, with the flags ORed into FCSR. A tld that needs bytes of more than one of the thread's waiting stores, or of one and of memory, comes after those stores, in their order (none for a peer, none that hides a byte of another in an incompatible class), and no peer has answered to it. A written tile is marked in TDIRTY. With VL = 0 all but the configuring ones only go on. Choices of the model that clauses rest on: logs 38 and 39. -/
def Obligations.TileResults : Prop :=
  ∀ (s : State) (d a b p : Reg), s.vectorFit [12] → s.thr.vectorOk →
    (∀ x, x = s.xr a → tileNamed s.thr d → x.toNat < 2 ^ 14 → x.toNat / 1024 < 10 →
      4 * (x.toNat / 64 % 16 + 1) % (tileTypeBits (x.toNat / 1024) / 8) = 0 →
      ∃ t, exec (.tcfg d a) s = .next t ∧ tileShaped s t d (0x8000 + BitVec.ofNat 16 x.toNat)) ∧
    (tileNamed s.thr d → ∃ t, exec (.trelease d) s = .next t ∧
      if shapeCfg (s.thr.shape d) then tileShaped s t d 0 else s.vectorDone t id) ∧
    (tileOk s.thr d → ∃ t, exec (.tzero d) s = .next t ∧ tileDone s t ∧ t.thr.fcsr = s.thr.fcsr ∧
      t.thr.tdirty = s.thr.tdirty ||| BitVec.ofNat 8 (2 ^ d.toNat) ∧ t.thr.m = s.thr.m.setIfInBounds d.toNat 0) ∧
    (s.thr.vl ≠ 0 → s.thr.predOk p →
      (∀ pl : Nat → Nat → Place, tileOk s.thr d →
        (∀ r c, tileRow s.thr d p r → c < s.thr.tileC d →
          s.loadable (tileAddr s.thr d a b r c) (s.thr.tileT d / 8) (pl r c)) → s.thr.atStart →
        s.calm (deviceRanges (((s.thr.actives p).filter fun r => decide (r < s.thr.tileRows d)).flatMap fun r =>
          (List.range (s.thr.tileC d)).map fun c => (pl r c, s.thr.tileT d / 8))) →
        ∃ t l w, exec (.tld d a b p) s = .next t ∧ tileDone (readBy s t) t ∧ tookIn s t l ∧ t.thr.fcsr = s.thr.fcsr ∧ tileWritten s.thr t.thr d w ∧
          ∀ r c, (tileRow s.thr d p r → w r c = some (s.number (pl r c) (s.thr.tileT d / 8))) ∧
            (¬tileRow s.thr d p r → w r c = none)) ∧
      (∀ pl : Nat → Nat → Place, tileOk s.thr d →
        (∀ r c, tileRow s.thr d p r → c < s.thr.tileC d →
          s.storable (tileAddr s.thr d a b r c) (s.thr.tileT d / 8) (pl r c)) →
        ∃ t, exec (.tst d a b p) s = .next t ∧ storedOnly s t ∧
          storedInOrder s t (((s.thr.actives p).filter fun r => decide (r < s.thr.tileRows d)).flatMap fun r =>
            (List.range (s.thr.tileC d)).map fun c => (pl r c, bytesOf (s.thr.tileT d / 8) (s.thr.tileElem d r c)))) ∧
      (∀ e ∈ tileToVectorTable, tileOk s.thr a → s.thr.groupOk d → s.thr.sew = s.thr.tileT a →
        (s.xr b).toNat < (if e.2 then s.thr.tileRows a else s.thr.tileC a) →
        ∃ t, exec (e.1 d a b p) s = .next t ∧ s.vecDone t ∧ t.thr.fcsr = s.thr.fcsr ∧
          s.thr.vecResult t.thr d p fun i =>
            if e.2 then (if i < s.thr.tileC a then s.thr.tileElem a (s.xr b).toNat i else 0)
            else if i < s.thr.tileRows a then s.thr.tileElem a i (s.xr b).toNat else 0) ∧
      (∀ e ∈ vectorToTileTable, tileOk s.thr d → s.thr.groupOk a → s.thr.sew = s.thr.tileT d →
        (s.xr b).toNat < (if e.2 then s.thr.tileRows d else s.thr.tileC d) →
        ∃ t, exec (e.1 d a b p) s = .next t ∧ tileDone s t ∧ t.thr.fcsr = s.thr.fcsr ∧ tileWritten s.thr t.thr d fun r c =>
          if e.2 then (if r = (s.xr b).toNat ∧ s.thr.active p c = true then some (elemAt s.thr a c) else none)
          else if c = (s.xr b).toNat ∧ s.thr.active p r = true ∧ r < s.thr.tileRows d then some (elemAt s.thr a r) else none) ∧
      (tileOk s.thr d → s.thr.secondOk a → s.thr.secondOk b → s.thr.sew = s.thr.tileT d →
        outerTypes (shapeType (s.thr.shape d)) s.thr.sew2 (s.thr.vtype.getLsbD 4) →
        ∃ t, exec (.touter d a b p) s = .next t ∧ tileDone s t ∧
          (tileWritten s.thr t.thr d fun r c =>
            if s.thr.active p r = true ∧ r < s.thr.tileRows d ∧ c < s.thr.vl then some (outerAt s.thr d a b r c).1 else none) ∧
          t.thr.fcsr = s.thr.fcsr ||| (orFlags (((s.thr.actives p).filter fun r => decide (r < s.thr.tileRows d)).flatMap fun r =>
            (List.range (min s.thr.vl (s.thr.tileC d))).map fun c => (outerAt s.thr d a b r c).2)).zeroExtend 8)) ∧
    (s.thr.vl = 0 → s.thr.predOk p →
      (tileNamed s.thr d → (∃ t, exec (.tld d a b p) s = .next t ∧ s.vectorDone t id) ∧
        (∃ t, exec (.tst d a b p) s = .next t ∧ s.vectorDone t id) ∧
        (s.thr.groupOk a → ∀ e ∈ vectorToTileTable, ∃ t, exec (e.1 d a b p) s = .next t ∧ s.vectorDone t id) ∧
        (s.thr.secondOk a → s.thr.secondOk b → ∃ t, exec (.touter d a b p) s = .next t ∧ s.vectorDone t id)) ∧
      (tileNamed s.thr a → s.thr.groupOk d → ∀ e ∈ tileToVectorTable,
        ∃ t, exec (e.1 d a b p) s = .next t ∧ s.vectorDone t id))

/-- With legal operands, room in the tether table and under the quota, and no store waiting, mma, bload, copy and coll create one QUEUED tether of their kind in a free entry of the thread's die under that entry's generation, with the triple, the layout, the priority and the recorded predecessors, attached to the thread or, with .det and a free reel slot, detached; xD takes its token, and the record of tafter is cleared. Nothing else changes but the device's event clock, the free choices used, the PC, the vector queue and event counters. Choices of the model that clauses rest on: logs 6, 24 and 64. -/
def Obligations.TetherIssueResults : Prop :=
  ∀ e ∈ issueTable, ∀ (s : State) (d a b : Reg) (p : BitVec 3) (det : Bool), s.vectorFit (e.2.2.1 (issuedBy s.thr a b)) →
    a.toNat < 30 → b.toNat < s.thr.hdr.vregs → b.toNat < 32 → e.2.2.2 s (issuedBy s.thr a b) → s.thr.sq = [] →
    s.tableRoom s.thr.key.part s.thr.core.die = true → noBrokenPred s →
    ∃ t u, exec (e.1 d a b p det) s = .next t ∧
      u = { Tether.blank e.2.1 s.thr.key.part s.thr.key.proc s.thr.core.die s.thr.key s.thr.core with
        index := u.index, gen := Assoc.getD s.gens (s.thr.core.die, u.index) 1, prio := p, arrival := s.clock,
        detached := det && decide (s.thrPr.reel < 1024),
        detacher := if det = true ∧ s.thrPr.reel < 1024 then some s.thr.key else none,
        owner := if det = true ∧ s.thrPr.reel < 1024 then none else some s.thr.key,
        ops := (s.xr a, s.xr (a + 1), s.xr (a + 2)), layout := s.thr.layout b, preds := recordedPreds s } ∧
      u.index < 4096 ∧ (∀ x ∈ s.tethers, x.die = s.thr.core.die → x.index ≠ u.index) ∧
      ({ (if det = true ∧ s.thrPr.reel < 1024 then withReel s (s.thrPr.reel + 1) else s) with
        tethers := s.tethers ++ [u], clock := s.clock + 1, freeCtr := t.freeCtr } : State).vectorDone t fun v =>
          ({ v with preds := none } : Thread).setX d (tetherToken u)

/-- twait of a final tether, and ttest of any, write its state code to xD; for the thread that a final one is attached to, its fault delivered before, the tether retires. A token that names no tether of the process gives 7 and changes nothing. tcancel makes a QUEUED tether of a live process CANCELLED, marks a RUNNING one or ends it, beside which only what follows an end may change (QUEUED tethers behind it, copy channels, waiting bursts, the fault FIFO), and does nothing to others. tdetach takes a reel slot for the thread's own tether and gives 1, gives 1 again for one that it has detached, 0 with no slot free, and all ones otherwise; tadopt attaches a detached one and gives 1, else 0. tafter records two predecessors; tstat reads the field that its selector names; tsetpri sets the priority of the thread's own tether that is not final. Nothing else changes. Choices of the model that clauses rest on: logs 46 and 94. -/
def Obligations.TetherControlResults : Prop :=
  ∀ (s : State) (d a b : Reg) (p : BitVec 3) (n : Reg), s.scalarFit [] →
    (∀ y, s.myTether? (s.xr a) = some y → s.tetherAny? (s.xr a) = some y →
      (tetherFinal y = true → y.owner = some s.thr.key → (y.state = .faulted → y.delivered = true) →
        (∃ t, exec (.twait d a) s = .next t ∧ t.heldDone ((withoutTether s y).setX d (stateCode y.state)) (s.thr.pc + 4)) ∧
        ∃ t, exec (.ttest d a) s = .next t ∧ t.heldDone ((withoutTether s y).setX d (stateCode y.state)) (s.thr.pc + 4)) ∧
      (tetherFinal y = true → y.owner ≠ some s.thr.key →
        ∃ t, exec (.twait d a) s = .next t ∧ t.heldDone (s.setX d (stateCode y.state)) (s.thr.pc + 4)) ∧
      ((tetherFinal y = false ∨ y.owner ≠ some s.thr.key) →
        ∃ t, exec (.ttest d a) s = .next t ∧ t.heldDone (s.setX d (stateCode y.state)) (s.thr.pc + 4)) ∧
      (y.state = .queued → s.thrPr.live = true → ∃ t u, exec (.tcancel a) s = .next t ∧ t.heldDone (s.finish (s.xr a) .cancelled .cancel) (s.thr.pc + 4) ∧
        t.tetherAny? (s.xr a) = some u ∧ u.state = .cancelled ∧ u.cause = .cancel) ∧
      (y.state = .running → s.thrPr.live = true → ∃ t u, exec (.tcancel a) s = .next t ∧
        t.heldDone { s with tethers := t.tethers, ports := t.ports, cores := t.cores, parts := t.parts } (s.thr.pc + 4) ∧
        endsBeside s t (s.xr a) ∧ t.tetherAny? (s.xr a) = some u ∧
        (u = { y with cancelling := true } ∨ tetherFinal u = true ∧
          (y.kind = .kernel ∨ y.fenced = false ∧ y.byPeer = false → u.state = .cancelled ∧ u.cause = .cancel))) ∧
      (tetherFinal y = true → ∃ t, exec (.tcancel a) s = .next t ∧ t.heldDone s (s.thr.pc + 4)) ∧
      (y.detached = true → y.detacher = some s.thr.key →
        ∃ t, exec (.tdetach d a) s = .next t ∧ t.heldDone (s.setX d 1) (s.thr.pc + 4)) ∧
      (y.detached = false → y.owner = some s.thr.key →
        ∃ t, exec (.tdetach d a) s = .next t ∧
          t.heldDone (if s.thrPr.reel < 1024 then
            ((withReel s (s.thrPr.reel + 1)).mapTether (s.xr a) fun u =>
              { u with detached := true, owner := none, detacher := some s.thr.key }).setX d 1
            else s.setX d 0) (s.thr.pc + 4)) ∧
      (y.owner ≠ some s.thr.key → (y.detached = true → y.detacher ≠ some s.thr.key) →
        ∃ t, exec (.tdetach d a) s = .next t ∧ t.heldDone (s.setX d (BitVec.allOnes 64)) (s.thr.pc + 4)) ∧
      (∃ t, exec (.tadopt d a) s = .next t ∧
        t.heldDone (if y.detached then
          ((withReel s (s.thrPr.reel - 1)).mapTether (s.xr a) fun u => { u with detached := false, owner := some s.thr.key }).setX d 1
          else s.setX d 0) (s.thr.pc + 4)) ∧
      (n.toNat ≤ 5 → ∃ t, exec (.tstat d a n) s = .next t ∧ t.heldDone (s.setX d (statField y n.toNat)) (s.thr.pc + 4)) ∧
      ∃ t, exec (.tsetpri a p) s = .next t ∧
        t.heldDone (if y.owner = some s.thr.key ∧ tetherFinal y = false then
          s.mapTether (s.xr a) fun u => { u with prio := p } else s) (s.thr.pc + 4)) ∧
    (s.myTether? (s.xr a) = none →
      (∃ t, exec (.twait d a) s = .next t ∧ t.heldDone (s.setX d 7) (s.thr.pc + 4)) ∧
      (∃ t, exec (.ttest d a) s = .next t ∧ t.heldDone (s.setX d 7) (s.thr.pc + 4)) ∧
      (∃ t, exec (.tcancel a) s = .next t ∧ t.heldDone s (s.thr.pc + 4)) ∧
      (∃ t, exec (.tdetach d a) s = .next t ∧ t.heldDone (s.setX d (BitVec.allOnes 64)) (s.thr.pc + 4)) ∧
      (∃ t, exec (.tadopt d a) s = .next t ∧ t.heldDone (s.setX d 0) (s.thr.pc + 4)) ∧
      (n.toNat ≤ 5 → ∃ t, exec (.tstat d a n) s = .next t ∧ t.heldDone (s.setX d (if n = 0 then 7 else 0)) (s.thr.pc + 4)) ∧
      ∃ t, exec (.tsetpri a p) s = .next t ∧ t.heldDone s (s.thr.pc + 4)) ∧
    ∃ t, exec (.tafter a b) s = .next t ∧
      t.heldDone { s with thr := { s.thr with preds := some (s.xr a, s.xr b) } } (s.thr.pc + 4)

/-- For a slot below 16: fbind of 520 aligned readable bytes binds the graph under the next generation and writes 0 to xD, or writes the code of the first rule that the graph breaks and changes nothing (HEADER, OPCODE and FIELD of any image with some of their conditions, and the later codes of families of graphs that break one rule); funbind removes the binding; fprefetch starts to load a bound graph that is in no plane, where a plane is free and it is not being loaded, and else only goes on; fquery writes 0 for an unbound slot, and for a bound one its generation, its cycles and its flags. Choices of the model that clauses rest on: log 37. -/
def Obligations.FabricSlotResults : Prop :=
  binderCodes ∧ ∀ (s : State) (d a b : Reg), s.scalarFit [] →
    (∀ bs g, (s.xr b).toNat < 16 → (s.xr a).toNat % 8 = 0 → s.readSpan .image (s.xr a) 520 = .ok bs →
      g = (List.range 65).map (fun i => BitVec.ofNat 64 (natOfBytes ((bs.drop (8 * i)).take 8))) →
      (bindCode g ≠ 0 → ∃ t, exec (.fbind d a b) s = .next t ∧
        t.heldDone (s.setX d (BitVec.ofNat 64 (bindCode g))) (s.thr.pc + 4)) ∧
      (bindCode g = 0 → ∃ t, exec (.fbind d a b) s = .next t ∧ planesOnly s t (s.xr b).toNat ∧
        t.heldDone { (withSlot s (s.xr b).toNat ⟨some g, if (slotOf s (s.xr b).toNat).gen = 0xFFFFFFFF then 1
          else (slotOf s (s.xr b).toNat).gen + 1⟩).setX d 0 with cores := t.cores } (s.thr.pc + 4))) ∧
    ((s.xr a).toNat < 16 →
      (∃ t, exec (.funbind a) s = .next t ∧
        if (slotOf s (s.xr a).toNat).graph.isSome then planesOnly s t (s.xr a).toNat ∧
          t.heldDone { withSlot s (s.xr a).toNat ⟨none, (slotOf s (s.xr a).toNat).gen⟩ with cores := t.cores } (s.thr.pc + 4)
        else t.heldDone s (s.thr.pc + 4)) ∧
      ((slotOf s (s.xr a).toNat).graph = none ∨ (planeOf s (s.xr a).toNat).isSome ∨ (s.core s.thr.core).freePlane = none ∨
        (s.core s.thr.core).loadingOf s.thr.key.part s.thr.key.proc (s.xr a).toNat (slotOf s (s.xr a).toNat).gen = true →
        ∃ t, exec (.fprefetch a) s = .next t ∧ t.heldDone s (s.thr.pc + 4)) ∧
      (∀ g p, (slotOf s (s.xr a).toNat).graph = some g → planeOf s (s.xr a).toNat = none →
        (s.core s.thr.core).loadingOf s.thr.key.part s.thr.key.proc (s.xr a).toNat (slotOf s (s.xr a).toNat).gen = false →
        (s.core s.thr.core).freePlane = some p →
        ∃ t, exec (.fprefetch a) s = .next t ∧ t.heldDone { s.setCore s.thr.core { s.core s.thr.core with
          planes := Assoc.drop (s.core s.thr.core).planes p,
          loading := Assoc.put (s.core s.thr.core).loading p
            ⟨s.thr.key.part, s.thr.key.proc, (s.xr a).toNat, (slotOf s (s.xr a).toNat).gen, g, s.clock⟩ } with
          clock := s.clock + 1 } (s.thr.pc + 4)) ∧
      ((slotOf s (s.xr a).toNat).graph = none → ∃ t, exec (.fquery d a) s = .next t ∧ t.heldDone (s.setX d 0) (s.thr.pc + 4)) ∧
      ∀ g, (slotOf s (s.xr a).toNat).graph = some g → ∃ t, exec (.fquery d a) s = .next t ∧
        t.heldDone (s.setX d (BitVec.ofNat 64 ((slotOf s (s.xr a).toNat).gen.toNat * 2 ^ 32 + graphCycles g * 2 ^ 16 +
          16 * (needsMem g).toNat + 8 * (needsFp g).toNat + 4 + 2 * (planeOf s (s.xr a).toNat).isSome.toNat + 1)))
          (s.thr.pc + 4))

/-- With legal declared registers, a bound slot and no fabric fault record: with VL = 0 a fop only goes on; with VL above 0, streams of the width of SEW, a fabric that runs nothing and the graph in a plane, it takes the plane and starts both streams at 0, stream 0 with length VL and stream 1 with VL or, for .vlb, VLB, and its thread is BLOCKED while the graph runs. With a valid record of the slot and the generation it goes on at the recorded positions and values. No register changes. Choices of the model that clauses rest on: logs 42 and 88. -/
def Obligations.FopResults : Prop :=
  ∀ e ∈ fopTable, ∀ (s : State) (d a b p : Reg) (n : BitVec 4) (g : List Word), s.vectorFit (graphCaps g) → fopOk s.thr d a b p →
    (slotOf s n.toNat).graph = some g →
    (s.thr.ffcause.getLsbD 63 = false → s.thr.vl = 0 → ∃ t, exec (e.1 d a b p n) s = .next t ∧ s.vectorDone t id) ∧
    (∀ k r, s.thr.ffcause.getLsbD 63 = false → s.thr.vl ≠ 0 → typeClash g s.thr.sew = false →
      (s.core s.thr.core).run = none → planeOf s n.toNat = some k →
      r = FabricRun.start s.thr n.toNat k (slotOf s n.toNat).gen g d a b p e.2 s.thr.vl
        (if e.2 then s.thr.vlb else s.thr.vl) 0 0 0 [] →
      ∃ t, exec (e.1 d a b p n) s = .next t ∧ (t.core s.thr.core).run = some r ∧
        t = { s with cores := t.cores, clock := s.clock + 1, thr := { s.thr with life := .blocked, started := true } } ∧
        ∀ c, t.core c = { s.core c with run := (t.core c).run, planes := (t.core c).planes }) ∧
    ∀ k r h, s.thr.ffcause.getLsbD 63 = true → bitsAt s.thr.ffcause.toNat 8 4 = n.toNat → s.thr.ffcause.toNat % 256 < 8 →
      s.thr.ffhidden = some h → h.gen = (slotOf s n.toNat).gen → (s.core s.thr.core).run = none → planeOf s n.toNat = some k →
      r = FabricRun.start s.thr n.toNat k h.gen g d a b p e.2 (s.thr.ffidx[0].toNat / 2 ^ 32) (s.thr.ffidx[1].toNat / 2 ^ 32)
        (s.thr.ffidx[0].toNat % 2 ^ 32) (s.thr.ffidx[1].toNat % 2 ^ 32) (s.thr.ffidx[2].toNat % 2 ^ 32)
        (resumeVals g s.thr h.vals) →
      ∃ t, exec (e.1 d a b p n) s = .next t ∧ (t.core s.thr.core).run = some r ∧
        t = { s with cores := t.cores, clock := s.clock + 1, thr := { s.thr with life := .blocked, started := true } }

/-- For the run of the thread that has the turn, with no store held, an element whose slots hold the tokens that its operation needs and whose targets have room fires. A computing element takes its data tokens and sends its result to every target, with its flags kept for the end. At the end of every used stream a computing element, filter, gate, dup and agen pass one end on, ld and st too once no load of theirs is out; ends beside data in the used slots are MISMATCH, met without a firing (merge, isect and eos apart). acc and facc add, send and reset their value as R211 says; count numbers its tokens and sends the total before the end where COND asks; filter and gate send or discard by the predicate; merge and isect choose between two streams; dup sends one of its copies and takes its tokens with the last, and a count above 4,096 is RANGE; an agen sends the address of its counter and takes its tokens with the last, and an extent of 0 or above 4,096 is RANGE; in presents the next element, and then the end; out appends, passes the end on, or meets OVERFLOW at VLMAX; sink takes any token; eos discards data, and its last end issues the end-of-round. A ld whose access passes R108 and stalls on no watermark, with no load of its own out, joins the loads; such a st holds its bytes, or issues them at once where nothing before them is left to settle, and sends its address on. An access that fails R108 is kept for the stop. Choices of the model that clauses rest on: logs 42, 43, 44 and 89. -/
def Obligations.FabricFiringResults : Prop :=
  ∀ (s : State) (r : FabricRun) (f : Nat), runsHere s r → f < 64 →
    (∀ toks : List Token, r.heads f (r.fe f).slots = some toks → toks ≠ [] → r.room f 1 = true →
      ((r.fe f).op ∈ computing → (∀ x ∈ toks, x.data.isSome) →
        ∃ q, q = (r.fe f).compute s.thr.vfrm (((r.head f 0).map Token.num).getD 0) (((r.head f 1).map Token.num).getD 0)
            (((r.head f 2).map Token.num).getD 0) ∧
          firesTo s f { (r.popAll f (r.fe f).slots).send f (some q.1) (sources toks) with flags := r.flags ||| q.2 }) ∧
      ((∀ x ∈ toks, x.data = none) →
        ((r.fe f).op ∈ computing ++ [27, 30, 31, 33] → firesTo s f ((r.popAll f (r.fe f).slots).send f none (sources toks))) ∧
        ((r.fe f).op ∈ [34, 35] → (∀ x ∈ r.fails, x.fe ≠ f) → (∀ x ∈ r.loads, x.fe ≠ f) →
          firesTo s f ({ r.popAll f (r.fe f).slots with ended := 4 * f :: r.ended }.send f none (sources toks)))) ∧
      ((r.fe f).op ∈ computing ++ [24, 25, 27, 30, 31, 33, 34, 35] → (∃ x ∈ toks, x.data = none) → (∃ x ∈ toks, x.data ≠ none) →
        (∀ x ∈ r.fails, x.fe ≠ f) → meets s f r .mismatch)) ∧
    ((r.fe f).op = 24 ∨ (r.fe f).op = 25 → ∀ toks : List Token, r.heads f (r.fe f).slots = some toks →
      (∀ w, (r.head f 0).bind Token.data = some w → r.room f 1 = true →
        (bit (r.fe f).flags 1 = false → firesTo s f (accData s.thr.vfrm r f w false (sources toks))) ∧
        ∀ c, bit (r.fe f).flags 1 = true → (r.head f 2).bind Token.data = some c →
          firesTo s f (accData s.thr.vfrm r f w (truthAs (r.fe f).ty c.toNat) (sources toks))) ∧
      ((∀ x ∈ toks, x.data = none) →
        r.room f (if bit (r.fe f).flags 1 = false ∨ (r.val f).added = true then 2 else 1) = true →
        firesTo s f (accEnd r f (sources toks)))) ∧
    ((r.fe f).op = 26 → ∀ a, r.head f 0 = some a →
      (a.data ≠ none → r.room f 1 = true → firesTo s f (countData r f a.src)) ∧
      (a.data = none → r.room f (if bit (r.fe f).cond 0 then 2 else 1) = true → firesTo s f (countEnd r f a.src))) ∧
    ((r.fe f).op = 27 ∨ (r.fe f).op = 31 → ∀ a p w c, r.head f 0 = some a → r.head f 2 = some p → a.data = some w → p.data = some c →
      r.room f 1 = true → firesTo s f (filtered r f w c (sources [a, p]))) ∧
    ((r.fe f).op = 28 ∨ (r.fe f).op = 29 → ∀ a b, r.head f 0 = some a → r.head f 1 = some b → r.room f 1 = true →
      firesTo s f (merged r f a b)) ∧
    ((r.fe f).op = 30 → ∀ a b w c n, r.head f 0 = some a → r.head f 1 = some b → a.data = some w → b.data = some c →
      n = (if (r.fe f).ty = 3 then c.toNat else c.toNat % 2 ^ 32) → r.room f 1 = true →
      if 4096 < n then meets s f r .range else firesTo s f (duplicated r f n w (sources [a, b]))) ∧
    ((r.fe f).op = 33 → ∀ toks a n, r.heads f (r.fe f).slots = some toks → (∀ x ∈ toks, x.data.isSome) → r.stopping = false →
      a = ((r.head f 0).map Token.num).getD 0 →
      n = (if (r.fe f).imm % 4096 = 0 then ((r.head f 1).map Token.num).getD 0 else (r.fe f).imm % 4096) → r.room f 1 = true →
      (n = 0 ∨ 4096 < n → meets s f r .range) ∧
      (0 < n → n ≤ 4096 → (r.val f).k < n → firesTo s f (stepped r f n a (sources toks)))) ∧
    ((r.fe f).op = 3 → (r.fe f).cond ≤ 1 → r.stopping = false → 4 * f ∉ r.ended → r.room f 1 = true → ∀ c i len, c = (r.fe f).cond →
      len = (if c = 0 then r.len0 else r.len1) →
      (nextOf s r c i → i < len → FabricRun.presents s r c i = true →
        firesTo s f ((seekTo r c (i + 1)).send f
          (some (writeAs (r.fe f).ty (readAs (r.fe f).ty (s.thr.elem (if c = 0 then r.va else r.vb) i s.thr.sew)))) [.elem c i])) ∧
      (i = max len (if c = 0 then r.next0 else r.next1) → nextOf s r c i →
        firesTo s f ({ seekTo r c i with ended := 4 * f :: r.ended }.send f none [.elem c len]))) ∧
    ((r.fe f).op = 4 → ∀ x, r.head f 3 = some x →
      (x.data = none → r.room f 1 = true → firesTo s f ((r.pop f 3).send f none x.src)) ∧
      ∀ w, x.data = some w →
        if r.outBase + r.outs.length < s.thr.vlmax then firesTo s f { r.pop f 3 with outs := r.outs ++ [(w.toNat, x.src)] }
        else meets s f r .overflow) ∧
    ((r.fe f).op = 32 → ∀ x, r.head f 0 = some x → firesTo s f (if x.data = none then r.pop f 0 else (r.pop f 0).drop x.src)) ∧
    ((r.fe f).op = 36 → ∀ q x, (r.fe f).slots.find? (fun q => (r.head f q).isSome) = some q → r.head f q = some x →
      firesTo s f (if x.data = none then
        { r.pop f q with ended := (4 * f + q) :: r.ended,
                         round := r.round || (r.fe f).slots.all fun k => ((4 * f + q) :: r.ended).contains (4 * f + k) }
        else (r.pop f q).drop x.src)) ∧
    ((r.fe f).op = 34 → ∀ a w, r.head f 0 = some a → a.data = some w → accepts r f →
      (∀ pl, s.loadable (memAddr (r.fe f) w) (memWidth (r.fe f)) pl → (∀ x ∈ r.loads, x.fe ≠ f) →
        firesTo s f { issuedBy1 r f with loads := r.loads ++ [⟨r.accepted, f, memAddr (r.fe f) w, [], sources [a]⟩] }) ∧
      ∀ e, (memAddr (r.fe f) w).toNat % memWidth (r.fe f) = 0 → s.place .load (memAddr (r.fe f) w) (memWidth (r.fe f)) = .error e → e.ask = none →
        firesTo s f { issuedBy1 r f with
          fails := r.fails ++ [⟨e.cause, memAddr (r.fe f) w, e.record, chainOwn (r.fe f), f, sources [a], r.accepted⟩] }) ∧
    ((r.fe f).op = 35 → ∀ a b w v pl, r.head f 0 = some a → r.head f 1 = some b → a.data = some w → b.data = some v → accepts r f →
      userPlace pl → s.storable (memAddr (r.fe f) w) (memWidth (r.fe f)) pl →
      ∃ t q, exec (.feFire s.thr.core f) s = .next t ∧
        ((q.stores = [⟨r.accepted, f, memAddr (r.fe f) w, cellsAt (keyOf pl) (bytesOf (memWidth (r.fe f)) v.toNat), sources [a, b]⟩] ∧
            q.chained = r.chained ∧ t = { withRun s (some q) with thr := { s.thr with evcnt := t.thr.evcnt } }) ∨
          (q.stores = [] ∧ s.stored t pl (bytesOf (memWidth (r.fe f)) v.toNat) ∧
            t = { withRun s (some q) with
              badReg := t.badReg
              thr := { s.thr with evcnt := t.thr.evcnt, sq := t.thr.sq, stores := s.thr.stores + 1, localStore := t.thr.localStore } })) ∧
        q = { (issuedBy1 r f).send f (some w) (sources [a, b]) with stores := q.stores, chained := q.chained })

/-- For the run of the thread that has the turn, with no store held: a load under way, whose bytes are here and can be read, which no load of its chain comes before and before which no store of its chain waits, returns the number that the thread sees there under its TYPE, after the waiting stores that it needs only in part; the end-of-round reaches an element once, and gives it its initial running value, an agen its initial counter; a drained run completes its fop: the outputs stand in vd, VL is their number (at most VLMAX: log 70), the record is cleared, the PC moves on and the thread is READY. A run of a group that fits stops with a record of its slot, its cause, the positions of streams 0 and 1 and the index of its next output (0 at OVERFLOW), the settled outputs in vd from the first index on, and every other element of vd and every other vector register as before: at a failing access with no other stop event outside a handler, the trap of that name, TVAL and FFADDR the failing address and TELEM the position of stream 0; at MISMATCH or RANGE alone, FABRIC_ERR with TVAL the FFCAUSE of 9 or 11; at OVERFLOW alone, the fop completes with VL the settled outputs and FFIDX2 0; pre-empted, cause 7 and its thread READY at the same PC. A graph that has been loaded is in its plane while its binding stands. Choices of the model that clauses rest on: logs 37, 42, 43, 44 and 72. -/
def Obligations.FabricStepResults : Prop :=
  (∀ (s : State) (r : FabricRun) (l : FabricAccess) (dpa w : Nat), runsHere s r → (r.loads.find? fun x => decide (x.fe = l.fe)) = some l →
      (∀ x ∈ r.loads, r.chainHead x.fe = r.chainHead l.fe → l.num ≤ x.num) →
      w = memWidth (r.fe l.fe) → s.loadable l.addr w (.device dpa) → (∀ p ∈ s.thr.sq, p.seq ∉ r.chainedOf l.fe) → s.calm [⟨dpa, w⟩] →
      ∃ t m v all, exec (.fabricLdReturn s.thr.core l.fe) s = .next t ∧ s.marks m ∧
        (v = s.number (.device dpa) w ∨ v = ((s.afterStores m).seeing (r.clsOf l.fe) [⟨dpa, w⟩]).number (.device dpa) w) ∧
        t = { withRun (s.afterStores m) (some (({ r with loads := r.loads.filter fun x => decide (x.fe ≠ l.fe) } : FabricRun).send l.fe
          (some (writeAs (r.fe l.fe).ty (readAs (r.fe l.fe).ty v))) l.src)) with
            freeCtr := t.freeCtr
            homes := t.homes
            badMem := t.badMem
            thr := ((s.afterStores m).thr.noteRead (r.clsOf l.fe) all [⟨dpa, w⟩]).spendAnswer (.device dpa) w }) ∧
  (∀ (s : State) (r : FabricRun) (f : Nat), runsHere s r → r.round = true → f < 64 → f ∉ r.reached →
      ∃ t q, exec (.endOfRoundArrival s.thr.core f) s = .next t ∧ t = withRun s (some q) ∧ q.reached = f :: r.reached ∧
        q = { r with reached := q.reached, vals := q.vals, hist := q.hist } ∧
        ∀ k, q.val k = if k = f ∧ (f ∈ recordedFes r.graph ∨ f ∈ fesOf r.graph 33) then (r.fe f).initVal else r.val k) ∧
  (∀ (s : State) (r : FabricRun), runsHere s r → r.drained = true → s.thr.sq = [] → s.thr.vectorOk → s.thr.grp ≤ 32 - r.vd →
      ∃ t, exec (.fopComplete s.thr.core) s = .next t ∧ (t.core s.thr.core).run = none ∧ t.mem = s.mem ∧ t.others = s.others ∧
        (t.thr.vl, t.thr.ffcause, t.thr.ffaddr, t.thr.ffhidden, t.thr.pc, t.thr.life) =
          (min (r.outBase + r.outs.length) s.thr.vlmax, 0, 0, none, s.thr.pc + 4, .ready) ∧
        t.thr.ffidx = Vector.replicate 8 0 ∧ t.thr.fcsr = s.thr.fcsr ||| r.flags.zeroExtend 8 ∧ t.thr.x = s.thr.x ∧
        (∀ i < s.thr.vlmax, t.thr.elem r.vd i s.thr.sew =
          if i < r.outBase then s.thr.elem r.vd i s.thr.sew
          else if i < r.outBase + r.outs.length then (r.outs.map Prod.fst)[i - r.outBase]?.getD 0 % 2 ^ s.thr.sew
          else if s.thr.vtype.getLsbD 13 then 0 else s.thr.elem r.vd i s.thr.sew) ∧
        ∀ k : Fin 32, (k.val < r.vd ∨ r.vd + s.thr.grp ≤ k.val) → t.thr.v[k] = s.thr.v[k]) ∧
  (∀ (s : State) (r : FabricRun) (e0 e1 k : Nat), runsHere s r → s.thr.vectorOk → s.thr.grp ≤ 32 - r.vd →
      e0 = (FabricRun.restart s r).e0 → e1 = (FabricRun.restart s r).e1 → k = (settledOutputs s r).length →
      (∀ e ∈ failTable, ∀ x : FabricFail, r.events = [] → r.fails = [x] → x.cause = e.1 → s.thr.supervisor = false →
        ∃ t, exec (.fopStop s.thr.core) s = .next t ∧ (t.core s.thr.core).run = none ∧ t.mem = s.mem ∧ t.others = s.others ∧
          (t.thr.ffcause, t.thr.ffaddr, t.thr.ffidx[0], t.thr.ffidx[1], t.thr.ffidx[2]) = (stopRecord r e.2, x.addr,
            BitVec.ofNat 64 (r.len0 * 2 ^ 32 + e0), BitVec.ofNat 64 (r.len1 * 2 ^ 32 + e1), BitVec.ofNat 64 (r.outBase + k)) ∧
          outputsStand s t r ∧
          (t.thr.tcause, t.thr.tval, t.thr.telem, t.thr.tpc) =
            (BitVec.ofNat 64 (causeCode x.cause), x.addr, BitVec.ofNat 64 e0, s.thr.pc) ∧
          t.thr.supervisor = true ∧ t.thr.pc = (s.part s.thr.key.part).entry ∧ t.thr.vl = s.thr.vl) ∧
      (∀ e ∈ [(FabricEvent.mismatch, 9), (.range, 11)], r.events = [e.1] → r.fails = [] → s.thr.supervisor = false →
        ∃ t, exec (.fopStop s.thr.core) s = .next t ∧ (t.core s.thr.core).run = none ∧ t.mem = s.mem ∧ t.others = s.others ∧
          (t.thr.ffcause, t.thr.ffaddr, t.thr.ffidx[0], t.thr.ffidx[1], t.thr.ffidx[2]) = (stopRecord r e.2, 0,
            BitVec.ofNat 64 (r.len0 * 2 ^ 32 + e0), BitVec.ofNat 64 (r.len1 * 2 ^ 32 + e1), BitVec.ofNat 64 (r.outBase + k)) ∧
          outputsStand s t r ∧
          (t.thr.tcause, t.thr.tval, t.thr.telem, t.thr.tpc) =
            (BitVec.ofNat 64 (causeCode .fabricErr), stopRecord r e.2, BitVec.ofNat 64 e0, s.thr.pc) ∧
          t.thr.supervisor = true ∧ t.thr.pc = (s.part s.thr.key.part).entry ∧ t.thr.vl = s.thr.vl) ∧
      (r.events = [.overflow] → r.fails = [] →
        ∃ t, exec (.fopStop s.thr.core) s = .next t ∧ (t.core s.thr.core).run = none ∧ t.mem = s.mem ∧ t.others = s.others ∧
          (t.thr.ffcause, t.thr.ffaddr, t.thr.ffidx[0], t.thr.ffidx[1], t.thr.ffidx[2]) = (stopRecord r 6, 0,
            BitVec.ofNat 64 (r.len0 * 2 ^ 32 + e0), BitVec.ofNat 64 (r.len1 * 2 ^ 32 + e1), 0) ∧ outputsStand s t r ∧
          (t.thr.pc, t.thr.life, t.thr.x) = (s.thr.pc + 4, .ready, s.thr.x) ∧
          t.thr.vl = min (r.outBase + k) s.thr.vlmax) ∧
      (r.events = [.preempt] → r.fails = [] →
        ∃ t, exec (.fopStop s.thr.core) s = .next t ∧ (t.core s.thr.core).run = none ∧ t.mem = s.mem ∧ t.others = s.others ∧
          (t.thr.ffcause, t.thr.ffaddr, t.thr.ffidx[0], t.thr.ffidx[1], t.thr.ffidx[2]) = (stopRecord r 7, 0,
            BitVec.ofNat 64 (r.len0 * 2 ^ 32 + e0), BitVec.ofNat 64 (r.len1 * 2 ^ 32 + e1), BitVec.ofNat 64 (r.outBase + k)) ∧
          outputsStand s t r ∧ t.thr.life = .ready ∧
          t.thr.pc = s.thr.pc ∧ t.thr.x = s.thr.x ∧ t.thr.vl = s.thr.vl)) ∧
  ∀ (s : State) (c : CoreId) (n : Nat) (p : Plane), Assoc.get? (s.core c).loading n = some p →
      ∃ t, exec (.planeLoad c n) s = .next t ∧
        t = s.setCore c { s.core c with
          loading := Assoc.drop (s.core c).loading n
          planes := if ((s.proc p.part p.proc).slot p.slot).graph.isSome ∧ ((s.proc p.part p.proc).slot p.slot).gen = p.gen
            then Assoc.put (s.core c).planes n p else (s.core c).planes }

/-- In user mode: syscall, its earlier stores performed, enters the handler with cause 14 and TPC past it; brk enters it with cause 13 and TPC at itself; a trap asked for at the next instruction enters it with its cause, TVAL and TELEM, MIGRATED giving the thread its new FVER, but a MIGRATED that is pending is taken in its place, with the device's FVER as TVAL; XLATE and PROTECT that no translation raised record STAGE 0 and no address (the other fields are free, log 98), and FENCED takes the thread off its core instead. Entering writes the trap CSRs, TSTEP among them with the micro-step of a deprecated instruction under way, for MIGRATED that at which the thread left its core; it saves x1 to x31, FCSR and the trap CSRs in the CSA and changes nothing else there but BPSKIP, gives the handler its sp, th and rounding mode, sets the PC to the partition's handler entry, and changes neither memory nor the vector registers. In a handler each of them halts the thread with a HANDLER_FAULT entry. Choices of the model that clauses rest on: logs 5 and 60. -/
def Obligations.TrapEntryResults : Prop :=
  (∀ s : State, s.scalarFit [] → s.thr.sq = [] → s.thr.supervisor = false →
      (∃ t, exec .syscall s = .next t ∧ trapEntered s t 14 (s.thr.pc + 4) 0 0) ∧
      ∃ t, exec .brk s = .next t ∧ trapEntered s t 13 s.thr.pc 0 0) ∧
  (∀ s : State, s.scalarFit [] → s.thr.sq = [] → s.thr.supervisor = true → s.thr.key.part < 16 →
      (∃ t, exec .syscall s = .next t ∧ haltedBy s t 14) ∧ ∃ t, exec .brk s = .next t ∧ haltedBy s t 13) ∧
  ∀ (s : State) (c : TrapCause) (tval telem : Word), s.thr.life = .ready → s.thr.begun = none →
    (s.thr.supervisor = false → s.thr.migrated = true → ∃ t, exec (.trapEntry c tval telem) s = .next t ∧
      trapEntered s t 15 s.thr.pc s.dfver 0 ∧ t.thr.fver = s.dfver ∧ t.thr.migrated = false) ∧
    (s.thr.supervisor = false → s.thr.migrated = false → c ≠ .fenced → ∃ t, exec (.trapEntry c tval telem) s = .next t ∧
      trapEntered s t (causeCode c) (if c = .syscall then s.thr.pc + 4 else s.thr.pc) tval telem ∧
      t.thr.fver = (if c = .migrated then s.dfver else s.thr.fver) ∧ (c = .migrated → t.thr.migrated = false) ∧
      (c = .xlate ∨ c = .protect → t.thr.csa.load 0x268 8 < 256 ∧ t.thr.csa.load 0x268 8 % 4 = 0 ∧ t.thr.csa.load 0x270 8 = 0)) ∧
    (s.thr.supervisor = false → s.thr.migrated = false → c = .fenced → ∃ t, exec (.trapEntry c tval telem) s = .next t ∧ fencedOff s t tval.toNat) ∧
    (s.thr.supervisor = true → s.thr.key.part < 16 → ∃ t, exec (.trapEntry c tval telem) s = .next t ∧ haltedBy s t (causeCode c))

/-- Outside a handler, with room in the run-ahead window and the vector queue: a scalar instruction of the tables, short or prefixed, or an element-wise, comparing, loading or storing vector instruction with legal declared operands, whose capability USEMASK lacks raises UNDECLARED with its word or words; one that has not started and whose capability USEMASK holds and the core's mask lacks, FENCED, is sent away from the core with the trap CSRs of FENCED and never enters a handler; a scalar load or store, short or prefixed, whose address is not aligned raises ALIGN with the address, and jalr to a target that is no multiple of 4 raises it with the target; eret, claim and unclaim raise ILLEGAL with their word. No register but those of the handler and no byte of memory changes. -/
def Obligations.CheckedTraps : Prop :=
  ∀ s : State, s.thr.supervisor = false → s.thr.vq.length < 64 → s.thr.ahead < 64 → s.thr.begun = none →
    (∀ i c, scalarNeeds i c ∨ (s.thr.vectorOk ∧ vectorNeeds s.thr i c) →
      (s.thr.hdr.usemask.getLsbD c = false →
        ∃ t, exec i s = .next t ∧ trapEntered s t 2 s.thr.pc (wordsOf i) 0 ∧
          (scalarNeeds i c → t.thr.tvcp.getLsbD 63 = false) ∧ (vectorNeeds s.thr i c → t.thr.tvcp.getLsbD 63 = true)) ∧
      (s.thr.hdr.usemask.getLsbD c = true → (s.core s.thr.core).cap.getLsbD c = false → s.thr.started = false →
        ∃ t, exec i s = .next t ∧ fencedOff s t c)) ∧
    (s.scalarFit [0] → ∀ (d a : Reg) (c : BitVec 2),
      (∀ e ∈ loadTable,
        (∀ o : BitVec 11, (address (s.xr a) o e.2.2.1).toNat % e.2.2.1 ≠ 0 →
          ∃ t, exec (e.1 d a c o) s = .next t ∧ trapEntered s t 4 s.thr.pc (address (s.xr a) o e.2.2.1) 0) ∧
        ∀ o : BitVec 37, (address (s.xr a) o e.2.2.1).toNat % e.2.2.1 ≠ 0 →
          ∃ t, exec (.lpxPair (.load e.2.1 d a c o)) s = .next t ∧ trapEntered s t 4 s.thr.pc (address (s.xr a) o e.2.2.1) 0) ∧
      (∀ e ∈ storeTable,
        (∀ o : BitVec 11, (address (s.xr a) o e.2.2).toNat % e.2.2 ≠ 0 →
          ∃ t, exec (e.1 d a c o) s = .next t ∧ trapEntered s t 4 s.thr.pc (address (s.xr a) o e.2.2) 0) ∧
        ∀ o : BitVec 37, (address (s.xr a) o e.2.2).toNat % e.2.2 ≠ 0 →
          ∃ t, exec (.lpxPair (.store e.2.1 d a c o)) s = .next t ∧ trapEntered s t 4 s.thr.pc (address (s.xr a) o e.2.2) 0) ∧
      (∀ i : BitVec 16, (s.xr a + i.signExtend 64).toNat % 4 ≠ 0 →
        ∃ t, exec (.jalr d a i) s = .next t ∧ trapEntered s t 4 s.thr.pc (s.xr a + i.signExtend 64) 0) ∧
      ∀ i : BitVec 42, (s.xr a + i.signExtend 64).toNat % 4 ≠ 0 →
        ∃ t, exec (.lpxPair (.jalr d a i)) s = .next t ∧ trapEntered s t 4 s.thr.pc (s.xr a + i.signExtend 64) 0) ∧
    ∀ i ∈ [Instr.eret, .claim, .unclaim], ∃ t, exec i s = .next t ∧ trapEntered s t 1 s.thr.pc (wordsOf i) 0

/-- In a handler: claim, the first time, puts the vector registers, the predicates, the dirty tiles and the control registers of the victim, TSHAPE, the fabric record and the event counters among them, into the CSA (a counter of a source that depends on time or on caches as a free value, log 5), notes the claim there, and leaves VTYPE, VL, VLB, TSHAPE and TDIRTY zero; unclaim, once claimed, takes vector registers, predicates, tiles, VTYPE, VL, VLB, TSHAPE and TDIRTY back from the CSA when the CSA can be taken and holds no uncorrectable error; a second claim and an unclaim without a claim only go on. eret, no store of the handler waiting, takes x1 to x31 and FCSR from the CSA, an FRM above 4 there leaving FRM as it is, and goes on at TPC in user mode; of a handler that has claimed it does first what unclaim does. An eret that meets an uncorrectable error where the CSA holds an x register ends with the thread HALTED and a FIFO entry of error class 11 instead. Nothing else of the machine changes but what waits at other PCs of the handler. Choices of the model that clauses rest on: logs 34, 60 and 90. -/
def Obligations.HandlerResults : Prop :=
  ∀ s : State, s.scalarFit [] → s.thr.supervisor = true →
    (s.thr.claimed = true → ∃ t, exec .claim s = .next t ∧ t.heldDone s (s.thr.pc + 4)) ∧
    (s.thr.claimed = false → ∃ t, exec .unclaim s = .next t ∧ t.heldDone s (s.thr.pc + 4)) ∧
    (s.thr.claimed = false → ∃ t, exec .claim s = .next t ∧
      t.heldDone { s with freeCtr := t.freeCtr, badCsa := t.badCsa, thr := { s.thr with
        claimed := true, vtype := 0, vl := 0, vlb := 0, tshape := Vector.replicate 8 0, tdirty := 0, csa := t.thr.csa } }
        (s.thr.pc + 4) ∧
      (∀ r : Fin 32, bytesAre t.thr.csa (0x2000 + 2048 * r.val) 2048 s.thr.v[r].toNat) ∧
      (∀ r : Fin 24, r.val ≠ 0 → bytesAre t.thr.csa (0x400 + 256 * r.val) 256 s.thr.p[r].toNat) ∧
      (∀ m : Fin 8, s.thr.tshape[m].getLsbD 15 = true → s.thr.tdirty.getLsbD m.val = true →
        bytesAre t.thr.csa (0x12000 + 4096 * m.val) 4096 s.thr.m[m].toNat) ∧
      (t.thr.csa.load 0x120 8 = s.thr.vl % 2 ^ 64 ∧ t.thr.csa.load 0x128 8 = s.thr.vlb % 2 ^ 64 ∧
        t.thr.csa.load 0x130 8 = s.thr.vtype.toNat ∧ t.thr.csa.load 0x148 8 = s.thr.tdirty.toNat) ∧
      (t.thr.csa.load 0x138 8 = (shapesWord s.thr 0).toNat ∧ t.thr.csa.load 0x140 8 = (shapesWord s.thr 4).toNat ∧
        t.thr.csa.load 0x118 8 = s.thr.csa.load 0x118 8 % 2 + 2) ∧
      (t.thr.csa.load 0x150 8 = s.thr.ffcause.toNat ∧ t.thr.csa.load 0x158 8 = s.thr.ffaddr.toNat ∧
        ∀ n : Fin 8, t.thr.csa.load (0x160 + 8 * n.val) 8 = s.thr.ffidx[n].toNat ∧
          t.thr.csa.load (0x1A0 + 8 * n.val) 8 = s.thr.evsel[n].toNat ∧
          (plainSource s.thr.evsel[n] → t.thr.csa.load (0x1E0 + 8 * n.val) 8 =
            (if s.thr.evsel[n].toNat % 256 = 3 ∧ s.thr.evsel[n].getLsbD 8 = true then s.thr.evcnt[n] + BitVec.ofNat 64 s.thr.vq.length
             else s.thr.evcnt[n]).toNat)) ∧
      (∀ e : ThreadKey × Nat, e.1 ≠ s.thr.key → (e ∈ t.badCsa ↔ e ∈ s.badCsa)) ∧
      ∀ o, o < 0x118 → t.thr.csa.byte o = s.thr.csa.byte o) ∧
    (s.thr.claimed = true → s.thr.badRestore = none → (∀ e ∈ s.badCsa, e.1 ≠ s.thr.key) → ∃ t, exec .unclaim s = .next t ∧
      t.heldDone { s with thr := { s.thr with
        claimed := false, v := t.thr.v, p := t.thr.p, m := t.thr.m, vtype := t.thr.vtype, vl := t.thr.vl, vlb := t.thr.vlb,
        tshape := t.thr.tshape, tdirty := t.thr.tdirty, csa := t.thr.csa } } (s.thr.pc + 4) ∧
      vectorRestored s.thr t.thr) ∧
    (s.thr.sq = [] → s.thr.key.part < 16 → (∃ e ∈ s.badCsa, e.1 = s.thr.key ∧ 8 ≤ e.2 ∧ e.2 < 0x108) →
      ∃ t e, exec .eret s = .next t ∧ t.thr.life = .halted ∧ t.mem = s.mem ∧ t.others = s.others ∧
        (t.part s.thr.key.part).fifo ++ (t.part s.thr.key.part).fifoWait =
          (s.part s.thr.key.part).fifo ++ (s.part s.thr.key.part).fifoWait ++ [e] ∧ e.w0.toNat % 256 = 3 ∧ e.w3 = 11) ∧
    (s.thr.sq = [] → (s.thr.claimed = true → s.thr.badRestore = none) → (∀ e ∈ s.badCsa, e.1 ≠ s.thr.key) → ∃ t u, exec .eret s = .next t ∧
      (s.thr.claimed = false → u = s.thr) ∧
      (s.thr.claimed = true → vectorRestored s.thr u ∧ u = { s.thr with
        claimed := false, v := u.v, p := u.p, m := u.m, vtype := u.vtype, vl := u.vl, vlb := u.vlb, tshape := u.tshape,
        tdirty := u.tdirty, csa := u.csa }) ∧
      t = { s with thr := { u with
        x := t.thr.x, fcsr := t.thr.fcsr, pc := s.thr.tpc, supervisor := false, vq := [], evcnt := t.thr.evcnt,
        started := false, leftStep := 0, peerData := s.thr.peerData.filter fun a => !a.supervisor,
        begun := none,
        awaiting := s.thr.awaiting.filter fun e => decide (e.1 = (s.thr.tpc, false)) } } ∧
      (∀ r : Reg, r ≠ 0 → t.xr r = BitVec.ofNat 64 (s.thr.csa.load (8 * r.toNat) 8)) ∧
      t.thr.fcsr.toNat % 32 = s.thr.csa.load 0x100 8 % 32 ∧
      t.thr.fcsr.toNat / 32 = if s.thr.csa.load 0x100 8 / 32 % 8 < 5 then s.thr.csa.load 0x100 8 / 32 % 8
        else s.thr.fcsr.toNat / 32)

/-- yield puts the thread at the end of its core's order. Outside a handler and with no store waiting: the first trigger of a thread is counted by its launch, a later one only goes on; exit of a thread with no open window and no attached tether ends it, frees its slot and is counted by its launch; launch of a record that passes, with room in the table, creates one QUEUED kernel tether, attached to the thread, in a free entry, with the record's fields, a priority at most the thread's launch priority and the dependences that still name tethers, and writes its token to xD. Choices of the model that clauses rest on: logs 32 and 50. -/
def Obligations.ThreadEndResults : Prop :=
  (∀ s : State, s.scalarFit [] → ∃ t, exec .yield s = .next t ∧
      t.heldDone (if (s.core s.thr.core).order.contains s.thr.key then s.setCore s.thr.core { s.core s.thr.core with
        order := (s.core s.thr.core).order.erase s.thr.key ++ [s.thr.key] } else s) (s.thr.pc + 4)) ∧
  (∀ s : State, s.scalarFit [] → s.thr.supervisor = false → s.thr.sq = [] →
      (s.thr.triggered = true → ∃ t, exec .trigger s = .next t ∧ t.heldDone s (s.thr.pc + 4)) ∧
      (s.thr.triggered = false → ∃ t, exec .trigger s = .next t ∧
        t.heldDone { s with
          thr := { s.thr with triggered := true }
          tethers := s.tethers.map fun u => if tetherToken u = s.thr.key.launch then
            { u with launch := u.launch.map fun l => { l with triggered := l.triggered + 1 } } else u } (s.thr.pc + 4))) ∧
  (∀ s : State, s.scalarFit [] → s.thr.supervisor = false → s.thr.sq = [] → s.thr.window = none →
      (∀ u ∈ s.tethers, u.owner ≠ some s.thr.key) → (∀ u ∈ s.others, u.key ≠ s.thr.key) →
      ∃ t, exec .exitThread s = .next t ∧ t.thread? s.thr.key = none ∧ t.mem = s.mem ∧
        t.others.map (fun u => { u with popped := [] }) = s.others.map (fun u => { u with popped := [] }) ∧
        (t.core s.thr.core).order = (s.core s.thr.core).order.filter (fun k => decide (k ≠ s.thr.key)) ∧
        (t.proc s.thr.key.part s.thr.key.proc).slots = (s.proc s.thr.key.part s.thr.key.proc).slots.erase s.thr.slot ∧
        ∀ u l, s.tetherAny? s.thr.key.launch = some u → u.launch = some l → u.state = .running → l.spawned ≠ l.ended + 1 →
          ∃ v, t.tetherAny? s.thr.key.launch = some v ∧ v.state = .running ∧ v.launch = some { l with
            ended := l.ended + 1, triggered := l.triggered + if s.thr.triggered then 0 else 1 }) ∧
  ∀ (s : State) (d a : Reg) (r : LaunchRecord) (o : ObjHeader) (h : Header), s.scalarFit [] → s.thr.supervisor = false → s.thr.sq = [] →
      s.readLaunch (s.xr a) = .ok (r, o, h) → s.tableRoom s.thr.key.part s.thr.core.die = true →
      (∀ t ∈ s.tethers, t.state = .queued → ∀ p ∈ t.preds, ∀ q, s.tether? t.part t.proc p = some q → tetherFailed q = false) →
      (∀ p ∈ r.deps, ∀ q, s.myTether? p = some q → tetherFailed q = false) →
      ∃ t i, exec (.launch d a) s = .next t ∧ i < 4096 ∧ (∀ x ∈ s.tethers, x.die = s.thr.core.die → x.index ≠ i) ∧
        t.heldDone ({ (s.setX d (tetherToken (launched s r o h i))) with
          tethers := s.tethers ++ [launched s r o h i], clock := s.clock + 1, freeCtr := t.freeCtr }) (s.thr.pc + 4)

/-- csrr of every CSR that its mode may read writes its value to xD, the copy channels of the process and the event counters among them; csrw, csrset and csrclr of every CSR that their mode may write write the register or its bits under the register's own rules and the old value to xD: an FRM above 4 keeps FRM, a PRIO above the launch priority gives the launch priority, a reserved source keeps EVSEL, reserved bits stay 0, and a zero written to FFCAUSE discards the fabric record. A read or a write form of any other number raises ILLEGAL with its word, and so does a nonzero value for FFCAUSE; in a handler it halts the thread. Everything else keeps its value. What a counter of a source that depends on time or on caches reads is a free value (log 5). Choices of the model that clauses rest on: log 36. -/
def Obligations.CsrResults : Prop :=
  ∀ (s : State) (d a : Reg), s.scalarFit [] → s.thr.begun = none →
    (∀ e ∈ userCsrs, ∃ t, exec (.csrr d e.1) s = .next t ∧
      if waitingCsrs.contains e.1.toNat then t.heldDone (s.setX d (e.2 s)) (s.thr.pc + 4)
      else t.done (s.setX d (e.2 s)) (s.thr.pc + 4)) ∧
    (∀ n < 16, ∀ e ∈ ([(0x100, Channel.mark), (0x110, Channel.base), (0x120, Channel.len)] : List (Nat × (Channel → Nat))),
      ∃ t, exec (.csrr d (BitVec.ofNat 12 (e.1 + n))) s = .next t ∧
        t.done (s.setX d (channelField s n e.2)) (s.thr.pc + 4)) ∧
    (s.thr.supervisor = true → ∀ e ∈ supervisorCsrs, ∃ t, exec (.csrr d e.1) s = .next t ∧
      t.done (s.setX d (e.2 s)) (s.thr.pc + 4)) ∧
    (∀ n : Fin 8,
      (∃ t v, exec (.csrr d (BitVec.ofNat 12 (0x088 + n.val))) s = .next t ∧
        (plainSource s.thr.evsel[n] → v = if s.thr.evsel[n].toNat % 256 = 3 ∧ (s.thr.supervisor = false ∨ s.thr.evsel[n].getLsbD 8 = true)
          then s.thr.evcnt[n] + BitVec.ofNat 64 s.thr.vq.length else s.thr.evcnt[n]) ∧
        if s.thr.evsel[n].toNat % 256 = 3 then t.heldDone ({ s with freeCtr := t.freeCtr }.setX d v) (s.thr.pc + 4)
        else t.done ({ s with freeCtr := t.freeCtr }.setX d v) (s.thr.pc + 4)) ∧
      (s.thr.supervisor = true →
        (∃ t, exec (.csrr d (BitVec.ofNat 12 (0x080 + n.val))) s = .next t ∧
          t.done ({ s with freeCtr := t.freeCtr }.setX d (s.thr.evsel[n].zeroExtend 64)) (s.thr.pc + 4)) ∧
        ∀ f ∈ csrWriteForms,
          (∃ t w, exec (f.1 d a (BitVec.ofNat 12 (0x080 + n.val))) s = .next t ∧ w = f.2 (s.thr.evsel[n].zeroExtend 64) (s.xr a) ∧
            t.heldDone ({ s with freeCtr := t.freeCtr, thr := { s.thr with
              evsel := if w.toNat % 256 ≤ 15 then s.thr.evsel.set n.val (w.truncate 9) else s.thr.evsel } }.setX d
                (s.thr.evsel[n].zeroExtend 64)) (s.thr.pc + 4)) ∧
          ∃ t v, exec (f.1 d a (BitVec.ofNat 12 (0x088 + n.val))) s = .next t ∧
            (plainSource s.thr.evsel[n] → v = if s.thr.evsel[n].toNat % 256 = 3 ∧ s.thr.evsel[n].getLsbD 8 = true
              then s.thr.evcnt[n] + BitVec.ofNat 64 s.thr.vq.length else s.thr.evcnt[n]) ∧
            (s.thr.evsel[n].toNat % 256 ≠ 2 → t.thr.evcnt[n] = f.2 v (s.xr a)) ∧
            t.heldDone ({ s with freeCtr := t.freeCtr }.setX d v) (s.thr.pc + 4))) ∧
    (∀ e ∈ writtenCsrs, (e.2.1 = true → s.thr.supervisor = true) → ∀ f ∈ csrWriteForms,
      ∃ t, exec (f.1 d a e.1) s = .next t ∧
        t.heldDone (({ s with thr := e.2.2.2 s.thr (f.2 (e.2.2.1 s) (s.xr a)) } : State).setX d (e.2.2.1 s)) (s.thr.pc + 4)) ∧
    (∀ f ∈ csrWriteForms,
      (f.2 s.thr.ffcause (s.xr a) = 0 → ∃ t, exec (f.1 d a 0x020) s = .next t ∧
        t.heldDone (({ s with thr := { s.thr with ffcause := 0, ffaddr := 0, ffidx := Vector.replicate 8 0, ffhidden := none } } :
          State).setX d s.thr.ffcause) (s.thr.pc + 4)) ∧
      (f.2 s.thr.ffcause (s.xr a) ≠ 0 → csrIllegal s (f.1 d a 0x020))) ∧
    ∀ n : BitVec 12,
      (¬csrReadable s.thr.supervisor n.toNat → csrIllegal s (.csrr d n)) ∧
      (¬csrWritable s.thr.supervisor n.toNat → ∀ f ∈ csrWriteForms, csrIllegal s (f.1 d a n))

/-- With VL above 0 and legal declared registers, the micro-steps of dvdot, dvsum and dvperm follow one another at one PC: each step but the last changes only microcode temporaries, and the last one completes: dvdot writes to xD the sign-extended wrapped sum of the products of the elements below VL, dvsum that of the elements, and dvperm gathers elements of one group by the indices in another into its destination under R120. -/
def Obligations.DeprecatedResults : Prop :=
  ∀ (s : State) (d a b : Reg), s.vectorFit [3, 4] → s.thr.vectorOk → s.thr.vl ≠ 0 → s.thr.groupOk a → s.thr.groupOk b → s.thr.micro = none →
    (∃ t u w m n, exec (.dvdot d a b) s = .next { s with thr := { s.thr with micro := some m } } ∧
      exec (.dvdot d a b) { s with thr := { s.thr with micro := some m } } =
        .next { s with thr := { s.thr with micro := some n } } ∧ u = ({ s with thr := { s.thr with micro := some n } } : State) ∧
      exec (.dvdot d a b) u = .next t ∧
      w = BitVec.ofInt 64 (sext s.thr.sew (((List.range s.thr.vl).map fun i => elemAt s.thr a i * elemAt s.thr b i).sum)) ∧
      s.vectorDone t fun x => x.setX d w) ∧
    (∃ t w m, exec (.dvsum d a) s = .next { s with thr := { s.thr with micro := some m } } ∧
      exec (.dvsum d a) { s with thr := { s.thr with micro := some m } } = .next t ∧
      w = BitVec.ofInt 64 (sext s.thr.sew (((List.range s.thr.vl).map fun i => elemAt s.thr a i).sum)) ∧
      s.vectorDone t fun x => x.setX d w) ∧
    (s.thr.groupOk d → ∃ t m, exec (.dvperm d a b) s = .next { s with thr := { s.thr with micro := some m } } ∧
      exec (.dvperm d a b) { s with thr := { s.thr with micro := some m } } = .next t ∧ s.vecDone t ∧ t.thr.fcsr = s.thr.fcsr ∧
      s.thr.vecResult t.thr d 0 fun i => elemOr0 s.thr a (elemAt s.thr b i))

/-- VECTOR_COMMIT takes the oldest instruction off the vector queue and makes a thread that is BLOCKED for want of room READY when fewer than 64 vector instructions and fewer than 64 younger scalar ones are then ahead. THREAD_WAKE makes a parked thread READY once what it waits for has happened. ISSUE_BOOST boosts a READY thread passed over 64 times. THREAD_PREEMPTION waits while a RUNNING MMA, BLOAD or COPY of the core that the thread owns is between boundaries (log 96); of a READY user thread that was asked to leave, and no part of whose instruction has been performed, it otherwise saves its x registers and PC in its CSA, commits its vector work (its PC is then the VCP, log 65), frees its lane groups, moves the errors of its registers to its CSA (log 101), keeps what peers answered (log 16) and the micro-step of R224, and makes it PRE-EMPTED. PASSED_THREAD_HOLD holds the cores that a waiting thread may use for it when it fits none (the time is log 15). QUANTUM_BOUNDARY on a core of two partitions asks the one resident thread of the partition above its share to leave that the order of R348 names first, when the waiting thread of the other then fits (the shares are those of the last quantum, log 59). Choices of the model that clauses rest on: log 61. -/
def Obligations.ThreadEventResults : Prop :=
  (∀ (s : State) (k : ThreadKey) (u : Thread) (w : Word × Nat) (r : List (Word × Nat)), s.thread? k = some u → u.vq = w :: r →
      ∃ t, exec (.vectorCommit k) s = .next t ∧
        oneThread s t k { (u.count 3 1) with
          vq := r
          life := if u.life = .blocked ∧ u.started = false ∧ r.length < 64 ∧ Thread.ahead { u with vq := r } < 64 then .ready
            else u.life }) ∧
  (∀ (s : State) (k : ThreadKey) (u : Thread) (w : Wait), s.thread? k = some u → u.life = .parked w →
      (s.giveTurn k).wakes w = true → ∃ t, exec (.threadWake k) s = .next t ∧ oneThread s t k { u with life := .ready }) ∧
  (∀ (s : State) (k : ThreadKey) (u : Thread), s.thread? k = some u → u.life = .ready → 64 ≤ u.passed → u.boosted = none →
      ∃ t, exec (.issueBoost k) s = .next t ∧
        oneThread { s with clock := s.clock + 1 } t k { u with boosted := some s.clock }) ∧
  (∀ (s : State) (k : ThreadKey) (u : Thread) (h : Bool), s.thread? k = some u → u.wish = some h → u.life = .ready →
      u.supervisor = false → u.claimed = false → u.begun = none →
      ((∃ y ∈ s.tethers, y.leftBy u = true ∧ s.atBoundary y = false) → exec (.threadPreemption k) s = .next s) ∧
      ((∀ y ∈ s.tethers, y.leftBy u = true → s.atBoundary y = true) → ∃ t v, exec (.threadPreemption k) s = .next t ∧
        oneThread { s with cores := t.cores, clock := s.clock + 1, freeCtr := t.freeCtr, badReg := t.badReg, badCsa := t.badCsa } t k v ∧
        (∀ e, e.1 ≠ k → (e ∈ t.badReg ↔ e ∈ s.badReg)) ∧ (∀ e, e.1 ≠ k → (e ∈ t.badCsa ↔ e ∈ s.badCsa)) ∧
        v.life = .preempted ∧ v.held = h ∧ v.wish = none ∧ v.lanes = [] ∧ v.vq = [] ∧ v.sq = u.sq ∧ v.csaWord 0x108 = u.pc ∧
        v.peerData = u.peerData ∧ v.leftStep = (match u.micro with | some m => m.step | none => 0) ∧
        (∀ r, r ≠ 0 → v.csaWord (8 * r.toNat) = u.xr r) ∧
        ∀ c, t.core c = if c = u.core then { s.core c with order := (s.core c).order.filter fun j => decide (j ≠ k) } else s.core c)) ∧
  (∀ (s : State) (part : Nat) (w : Waiting) (r : Rank) (p : Placing),
      s.waiting? part (match w with | .handler c _ => c | _ => ⟨0, 0⟩) w = some (r, p) →
      (∀ c ∈ s.ownedCores part, waitsFor w c = true → s.fits p c = []) → (part, w) ∉ s.holds →
      exec (.passedThreadHold part w) s = .next { s with holds := s.holds ++ [(part, w)] }) ∧
  ∀ (s : State) (c : CoreId) (v p a b : Nat) (pl : Placing) (u : Thread),
      ((s.core c).banks.toList.filterMap id).eraseDups = [v, p] → u ∈ s.residents c → u.key.part = v → s.waitingOf v c = [] →
      s.waitingOf p c ≠ [] → s.couldHold p c = some pl → s.fits pl c = [] → s.fitBeside pl c (s.residents c) = [] →
      b * (s.part v).weight < (s.part p).weight * a →
      (∀ w ∈ s.residents c, w.key.part = v → w.key ≠ u.key → u.prio.toNat < w.prio.toNat ∨ (u.prio = w.prio ∧ w.placed < u.placed)) →
      s.fitBeside pl c ((s.residents c).filter fun w => decide (w.key ≠ u.key)) ≠ [] →
      ∃ t, exec (.quantumBoundary c [(v, a), (p, b)]) s = .next t ∧ t = { s with thr := t.thr, others := t.others } ∧
        leaveAsked s t (fun w => decide (w.key = u.key))

/-- THREAD_SPAWN of a launch with a thread to spawn, and HANDLER_SPAWN of a runnable entry whose headers pass, on a core that has room, with a free thread slot whose block can be written: one new READY thread with the registers of R228 on lane groups that may be chosen; its slot is taken, and a launch counts it. THREAD_RESUME of a waiting user thread with an intact CSA that R418 accepts: it is READY on the core with its x registers and PC from its CSA; no other thread changes. HANDLER_SPAWN of a runnable entry whose headers fail a check frees the entry, tells why in a HANDLER_END entry (log 51) and creates no thread, whether or not one would fit. Choices of the model that clauses rest on: log 6. -/
def Obligations.PlacementResults : Prop :=
  (∀ (s : State) (tok : Word) (c : CoreId) (y : Tether) (l : Launch) (i : SpawnInfo), s.tetherAny? tok = some y →
      y.toSpawn = some l → s.placeChoices y.part c (.unspawned tok) ≠ [] → (s.proc y.part y.proc).freeSlots ≠ [] →
      i = ⟨⟨y.part, y.proc, tok, l.spawned⟩, l.hdr, l.textBase + l.hdr.entry, l.linkTable, l.obj, l.args, l.n, l.prio⟩ →
      blocksWritable s (spawnReader tok) c.die i →
      ∃ t lanes slot v, exec (.threadSpawn tok c) s = .next t ∧ lanes ∈ s.placeChoices y.part c (.unspawned tok) ∧
        slot ∈ (s.proc y.part y.proc).freeSlots ∧ started s i c lanes slot v ∧ t.thr = s.thr ∧ t.others = s.others ++ [v] ∧
        (t.proc y.part y.proc).slots = (s.proc y.part y.proc).slots ++ [slot] ∧ t.parts = s.parts ∧
        t.tetherAny? tok = some { y with launch := some { l with spawned := l.spawned + 1 } }) ∧
  (∀ (s : State) (c : CoreId) (e : Nat) (h : HandlerEntry) (o : Nat) (oh : ObjHeader) (k : Header) (i : SpawnInfo),
      Assoc.get? (s.core c).handlers e = some h → s.runnable h = true → (s.part h.part).run = true →
      s.handlerKernel c.die h = .ok (o, oh, k) → s.placeChoices h.part c (.handler c e) ≠ [] →
      (s.proc h.part h.proc).freeSlots ≠ [] →
      i = ⟨⟨h.part, h.proc, 0, h.queue⟩, k, textBaseOf o oh + k.entry, linkTableOf o oh, o, BitVec.ofNat 64 h.queue, 1, h.prio⟩ →
      blocksWritable s (handlerReader h) c.die i →
      ∃ t lanes slot v, exec (.handlerSpawn c e) s = .next t ∧ lanes ∈ s.placeChoices h.part c (.handler c e) ∧
        slot ∈ (s.proc h.part h.proc).freeSlots ∧ started s i c lanes slot v ∧ t.thr = s.thr ∧ t.others = s.others ++ [v] ∧
        (t.proc h.part h.proc).slots = (s.proc h.part h.proc).slots ++ [slot] ∧ t.tethers = s.tethers ∧ t.parts = s.parts) ∧
  (∀ (s : State) (c : CoreId) (e : Nat) (h : HandlerEntry) (cause : TrapCause) (a : Word), Assoc.get? (s.core c).handlers e = some h →
      s.runnable h = true → (s.part h.part).run = true → (s.proc h.part h.proc).freeSlots ≠ [] → s.handlerKernel c.die h = .error (.fault cause a) →
      ∃ t, exec (.handlerSpawn c e) s = .next t ∧ t = { s with cores := t.cores, parts := t.parts, dispatched := t.dispatched } ∧
        t.core c = { s.core c with handlers := Assoc.drop (s.core c).handlers e } ∧ (∀ d ≠ c, t.core d = s.core d) ∧
        t.parts = (s.report h.part ⟨fifoW0 7 c.die (some h.proc) (some c.site), BitVec.ofNat 64 h.queue,
          BitVec.ofNat 64 (causeCode cause * 2 ^ 24), 0⟩).parts) ∧
  ∀ (s : State) (k : ThreadKey) (c : CoreId) (u : Thread), s.thread? k = some u → s.placeChoices k.part c (.preempted k) ≠ [] →
      (∀ e ∈ s.badCsa, e.1 ≠ k) → u.badRestore = none → u.inHandler = false →
      ∃ t lanes v, exec (.threadResume k c) s = .next t ∧ lanes ∈ s.placeChoices k.part c (.preempted k) ∧
        t.thread? k = some v ∧ (∀ j ≠ k, t.thread? j = s.thread? j) ∧ t.mem = s.mem ∧ t.tethers = s.tethers ∧ t.parts = s.parts ∧
        v.life = .ready ∧ v.supervisor = false ∧ v.core = c ∧ v.lanes = lanes ∧ v.vlen = 1024 * lanes.length ∧
        v.pc = u.csaWord 0x108 ∧ v.fcsr = fcsrWrite u.fcsr (u.csaWord 0x100) ∧ v.vtype = (u.csaWord 0x130).truncate 16 ∧
        ∀ r, v.xr r = if r = 0 then 0 else u.csaWord (8 * r.toNat)

/-- LAUNCH_ELIGIBLE of a launch that may start with 1 to 2^24 threads, given or read: it is RUNNING with that number and a place in the order. Threads that exceed the capacity are told to the fault FIFO as NOFIT with the capacity and the count, a capacity of 0 as UNPLACEABLE with USEMASK, and nothing else is. A direct launch and an indirect one end alike otherwise. TETHER_START on an engine with room: the first startable tether is RUNNING; a COPY that takes a channel has it FILLING over its destination; one with an extent of 0 is DONE and moves nothing; an MMA of a block that does not exist is FAULTED with BOUNDS. -/
def Obligations.EngineStartResults : Prop :=
  (∀ (s : State) (tok : Word) (y : Tether) (l : Launch) (n cap : Nat), s.tetherAny? tok = some y → y.launch = some l →
      s.mayStart y l = true → 1 ≤ n → n ≤ 2 ^ 24 → cap = s.capacity (launchPlacing y.part l) →
      (if l.indirect then ∃ bs, s.dispatchRead tok y.die y.part y.proc .atomicRead l.countAddr 8 = .ok bs ∧ natOfBytes bs = n else n = l.n) →
      ∃ t, exec (.launchEligible tok) s = .next t ∧
        oneTether { s with parts := t.parts, clock := s.clock + 1, devCnt := t.devCnt, dispatched := t.dispatched } t tok
          { y with state := .running, launch := some { l with n := n, eligible := some s.clock } } ∧
        (n ≤ cap → t.parts = s.parts) ∧
        (cap < n → y.part < 16 → (s.part y.part).fifo.length < 256 → (s.part y.part).fifoWait = [] →
          t.parts = (s.setPart y.part { s.part y.part with fifo := (s.part y.part).fifo ++
            [if cap = 0 then ⟨fifoW0 6 y.die (some y.proc) none, tok, l.hdr.usemask, 0⟩
             else ⟨fifoW0 5 y.die (some y.proc) none, tok, BitVec.ofNat 64 cap, BitVec.ofNat 64 n⟩] }).parts)) ∧
  (∀ (s : State) (e : Engine) (y : Tether), s.engineRoom e = true → firstTether (s.startable e) = some y → y.kind = .copy →
      s.tetherAny? (tetherToken y) = some y → toWindow y = false → volume y.layout ≠ 0 →
      ∃ t, exec (.tetherStart e) s = .next t ∧
        oneTether { s with cores := t.cores, devCnt := t.devCnt } t (tetherToken y) { y with state := .running } ∧
        (∀ n, t.channel? y.core n = if n = copyChannel y
          then some ⟨.filling, y.ops.2.1.toNat, copyLen y, 0, tetherToken y, y.part, y.proc⟩ else s.channel? y.core n) ∧
        ∀ c ≠ y.core, t.core c = s.core c) ∧
  (∀ (s : State) (e : Engine) (y : Tether), s.engineRoom e = true → firstTether (s.startable e) = some y →
      s.tetherAny? (tetherToken y) = some y → volume y.layout ≠ 0 →
      (y.kind = .coll ∨ (y.kind = .copy ∧ toWindow y = true) ∨ y.kind = .bload ∨
        (y.kind = .mma ∧ ∀ j < mmaCols y, (s.core y.core).blockExists (mmaBblk y.ops.2.2 + j) = true)) →
      ∃ t, exec (.tetherStart e) s = .next t ∧ oneTether { s with devCnt := t.devCnt } t (tetherToken y) { y with state := .running }) ∧
  ∀ (s : State) (e : Engine) (y : Tether), s.engineRoom e = true → firstTether (s.startable e) = some y →
      s.tetherAny? (tetherToken y) = some y → (s.proc y.part y.proc).live = true →
      (volume y.layout = 0 → ∃ t z, exec (.tetherStart e) s = .next t ∧ t.tetherAny? (tetherToken y) = some z ∧
        z.state = .done ∧ z.cause = .none ∧ t.mem = s.mem ∧ t.thr = s.thr ∧ t.others = s.others) ∧
      (volume y.layout ≠ 0 → y.kind = .mma → (∃ j < mmaCols y, (s.core y.core).blockExists (mmaBblk y.ops.2.2 + j) = false) →
        ∃ t z, exec (.tetherStart e) s = .next t ∧ t.tetherAny? (tetherToken y) = some z ∧ z.state = .faulted ∧ z.cause = .bounds ∧
          t.mem = s.mem ∧ t.thr = s.thr ∧ t.others = s.others)

/-- For a RUNNING tether at work whose data are on this device: COPY_BURST writes the next 128 bytes and raises the watermark; BLOAD_COLUMN fills the next block; MMA_KBLOCK takes the packet of its row into the array and adds the product sum of a K-block to C under the rounding of the MMA, with the flags kept in the tether, and the last K-block of the lowest row makes that row complete; COLL_STEP keeps the chunk that goes on. The last unit makes the tether DONE with the progress of all its units, and the channel of a COPY KEPT at its whole length. PORT_BURST_ARRIVAL of a burst ahead of its turn waits in the port, and memory stays. Choices of the model that clauses rest on: logs 45, 46, 48, 75, 86 and 104. -/
def Obligations.EngineUnitResults : Prop :=
  (∀ (s w : State) (y : Tether) (k : Nat) (bs : List Byte), atWork s y → y.kind = .copy → y.progress = 128 * k →
      128 * k < copyLen y → y.work = [] → s.unitOpen (tetherToken y) k = false → s.burstRemote y k = false →
      s.burstBytes y k none = .ok bs → s.engineWrite y k (y.ops.2.1 + BitVec.ofNat 64 (128 * k)) bs = .ok w → memoryOnly s w →
      (∀ e ∈ s.ports, ∀ b ∈ e.2.reseq, b.1 ≠ tetherToken y) →
      (128 * (k + 1) < copyLen y → ∃ t, exec (.copyBurst (tetherToken y) k) s = .next t ∧
        oneTether { w with cores := t.cores } t (tetherToken y) { y with progress := 128 * (k + 1), peerData := [] } ∧
        ∀ c, toWindow y = false → s.channel? y.core (copyChannel y) = some c → c.token = tetherToken y →
          t.channel? y.core (copyChannel y) = some { c with mark := 128 * (k + 1) }) ∧
      (copyLen y ≤ 128 * (k + 1) → endsAlone s y → ∃ t, exec (.copyBurst (tetherToken y) k) s = .next t ∧
        oneTether { w with cores := t.cores } t (tetherToken y) (ended y (copyLen y)) ∧
        ∀ c, toWindow y = false → s.channel? y.core (copyChannel y) = some c → c.token = tetherToken y →
          t.channel? y.core (copyChannel y) = some { c with
            mark := copyLen y
            state := if (s.core y.core).banks.toList.contains (some y.part) then .kept else .idle })) ∧
  (∀ (s : State) (c : CoreId) (y : Tether) (k m : Nat) (bs : List Byte), s.runningOn .bload c = some y → atWork s y →
      (s.core c).blockExists (y.ops.2.1.toNat + y.progress) = true → (s.core c).bankOf y.part = some k →
      s.engineReads y y.progress (columnSpans y y.progress) = .ok bs →
      m = y.clamps + clampCount (bloadFmt y.ops.2.2) (bloadMxb y.ops.2.2) (natOfBytes bs) (extentOf y.layout 0) →
      ∃ t, exec (.bloadColumn c) s = .next t ∧
        (y.progress + 1 < mmaCols y → oneTether { s with cores := t.cores } t (tetherToken y)
          { y with progress := y.progress + 1, peerData := [], clamps := m }) ∧
        (mmaCols y ≤ y.progress + 1 → endsAlone s y → oneTether { s with cores := t.cores } t (tetherToken y)
          (ended { y with clamps := m } (y.progress + 1))) ∧
        ∀ q, Assoc.get? (t.core c).blocks q =
          if q = (k, y.ops.2.1.toNat + y.progress) then some (columnBlock y bs) else Assoc.get? (s.core c).blocks q) ∧
  (∀ (s : State) (c : CoreId) (y u : Tether) (col : Nat) (up : Upset) (bs : List Byte) (h : PacketHdr), s.runningOn .mma c = some y →
      atWork s y → y.kind = .mma → y.progress < mmaRows y → col < mmaCols y → s.unitOpen (tetherToken y) (mmaUnit y.progress col) = false →
      Assoc.get? y.packets y.progress = none → s.readPacket y y.progress (mmaUnit y.progress col) = .ok bs →
      h = packetHdr (natOfBytes (bs.take 8)) → y.passed y.progress col = 0 →
      u = { y with packets := Assoc.put y.packets y.progress bs, peerData := [],
                   clamps := y.clamps + clampCount h.fmt h.mxb (natOfBytes (List.drop 8 bs)) h.k } →
      exec (.mmaKblock c y.progress col up) s =
        exec (.mmaKblock c y.progress col up) (s.mapTether (tetherToken y) fun _ => u)) ∧
  (∀ (s w : State) (c : CoreId) (y z : Tether) (col : Nat) (up : Upset) (b : BBlock) (lo len : Nat) (bs : List Byte)
      (old : Option Nat) (xs : List Int) (h : PacketHdr) (cut : (Int × Bool) × List (List Int)) (q : Nat × Flags),
      s.runningOn .mma c = some y → atWork s y → y.kind = .mma → y.progress < mmaRows y → col < mmaCols y →
      s.unitOpen (tetherToken y) (mmaUnit y.progress col) = false → Assoc.get? y.packets y.progress = some bs →
      h = y.rowHdr y.progress → s.rowMayEnter y y.progress col = true → s.block? y (mmaBblk y.ops.2.2 + col) = some b →
      (kblocks h.fmt h.slices h.k)[y.passed y.progress col]? = some (lo, len) →
      blockOk y.proc h b = true → up.bstore = false → cut = cutBlock h.fmt h.mxb h.slices h.scale (natOfBytes (List.drop 8 bs)) lo len →
      attemptSums (classSums h.slices cut.2 ((List.drop lo b.digits).take len)) up.first = some xs →
      (if mmaEpi y.ops.2.2 = 1 ∧ y.passed y.progress col = 0 then old = none
       else ∃ cs, s.engineRead y (mmaUnit y.progress col) (cAddr y h.row col) (mmaCsize y.ops.2.2) = .ok cs ∧
         old = some (natOfBytes cs)) →
      q = epilogue (mmaCfmt y.ops.2.2) (RMode.ofCode (mmaFrm y.ops.2.2)) old
        (productSum (RMode.ofCode (mmaFrm y.ops.2.2)) h.slices cut.1 (b.exps[y.passed y.progress col]?.getD (0, false)) xs) →
      s.engineWrite y (mmaUnit y.progress col) (cAddr y h.row col) (bytesOf (mmaCsize y.ops.2.2) q.1) = .ok w → memoryOnly s w →
      z = { y with flags := y.flags ||| q.2, peerData := [],
                   work := Assoc.put y.work (y.progress, col) (y.passed y.progress col + 1) } →
      ∃ t, exec (.mmaKblock c y.progress col up) s = .next t ∧
        ((∃ j < mmaCols y, z.colDone y.progress j = false) → oneTether w t (tetherToken y) z) ∧
        ((∀ j < mmaCols y, z.colDone y.progress j = true) →
          (y.progress + 1 < mmaRows y → Assoc.get? y.packets (y.progress + 1) = none →
            oneTether w t (tetherToken y) { z with
              progress := y.progress + 1, packets := Assoc.drop y.packets y.progress
              work := z.work.filter fun e => decide (e.1.1 ≠ y.progress) }) ∧
          (mmaRows y ≤ y.progress + 1 → endsAlone s y → oneTether w t (tetherToken y) (ended z (y.progress + 1))))) ∧
  (∀ (s w : State) (y z : Tether) (data out : List Byte) (g : Flags), atWork s y → y.kind = .coll →
      s.unitOpen (tetherToken y) y.progress = false → s.collLinked y = true →
      data.length = collExpects (collOp y.ops.2.2) (s.collRank y).1 (s.collRank y).2 (collRoot y.ops.2.2) (volume y.layout)
        (collSize y.ops.2.2) y.progress →
      s.collWork y data = .ok (w, out, g) → memoryOnly s w →
      z = { y with partialChunk := out, flags := y.flags ||| g, progress := y.progress + 1, peerData := [] } →
      ∃ t, exec (.collStep (tetherToken y) data) s = .next t ∧
        (y.progress + 1 < collSteps (collOp y.ops.2.2) (s.collRank y).2 → oneTether w t (tetherToken y) z) ∧
        (collSteps (collOp y.ops.2.2) (s.collRank y).2 ≤ y.progress + 1 → endsAlone s y →
          oneTether w t (tetherToken y) (ended z (y.progress + 1)))) ∧
  ∀ (s : State) (port k : Nat) (y : Tether) (data : List Byte) (p : Port), atWork s y → y.kind = .copy →
      p = Assoc.getD s.ports port Port.fresh → p.cfg.getLsbD 1 = true → (s.part y.part).ports.getLsbD port = true → p.reseq.length < 256 →
      y.progress < 128 * k → 128 * k < copyLen y → data.length = min 128 (copyLen y - 128 * k) → Assoc.get? y.work (0, k) = none →
      (∀ e ∈ s.ports, ∀ b ∈ e.2.reseq, b.1 ≠ tetherToken y) → s.burstRemote y k = true →
      ∃ t, exec (.portBurstArrival port (tetherToken y) k data) s = .next t ∧
        t = { s with ports := t.ports } ∧
        ∀ n, Assoc.getD t.ports n Port.fresh = if n = port then { p with reseq := p.reseq ++ [(tetherToken y, k, data)] }
          else Assoc.getD s.ports n Port.fresh

/-- MEMORY_ACCESS_PERFORMED of a store that its thread holds, with none ordered before it and all its bytes here, lays its bytes into memory and takes it off the thread. A write of the control complex to mapped memory lays its bytes, one to the window of a peer sends requests, and one that meets an unmapped byte does nothing. TABLE_WALK for a TLB (log 9) keeps a translation that both stages give and non-leaf entries of that walk, and nothing of a walk that faults. INVALIDATION that names a stage takes the partition's range registers, and waits behind one in progress, and one that names none does nothing; INVALIDATION_COMPLETE, with no access of the partition under way (log 56), drops exactly the matching translations and non-leaf entries. LINE_WRITE_BACK changes no byte but those of a granule whose write was refused: it takes back what its home held before the first write since the last write-back, and the error is counted unless it was as it arose (log 102). An uncorrectable error that arises in a granule of mapped memory or of a live thread's context save area is counted and stays there for the accesses to come. Choices of the model that clauses rest on: logs 18, 22 and 55. -/
def Obligations.MemoryEventResults : Prop :=
  (∀ (s : State) (k : ThreadKey) (n : Nat) (u : Thread) (p : PendStore), s.thread? k = some u → u.sq[n]? = some p →
      (∀ q ∈ u.sq.take n, q.before p = false) → (∀ c ∈ p.cells, (Place.device c.1).remote = false) →
      ∃ t, exec (.memoryAccessPerformed (.held k n)) s = .next t ∧ t.mem = s.mem.putCells p.cells ∧
        oneThread { s with mem := t.mem, homes := t.homes, badMem := t.badMem } t k { u with sq := u.sq.take n ++ u.sq.drop (n + 1) }) ∧
  (∀ (s : State) (dpa : Nat) (bs : List Byte),
      ((∃ i < bs.length, s.mapped (dpa + i) = false) → exec (.memoryAccessPerformed (.control dpa bs)) s = .next s) ∧
      ((∀ i < bs.length, s.mapped (dpa + i) = true) →
        ((∀ i < bs.length, (Place.device (dpa + i)).remote = false) →
          ∃ t, exec (.memoryAccessPerformed (.control dpa bs)) s = .next t ∧ memoryOnly s t ∧
            ∀ a, t.mem.byte a = laid s.mem dpa bs a) ∧
        ((∀ i < bs.length, (Place.device (dpa + i)).remote = true) → bs ≠ [] →
          ∃ t, exec (.memoryAccessPerformed (.control dpa bs)) s = .next t ∧
            t = { s with requests := t.requests, clock := s.clock + 1 } ∧
            ∃ r, t.requests = s.requests ++ [r] ∧ r.who = .control ∧ r.write = true ∧ r.dpa = dpa ∧ r.data = bs))) ∧
  (∀ (s : State) (home : TlbHome) (part pr : Nat) (va : Word), va.toNat < 2 ^ 49 →
      (∀ e ∈ s.tlb, e.home = home → e.covers part pr va.toNat = false) →
      (∀ e, walkBoth s.mem s home part pr va.toNat = .ok e → ∃ t, exec (.tableWalk home (part, pr) va) s = .next t ∧
        t = { s with tlb := keepEntry s.tlb e, nodes := t.nodes } ∧
        ∀ x ∈ t.nodes, x ∈ s.nodes ∨ (x.die = dieOf home ∧ x.part = part ∧ (x.stage2 = true ∨ x.proc = pr))) ∧
      ∀ f, walkBoth s.mem s home part pr va.toNat = .error f → exec (.tableWalk home (part, pr) va) s = .next s) ∧
  (∀ (s : State) (n : Nat) (v : Word) (p : Partition), n < 16 → p = s.part n →
      (v.toNat % 4 = 0 → exec (.invalidation n v) s = .next s) ∧
      (v.toNat % 4 ≠ 0 → ∃ t, exec (.invalidation n v) s = .next t ∧ onePart s t n
        (match p.invBusy with
         | none => { p with invBusy := some (v, p.invLo, p.invHi) }
         | some _ => { p with invNext := p.invNext ++ [(v, p.invLo, p.invHi)] }))) ∧
  (∀ (s : State) (n : Nat) (r : Word × Word × Word) (p : Partition), n < 16 → p = s.part n → p.invBusy = some r →
      (∀ u ∈ s.threads, u.live = true → u.key.part = n → u.sq = []) →
      (∀ e ∈ s.cores, ∀ g, e.2.run = some g → g.thread.part = n → g.stores = []) → (∀ q ∈ s.requests, q.part ≠ n) →
      ∃ t, exec (.invalidationComplete n) s = .next t ∧
        onePart { s with tlb := t.tlb, nodes := t.nodes } t n { p with invBusy := p.invNext.head?, invNext := p.invNext.drop 1 } ∧
        (∀ e, e ∈ t.tlb ↔ e ∈ s.tlb ∧ invalidates n r e = false) ∧
        ∀ e, e ∈ t.nodes ↔ e ∈ s.nodes ∧ invalidatesNode n r e = false) ∧
  (∀ (s : State) (dpa : Nat) (h : Assoc Nat (List Byte)), h = s.homes.filter (fun e => decide (e.1 / 128 ≠ dpa / 128)) →
      exec (.lineWriteBack dpa []) s = .next { s with homes := h } ∧
      ∀ g cls d, g % 8 = 0 → g / 128 = dpa / 128 → homeOf g = .lpddr d → s.mapped g = true → cls < 16 →
        ∃ t, exec (.lineWriteBack dpa [(g, cls)]) s = .next t ∧
          t = { s with mem := t.mem, homes := h, badMem := Assoc.drop s.badMem g, parts := t.parts,
                       lifetime := if (Assoc.get? s.badMem g).isSome then s.lifetime else s.lifetime.countUncorrected d cls } ∧
          ∀ a, t.mem.byte a = match Assoc.get? s.homes g with | some bs => laid s.mem g bs a | none => s.mem.byte a) ∧
  (∀ (s : State) (dpa cls d : Nat), s.mapped (dpa / 8 * 8) = true →
      (homeOf (dpa / 8 * 8) = .lpddr d ∨ homeOf (dpa / 8 * 8) = .sram d) → Assoc.get? s.badMem (dpa / 8 * 8) = none →
      exec (.memoryAccessPerformed (.granule dpa cls)) s =
        .next { s with badMem := Assoc.put s.badMem (dpa / 8 * 8) cls, lifetime := s.lifetime.countUncorrected d cls }) ∧
  ∀ (s : State) (k : ThreadKey) (u : Thread) (off : Nat), s.thread? k = some u → off < 0x20000 → (k, off / 8 * 8) ∉ s.badCsa →
      exec (.memoryAccessPerformed (.saved k off)) s =
        .next { s with badCsa := (k, off / 8 * 8) :: s.badCsa, lifetime := s.lifetime.countUncorrected u.core.die 11 }

/-- An answer to a request of the partition's current incarnation, which still owns the core that sent it and the port that carried it (log 79), gives a thread whose instruction awaits it its bytes, beside those of the same segment that the device holds, or takes the bytes of a store off its thread, the bytes of the store that the device holds being performed with the last of them; a request that is not answered in time or rejected (a wrong number of bytes stands for a rejection, log 18) leaves its thread the failure, and a store's failure a MACHINE_CHECK entry with the window address; another answer only takes the request away, and a request whose port has no link that carries it gets none. A request at an enabled mode-0 port, or a read or write of a burst at an enabled mode-1 port, inside a range of its owner with what it needs is performed and completed: a read returns the bytes, a write lays its bytes, an atomic returns the old value and lays the new one; outside every range it gets an error completion (log 80), and a port that does not carry it does nothing. A retrain and a retry count in the port's counters, a retrain in the lifetime record too. A member's failure ends the collective FAULTED with cause PEER; a member's cancel does so too, or cancels it with cause PEER at its next boundary, a free choice (log 49). -/
def Obligations.PeerResults : Prop :=
  (∀ (s : State) (id : Nat) (r : PeerReq) (bs : List Byte), (s.requests.find? fun q => decide (q.id = id)) = some r →
      (s.linked r = false → exec (.peerAck id bs) s = .next s) ∧
      (r.inc ≠ (s.part r.part).inc ∨ s.stillOwner r = false →
        ((∀ q ∈ s.requests, q.id = id → s.linked q = true) → exec (.peerAck id bs) s =
          .next { s with requests := s.requests.filter fun q => decide (q.id ≠ id) }) ∧
        exec (.peerTimeout id) s = .next { s with requests := s.requests.filter fun q => decide (q.id ≠ id) }) ∧
      (r.inc = (s.part r.part).inc → s.stillOwner r = true →
        (∀ k pc sup slot u, r.who = .thread k pc sup slot → s.thread? k = some u →
          ((∀ q ∈ s.requests, q.id = id → s.linked q = true) → ∃ t, exec (.peerAck id bs) s = .next t ∧
            oneThread { s with requests := s.requests.filter fun q => decide (q.id ≠ id) } t k
              (if bs.length = r.len then answered s u ⟨pc, sup, slot, r.dpa, r.len, some bs⟩ r.near
               else answered s u ⟨pc, sup, slot, r.dpa, r.len, none⟩ [])) ∧
          ∃ t, exec (.peerTimeout id) s = .next t ∧
            oneThread { s with requests := s.requests.filter fun q => decide (q.id ≠ id) } t k
              (answered s u ⟨pc, sup, slot, r.dpa, r.len, none⟩ [])) ∧
        ∀ k seq u, r.who = .store k seq → s.thread? k = some u → r.write = true →
          ((∀ q ∈ s.requests, q.id = id → s.linked q = true) → ∃ t, exec (.peerAck id []) s = .next t ∧
            oneThread { s with requests := s.requests.filter (fun q => decide (q.id ≠ id)), mem := t.mem, homes := t.homes, badMem := t.badMem } t k
              { u with sq := (afterAnswer u seq r).filter fun p => !p.acked seq } ∧
            t.mem = ((afterAnswer u seq r).filter (PendStore.acked seq)).foldl (fun m p => m.putCells p.cells) s.mem) ∧
          ∃ t, exec (.peerTimeout id) s = .next t ∧
            oneThread { s with requests := s.requests.filter (fun q => decide (q.id ≠ id)), mem := t.mem, homes := t.homes, badMem := t.badMem,
                               parts := t.parts } t k { u with sq := (afterAnswer u seq r).filter fun p => !p.acked seq } ∧
            t.mem = ((afterAnswer u seq r).filter (PendStore.acked seq)).foldl (fun m p => m.putCells p.cells) s.mem ∧
            (r.part < 16 → (s.part r.part).fifo.length < 256 → (s.part r.part).fifoWait = [] →
              t.parts = (s.setPart r.part { s.part r.part with fifo := (s.part r.part).fifo ++
                [⟨fifoW0 3 (r.port.getD 0 / 12) (some k.proc) none, 0, BitVec.ofNat 64 r.dpa, 14⟩] }).parts))) ∧
  (∀ (s : State) (port p : Nat) (q : InboundReq), ((List.range 16).find? fun n => (s.part n).ports.getLsbD port) = some p →
      (¬carried (Assoc.getD s.ports port Port.fresh) q → exec (.inboundPeerRequest port q) s = .next s) ∧
      (carried (Assoc.getD s.ports port Port.fresh) q →
        ((∀ w ∈ (s.part p).inbound.toList, inboundOk w q = false) →
          exec (.inboundPeerRequest port q) s = .next { s with completion := some (port, none) }) ∧
        (1 ≤ q.len → q.len ≤ 256 → (∃ w ∈ (s.part p).inbound.toList, inboundOk w q = true) → s.badMem = [] →
          (∀ i < q.len, s.mapped (q.dpa + i) = true ∧ (Place.device (q.dpa + i)).remote = false) →
          (q.kind = .read → exec (.inboundPeerRequest port q) s =
            .next { s with completion := some (port, some (s.mem.bytes q.dpa q.len)) }) ∧
          (q.kind = .write → q.data.length = q.len → ∃ t, exec (.inboundPeerRequest port q) s = .next t ∧
            t = { s with mem := t.mem, homes := t.homes, completion := some (port, some []) } ∧ ∀ a, t.mem.byte a = laid s.mem q.dpa q.data a) ∧
          ∀ op cmp, q.kind = .atomic op cmp → (q.len = 4 ∨ q.len = 8) → q.dpa % q.len = 0 → q.data.length = q.len → op ≤ 7 →
            ∃ t, exec (.inboundPeerRequest port q) s = .next t ∧
              t = { s with mem := t.mem, homes := t.homes, completion := some (port, some (bytesOf q.len (s.mem.load q.dpa q.len))) } ∧
              ∀ a, t.mem.byte a = match atomNew op q.len (s.mem.load q.dpa q.len) (natOfBytes q.data) (zext (8 * q.len) cmp) with
                | some new => laid s.mem q.dpa (bytesOf q.len new) a
                | none => s.mem.byte a))) ∧
  (∀ (s : State) (port : Nat) (p : Port), port < 48 → p = Assoc.getD s.ports port Port.fresh →
      (∃ t q, exec (.linkRetrain port) s = .next t ∧
        t = { s with ports := Assoc.put s.ports port q, lifetime := { s.lifetime with
          retrains := Assoc.put s.lifetime.retrains port (min (2 ^ 32 - 1) (Assoc.getD s.lifetime.retrains port 0 + 1)) } } ∧
        q = { p with cnt := q.cnt } ∧ ∀ i : Fin 4, q.cnt[i] = if p.sel[i] = 5 then p.cnt[i] + 1 else p.cnt[i]) ∧
      ∃ t q, exec (.linkLevelRetry port) s = .next t ∧ t = { s with ports := Assoc.put s.ports port q } ∧
        q = { p with cnt := q.cnt } ∧ ∀ i : Fin 4, q.cnt[i] = if p.sel[i] = 3 then p.cnt[i] + 1 else p.cnt[i]) ∧
  ∀ (s : State) (part pr : Nat) (m : PeerMember) (y : Tether),
      (s.tethers.find? fun z => decide (z.state = .running ∧ z.kind = .coll ∧ z.part = part ∧ z.proc = pr ∧
        collPset z.ops.2.2 = m.pset)) = some y → s.tetherAny? (tetherToken y) = some y → y.launch = none →
      (s.proc part pr).live = true → y.cancelling = false → y.fenced = false →
      ∃ t z, exec (.peerMemberFailure part pr m) s = .next t ∧ t.tetherAny? (tetherToken y) = some z ∧
        t.thr = s.thr ∧ t.others = s.others ∧ t.mem = s.mem ∧
        ((z.state = .faulted ∧ z.cause = .peer) ∨
          (m.cancelled = true ∧ if (y.suspended || s.atBoundary y) = true then z.state = .cancelled ∧ z.cause = .peer
            else z = { y with byPeer := true, cancelling := true }))

/-- For an enabled core: a lane-check test of a unit that it has and that miscompares once counts a corrected error; twice, it logs a lane group the first time and retires it the next, and fences a shared unit. COLUMN_GROUP_RETIREMENT with the array idle and no thread on the core retires the first waiting group and empties every block. CORESTATE writes retire lane groups, begin column retirements and clear capabilities, each by the bits written, and a fence may tell threads that have lost their last core (log 59); every repair advances DFVER. RPOP takes the oldest log entry away, and RCOUNT_READ reads both counts and clears DROPPED. Choices of the model that clauses rest on: log 10. -/
def Obligations.RepairResults : Prop :=
  (∀ (s : State) (c : CoreId) (u : CheckUnit), (s.core c).enabled = true → (s.core c).tests u = true →
      exec (.laneCheckTest c u true false) s = .next (s.countCorrected c.die 13) ∧
      (∀ n, u = .laneGroup n → (s.core c).confirmed.any (sameUnit u) = false → s.repairs.length < 256 →
        ∃ t, exec (.laneCheckTest c u true true) s = .next t ∧
          oneCore { s with repairs := s.repairs ++ [⟨BitVec.ofNat 64 (4 + c.die * 2 ^ 8 + c.site * 2 ^ 10 + n * 2 ^ 16), 0⟩] } t c
            { s.core c with confirmed := u :: (s.core c).confirmed }) ∧
      (∀ n, u = .laneGroup n → (s.core c).confirmed.any (sameUnit u) = true →
        ∃ t, exec (.laneCheckTest c u true true) s = .next t ∧ repaired s t ∧ t.dfver = s.dfver + 1 ∧
          t.core c = { s.core c with lret := (s.core c).lret ||| BitVec.ofNat 16 (2 ^ n), changed := s.dfver + 1 }) ∧
      ∀ b, u = .shared b → ∃ t, exec (.laneCheckTest c u true true) s = .next t ∧ t.dfver = s.dfver + 1 ∧
        (t.core c).cap = (s.core c).cap &&& ~~~(BitVec.ofNat 25 (2 ^ b)) ∧ t.mem = s.mem) ∧
  (∀ (s : State) (c : CoreId) (g : Nat) (rest : List Nat), (s.core c).retiring = g :: rest → s.arrayBusy c = false →
      s.residents c = [] → ∃ t, exec (.columnGroupRetirement c) s = .next t ∧ repaired s t ∧ t.dfver = s.dfver + 1 ∧
        t.core c = { s.core c with cret := (s.core c).cret ||| BitVec.ofNat 8 (2 ^ g), blocks := [], retiring := rest,
                                   changed := s.dfver + 1 }) ∧
  (∀ (s : State) (c : CoreId), (s.core c).enabled = true →
      (∀ bits : BitVec 8, ∃ t, exec (.corestateCret c bits) s = .next t ∧
        oneCore s t c { s.core c with retiring := (s.core c).retiring ++ newGroups (s.core c) bits }) ∧
      (∀ bits : BitVec 16, ∃ t, exec (.corestateLret c bits) s = .next t ∧ repaired s t ∧
        (t.core c).lret = (s.core c).lret ||| bits ∧ (t.core c).cap = (s.core c).cap ∧ (t.core c).cret = (s.core c).cret ∧
        t.dfver = s.dfver + BitVec.ofNat 64 (popCount 16 (bits &&& ~~~(s.core c).lret).toNat) ∧ ∀ d ≠ c, t.core d = s.core d) ∧
      ∀ bits : BitVec 25, ∃ t, exec (.corestateCap c bits) s = .next t ∧
        (t.core c).cap = (s.core c).cap &&& ~~~bits ∧ (t.core c).lret = (s.core c).lret ∧ (t.core c).cret = (s.core c).cret ∧
        t.dfver = s.dfver + BitVec.ofNat 64 (popCount 25 (bits &&& (s.core c).cap).toNat) ∧ t.mem = s.mem ∧
        ∀ k, (t.thread? k).map (fun u => { u with told := false }) = (s.thread? k).map fun u => { u with told := false }) ∧
  ∀ s : State, exec .rpop s = .next { s with repairs := s.repairs.drop 1 } ∧
    exec .rcountRead s = .next { s with cpuRead := BitVec.ofNat 64 (s.repairs.length + s.dropped * 2 ^ 16), dropped := 0 }

/-- CORE_ASSIGN of an enabled core that the partition does not own takes its lowest free bank, empty, and sets the core's bit. CORE_RELEASE asks the partition's threads there to leave, and tells fenced ones that have lost their last core (log 59); CORE_RELEASE_COMPLETE, with none left and no peer's answer owed to the core (log 79), clears the bit, frees the bank and makes the partition's KEPT channels IDLE. PARTITION_HALT clears RUN and asks every thread of the partition to leave; PARTITION_RUN sets RUN, brings saved channels and handler-table entries back whose places are free (log 77), and lets its suspended tethers go on (log 54) but for a COPY whose channel has not come back. PARTITION_KILL ends every thread and tether of the partition and advances its incarnation when nothing of the next is owed; a saved channel of another partition whose place it frees returns (log 77); the threads of other partitions keep their contexts, and memory stays. KILL_COMPLETE ends the kill once nothing of an older incarnation is owed. PARTITION_SWAP of a halted partition saves its FILLING channels and handler-table entries, and leaves no channel, idle plane or L1 translation of it on a core. -/
def Obligations.PartitionResults : Prop :=
  (∀ (s : State) (n : Nat) (c : CoreId) (i : Nat), n < 16 → c.die < 4 → c.site < 64 → (s.core c).enabled = true →
      (s.core c).ownedBy n = false →
      ((List.range 4).find? fun j => decide (((s.core c).banks[j]?.getD none) = none)) = some i →
      ∃ t, exec (.coreAssign n c) s = .next t ∧ t = { s with cores := t.cores, parts := t.parts } ∧
        t.core c = { s.core c with banks := (s.core c).banks.setIfInBounds i (some n),
                                   blocks := (s.core c).blocks.filter fun e => decide (e.1.1 ≠ i) } ∧
        (∀ d ≠ c, t.core d = s.core d) ∧ (t.part n).ownsBit c = true ∧ t.part n = { s.part n with cores := (t.part n).cores } ∧
        (∀ d, d ≠ c → d.die < 4 → d.site < 64 → (t.part n).ownsBit d = (s.part n).ownsBit d) ∧ ∀ m ≠ n, t.part m = s.part m) ∧
  (∀ (s : State) (n : Nat) (c : CoreId), n < 16 → (s.part n).ownsBit c = true → c ∉ (s.part n).releasing →
      ∃ t, exec (.coreRelease n c) s = .next t ∧
        onePart { s with thr := t.thr, others := t.others } t n { s.part n with
          releasing := (s.part n).releasing ++ [c], fifo := (t.part n).fifo, fifoWait := (t.part n).fifoWait } ∧
        (∀ k, (t.thread? k).map (fun u => { u with told := false }) =
          (s.thread? k).map fun u => { (asked (fun v => decide (v.core = c ∧ v.key.part = n)) u) with told := false }) ∧
        ((∀ u ∈ s.threads, u.avoid = []) → leaveAsked s t (fun u => decide (u.core = c ∧ u.key.part = n)) ∧
          (t.part n).fifo = (s.part n).fifo ∧ (t.part n).fifoWait = (s.part n).fifoWait)) ∧
  (∀ (s : State) (n : Nat) (c : CoreId) (i : Nat), n < 16 → c ∈ (s.part n).releasing → (∀ u ∈ s.residents c, u.key.part ≠ n) →
      s.coreOwed n c = false →
      ((List.range 4).find? fun j => decide (((s.core c).banks[j]?.getD none) = some n)) = some i →
      ∃ t, exec (.coreReleaseComplete n c) s = .next t ∧ t = { s with cores := t.cores, parts := t.parts } ∧
        (t.part n).ownsBit c = false ∧ (t.part n).releasing = (s.part n).releasing.erase c ∧
        t.core c = { s.core c with banks := (s.core c).banks.setIfInBounds i none,
                                   blocks := (s.core c).blocks.filter fun e => decide (e.1.1 ≠ i),
                                   channels := (s.core c).channels.filter fun e => !decide (e.2.part = n ∧ e.2.state = .kept) } ∧ ∀ d ≠ c, t.core d = s.core d) ∧
  (∀ (s : State) (n : Nat), n < 16 → (s.part n).killBusy = false →
      (∃ t, exec (.partitionHalt n) s = .next t ∧
        onePart { s with thr := t.thr, others := t.others, tethers := t.tethers } t n { s.part n with run := false } ∧
        leaveAsked s t (fun u => decide (u.key.part = n))) ∧
      (∃ t, exec (.partitionRun n) s = .next t ∧
        t = { s with tethers := t.tethers, parts := t.parts, cores := t.cores } ∧
        t.part n = { s.part n with run := true, swappedOut := false, savedChannels := (t.part n).savedChannels,
                                   savedHandlers := (t.part n).savedHandlers } ∧
        (∀ m ≠ n, t.part m = { s.part m with savedChannels := (t.part m).savedChannels }) ∧
        (∀ c, t.core c = { s.core c with channels := (t.core c).channels, handlers := (t.core c).handlers }) ∧
        ((∀ m < 16, (s.part m).savedChannels = []) → (s.part n).savedHandlers = [] →
          onePart { s with tethers := t.tethers } t n { s.part n with run := true, swappedOut := false }) ∧
        (∀ c k ch, (s.part n).savedChannels = [(c, k, ch)] → (∀ m < 16, m ≠ n → (s.part m).savedChannels = []) →
          (s.core c).filling k = false → t.channel? c k = some ch ∧ (t.part n).savedChannels = []) ∧
        (∀ c e h, (s.part n).savedHandlers = [(c, e, h)] → Assoc.get? (s.core c).handlers e = none →
          (∀ d ∈ s.cores, ∀ q ∈ d.2.handlers, q.2.isFor h.part h.proc h.queue = false) →
          Assoc.get? (t.core c).handlers e = some h ∧ (t.part n).savedHandlers = []) ∧
        (t.tethers.map fun y => { y with suspended := false, rowEnded := false }) =
          (s.tethers.map fun y => { y with suspended := false, rowEnded := false }) ∧
        ((∀ m < 16, (s.part m).savedChannels = []) → t.tethers = s.tethers.map fun y => if y.part = n then
          { y with suspended := false, rowEnded := y.rowEnded && (y.cancelling || y.fenced) } else y) ∧
        ∀ c k ch y, (s.part n).savedChannels = [(c, k, ch)] → (∀ m < 16, m ≠ n → (s.part m).savedChannels = []) →
          (s.core c).filling k = true → s.tetherAny? ch.token = some y → y.part = n →
          t.tetherAny? ch.token = some y ∧ (t.part n).savedChannels = [(c, k, ch)]) ∧
      (s.owed n ((s.part n).inc + 1) = false →
        ∃ t, exec (.partitionKill n) s = .next t ∧ gonePart t n ∧ (t.part n).run = false ∧ (t.part n).killBusy = true ∧
          (t.part n).killWait = false ∧ (t.part n).inc = (s.part n).inc + 1 ∧ t.mem = s.mem ∧
          (∀ k, k.part ≠ n → (t.thread? k).map (fun u => { u with binds := [] }) = (s.thread? k).map fun u => { u with binds := [] }) ∧
          (∀ m ≠ n, t.part m = { s.part m with savedChannels := (t.part m).savedChannels }) ∧
          ((∀ m < 16, m ≠ n → (s.part m).savedChannels = []) → ∀ m ≠ n, t.part m = s.part m) ∧
          ∀ c k ch m, m < 16 → m ≠ n → (s.part m).swappedOut = false → (s.part m).savedChannels = [(c, k, ch)] →
            (∀ q < 16, q ≠ n → q ≠ m → (s.part q).savedChannels = []) →
            (∀ e ∈ (s.core c).channels, e.1 = k → e.2.part = n ∨ e.2.state ≠ .filling) →
            t.channel? c k = some ch ∧ (t.part m).savedChannels = [])) ∧
  (∀ (s : State) (n : Nat), n < 16 → (s.part n).killBusy = true → (s.part n).killWait = false →
      (∀ r ∈ s.requests, r.part = n → r.inc = (s.part n).inc) →
      ∃ t, exec (.killComplete n) s = .next t ∧ onePart s t n { s.part n with killBusy := false }) ∧
  ∀ (s : State) (n m : Nat), n < 16 → m < 16 → n ≠ m → s.halted n = true →
      ∃ t, exec (.partitionSwap n m) s = .next t ∧
        t = { s with cores := t.cores, parts := t.parts, tlb := t.tlb, tethers := t.tethers } ∧
        (t.tethers.map fun y => { y with suspended := false }) = (s.tethers.map fun y => { y with suspended := false }) ∧
        t.part n = { s.part n with swappedOut := true, savedChannels := (s.part n).savedChannels ++ s.fillingOf n,
                                   savedHandlers := (s.part n).savedHandlers ++ s.handlersOf n } ∧
        t.part m = { s.part m with swappedOut := false, savedChannels := (t.part m).savedChannels,
                                   savedHandlers := (t.part m).savedHandlers } ∧
        (∀ c k ch, t.channel? c k = some ch → ch.part = n → ∃ p < 16, p ≠ n ∧ (c, k, ch) ∈ (s.part p).savedChannels) ∧
        (∀ c, ∀ e ∈ (t.core c).handlers, e.2.part = n → ∃ h ∈ (s.part m).savedHandlers, h.2.2 = e.2) ∧
        (∀ c, ∀ e ∈ (t.core c).planes, e.2.part = n → (s.core c).busyPlane e.1 = true) ∧
        ∀ e, e ∈ t.tlb ↔ e ∈ s.tlb ∧ ¬((∃ c, e.home = .core c) ∧ e.part = n)

/-- CLOCK_THROTTLE above a limit lowers CLK by one step down to 12 and sets the flag of each limit; CLOCK_RAISE below both raises it by one step up to 24. OVERTEMPERATURE with no kill in progress kills every partition, resets the cores but for their repairs, banks and confirmed miscompares, raises TJMAX to 125 at least (log 57) and keeps memory. POWER_ON of a device without power comes up from flash with the repairs of the record, and a test of its lane checkers that miscompares acts as LANE_CHECK_TEST; POWER_LOSS keeps flash and the firmware slots alone; DEVICE_RESET comes up again with the record as it stands (log 23). Each update that takes effect at a boot advances DFVER (log 83). Choices of the model that clauses rest on: log 10. -/
def Obligations.PowerResults : Prop :=
  (∀ (s : State) (watts : BitVec 16) (tj : BitVec 8),
      (105 < tj.toNat ∨ s.power.limit < watts.toNat →
        exec (.clockThrottle watts tj) s = .next { s with power := { s.power with
          pwr := watts, tjmax := tj, clk := max 12 (s.power.clk - 1), tlim := s.power.tlim || decide (105 < tj.toNat),
          plim := s.power.plim || decide (s.power.limit < watts.toNat) } }) ∧
      (tj.toNat < 105 → watts.toNat < s.power.limit →
        exec (.clockRaise watts tj) s = .next { s with power := { s.power with
          pwr := watts, tjmax := tj, clk := min 24 (s.power.clk + 1), tlim := s.power.tlim && decide (s.power.clk + 1 < 24),
          plim := s.power.plim && decide (s.power.clk + 1 < 24) } })) ∧
  (∀ (s : State) (die : Nat), (∀ n < 16, (s.part n).killBusy = false) →
      ∃ t, exec (.overtemperature die) s = .next t ∧ t.mem = s.mem ∧ t.tlb = [] ∧ t.nodes = [] ∧
        t.power = { s.power with tjmax := t.power.tjmax } ∧ 125 ≤ t.power.tjmax.toNat ∧
        (∀ n < 16, (t.part n).run = false ∧ (t.part n).killBusy = true ∧ ∀ u ∈ t.threads, u.live = true → u.key.part ≠ n) ∧
        (∀ c, (t.core c).cap = (s.core c).cap ∧ (t.core c).lret = (s.core c).lret ∧ (t.core c).cret = (s.core c).cret ∧
          (t.core c).banks = (s.core c).banks ∧ (t.core c).confirmed = (s.core c).confirmed ∧ (t.core c).planes = [] ∧ (t.core c).channels = [] ∧ (t.core c).order = []) ∧
        Assoc.getD t.lifetime.tjHours (die, 12) 0 = min (2 ^ 32 - 1) (Assoc.getD s.lifetime.tjHours (die, 12) 0 + 1)) ∧
  (∀ (s : State) (ch : List Nat) (v : Word), s.off = true → v = s.flash.dfver + BitVec.ofNat 64 s.firmware.updates →
      ∃ t, exec (.powerOn ⟨ch, []⟩) s = .next t ∧ t.off = false ∧ t.untrained = ch ∧ t.mem = [] ∧ t.tethers = [] ∧ t.others = [] ∧
        t.thr.live = false ∧ t.dfver = v ∧ t.fwver = v ∧ t.lifetime = { s.flash with dfver := v } ∧ t.flash = t.lifetime ∧
        t.firmware = s.firmware.boot ∧
        (∀ c w, Assoc.get? s.flash.cores c = some w → (t.core c).cap = w.extractLsb' 0 25 ∧ (t.core c).lret = w.extractLsb' 25 16 ∧
          (t.core c).cret = w.extractLsb' 41 8) ∧
        ∀ c u again, exec (.powerOn ⟨ch, [(c, u, again)]⟩) s = exec (.laneCheckTest c u true again) t) ∧
  (∀ s : State, ∃ t, exec .powerLoss s = .next t ∧ t.off = true ∧ t.mem = [] ∧ t.thr.live = false ∧ t.others = [] ∧
      t.flash = s.flash ∧ t.lifetime = s.flash ∧ t.firmware = s.firmware) ∧
  ∀ (s : State) (v : Word), s.off = false → v = s.lifetime.dfver + BitVec.ofNat 64 s.firmware.updates →
      ∃ t, exec .deviceReset s = .next t ∧ t.off = false ∧ t.untrained = s.untrained ∧ t.tethers = [] ∧ t.others = [] ∧
        t.thr.live = false ∧ t.dfver = v ∧ t.fwver = v ∧ t.lifetime = { s.lifetime with dfver := v } ∧
        t.flash = { s.flash with dfver := v } ∧ t.firmware = s.firmware.boot ∧ (∀ n < 16, (t.part n).run = false) ∧
        ((s.cores.map Prod.fst).Nodup → ∀ c, (t.core c).confirmed = (s.core c).confirmed)

/-- LIFETIME_REFRESH raises SEQ to an odd number, and from an odd one makes the snapshot the record with SEQ raised again (log 81); LIFETIME_FLASH_WRITE writes it to flash. FIRMWARE_UPDATE of an image with a good signature and version writes the inactive slot alone. LIVE_ACTIVATION of image 3 or 4 halts every running partition, and those made to run meanwhile too; once all are halted it runs the image, advances DFVER and runs them again (log 58). SECURITY_VERSION_RAISE never lowers the fused minimum. Each request on the management port is answered under the algorithms offered and is unsupported under any other. Choices of the model that clauses rest on: logs 11 and 83. -/
def Obligations.FirmwareResults : Prop :=
  (∀ s : State, exec .lifetimeRefresh s = .next { s with snapshot :=
        if s.snapshot.seq % 2 = 0 then { s.snapshot with seq := s.snapshot.seq + 1 }
        else { s.lifetime with seq := s.snapshot.seq + 1 } } ∧
      exec .lifetimeFlashWrite s = .next { s with flash := s.lifetime }) ∧
  (∀ (s : State) (img : Nat) (im : FwImage), 1 ≤ img → img ≤ 4 → im.signatureOk = true →
      Assoc.getD s.firmware.fused img 0 ≤ im.version → ∃ t, exec (.firmwareUpdate img im) s = .next t ∧
        t = { s with firmware := { s.firmware with
          slots := t.firmware.slots, written := Assoc.put s.firmware.written img (1 - Assoc.getD s.firmware.active img 0) } } ∧
        ∀ q, Assoc.get? t.firmware.slots q = if q = (img, 1 - Assoc.getD s.firmware.active img 0) then some im
          else Assoc.get? s.firmware.slots q) ∧
  (∀ (s : State) (img : Nat), img = 3 ∨ img = 4 → s.firmware.accepts img (1 - Assoc.getD s.firmware.active img 0) = true →
      (s.firmware.activating = none → ∃ t, exec (.liveActivation img) s = .next t ∧ (∀ n < 16, (t.part n).run = false) ∧
        t.firmware = { s.firmware with activating := some (img, (List.range 16).filter fun n => (s.part n).run) } ∧ t.mem = s.mem) ∧
      ∀ l, s.firmware.activating = some (img, l) →
        (∀ im, Assoc.get? s.firmware.slots (img, 1 - Assoc.getD s.firmware.active img 0) = some im →
          (∀ n < 16, (s.part n).run = false) → (∀ n < 16, s.halted n = true ∨ (s.part n).killBusy = true) →
          ∃ t, exec (.liveActivation img) s = .next t ∧ Assoc.get? t.firmware.running img = some im ∧
            t.firmware.activating = none ∧ t.dfver = s.dfver + 1 ∧ t.fwver = s.dfver + 1 ∧ t.thr = s.thr ∧ t.others = s.others ∧
            t.mem = s.mem ∧ ∀ n < 16, (t.part n).run = (l.contains n && !(s.part n).killBusy)) ∧
        ((∃ n < 16, (s.part n).run = true) → ∃ t, exec (.liveActivation img) s = .next t ∧ (∀ n < 16, (t.part n).run = false) ∧
          t.mem = s.mem ∧ t.firmware = { s.firmware with
            activating := some (img, l ++ (List.range 16).filter fun n => (s.part n).run && !l.contains n) })) ∧
  (∀ (s : State) (img v : Nat), 1 ≤ img → img ≤ 4 → ∃ t, exec (.securityVersionRaise img v) s = .next t ∧
      t = { s with firmware := { s.firmware with fused := t.firmware.fused } } ∧
      ∀ j, Assoc.getD t.firmware.fused j 0 = if j = img then max v (Assoc.getD s.firmware.fused img 0)
        else Assoc.getD s.firmware.fused j 0) ∧
  ∀ (s : State) (asym hash : BitVec 16) (nonce : Nat),
      exec .getVersion s = .next (withAnswer s .version) ∧ exec .getCapabilities s = .next (withAnswer s .capabilities) ∧
      exec (.negotiateAlgorithms asym hash) s = .next (withAnswer s (offered asym hash (.algorithms 1 2))) ∧
      exec (.getDigests asym hash) s = .next (withAnswer s (offered asym hash (.digests (Config.shake [Config.certificate])))) ∧
      exec (.getCertificate asym hash) s = .next (withAnswer s (offered asym hash (.certificate Config.certificate))) ∧
      exec (.challenge asym hash nonce) s =
        .next (withAnswer s (offered asym hash (.challengeAuth (Config.sign (nonce :: s.measurements))))) ∧
      exec (.getMeasurements asym hash nonce) s =
        .next (withAnswer s (offered asym hash (.measurements s.measurements (Config.sign (nonce :: s.measurements)))))

/-- LISSUE of a record that passes, with room in the FIFO and the tether table, creates a KERNEL tether of the process on the named die and reads its token; with 64 records waiting it reads reason 1 and creates none. FPOP takes the head entry away, and the one that waited longest enters; the tether of a KERNEL_END entry retires. QUEUE_CONFIGURE of an empty or absent queue within the limits makes it empty with its capacity and scope; QUEUE_DESTROY takes it and its handler entries away. QUOTA_WRITE within 4,096 entries a die sets the quotas; CODE_REGISTER registers an aligned text range, and CODE_UNREGISTER takes it away. Choices of the model that clauses rest on: logs 19, 35 and 52. -/
def Obligations.QueueRegisterResults : Prop :=
  (∀ (s : State) (n : Nat) (l : Launch), n < 16 → s.launchDepth n < 64 → (recordOf (wordsToBytes (s.part n).lrec.toList)).ok = true →
      (s.proc n (bitsAt (s.part n).lctl.toNat 0 6)).live = true → s.fifoRecord (bitsAt (s.part n).lctl.toNat 6 2) n (bitsAt (s.part n).lctl.toNat 0 6) = .ok l →
      s.tableRoom n (bitsAt (s.part n).lctl.toNat 6 2) = true → (∀ z ∈ s.tethers, z.index < 4096 ∧ z.die < 4) →
      ∃ t y, exec (.lissue n) s = .next t ∧ y ∈ t.tethers ∧ (t.part n).lissue = tetherToken y ∧ t.cpuRead = tetherToken y ∧
        y.kind = .kernel ∧ y.part = n ∧ y.proc = bitsAt (s.part n).lctl.toNat 0 6 ∧ y.die = bitsAt (s.part n).lctl.toNat 6 2 ∧
        y.launch = some l ∧ (l.deps = [] → y.state = .queued) ∧ t.thr = s.thr ∧ t.others = s.others ∧ t.mem = s.mem) ∧
  (∀ (s : State) (n : Nat), n < 16 → 64 ≤ s.launchDepth n →
      ∃ t, exec (.lissue n) s = .next t ∧
        onePart { s with cpuRead := 0x8000000000000001 } t n { s.part n with lissue := 0x8000000000000001 }) ∧
  (∀ (s : State) (n : Nat) (e : FifoEntry) (r : List FifoEntry), n < 16 → (s.part n).fifo = e :: r →
      ∃ t, exec (.fpop n) s = .next t ∧
        t.part n = { s.part n with fifo := r ++ (s.part n).fifoWait.take 1, fifoWait := (s.part n).fifoWait.drop 1 } ∧
        (∀ m ≠ n, t.part m = s.part m) ∧ t.mem = s.mem ∧
        if e.w0.toNat % 256 = 1 then ∀ y ∈ t.tethers, tetherToken y ≠ e.w1 else t = { s with parts := t.parts }) ∧
  (∀ (s : State) (n pr q cap : Nat) (v : Word), n < 16 → (s.part n).selected = (pr, q) → cap = bitsAt v.toNat 0 17 →
      (v.getLsbD 63 = true → 1 ≤ cap → cap ≤ 65536 → s.otherCaps n pr q + cap ≤ 262144 →
        (∀ h, Assoc.get? (s.proc n pr).queues q = some h → h.entries = []) → (s.proc n pr).root.getLsbD 0 = true →
        ∃ t, exec (.queueConfigure n v) s = .next t ∧
          onePart { s with procs := t.procs } t n { s.part n with qans := 0 } ∧
          t.proc n pr = { s.proc n pr with queues := Assoc.put (s.proc n pr).queues q ⟨cap, scopeOf (bitsAt v.toNat 20 2), []⟩ }) ∧
      ∃ t, exec (.queueDestroy n) s = .next t ∧
        t = { s with procs := t.procs, cores := t.cores, parts := t.parts } ∧
        (∀ m, t.part m = { s.part m with
          qans := if m = n then 0 else (s.part m).qans,
          savedHandlers := (s.part m).savedHandlers.filter fun e => !e.2.2.isFor n pr q }) ∧
        Assoc.get? (t.proc n pr).queues q = none ∧ (∀ j ≠ q, Assoc.get? (t.proc n pr).queues j = Assoc.get? (s.proc n pr).queues j) ∧
        ∀ c, ∀ e ∈ (t.core c).handlers, e.2.isFor n pr q = false) ∧
  (∀ (s : State) (n : Nat) (v : Word), n < 16 →
      (∀ d < 4, (((List.range 16).filter fun p => decide (p ≠ n)).map fun p => (s.part p).quotaOf d).foldl (· + ·) 0 +
        bitsAt v.toNat (16 * d) 13 ≤ 4096) →
      ∃ t, exec (.quotaWrite n v) s = .next t ∧ onePart s t n { s.part n with quota := v &&& 0x1FFF1FFF1FFF1FFF }) ∧
  ∀ (s : State) (n : Nat) (v : Word), n < 16 →
      (v.getLsbD 14 = true → (s.part n).crMark.toNat % 8 = 0 → (s.part n).crText.toNat % 65536 = 0 →
        (s.part n).crLen.toNat % 65536 = 0 → ∃ t, exec (.codeRegister n v) s = .next t ∧ t = { s with procs := t.procs } ∧
          Assoc.get? (t.proc n (bitsAt v.toNat 0 6)).texts (bitsAt v.toNat 6 8) =
            some ⟨(s.part n).crText.toNat, (s.part n).crLen.toNat, (s.part n).crMark.toNat, 0, false⟩) ∧
      (v.getLsbD 14 = false → (∀ u ∈ s.threads, ∀ a b, u.life ≠ .parked (.text a b)) →
        ∃ t, exec (.codeUnregister n v) s = .next t ∧ t = { s with procs := t.procs } ∧
          Assoc.get? (t.proc n (bitsAt v.toNat 0 6)).texts (bitsAt v.toNat 6 8) = none)

/-- With no command in progress and the selected thread live: PREEMPT and KILL of a resident thread ask it to leave, and the command waits for it; PREEMPT of a PRE-EMPTED thread holds it; RESUME lets a held thread wait again, and a HALTED one, which will enter its handler afresh; KILL of a thread off its core performs its stores and ends it, a handler thread with its HANDLER_END entry: while the fault FIFO has no room for that entry the thread stays HALTED. While the entry of its halt waits for the fault FIFO, RESUME and KILL of a HALTED thread wait (log 78). CANCEL of a QUEUED launch makes it CANCELLED. DESTROY of a live process without live threads or open launches ends it. Each answers 0; with no such thread a command answers reason 1, and while one is in progress reason 4 (log 52). Choices of the model that clauses rest on: logs 33 and 50. -/
def Obligations.ThreadCommandResults : Prop :=
  (∀ (s : State) (n : Nat) (k : ThreadKey) (u : Thread), n < 16 → (s.part n).tcmd = none → (s.part n).target n = k →
      s.thread? k = some u →
      (u.resident = true →
        (∃ t, exec (.preempt n) s = .next t ∧ oneThread { s with parts := t.parts } t k { u with wish := some true } ∧
          t.parts = (s.setPart n { s.part n with tans := 0, tcmd := some (k, 1) }).parts) ∧
        ∃ t, exec (.kill n) s = .next t ∧ oneThread { s with parts := t.parts } t k { u with wish := some true } ∧
          t.parts = (s.setPart n { s.part n with tans := 0, tcmd := some (k, 3) }).parts) ∧
      (u.life = .preempted → ∃ t, exec (.preempt n) s = .next t ∧
        oneThread { s with parts := t.parts } t k { u with held := true } ∧
        t.parts = (s.setPart n { s.part n with tans := 0 }).parts) ∧
      (u.life = .preempted → u.held = true → ∃ t, exec (.resume n) s = .next t ∧
        oneThread { s with parts := t.parts } t k { u with held := false } ∧
        t.parts = (s.setPart n { s.part n with tans := 0 }).parts) ∧
      (u.life = .halted → s.eventWaits u = false → ∃ t, exec (.resume n) s = .next t ∧
        oneThread { s with parts := t.parts, clock := s.clock + 1 } t k
          { u with life := .preempted, held := false, afresh := true, queued := s.clock } ∧
        t.parts = (s.setPart n { s.part n with tans := 0 }).parts) ∧
      (u.life = .halted → s.eventWaits u = true →
        goesPart s (exec (.resume n) s) n { s.part n with tans := 0, tcmd := some (k, 2) } ∧
        goesPart s (exec (.kill n) s) n { s.part n with tans := 0, tcmd := some (k, 3) }) ∧
      (u.resident = false → s.eventWaits u = false → (∀ p ∈ u.sq, ∀ c ∈ p.cells, (Place.device c.1).remote = false) →
        (s.threads.filter fun v => v.live && decide (v.key = k)) = [u] →
        ∃ t, exec (.kill n) s = .next t ∧ t.mem = u.view s.mem ∧ (t.part n).tans = 0 ∧
          (k.launch ≠ 0 ∨ ((s.part n).fifo.length < 256 ∧ (s.part n).fifoWait = []) → t.thread? k = none ∧ (t.part n).tcmd = none ∧
            (k.launch = 0 → handlerEnd u ∈ (t.part n).fifo)) ∧
          (k.launch = 0 → 256 ≤ (s.part n).fifo.length ∨ (s.part n).fifoWait ≠ [] →
            t.thread? k = some { u with sq := [], life := .halted } ∧ (t.part n).tcmd = some (k, 8) ∧
            (t.part n).fifo = (s.part n).fifo ∧ (t.part n).fifoWait = (s.part n).fifoWait ++ [handlerEnd u]))) ∧
  (∀ (s : State) (n : Nat) (k : ThreadKey) (u : Thread) (c : Nat), n < 16 → (s.part n).tcmd = some (k, c) → s.thread? k = some u →
      u.resident = true → ∀ i ∈ [Instr.preempt n, .resume n, .kill n, .cancel n, .destroy n],
        goesPart s (exec i s) n { s.part n with tans := 0x4000000000000400 }) ∧
  (∀ (s : State) (n : Nat), n < 16 → (s.part n).tcmd = none → s.thread? ((s.part n).target n) = none →
      ∀ i ∈ [Instr.preempt n, .resume n, .kill n],
        goesPart s (exec i s) n { s.part n with tans := 0x4000000000000100 }) ∧
  (∀ (s : State) (n : Nat) (y : Tether), n < 16 → (s.part n).tcmd = none → s.tetherAny? (s.part n).tsel0 = some y → y.part = n →
      (s.proc n y.proc).live = true → y.kind = .kernel → y.state = .queued → ∃ t z, exec (.cancel n) s = .next t ∧ t.tetherAny? (s.part n).tsel0 = some z ∧
        z.state = .cancelled ∧ z.cause = .cancel ∧ (t.part n).tans = 0 ∧ t.thr = s.thr ∧ t.others = s.others ∧ t.mem = s.mem) ∧
  ∀ (s : State) (n pr : Nat), n < 16 → (s.part n).tcmd = none → pr = ((s.part n).target n).proc → (s.proc n pr).live = true →
      (∀ u ∈ s.threads, u.live = true → ¬(u.key.part = n ∧ u.key.proc = pr)) →
      (∀ y ∈ s.tethers, y.part = n → y.proc = pr → y.kind = .kernel → tetherFinal y = true) →
      ∃ t, exec (.destroy n) s = .next t ∧ (t.part n).tans = 0 ∧ (t.proc n pr).live = false ∧ (t.proc n pr).queues = [] ∧
        (t.proc n pr).fabric = [] ∧ (∀ c, ∀ e ∈ (t.core c).handlers, ¬(e.2.part = n ∧ e.2.proc = pr)) ∧
        (∀ c k ch, t.channel? c k = some ch → ¬(ch.part = n ∧ ch.proc = pr ∧ ch.state = .kept)) ∧ t.mem = s.mem

/-- A write to a partition's stage-2 root, HENTRY or launch record, to a process's stage-1 root, to a port's mode and to the power limit within its bounds stores the fields of the register, and a field of QUANTUM keeps its value when the one written is out of range; the context window of a selected thread that is off its core reads and writes the bits that its CSA has; an access that is not aligned changes nothing. Reads give the launch depth, the head and the count of the fault FIFO, the stage-2 root, the control bits with the incarnation, the head of the repair log, SEQ, the power limit and memory. A counter selector with an assigned code is set, and its counter starts at 0; a reserved code changes nothing. Choices of the model that clauses rest on: logs 33 and 53. -/
def Obligations.RegisterResults : Prop :=
  (∀ (s : State) (n : Nat) (v : Word), n < 16 →
      (∃ t, exec (.registerWrite (BitVec.ofNat 64 (0x10000000000000 + n * 0x10000 + 0x1020)) v) s = .next t ∧
        onePart s t n { s.part n with root := v &&& 0xFFFFFFFFFC001 }) ∧
      (∃ t, exec (.registerWrite (BitVec.ofNat 64 (0x10000000000000 + n * 0x10000 + 0x1028)) v) s = .next t ∧
        onePart s t n { s.part n with hentry := v &&& 0x1FFFFFFFFFFFC }) ∧
      (∀ i < 8, ∃ t, exec (.registerWrite (BitVec.ofNat 64 (0x10000000000000 + n * 0x10000 + 8 * i)) v) s = .next t ∧
        onePart s t n { s.part n with lrec := (s.part n).lrec.setIfInBounds i v }) ∧
      (∀ pr < 64, ∃ t, exec (.registerWrite (BitVec.ofNat 64 (0x10000000000000 + n * 0x10000 + 0x2000 + 8 * pr)) v) s = .next t ∧
        t = { s with procs := t.procs } ∧
        t.proc n pr = { s.proc n pr with root := v &&& 0xFFFFFFFFFC001, live := v.getLsbD 0 } ∧
        ∀ m j, (m, j) ≠ (n, pr) → t.proc m j = s.proc m j) ∧
      (∃ t q, exec (.registerWrite (BitVec.ofNat 64 (0x10000000000000 + n * 0x10000 + 0x1030)) v) s = .next t ∧
        onePart s t n { s.part n with quantum := q } ∧ q.toNat < 2 ^ 13 ∧ bitsAt q.toNat 7 1 = 0 ∧
        bitsAt q.toNat 0 7 = (if 1 ≤ bitsAt v.toNat 0 7 ∧ bitsAt v.toNat 0 7 ≤ 64 then bitsAt v.toNat 0 7
          else bitsAt (s.part n).quantum.toNat 0 7) ∧
        bitsAt q.toNat 8 5 = (if 16 ≤ bitsAt v.toNat 8 5 ∧ bitsAt v.toNat 8 5 ≤ 28 then bitsAt v.toNat 8 5
          else bitsAt (s.part n).quantum.toNat 8 5)) ∧
      (∀ u o, s.thread? ((s.part n).target n) = some u → u.resident = false → o < 0x20000 → o % 8 = 0 →
        (∃ t w, exec (.registerWrite (BitVec.ofNat 64 (0x10000001000000 + n * 0x20000 + o)) v) s = .next t ∧
          oneThread s t ((s.part n).target n) { u with csa := w } ∧
          ∀ a, w.byte a = if o ≤ a ∧ a < o + 8 ∧ csaMask u.vlen a ≠ 0 then v.extractLsb' (8 * (a - o)) 8 &&& csaMask u.vlen a
            else u.csa.byte a) ∧
        exec (readOf (0x10000001000000 + n * 0x20000 + o)) s =
          .next { s with cpuRead := BitVec.ofNat 64 (natOfBytes (u.csaBytes o 8)) })) ∧
  (∀ (s : State) (n : Nat), n < 16 →
      exec (readOf (0x10000000000000 + n * 0x10000 + 0x50)) s = .next { s with cpuRead := BitVec.ofNat 64 (s.launchDepth n) } ∧
      (∀ i < 4, exec (readOf (0x10000000000000 + n * 0x10000 + 0x60 + 8 * i)) s = .next { s with cpuRead :=
        match (s.part n).fifo with
        | [] => 0
        | e :: _ => ([e.w0, e.w1, e.w2, e.w3][i]?).getD 0 }) ∧
      exec (readOf (0x10000000000000 + n * 0x10000 + 0x88)) s =
        .next { s with cpuRead := BitVec.ofNat 64 ((s.part n).fifo.length + if 256 ≤ (s.part n).fifo.length then 2 ^ 63 else 0) } ∧
      exec (readOf (0x10000000000000 + n * 0x10000 + 0x1020)) s = .next { s with cpuRead := (s.part n).root } ∧
      exec (readOf (0x10000000000000 + n * 0x10000 + 0x1040)) s =
        .next { s with cpuRead := BitVec.ofNat 64 ((s.part n).inc.toNat * 256 + (if (s.part n).killBusy then 4 else 0) +
          if (s.part n).run then 1 else 0) }) ∧
  (∀ s : State,
      exec (readOf 0x10000000120000) s = .next { s with cpuRead := match s.repairs with | [] => 0 | e :: _ => e.w0 } ∧
      exec (readOf 0x10000000120008) s = .next { s with cpuRead := match s.repairs with | [] => 0 | e :: _ => e.w1 } ∧
      exec (readOf 0x10000000124000) s = .next { s with cpuRead := BitVec.ofNat 64 (s.snapshot.seq % 2 ^ 64) } ∧
      exec (readOf 0x10000000128008) s = .next { s with cpuRead := BitVec.ofNat 64 s.power.limit } ∧
      ∀ a n : Nat, (∀ i < n, s.mapped (a + i) = true ∧ (Place.device (a + i)).remote = false) → a < 2 ^ 52 → s.badMem = [] →
        exec (.memoryAccessPerformed (.controlRead a n)) s = .next { s with cpuRead := BitVec.ofNat 64 (s.mem.load a n) }) ∧
  (∀ (s : State) (a v : Word), a.toNat % 8 ≠ 0 → exec (.registerWrite a v) s = .next s) ∧
  (∀ (s : State) (p : Nat) (v : Word), p < 48 → exec (.registerWrite (BitVec.ofNat 64 (0x10000000100000 + 8 * p)) v) s =
      .next { s with ports := Assoc.put s.ports p { Assoc.getD s.ports p Port.fresh with cfg := v.extractLsb' 0 2 } }) ∧
  (∀ (s : State) (v : Word), 1000 ≤ v.toNat % 65536 → v.toNat % 65536 ≤ 3200 →
      exec (.registerWrite 0x10000000128008 v) s = .next { s with power := { s.power with limit := v.toNat % 65536 } }) ∧
  (∀ (s : State) (die n : Nat) (v : Word), die < 4 → n < 16 →
      (v.toNat % 256 = 0 ∨ 13 < v.toNat % 256 → exec (.devselWrite die n v) s = .next s) ∧
      (1 ≤ v.toNat % 256 → v.toNat % 256 ≤ 13 → ∃ t, exec (.devselWrite die n v) s = .next t ∧ t = { s with devSel := t.devSel, devCnt := t.devCnt } ∧
        (∀ q, Assoc.getD t.devSel q 0 = if q = (die, n) then v &&& 0xFF else Assoc.getD s.devSel q 0) ∧
        ∀ q, Assoc.getD t.devCnt q 0 = if q = (die, n) then 0 else Assoc.getD s.devCnt q 0)) ∧
  ∀ (s : State) (port : Nat) (n : Fin 4) (v : Word), port < 48 →
      (v.toNat % 256 = 0 ∨ 7 < v.toNat % 256 → exec (.pevselWrite port n.val v) s = .next s) ∧
      (1 ≤ v.toNat % 256 → v.toNat % 256 ≤ 7 → ∃ t p, exec (.pevselWrite port n.val v) s = .next t ∧ t = { s with ports := Assoc.put s.ports port p } ∧
        p = { Assoc.getD s.ports port Port.fresh with sel := p.sel, cnt := p.cnt } ∧ p.sel[n] = v &&& 0xFF ∧ p.cnt[n] = 0 ∧
        ∀ k : Fin 4, k ≠ n → p.sel[k] = (Assoc.getD s.ports port Port.fresh).sel[k] ∧
          p.cnt[k] = (Assoc.getD s.ports port Port.fresh).cnt[k])

/-- The RNW of a signed integer X in the range of R33 has X mod 256, X mod 255, X mod 257 and X mod 127 in its four fields, fits 32 bits, and decodes to X again. -/
def Obligations.ResidueWords : Prop :=
  ∀ x : Int, -8388480 ≤ x → x ≤ 8388479 →
    (Rnw.ofInt x).word < 2 ^ 32 ∧
    ((bitsAt (Rnw.ofInt x).word 0 8 : Nat) : Int) = x % 256 ∧ ((bitsAt (Rnw.ofInt x).word 8 8 : Nat) : Int) = x % 255 ∧
    ((bitsAt (Rnw.ofInt x).word 16 9 : Nat) : Int) = x % 257 ∧ ((bitsAt (Rnw.ofInt x).word 25 7 : Nat) : Int) = x % 127 ∧
    (Rnw.ofWord (Rnw.ofInt x).word).crt = x ∧ (Rnw.ofWord (Rnw.ofInt x).word).consistent = true

/-- When no device step is asked for or due, the step settles what threads wait for, gives the turn to the thread that its core selects, and, when the words at that thread's PC can be fetched and decode to an instruction, executes exactly it: the thread has no MIGRATED trap to take, no breakpoint names its PC, and it is not between micro-steps. When a device step is asked for and can happen, the step is that one (the agenda is the model's own, log 4). Choices of the model that clauses rest on: log 61. -/
def Obligations.StepRunsDecodedInstruction : Prop :=
  (∀ (s s1 : State) (ws : List (BitVec 32)) (i : Instr), quiet s → s.settle.turn = some s1 →
      (s1.thr.migrated = false ∨ s1.thr.supervisor = true) → s1.thr.micro = none → s1.thr.prefixRead = none → s1.breaks = [] →
      s1.thr.breakpoint = none →
      (∀ j w, ws[j]? = some w → fetches s1 (s1.thr.pc + BitVec.ofNat 64 (4 * j)) w) → decodeWords ws = .ok (i, []) →
      step s = exec i s1) ∧
  ∀ (s : State) (i : Instr) (rest : List Instr), s.agenda = i :: rest →
      (i.isEncoded = false → s.off = false → s.firmware.recovery = false → step s = exec i { s with agenda := rest }) ∧
      (i.isEncoded = true → step s = .next { s with agenda := rest })

/-- Nine words written out bit by bit from the formats and the opcode map decode to the instructions that they stand for, and a prefix pair decodes to one instruction with the joined immediate. -/
def Obligations.DecodedWords : Prop :=
  (∀ e ∈ wordTable, decodeWords [e.1] = .ok (e.2, [])) ∧
  decodeWords [0b111111_00000000000000000000000001, 0b000010_00011_00100_0000000000000011] =
    .ok (.lpxPair (.imm .addi 3 4 0x10003), [])

/-- For every well-formed instruction that has an encoding, with every operand at every value that the encoding admits: the bytes of its word or words, with any bytes after them, decode to it and leave the words after it. -/
def Obligations.EncodeDecodeRoundTrip : Prop :=
  ∀ (i : Instr) (bs : List Byte), i.wf = true → i.isEncoded = true →
    decodeBytes (bytesOfWords (encode i) ++ bs) = .ok (i, wordsOfBytes bs)

/-- From every state in which all memories are in canonical form, every thread's VLEN is 1,024 bits for each of 1 to 16 lane groups, its VTYPE is legal, and only a handler has claimed the vector unit, a step that goes on leads to such a state. -/
def Obligations.StepKeepsInvariant : Prop :=
  ∀ s t : State, Inv s → step s = .next t → Inv t

/-- After reset the invariant holds; no thread is live, no tether, translation or request exists; no partition runs, and its registers hold their reset values; every core's mask is whole and nothing of it retired; every port is off; the clock is at 24 steps and the power limit at 3,200 W. Memory lists nothing (log 1). Choices of the model that clauses rest on: logs 3 and 10. -/
def Obligations.ResetState : Prop :=
  Inv State.reset ∧ (∀ u ∈ State.reset.threads, u.live = false) ∧
  (State.reset.tethers, State.reset.tlb, State.reset.nodes, State.reset.requests, State.reset.mem, State.reset.off) =
    ([], [], [], [], [], false) ∧
  (∀ n, State.reset.part n = { Partition.fresh with
    run := false, root := 0, hentry := 0, quantum := 0x1001, quota := 0, inc := 0, killBusy := false, ports := 0, fifo := [], lissue := 0, tans := 0, qans := 0 }) ∧
  (∀ c, (State.reset.core c).cap = 0x1FFFFFF ∧ (State.reset.core c).lret = 0 ∧ (State.reset.core c).cret = 0) ∧
  (∀ p, (Assoc.getD State.reset.ports p Port.fresh).cfg = 0) ∧ State.reset.power = ⟨0, 0, 24, false, false, 3200⟩

/-- After bytes are laid at an address, a read of them gives them, and every other byte is as before; the canonical form is kept, and two canonical memories that read alike are equal (the form is the model's, log 1). -/
def Obligations.MemoryLaws : Prop :=
  (∀ (m : Memory) (a : Nat) (bs : List Byte), (m.put a bs).bytes a bs.length = bs ∧
      (∀ x, x < a ∨ a + bs.length ≤ x → (m.put a bs).byte x = m.byte x) ∧ (m.wf = true → (m.put a bs).wf = true)) ∧
  (∀ m n : Memory, m.wf = true → n.wf = true → (∀ a, m.byte a = n.byte a) → m = n) ∧
  ∀ (m : Memory) (a n v : Nat), v < 256 ^ n → (m.put a (bytesOf n v)).load a n = v
end

