-- ==== Sys2Proof/Laws/Memory.lean ====
section
/-! SUPPORT. Memory as sorted cells: what a byte reads after a store, and the canonical form that every operation keeps. -/
set_option Elab.async false

namespace Sys2Proof.Machine

theorem Memory.byte_append (m n : Memory) (a : Nat) :
    Memory.byte (m ++ n) a = if ∃ c ∈ m, c.1 = a then Memory.byte m a else Memory.byte n a := by
  induction m with
  | nil => simp
  | cons c r ih =>
    obtain ⟨k, b⟩ := c
    by_cases h : k = a
    · simp [Memory.byte, h]
    · simp [Memory.byte, h, ih]

/-- A byte outside the list reads 0. -/
theorem Memory.byte_eq_zero (m : Memory) (a : Nat) (h : ∀ c ∈ m, c.1 ≠ a) : Memory.byte m a = 0 := by
  induction m with
  | nil => rfl
  | cons c r ih =>
    obtain ⟨k, b⟩ := c
    simp only [List.mem_cons, forall_eq_or_imp] at h
    simp [Memory.byte, h.1, ih h.2]

theorem Memory.byte_filter (m : Memory) (p : Nat → Bool) (a : Nat) :
    Memory.byte (m.filter fun c => p c.1) a = if p a then Memory.byte m a else 0 := by
  induction m with
  | nil => simp [Memory.byte]
  | cons c r ih =>
    obtain ⟨k, b⟩ := c
    by_cases hk : k = a
    · subst hk
      by_cases hp : p k <;> simp [Memory.byte, hp, ih]
    · by_cases hp : p k <;> simp [Memory.byte, hp, hk, ih]

theorem Memory.byte_cellsFrom (bs : List Byte) (a x : Nat) :
    Memory.byte (Memory.cellsFrom a bs) x = if a ≤ x ∧ x < a + bs.length then bs.getD (x - a) 0 else 0 := by
  induction bs generalizing a with
  | nil => simp [Memory.cellsFrom, Memory.byte]
  | cons b bs ih =>
    unfold Memory.cellsFrom
    split
    · rename_i hb
      rw [ih]
      rcases Nat.lt_trichotomy x a with h | h | h
      · rw [if_neg (by omega), if_neg (by omega)]
      · subst h
        rw [if_neg (by omega), if_pos (by simp)]
        simp [hb]
      · by_cases h2 : x < a + (b :: bs).length
        · rw [if_pos (by simp at h2 ⊢; omega), if_pos (by omega)]
          obtain ⟨k, rfl⟩ : ∃ k, x = a + 1 + k := ⟨x - (a + 1), by omega⟩
          rw [show a + 1 + k - (a + 1) = k by omega, show a + 1 + k - a = k + 1 by omega]
          simp
        · rw [if_neg (by simp at h2 ⊢; omega), if_neg (by omega)]
    · rw [Memory.byte, ih]
      rcases Nat.lt_trichotomy x a with h | h | h
      · rw [if_neg (by omega), if_neg (by omega), if_neg (by omega)]
      · subst h
        simp
      · rw [if_neg (by omega)]
        by_cases h2 : x < a + (b :: bs).length
        · rw [if_pos (by simp at h2 ⊢; omega), if_pos (by omega)]
          obtain ⟨k, rfl⟩ : ∃ k, x = a + 1 + k := ⟨x - (a + 1), by omega⟩
          rw [show a + 1 + k - (a + 1) = k by omega, show a + 1 + k - a = k + 1 by omega]
          simp
        · rw [if_neg (by simp at h2 ⊢; omega), if_neg (by omega)]

theorem Memory.mem_cellsFrom (bs : List Byte) (a : Nat) (c : Host.Cell) (h : c ∈ Memory.cellsFrom a bs) :
    a ≤ c.1 ∧ c.1 < a + bs.length ∧ c.2 ≠ 0 := by
  induction bs generalizing a with
  | nil => simp [Memory.cellsFrom] at h
  | cons b bs ih =>
    unfold Memory.cellsFrom at h
    split at h
    · have := ih _ h
      simp only [List.length_cons]
      exact ⟨by omega, by omega, this.2.2⟩
    · rename_i hb
      simp only [List.mem_cons] at h
      rcases h with rfl | h
      · exact ⟨le_rfl, by simp, hb⟩
      · have := ih _ h
        simp only [List.length_cons]
        exact ⟨by omega, by omega, this.2.2⟩

/-- What a byte reads after bytes are stored: the stored one, or what it read before. -/
theorem Memory.byte_put (m : Memory) (a : Nat) (bs : List Byte) (x : Nat) :
    (m.put a bs).byte x = if a ≤ x ∧ x < a + bs.length then bs.getD (x - a) 0 else m.byte x := by
  unfold Memory.put
  rw [Memory.byte_append, Memory.byte_append]
  by_cases h1 : x < a
  · rw [if_neg (by omega : ¬(a ≤ x ∧ x < a + bs.length))]
    rw [Memory.byte_filter m (fun k => decide (k < a)), Memory.byte_cellsFrom, Memory.byte_filter m (fun k => decide (a + bs.length ≤ k))]
    rw [if_neg (by omega : ¬(a ≤ x ∧ x < a + bs.length))]
    simp only [h1, decide_true, if_true, show ¬ a + bs.length ≤ x by omega, decide_false]
    split
    · rfl
    · rename_i hne
      have : m.byte x = 0 := by
        apply Memory.byte_eq_zero
        intro c hc he
        exact hne ⟨c, by simp [hc, he, h1], he⟩
      rw [this]; simp
  · rw [if_neg (by rintro ⟨c, hc, rfl⟩; simp at hc; omega)]
    by_cases h2 : x < a + bs.length
    · rw [if_pos (show a ≤ x ∧ x < a + bs.length by omega)]
      rw [Memory.byte_cellsFrom, if_pos (show a ≤ x ∧ x < a + bs.length by omega)]
      split
      · rfl
      · rename_i hne
        rw [Memory.byte_filter m (fun k => decide (a + bs.length ≤ k))]
        simp only [show ¬ a + bs.length ≤ x by omega, decide_false]
        have hz : Memory.byte (Memory.cellsFrom a bs) x = 0 := Memory.byte_eq_zero _ _ fun c hc he => hne ⟨c, hc, he⟩
        rw [Memory.byte_cellsFrom, if_pos (show a ≤ x ∧ x < a + bs.length by omega)] at hz
        rw [hz]; simp
    · rw [if_neg (show ¬(a ≤ x ∧ x < a + bs.length) by omega)]
      rw [if_neg (by rintro ⟨c, hc, rfl⟩; have := Memory.mem_cellsFrom _ _ _ hc; omega)]
      rw [Memory.byte_filter m (fun k => decide (a + bs.length ≤ k))]
      simp only [show a + bs.length ≤ x by omega, decide_true, if_true]

/-- A canonical memory: what `wf` says of its cells. -/
theorem Memory.wf_iff (m : Memory) : m.wf = true ↔ m.Pairwise (fun c d => c.1 < d.1) ∧ ∀ c ∈ m, c.2 ≠ 0 := by
  induction m with
  | nil => simp [Memory.wf]
  | cons c r ih =>
    obtain ⟨k, b⟩ := c
    simp only [Memory.wf, Bool.and_eq_true, decide_eq_true_eq, List.all_eq_true, List.pairwise_cons, List.mem_cons,
      forall_eq_or_imp, ih]
    tauto

theorem Memory.cellsFrom_wf (bs : List Byte) (a : Nat) : (Memory.cellsFrom a bs).wf = true := by
  induction bs generalizing a with
  | nil => rfl
  | cons b bs ih =>
    unfold Memory.cellsFrom
    split
    · exact ih _
    · rename_i hb
      simp only [Memory.wf, Bool.and_eq_true, decide_eq_true_eq, List.all_eq_true]
      exact ⟨⟨hb, fun c hc => by have := Memory.mem_cellsFrom _ _ _ hc; omega⟩, ih _⟩

/-- A store keeps the canonical form. -/
theorem Memory.put_wf (m : Memory) (a : Nat) (bs : List Byte) (h : m.wf = true) : (m.put a bs).wf = true := by
  rw [Memory.wf_iff] at h ⊢
  have hc := (Memory.wf_iff _).1 (Memory.cellsFrom_wf bs a)
  unfold Memory.put
  refine ⟨?_, ?_⟩
  · rw [List.pairwise_append, List.pairwise_append]
    refine ⟨h.1.filter _, ⟨hc.1, h.1.filter _, ?_⟩, ?_⟩
    · intro x hx y hy
      have := Memory.mem_cellsFrom _ _ _ hx
      simp at hy; omega
    · intro x hx y hy
      simp only [List.mem_append] at hy
      simp at hx
      rcases hy with hy | hy
      · have := Memory.mem_cellsFrom _ _ _ hy; omega
      · simp at hy; omega
  · intro c hcm
    simp only [List.mem_append, List.mem_filter] at hcm
    rcases hcm with hcm | hcm | hcm
    · exact h.2 c hcm.1
    · exact (Memory.mem_cellsFrom _ _ _ hcm).2.2
    · exact h.2 c hcm.1

theorem Memory.putCells_wf (cs : List Host.Cell) (m : Memory) (h : m.wf = true) : (m.putCells cs).wf = true := by
  induction cs generalizing m with
  | nil => exact h
  | cons c cs ih => exact ih _ (Memory.put_wf m c.1 [c.2] h)

/-- A canonical memory is what its bytes are: equal bytes are equal data. -/
theorem Memory.byte_ne_zero_iff (m : Memory) (h : m.wf = true) (a : Nat) : m.byte a ≠ 0 ↔ ∃ c ∈ m, c.1 = a := by
  constructor
  · intro hb
    by_contra hn
    exact hb (Memory.byte_eq_zero m a fun c hc he => hn ⟨c, hc, he⟩)
  · rintro ⟨c, hc, rfl⟩
    induction m with
    | nil => simp at hc
    | cons d r ih =>
      obtain ⟨k, b⟩ := d
      simp only [Memory.wf, Bool.and_eq_true, decide_eq_true_eq, List.all_eq_true] at h
      simp only [List.mem_cons] at hc
      rcases hc with rfl | hc
      · simpa [Memory.byte] using h.1.1
      · have := h.1.2 c hc
        simp only [Memory.byte, show k ≠ c.1 by omega, if_false]
        exact ih h.2 hc

/-- Cells outside an address leave its byte alone. -/
theorem Memory.byte_putCells_of_not_mem (cs : List Host.Cell) (m : Memory) (a : Nat) (h : ∀ c ∈ cs, c.1 ≠ a) :
    (m.putCells cs).byte a = m.byte a := by
  induction cs generalizing m with
  | nil => rfl
  | cons c cs ih =>
    simp only [List.mem_cons, forall_eq_or_imp] at h
    rw [Memory.putCells, ih _ h.2, Memory.byte_put, if_neg (by simp only [List.length_singleton]; omega)]

theorem cellsAt_mem (bs : List Byte) (a : Nat) (c : Host.Cell) (h : c ∈ cellsAt a bs) : a ≤ c.1 ∧ c.1 < a + bs.length := by
  induction bs generalizing a with
  | nil => simp [cellsAt] at h
  | cons b bs ih =>
    simp only [cellsAt, List.mem_cons] at h
    rcases h with rfl | h
    · simp
    · have := ih _ h; simp only [List.length_cons]; omega

/-- Stored cells of consecutive bytes read back. -/
theorem Memory.byte_putCells_cellsAt (bs : List Byte) (m : Memory) (a x : Nat) :
    (m.putCells (cellsAt a bs)).byte x = if a ≤ x ∧ x < a + bs.length then bs.getD (x - a) 0 else m.byte x := by
  induction bs generalizing a m with
  | nil => simp [cellsAt, Memory.putCells]
  | cons b bs ih =>
    rw [cellsAt, Memory.putCells, ih]
    rcases Nat.lt_trichotomy x a with h | h | h
    · rw [if_neg (by omega), if_neg (by omega), Memory.byte_put, if_neg (by simp only [List.length_singleton]; omega)]
    · subst h
      rw [if_neg (by omega), if_pos (by simp), Memory.byte_put, if_pos (by simp)]
      simp
    · by_cases h2 : x < a + (b :: bs).length
      · rw [if_pos (by simp at h2 ⊢; omega), if_pos (by omega)]
        obtain ⟨k, rfl⟩ : ∃ k, x = a + 1 + k := ⟨x - (a + 1), by omega⟩
        rw [show a + 1 + k - (a + 1) = k by omega, show a + 1 + k - a = k + 1 by omega]
        simp
      · rw [if_neg (by simp at h2 ⊢; omega), if_neg (by omega), Memory.byte_put, if_neg (by simp; omega)]

end Sys2Proof.Machine
end

