-- ==== Sys2Proof/Laws/State.lean ====
section
/-! SUPPORT. What each update of the state and of a thread leaves in each field. -/
set_option Elab.async false
namespace Sys2Proof.Machine

/-! ### Updates of the machine -/

@[simp] theorem State.mapThr_others (s : State) (f : Thread → Thread) : (s.mapThr f).others = s.others := rfl
@[simp] theorem State.mapThr_mem (s : State) (f : Thread → Thread) : (s.mapThr f).mem = s.mem := rfl
@[simp] theorem State.mapThr_badMem (s : State) (f : Thread → Thread) : (s.mapThr f).badMem = s.badMem := rfl
@[simp] theorem State.mapThr_homes (s : State) (f : Thread → Thread) : (s.mapThr f).homes = s.homes := rfl
@[simp] theorem State.mapThr_dispatched (s : State) (f : Thread → Thread) : (s.mapThr f).dispatched = s.dispatched := rfl
@[simp] theorem State.mapThr_badReg (s : State) (f : Thread → Thread) : (s.mapThr f).badReg = s.badReg := rfl
@[simp] theorem State.mapThr_badCsa (s : State) (f : Thread → Thread) : (s.mapThr f).badCsa = s.badCsa := rfl
@[simp] theorem State.mapThr_cores (s : State) (f : Thread → Thread) : (s.mapThr f).cores = s.cores := rfl
@[simp] theorem State.mapThr_parts (s : State) (f : Thread → Thread) : (s.mapThr f).parts = s.parts := rfl
@[simp] theorem State.mapThr_procs (s : State) (f : Thread → Thread) : (s.mapThr f).procs = s.procs := rfl
@[simp] theorem State.mapThr_tethers (s : State) (f : Thread → Thread) : (s.mapThr f).tethers = s.tethers := rfl
@[simp] theorem State.mapThr_gens (s : State) (f : Thread → Thread) : (s.mapThr f).gens = s.gens := rfl
@[simp] theorem State.mapThr_groups (s : State) (f : Thread → Thread) : (s.mapThr f).groups = s.groups := rfl
@[simp] theorem State.mapThr_tlb (s : State) (f : Thread → Thread) : (s.mapThr f).tlb = s.tlb := rfl
@[simp] theorem State.mapThr_nodes (s : State) (f : Thread → Thread) : (s.mapThr f).nodes = s.nodes := rfl
@[simp] theorem State.mapThr_ports (s : State) (f : Thread → Thread) : (s.mapThr f).ports = s.ports := rfl
@[simp] theorem State.mapThr_peers (s : State) (f : Thread → Thread) : (s.mapThr f).peers = s.peers := rfl
@[simp] theorem State.mapThr_peerSets (s : State) (f : Thread → Thread) : (s.mapThr f).peerSets = s.peerSets := rfl
@[simp] theorem State.mapThr_requests (s : State) (f : Thread → Thread) : (s.mapThr f).requests = s.requests := rfl
@[simp] theorem State.mapThr_untrained (s : State) (f : Thread → Thread) : (s.mapThr f).untrained = s.untrained := rfl
@[simp] theorem State.mapThr_dfver (s : State) (f : Thread → Thread) : (s.mapThr f).dfver = s.dfver := rfl
@[simp] theorem State.mapThr_fwver (s : State) (f : Thread → Thread) : (s.mapThr f).fwver = s.fwver := rfl
@[simp] theorem State.mapThr_repairs (s : State) (f : Thread → Thread) : (s.mapThr f).repairs = s.repairs := rfl
@[simp] theorem State.mapThr_dropped (s : State) (f : Thread → Thread) : (s.mapThr f).dropped = s.dropped := rfl
@[simp] theorem State.mapThr_devSel (s : State) (f : Thread → Thread) : (s.mapThr f).devSel = s.devSel := rfl
@[simp] theorem State.mapThr_devCnt (s : State) (f : Thread → Thread) : (s.mapThr f).devCnt = s.devCnt := rfl
@[simp] theorem State.mapThr_lifetime (s : State) (f : Thread → Thread) : (s.mapThr f).lifetime = s.lifetime := rfl
@[simp] theorem State.mapThr_snapshot (s : State) (f : Thread → Thread) : (s.mapThr f).snapshot = s.snapshot := rfl
@[simp] theorem State.mapThr_flash (s : State) (f : Thread → Thread) : (s.mapThr f).flash = s.flash := rfl
@[simp] theorem State.mapThr_firmware (s : State) (f : Thread → Thread) : (s.mapThr f).firmware = s.firmware := rfl
@[simp] theorem State.mapThr_power (s : State) (f : Thread → Thread) : (s.mapThr f).power = s.power := rfl
@[simp] theorem State.mapThr_off (s : State) (f : Thread → Thread) : (s.mapThr f).off = s.off := rfl
@[simp] theorem State.mapThr_holds (s : State) (f : Thread → Thread) : (s.mapThr f).holds = s.holds := rfl
@[simp] theorem State.mapThr_cpuRead (s : State) (f : Thread → Thread) : (s.mapThr f).cpuRead = s.cpuRead := rfl
@[simp] theorem State.mapThr_completion (s : State) (f : Thread → Thread) : (s.mapThr f).completion = s.completion := rfl
@[simp] theorem State.mapThr_clock (s : State) (f : Thread → Thread) : (s.mapThr f).clock = s.clock := rfl
@[simp] theorem State.mapThr_freeCtr (s : State) (f : Thread → Thread) : (s.mapThr f).freeCtr = s.freeCtr := rfl
@[simp] theorem State.mapThr_agenda (s : State) (f : Thread → Thread) : (s.mapThr f).agenda = s.agenda := rfl
@[simp] theorem State.mapThr_turns (s : State) (f : Thread → Thread) : (s.mapThr f).turns = s.turns := rfl
@[simp] theorem State.mapThr_pulse (s : State) (f : Thread → Thread) : (s.mapThr f).pulse = s.pulse := rfl
@[simp] theorem State.mapThr_duty (s : State) (f : Thread → Thread) : (s.mapThr f).duty = s.duty := rfl
@[simp] theorem State.mapThr_breaks (s : State) (f : Thread → Thread) : (s.mapThr f).breaks = s.breaks := rfl
@[simp] theorem State.mapThr_thr (s : State) (f : Thread → Thread) : (s.mapThr f).thr = f s.thr := rfl

@[simp] theorem State.setX_others (s : State) (r : Reg) (w : Word) : (s.setX r w).others = s.others := rfl
@[simp] theorem State.setX_mem (s : State) (r : Reg) (w : Word) : (s.setX r w).mem = s.mem := rfl
@[simp] theorem State.setX_badMem (s : State) (r : Reg) (w : Word) : (s.setX r w).badMem = s.badMem := rfl
@[simp] theorem State.setX_homes (s : State) (r : Reg) (w : Word) : (s.setX r w).homes = s.homes := rfl
@[simp] theorem State.setX_dispatched (s : State) (r : Reg) (w : Word) : (s.setX r w).dispatched = s.dispatched := rfl
@[simp] theorem State.setX_badReg (s : State) (r : Reg) (w : Word) : (s.setX r w).badReg = s.badReg := rfl
@[simp] theorem State.setX_badCsa (s : State) (r : Reg) (w : Word) : (s.setX r w).badCsa = s.badCsa := rfl
@[simp] theorem State.setX_cores (s : State) (r : Reg) (w : Word) : (s.setX r w).cores = s.cores := rfl
@[simp] theorem State.setX_parts (s : State) (r : Reg) (w : Word) : (s.setX r w).parts = s.parts := rfl
@[simp] theorem State.setX_procs (s : State) (r : Reg) (w : Word) : (s.setX r w).procs = s.procs := rfl
@[simp] theorem State.setX_tethers (s : State) (r : Reg) (w : Word) : (s.setX r w).tethers = s.tethers := rfl
@[simp] theorem State.setX_gens (s : State) (r : Reg) (w : Word) : (s.setX r w).gens = s.gens := rfl
@[simp] theorem State.setX_groups (s : State) (r : Reg) (w : Word) : (s.setX r w).groups = s.groups := rfl
@[simp] theorem State.setX_tlb (s : State) (r : Reg) (w : Word) : (s.setX r w).tlb = s.tlb := rfl
@[simp] theorem State.setX_nodes (s : State) (r : Reg) (w : Word) : (s.setX r w).nodes = s.nodes := rfl
@[simp] theorem State.setX_ports (s : State) (r : Reg) (w : Word) : (s.setX r w).ports = s.ports := rfl
@[simp] theorem State.setX_peers (s : State) (r : Reg) (w : Word) : (s.setX r w).peers = s.peers := rfl
@[simp] theorem State.setX_peerSets (s : State) (r : Reg) (w : Word) : (s.setX r w).peerSets = s.peerSets := rfl
@[simp] theorem State.setX_requests (s : State) (r : Reg) (w : Word) : (s.setX r w).requests = s.requests := rfl
@[simp] theorem State.setX_untrained (s : State) (r : Reg) (w : Word) : (s.setX r w).untrained = s.untrained := rfl
@[simp] theorem State.setX_dfver (s : State) (r : Reg) (w : Word) : (s.setX r w).dfver = s.dfver := rfl
@[simp] theorem State.setX_fwver (s : State) (r : Reg) (w : Word) : (s.setX r w).fwver = s.fwver := rfl
@[simp] theorem State.setX_repairs (s : State) (r : Reg) (w : Word) : (s.setX r w).repairs = s.repairs := rfl
@[simp] theorem State.setX_dropped (s : State) (r : Reg) (w : Word) : (s.setX r w).dropped = s.dropped := rfl
@[simp] theorem State.setX_devSel (s : State) (r : Reg) (w : Word) : (s.setX r w).devSel = s.devSel := rfl
@[simp] theorem State.setX_devCnt (s : State) (r : Reg) (w : Word) : (s.setX r w).devCnt = s.devCnt := rfl
@[simp] theorem State.setX_lifetime (s : State) (r : Reg) (w : Word) : (s.setX r w).lifetime = s.lifetime := rfl
@[simp] theorem State.setX_snapshot (s : State) (r : Reg) (w : Word) : (s.setX r w).snapshot = s.snapshot := rfl
@[simp] theorem State.setX_flash (s : State) (r : Reg) (w : Word) : (s.setX r w).flash = s.flash := rfl
@[simp] theorem State.setX_firmware (s : State) (r : Reg) (w : Word) : (s.setX r w).firmware = s.firmware := rfl
@[simp] theorem State.setX_power (s : State) (r : Reg) (w : Word) : (s.setX r w).power = s.power := rfl
@[simp] theorem State.setX_off (s : State) (r : Reg) (w : Word) : (s.setX r w).off = s.off := rfl
@[simp] theorem State.setX_holds (s : State) (r : Reg) (w : Word) : (s.setX r w).holds = s.holds := rfl
@[simp] theorem State.setX_cpuRead (s : State) (r : Reg) (w : Word) : (s.setX r w).cpuRead = s.cpuRead := rfl
@[simp] theorem State.setX_completion (s : State) (r : Reg) (w : Word) : (s.setX r w).completion = s.completion := rfl
@[simp] theorem State.setX_clock (s : State) (r : Reg) (w : Word) : (s.setX r w).clock = s.clock := rfl
@[simp] theorem State.setX_freeCtr (s : State) (r : Reg) (w : Word) : (s.setX r w).freeCtr = s.freeCtr := rfl
@[simp] theorem State.setX_agenda (s : State) (r : Reg) (w : Word) : (s.setX r w).agenda = s.agenda := rfl
@[simp] theorem State.setX_turns (s : State) (r : Reg) (w : Word) : (s.setX r w).turns = s.turns := rfl
@[simp] theorem State.setX_pulse (s : State) (r : Reg) (w : Word) : (s.setX r w).pulse = s.pulse := rfl
@[simp] theorem State.setX_duty (s : State) (r : Reg) (w : Word) : (s.setX r w).duty = s.duty := rfl
@[simp] theorem State.setX_breaks (s : State) (r : Reg) (w : Word) : (s.setX r w).breaks = s.breaks := rfl
@[simp] theorem State.setX_thr (s : State) (r : Reg) (w : Word) : (s.setX r w).thr = s.thr.setX r w := rfl

@[simp] theorem State.setProc_thr (s : State) (n k : Nat) (p : Process) : (s.setProc n k p).thr = s.thr := rfl
@[simp] theorem State.setProc_others (s : State) (n k : Nat) (p : Process) : (s.setProc n k p).others = s.others := rfl
@[simp] theorem State.setProc_mem (s : State) (n k : Nat) (p : Process) : (s.setProc n k p).mem = s.mem := rfl
@[simp] theorem State.setProc_badMem (s : State) (n k : Nat) (p : Process) : (s.setProc n k p).badMem = s.badMem := rfl
@[simp] theorem State.setProc_homes (s : State) (n k : Nat) (p : Process) : (s.setProc n k p).homes = s.homes := rfl
@[simp] theorem State.setProc_dispatched (s : State) (n k : Nat) (p : Process) : (s.setProc n k p).dispatched = s.dispatched := rfl
@[simp] theorem State.setProc_badReg (s : State) (n k : Nat) (p : Process) : (s.setProc n k p).badReg = s.badReg := rfl
@[simp] theorem State.setProc_badCsa (s : State) (n k : Nat) (p : Process) : (s.setProc n k p).badCsa = s.badCsa := rfl
@[simp] theorem State.setProc_cores (s : State) (n k : Nat) (p : Process) : (s.setProc n k p).cores = s.cores := rfl
@[simp] theorem State.setProc_parts (s : State) (n k : Nat) (p : Process) : (s.setProc n k p).parts = s.parts := rfl
@[simp] theorem State.setProc_tethers (s : State) (n k : Nat) (p : Process) : (s.setProc n k p).tethers = s.tethers := rfl
@[simp] theorem State.setProc_gens (s : State) (n k : Nat) (p : Process) : (s.setProc n k p).gens = s.gens := rfl
@[simp] theorem State.setProc_groups (s : State) (n k : Nat) (p : Process) : (s.setProc n k p).groups = s.groups := rfl
@[simp] theorem State.setProc_tlb (s : State) (n k : Nat) (p : Process) : (s.setProc n k p).tlb = s.tlb := rfl
@[simp] theorem State.setProc_nodes (s : State) (n k : Nat) (p : Process) : (s.setProc n k p).nodes = s.nodes := rfl
@[simp] theorem State.setProc_ports (s : State) (n k : Nat) (p : Process) : (s.setProc n k p).ports = s.ports := rfl
@[simp] theorem State.setProc_peers (s : State) (n k : Nat) (p : Process) : (s.setProc n k p).peers = s.peers := rfl
@[simp] theorem State.setProc_peerSets (s : State) (n k : Nat) (p : Process) : (s.setProc n k p).peerSets = s.peerSets := rfl
@[simp] theorem State.setProc_requests (s : State) (n k : Nat) (p : Process) : (s.setProc n k p).requests = s.requests := rfl
@[simp] theorem State.setProc_untrained (s : State) (n k : Nat) (p : Process) : (s.setProc n k p).untrained = s.untrained := rfl
@[simp] theorem State.setProc_dfver (s : State) (n k : Nat) (p : Process) : (s.setProc n k p).dfver = s.dfver := rfl
@[simp] theorem State.setProc_fwver (s : State) (n k : Nat) (p : Process) : (s.setProc n k p).fwver = s.fwver := rfl
@[simp] theorem State.setProc_repairs (s : State) (n k : Nat) (p : Process) : (s.setProc n k p).repairs = s.repairs := rfl
@[simp] theorem State.setProc_dropped (s : State) (n k : Nat) (p : Process) : (s.setProc n k p).dropped = s.dropped := rfl
@[simp] theorem State.setProc_devSel (s : State) (n k : Nat) (p : Process) : (s.setProc n k p).devSel = s.devSel := rfl
@[simp] theorem State.setProc_devCnt (s : State) (n k : Nat) (p : Process) : (s.setProc n k p).devCnt = s.devCnt := rfl
@[simp] theorem State.setProc_lifetime (s : State) (n k : Nat) (p : Process) : (s.setProc n k p).lifetime = s.lifetime := rfl
@[simp] theorem State.setProc_snapshot (s : State) (n k : Nat) (p : Process) : (s.setProc n k p).snapshot = s.snapshot := rfl
@[simp] theorem State.setProc_flash (s : State) (n k : Nat) (p : Process) : (s.setProc n k p).flash = s.flash := rfl
@[simp] theorem State.setProc_firmware (s : State) (n k : Nat) (p : Process) : (s.setProc n k p).firmware = s.firmware := rfl
@[simp] theorem State.setProc_power (s : State) (n k : Nat) (p : Process) : (s.setProc n k p).power = s.power := rfl
@[simp] theorem State.setProc_off (s : State) (n k : Nat) (p : Process) : (s.setProc n k p).off = s.off := rfl
@[simp] theorem State.setProc_holds (s : State) (n k : Nat) (p : Process) : (s.setProc n k p).holds = s.holds := rfl
@[simp] theorem State.setProc_cpuRead (s : State) (n k : Nat) (p : Process) : (s.setProc n k p).cpuRead = s.cpuRead := rfl
@[simp] theorem State.setProc_completion (s : State) (n k : Nat) (p : Process) : (s.setProc n k p).completion = s.completion := rfl
@[simp] theorem State.setProc_clock (s : State) (n k : Nat) (p : Process) : (s.setProc n k p).clock = s.clock := rfl
@[simp] theorem State.setProc_freeCtr (s : State) (n k : Nat) (p : Process) : (s.setProc n k p).freeCtr = s.freeCtr := rfl
@[simp] theorem State.setProc_agenda (s : State) (n k : Nat) (p : Process) : (s.setProc n k p).agenda = s.agenda := rfl
@[simp] theorem State.setProc_turns (s : State) (n k : Nat) (p : Process) : (s.setProc n k p).turns = s.turns := rfl
@[simp] theorem State.setProc_pulse (s : State) (n k : Nat) (p : Process) : (s.setProc n k p).pulse = s.pulse := rfl
@[simp] theorem State.setProc_duty (s : State) (n k : Nat) (p : Process) : (s.setProc n k p).duty = s.duty := rfl
@[simp] theorem State.setProc_breaks (s : State) (n k : Nat) (p : Process) : (s.setProc n k p).breaks = s.breaks := rfl
@[simp] theorem State.setProc_procs (s : State) (n k : Nat) (p : Process) : (s.setProc n k p).procs = Assoc.put s.procs (n, k) p := rfl

@[simp] theorem State.setPart_thr (s : State) (n : Nat) (p : Partition) : (s.setPart n p).thr = s.thr := rfl
@[simp] theorem State.setPart_others (s : State) (n : Nat) (p : Partition) : (s.setPart n p).others = s.others := rfl
@[simp] theorem State.setPart_mem (s : State) (n : Nat) (p : Partition) : (s.setPart n p).mem = s.mem := rfl
@[simp] theorem State.setPart_badMem (s : State) (n : Nat) (p : Partition) : (s.setPart n p).badMem = s.badMem := rfl
@[simp] theorem State.setPart_homes (s : State) (n : Nat) (p : Partition) : (s.setPart n p).homes = s.homes := rfl
@[simp] theorem State.setPart_dispatched (s : State) (n : Nat) (p : Partition) : (s.setPart n p).dispatched = s.dispatched := rfl
@[simp] theorem State.setPart_badReg (s : State) (n : Nat) (p : Partition) : (s.setPart n p).badReg = s.badReg := rfl
@[simp] theorem State.setPart_badCsa (s : State) (n : Nat) (p : Partition) : (s.setPart n p).badCsa = s.badCsa := rfl
@[simp] theorem State.setPart_cores (s : State) (n : Nat) (p : Partition) : (s.setPart n p).cores = s.cores := rfl
@[simp] theorem State.setPart_procs (s : State) (n : Nat) (p : Partition) : (s.setPart n p).procs = s.procs := rfl
@[simp] theorem State.setPart_tethers (s : State) (n : Nat) (p : Partition) : (s.setPart n p).tethers = s.tethers := rfl
@[simp] theorem State.setPart_gens (s : State) (n : Nat) (p : Partition) : (s.setPart n p).gens = s.gens := rfl
@[simp] theorem State.setPart_groups (s : State) (n : Nat) (p : Partition) : (s.setPart n p).groups = s.groups := rfl
@[simp] theorem State.setPart_tlb (s : State) (n : Nat) (p : Partition) : (s.setPart n p).tlb = s.tlb := rfl
@[simp] theorem State.setPart_nodes (s : State) (n : Nat) (p : Partition) : (s.setPart n p).nodes = s.nodes := rfl
@[simp] theorem State.setPart_ports (s : State) (n : Nat) (p : Partition) : (s.setPart n p).ports = s.ports := rfl
@[simp] theorem State.setPart_peers (s : State) (n : Nat) (p : Partition) : (s.setPart n p).peers = s.peers := rfl
@[simp] theorem State.setPart_peerSets (s : State) (n : Nat) (p : Partition) : (s.setPart n p).peerSets = s.peerSets := rfl
@[simp] theorem State.setPart_requests (s : State) (n : Nat) (p : Partition) : (s.setPart n p).requests = s.requests := rfl
@[simp] theorem State.setPart_untrained (s : State) (n : Nat) (p : Partition) : (s.setPart n p).untrained = s.untrained := rfl
@[simp] theorem State.setPart_dfver (s : State) (n : Nat) (p : Partition) : (s.setPart n p).dfver = s.dfver := rfl
@[simp] theorem State.setPart_fwver (s : State) (n : Nat) (p : Partition) : (s.setPart n p).fwver = s.fwver := rfl
@[simp] theorem State.setPart_repairs (s : State) (n : Nat) (p : Partition) : (s.setPart n p).repairs = s.repairs := rfl
@[simp] theorem State.setPart_dropped (s : State) (n : Nat) (p : Partition) : (s.setPart n p).dropped = s.dropped := rfl
@[simp] theorem State.setPart_devSel (s : State) (n : Nat) (p : Partition) : (s.setPart n p).devSel = s.devSel := rfl
@[simp] theorem State.setPart_devCnt (s : State) (n : Nat) (p : Partition) : (s.setPart n p).devCnt = s.devCnt := rfl
@[simp] theorem State.setPart_lifetime (s : State) (n : Nat) (p : Partition) : (s.setPart n p).lifetime = s.lifetime := rfl
@[simp] theorem State.setPart_snapshot (s : State) (n : Nat) (p : Partition) : (s.setPart n p).snapshot = s.snapshot := rfl
@[simp] theorem State.setPart_flash (s : State) (n : Nat) (p : Partition) : (s.setPart n p).flash = s.flash := rfl
@[simp] theorem State.setPart_firmware (s : State) (n : Nat) (p : Partition) : (s.setPart n p).firmware = s.firmware := rfl
@[simp] theorem State.setPart_power (s : State) (n : Nat) (p : Partition) : (s.setPart n p).power = s.power := rfl
@[simp] theorem State.setPart_off (s : State) (n : Nat) (p : Partition) : (s.setPart n p).off = s.off := rfl
@[simp] theorem State.setPart_holds (s : State) (n : Nat) (p : Partition) : (s.setPart n p).holds = s.holds := rfl
@[simp] theorem State.setPart_cpuRead (s : State) (n : Nat) (p : Partition) : (s.setPart n p).cpuRead = s.cpuRead := rfl
@[simp] theorem State.setPart_completion (s : State) (n : Nat) (p : Partition) : (s.setPart n p).completion = s.completion := rfl
@[simp] theorem State.setPart_clock (s : State) (n : Nat) (p : Partition) : (s.setPart n p).clock = s.clock := rfl
@[simp] theorem State.setPart_freeCtr (s : State) (n : Nat) (p : Partition) : (s.setPart n p).freeCtr = s.freeCtr := rfl
@[simp] theorem State.setPart_agenda (s : State) (n : Nat) (p : Partition) : (s.setPart n p).agenda = s.agenda := rfl
@[simp] theorem State.setPart_turns (s : State) (n : Nat) (p : Partition) : (s.setPart n p).turns = s.turns := rfl
@[simp] theorem State.setPart_pulse (s : State) (n : Nat) (p : Partition) : (s.setPart n p).pulse = s.pulse := rfl
@[simp] theorem State.setPart_duty (s : State) (n : Nat) (p : Partition) : (s.setPart n p).duty = s.duty := rfl
@[simp] theorem State.setPart_breaks (s : State) (n : Nat) (p : Partition) : (s.setPart n p).breaks = s.breaks := rfl
@[simp] theorem State.setPart_parts (s : State) (n : Nat) (p : Partition) : (s.setPart n p).parts = s.parts.setIfInBounds n p := rfl

@[simp] theorem State.setCore_thr (s : State) (c : CoreId) (k : Core) : (s.setCore c k).thr = s.thr := rfl
@[simp] theorem State.setCore_others (s : State) (c : CoreId) (k : Core) : (s.setCore c k).others = s.others := rfl
@[simp] theorem State.setCore_mem (s : State) (c : CoreId) (k : Core) : (s.setCore c k).mem = s.mem := rfl
@[simp] theorem State.setCore_badMem (s : State) (c : CoreId) (k : Core) : (s.setCore c k).badMem = s.badMem := rfl
@[simp] theorem State.setCore_homes (s : State) (c : CoreId) (k : Core) : (s.setCore c k).homes = s.homes := rfl
@[simp] theorem State.setCore_dispatched (s : State) (c : CoreId) (k : Core) : (s.setCore c k).dispatched = s.dispatched := rfl
@[simp] theorem State.setCore_badReg (s : State) (c : CoreId) (k : Core) : (s.setCore c k).badReg = s.badReg := rfl
@[simp] theorem State.setCore_badCsa (s : State) (c : CoreId) (k : Core) : (s.setCore c k).badCsa = s.badCsa := rfl
@[simp] theorem State.setCore_parts (s : State) (c : CoreId) (k : Core) : (s.setCore c k).parts = s.parts := rfl
@[simp] theorem State.setCore_procs (s : State) (c : CoreId) (k : Core) : (s.setCore c k).procs = s.procs := rfl
@[simp] theorem State.setCore_tethers (s : State) (c : CoreId) (k : Core) : (s.setCore c k).tethers = s.tethers := rfl
@[simp] theorem State.setCore_gens (s : State) (c : CoreId) (k : Core) : (s.setCore c k).gens = s.gens := rfl
@[simp] theorem State.setCore_groups (s : State) (c : CoreId) (k : Core) : (s.setCore c k).groups = s.groups := rfl
@[simp] theorem State.setCore_tlb (s : State) (c : CoreId) (k : Core) : (s.setCore c k).tlb = s.tlb := rfl
@[simp] theorem State.setCore_nodes (s : State) (c : CoreId) (k : Core) : (s.setCore c k).nodes = s.nodes := rfl
@[simp] theorem State.setCore_ports (s : State) (c : CoreId) (k : Core) : (s.setCore c k).ports = s.ports := rfl
@[simp] theorem State.setCore_peers (s : State) (c : CoreId) (k : Core) : (s.setCore c k).peers = s.peers := rfl
@[simp] theorem State.setCore_peerSets (s : State) (c : CoreId) (k : Core) : (s.setCore c k).peerSets = s.peerSets := rfl
@[simp] theorem State.setCore_requests (s : State) (c : CoreId) (k : Core) : (s.setCore c k).requests = s.requests := rfl
@[simp] theorem State.setCore_untrained (s : State) (c : CoreId) (k : Core) : (s.setCore c k).untrained = s.untrained := rfl
@[simp] theorem State.setCore_dfver (s : State) (c : CoreId) (k : Core) : (s.setCore c k).dfver = s.dfver := rfl
@[simp] theorem State.setCore_fwver (s : State) (c : CoreId) (k : Core) : (s.setCore c k).fwver = s.fwver := rfl
@[simp] theorem State.setCore_repairs (s : State) (c : CoreId) (k : Core) : (s.setCore c k).repairs = s.repairs := rfl
@[simp] theorem State.setCore_dropped (s : State) (c : CoreId) (k : Core) : (s.setCore c k).dropped = s.dropped := rfl
@[simp] theorem State.setCore_devSel (s : State) (c : CoreId) (k : Core) : (s.setCore c k).devSel = s.devSel := rfl
@[simp] theorem State.setCore_devCnt (s : State) (c : CoreId) (k : Core) : (s.setCore c k).devCnt = s.devCnt := rfl
@[simp] theorem State.setCore_lifetime (s : State) (c : CoreId) (k : Core) : (s.setCore c k).lifetime = s.lifetime := rfl
@[simp] theorem State.setCore_snapshot (s : State) (c : CoreId) (k : Core) : (s.setCore c k).snapshot = s.snapshot := rfl
@[simp] theorem State.setCore_flash (s : State) (c : CoreId) (k : Core) : (s.setCore c k).flash = s.flash := rfl
@[simp] theorem State.setCore_firmware (s : State) (c : CoreId) (k : Core) : (s.setCore c k).firmware = s.firmware := rfl
@[simp] theorem State.setCore_power (s : State) (c : CoreId) (k : Core) : (s.setCore c k).power = s.power := rfl
@[simp] theorem State.setCore_off (s : State) (c : CoreId) (k : Core) : (s.setCore c k).off = s.off := rfl
@[simp] theorem State.setCore_holds (s : State) (c : CoreId) (k : Core) : (s.setCore c k).holds = s.holds := rfl
@[simp] theorem State.setCore_cpuRead (s : State) (c : CoreId) (k : Core) : (s.setCore c k).cpuRead = s.cpuRead := rfl
@[simp] theorem State.setCore_completion (s : State) (c : CoreId) (k : Core) : (s.setCore c k).completion = s.completion := rfl
@[simp] theorem State.setCore_clock (s : State) (c : CoreId) (k : Core) : (s.setCore c k).clock = s.clock := rfl
@[simp] theorem State.setCore_freeCtr (s : State) (c : CoreId) (k : Core) : (s.setCore c k).freeCtr = s.freeCtr := rfl
@[simp] theorem State.setCore_agenda (s : State) (c : CoreId) (k : Core) : (s.setCore c k).agenda = s.agenda := rfl
@[simp] theorem State.setCore_turns (s : State) (c : CoreId) (k : Core) : (s.setCore c k).turns = s.turns := rfl
@[simp] theorem State.setCore_pulse (s : State) (c : CoreId) (k : Core) : (s.setCore c k).pulse = s.pulse := rfl
@[simp] theorem State.setCore_duty (s : State) (c : CoreId) (k : Core) : (s.setCore c k).duty = s.duty := rfl
@[simp] theorem State.setCore_breaks (s : State) (c : CoreId) (k : Core) : (s.setCore c k).breaks = s.breaks := rfl
@[simp] theorem State.setCore_cores (s : State) (c : CoreId) (k : Core) : (s.setCore c k).cores = Assoc.put s.cores c k := rfl

@[simp] theorem State.perform_thr (s : State) (l : List Host.Cell) : (s.perform l).thr = s.thr := rfl
@[simp] theorem State.perform_others (s : State) (l : List Host.Cell) : (s.perform l).others = s.others := rfl
@[simp] theorem State.perform_badReg (s : State) (l : List Host.Cell) : (s.perform l).badReg = s.badReg := rfl
@[simp] theorem State.perform_badCsa (s : State) (l : List Host.Cell) : (s.perform l).badCsa = s.badCsa := rfl
@[simp] theorem State.perform_cores (s : State) (l : List Host.Cell) : (s.perform l).cores = s.cores := rfl
@[simp] theorem State.perform_parts (s : State) (l : List Host.Cell) : (s.perform l).parts = s.parts := rfl
@[simp] theorem State.perform_procs (s : State) (l : List Host.Cell) : (s.perform l).procs = s.procs := rfl
@[simp] theorem State.perform_tethers (s : State) (l : List Host.Cell) : (s.perform l).tethers = s.tethers := rfl
@[simp] theorem State.perform_gens (s : State) (l : List Host.Cell) : (s.perform l).gens = s.gens := rfl
@[simp] theorem State.perform_groups (s : State) (l : List Host.Cell) : (s.perform l).groups = s.groups := rfl
@[simp] theorem State.perform_tlb (s : State) (l : List Host.Cell) : (s.perform l).tlb = s.tlb := rfl
@[simp] theorem State.perform_nodes (s : State) (l : List Host.Cell) : (s.perform l).nodes = s.nodes := rfl
@[simp] theorem State.perform_ports (s : State) (l : List Host.Cell) : (s.perform l).ports = s.ports := rfl
@[simp] theorem State.perform_peers (s : State) (l : List Host.Cell) : (s.perform l).peers = s.peers := rfl
@[simp] theorem State.perform_peerSets (s : State) (l : List Host.Cell) : (s.perform l).peerSets = s.peerSets := rfl
@[simp] theorem State.perform_requests (s : State) (l : List Host.Cell) : (s.perform l).requests = s.requests := rfl
@[simp] theorem State.perform_untrained (s : State) (l : List Host.Cell) : (s.perform l).untrained = s.untrained := rfl
@[simp] theorem State.perform_dfver (s : State) (l : List Host.Cell) : (s.perform l).dfver = s.dfver := rfl
@[simp] theorem State.perform_fwver (s : State) (l : List Host.Cell) : (s.perform l).fwver = s.fwver := rfl
@[simp] theorem State.perform_repairs (s : State) (l : List Host.Cell) : (s.perform l).repairs = s.repairs := rfl
@[simp] theorem State.perform_dropped (s : State) (l : List Host.Cell) : (s.perform l).dropped = s.dropped := rfl
@[simp] theorem State.perform_devSel (s : State) (l : List Host.Cell) : (s.perform l).devSel = s.devSel := rfl
@[simp] theorem State.perform_devCnt (s : State) (l : List Host.Cell) : (s.perform l).devCnt = s.devCnt := rfl
@[simp] theorem State.perform_lifetime (s : State) (l : List Host.Cell) : (s.perform l).lifetime = s.lifetime := rfl
@[simp] theorem State.perform_snapshot (s : State) (l : List Host.Cell) : (s.perform l).snapshot = s.snapshot := rfl
@[simp] theorem State.perform_flash (s : State) (l : List Host.Cell) : (s.perform l).flash = s.flash := rfl
@[simp] theorem State.perform_firmware (s : State) (l : List Host.Cell) : (s.perform l).firmware = s.firmware := rfl
@[simp] theorem State.perform_power (s : State) (l : List Host.Cell) : (s.perform l).power = s.power := rfl
@[simp] theorem State.perform_off (s : State) (l : List Host.Cell) : (s.perform l).off = s.off := rfl
@[simp] theorem State.perform_holds (s : State) (l : List Host.Cell) : (s.perform l).holds = s.holds := rfl
@[simp] theorem State.perform_cpuRead (s : State) (l : List Host.Cell) : (s.perform l).cpuRead = s.cpuRead := rfl
@[simp] theorem State.perform_completion (s : State) (l : List Host.Cell) : (s.perform l).completion = s.completion := rfl
@[simp] theorem State.perform_clock (s : State) (l : List Host.Cell) : (s.perform l).clock = s.clock := rfl
@[simp] theorem State.perform_freeCtr (s : State) (l : List Host.Cell) : (s.perform l).freeCtr = s.freeCtr := rfl
@[simp] theorem State.perform_agenda (s : State) (l : List Host.Cell) : (s.perform l).agenda = s.agenda := rfl
@[simp] theorem State.perform_turns (s : State) (l : List Host.Cell) : (s.perform l).turns = s.turns := rfl
@[simp] theorem State.perform_pulse (s : State) (l : List Host.Cell) : (s.perform l).pulse = s.pulse := rfl
@[simp] theorem State.perform_duty (s : State) (l : List Host.Cell) : (s.perform l).duty = s.duty := rfl
@[simp] theorem State.perform_breaks (s : State) (l : List Host.Cell) : (s.perform l).breaks = s.breaks := rfl
@[simp] theorem State.perform_mem (s : State) (l : List Host.Cell) : (s.perform l).mem = s.mem.putCells l := rfl

@[simp] theorem State.issueUnits_others (s : State) (l : List (List (Place × Byte))) (c : BitVec 2) (v : Bool) : (s.issueUnits l c v).others = s.others := rfl
@[simp] theorem State.issueUnits_mem (s : State) (l : List (List (Place × Byte))) (c : BitVec 2) (v : Bool) : (s.issueUnits l c v).mem = s.mem := rfl
@[simp] theorem State.issueUnits_badMem (s : State) (l : List (List (Place × Byte))) (c : BitVec 2) (v : Bool) : (s.issueUnits l c v).badMem = s.badMem := rfl
@[simp] theorem State.issueUnits_homes (s : State) (l : List (List (Place × Byte))) (c : BitVec 2) (v : Bool) : (s.issueUnits l c v).homes = s.homes := rfl
@[simp] theorem State.issueUnits_dispatched (s : State) (l : List (List (Place × Byte))) (c : BitVec 2) (v : Bool) : (s.issueUnits l c v).dispatched = s.dispatched := rfl
@[simp] theorem State.issueUnits_cores (s : State) (l : List (List (Place × Byte))) (c : BitVec 2) (v : Bool) : (s.issueUnits l c v).cores = s.cores := rfl
@[simp] theorem State.issueUnits_parts (s : State) (l : List (List (Place × Byte))) (c : BitVec 2) (v : Bool) : (s.issueUnits l c v).parts = s.parts := rfl
@[simp] theorem State.issueUnits_procs (s : State) (l : List (List (Place × Byte))) (c : BitVec 2) (v : Bool) : (s.issueUnits l c v).procs = s.procs := rfl
@[simp] theorem State.issueUnits_tethers (s : State) (l : List (List (Place × Byte))) (c : BitVec 2) (v : Bool) : (s.issueUnits l c v).tethers = s.tethers := rfl
@[simp] theorem State.issueUnits_gens (s : State) (l : List (List (Place × Byte))) (c : BitVec 2) (v : Bool) : (s.issueUnits l c v).gens = s.gens := rfl
@[simp] theorem State.issueUnits_groups (s : State) (l : List (List (Place × Byte))) (c : BitVec 2) (v : Bool) : (s.issueUnits l c v).groups = s.groups := rfl
@[simp] theorem State.issueUnits_tlb (s : State) (l : List (List (Place × Byte))) (c : BitVec 2) (v : Bool) : (s.issueUnits l c v).tlb = s.tlb := rfl
@[simp] theorem State.issueUnits_nodes (s : State) (l : List (List (Place × Byte))) (c : BitVec 2) (v : Bool) : (s.issueUnits l c v).nodes = s.nodes := rfl
@[simp] theorem State.issueUnits_ports (s : State) (l : List (List (Place × Byte))) (c : BitVec 2) (v : Bool) : (s.issueUnits l c v).ports = s.ports := rfl
@[simp] theorem State.issueUnits_peers (s : State) (l : List (List (Place × Byte))) (c : BitVec 2) (v : Bool) : (s.issueUnits l c v).peers = s.peers := rfl
@[simp] theorem State.issueUnits_peerSets (s : State) (l : List (List (Place × Byte))) (c : BitVec 2) (v : Bool) : (s.issueUnits l c v).peerSets = s.peerSets := rfl
@[simp] theorem State.issueUnits_requests (s : State) (l : List (List (Place × Byte))) (c : BitVec 2) (v : Bool) : (s.issueUnits l c v).requests = s.requests := rfl
@[simp] theorem State.issueUnits_untrained (s : State) (l : List (List (Place × Byte))) (c : BitVec 2) (v : Bool) : (s.issueUnits l c v).untrained = s.untrained := rfl
@[simp] theorem State.issueUnits_dfver (s : State) (l : List (List (Place × Byte))) (c : BitVec 2) (v : Bool) : (s.issueUnits l c v).dfver = s.dfver := rfl
@[simp] theorem State.issueUnits_fwver (s : State) (l : List (List (Place × Byte))) (c : BitVec 2) (v : Bool) : (s.issueUnits l c v).fwver = s.fwver := rfl
@[simp] theorem State.issueUnits_repairs (s : State) (l : List (List (Place × Byte))) (c : BitVec 2) (v : Bool) : (s.issueUnits l c v).repairs = s.repairs := rfl
@[simp] theorem State.issueUnits_dropped (s : State) (l : List (List (Place × Byte))) (c : BitVec 2) (v : Bool) : (s.issueUnits l c v).dropped = s.dropped := rfl
@[simp] theorem State.issueUnits_devSel (s : State) (l : List (List (Place × Byte))) (c : BitVec 2) (v : Bool) : (s.issueUnits l c v).devSel = s.devSel := rfl
@[simp] theorem State.issueUnits_devCnt (s : State) (l : List (List (Place × Byte))) (c : BitVec 2) (v : Bool) : (s.issueUnits l c v).devCnt = s.devCnt := rfl
@[simp] theorem State.issueUnits_lifetime (s : State) (l : List (List (Place × Byte))) (c : BitVec 2) (v : Bool) : (s.issueUnits l c v).lifetime = s.lifetime := rfl
@[simp] theorem State.issueUnits_snapshot (s : State) (l : List (List (Place × Byte))) (c : BitVec 2) (v : Bool) : (s.issueUnits l c v).snapshot = s.snapshot := rfl
@[simp] theorem State.issueUnits_flash (s : State) (l : List (List (Place × Byte))) (c : BitVec 2) (v : Bool) : (s.issueUnits l c v).flash = s.flash := rfl
@[simp] theorem State.issueUnits_firmware (s : State) (l : List (List (Place × Byte))) (c : BitVec 2) (v : Bool) : (s.issueUnits l c v).firmware = s.firmware := rfl
@[simp] theorem State.issueUnits_power (s : State) (l : List (List (Place × Byte))) (c : BitVec 2) (v : Bool) : (s.issueUnits l c v).power = s.power := rfl
@[simp] theorem State.issueUnits_off (s : State) (l : List (List (Place × Byte))) (c : BitVec 2) (v : Bool) : (s.issueUnits l c v).off = s.off := rfl
@[simp] theorem State.issueUnits_holds (s : State) (l : List (List (Place × Byte))) (c : BitVec 2) (v : Bool) : (s.issueUnits l c v).holds = s.holds := rfl
@[simp] theorem State.issueUnits_cpuRead (s : State) (l : List (List (Place × Byte))) (c : BitVec 2) (v : Bool) : (s.issueUnits l c v).cpuRead = s.cpuRead := rfl
@[simp] theorem State.issueUnits_completion (s : State) (l : List (List (Place × Byte))) (c : BitVec 2) (v : Bool) : (s.issueUnits l c v).completion = s.completion := rfl
@[simp] theorem State.issueUnits_clock (s : State) (l : List (List (Place × Byte))) (c : BitVec 2) (v : Bool) : (s.issueUnits l c v).clock = s.clock := rfl
@[simp] theorem State.issueUnits_freeCtr (s : State) (l : List (List (Place × Byte))) (c : BitVec 2) (v : Bool) : (s.issueUnits l c v).freeCtr = s.freeCtr := rfl
@[simp] theorem State.issueUnits_agenda (s : State) (l : List (List (Place × Byte))) (c : BitVec 2) (v : Bool) : (s.issueUnits l c v).agenda = s.agenda := rfl
@[simp] theorem State.issueUnits_turns (s : State) (l : List (List (Place × Byte))) (c : BitVec 2) (v : Bool) : (s.issueUnits l c v).turns = s.turns := rfl
@[simp] theorem State.issueUnits_pulse (s : State) (l : List (List (Place × Byte))) (c : BitVec 2) (v : Bool) : (s.issueUnits l c v).pulse = s.pulse := rfl
@[simp] theorem State.issueUnits_duty (s : State) (l : List (List (Place × Byte))) (c : BitVec 2) (v : Bool) : (s.issueUnits l c v).duty = s.duty := rfl
@[simp] theorem State.issueUnits_breaks (s : State) (l : List (List (Place × Byte))) (c : BitVec 2) (v : Bool) : (s.issueUnits l c v).breaks = s.breaks := rfl

@[simp] theorem State.issueStore_others (s : State) (l : List (Place × Byte)) (c : BitVec 2) (v : Bool) : (s.issueStore l c v).others = s.others := rfl
@[simp] theorem State.issueStore_mem (s : State) (l : List (Place × Byte)) (c : BitVec 2) (v : Bool) : (s.issueStore l c v).mem = s.mem := rfl
@[simp] theorem State.issueStore_badMem (s : State) (l : List (Place × Byte)) (c : BitVec 2) (v : Bool) : (s.issueStore l c v).badMem = s.badMem := rfl
@[simp] theorem State.issueStore_homes (s : State) (l : List (Place × Byte)) (c : BitVec 2) (v : Bool) : (s.issueStore l c v).homes = s.homes := rfl
@[simp] theorem State.issueStore_dispatched (s : State) (l : List (Place × Byte)) (c : BitVec 2) (v : Bool) : (s.issueStore l c v).dispatched = s.dispatched := rfl
@[simp] theorem State.issueStore_cores (s : State) (l : List (Place × Byte)) (c : BitVec 2) (v : Bool) : (s.issueStore l c v).cores = s.cores := rfl
@[simp] theorem State.issueStore_parts (s : State) (l : List (Place × Byte)) (c : BitVec 2) (v : Bool) : (s.issueStore l c v).parts = s.parts := rfl
@[simp] theorem State.issueStore_procs (s : State) (l : List (Place × Byte)) (c : BitVec 2) (v : Bool) : (s.issueStore l c v).procs = s.procs := rfl
@[simp] theorem State.issueStore_tethers (s : State) (l : List (Place × Byte)) (c : BitVec 2) (v : Bool) : (s.issueStore l c v).tethers = s.tethers := rfl
@[simp] theorem State.issueStore_gens (s : State) (l : List (Place × Byte)) (c : BitVec 2) (v : Bool) : (s.issueStore l c v).gens = s.gens := rfl
@[simp] theorem State.issueStore_groups (s : State) (l : List (Place × Byte)) (c : BitVec 2) (v : Bool) : (s.issueStore l c v).groups = s.groups := rfl
@[simp] theorem State.issueStore_tlb (s : State) (l : List (Place × Byte)) (c : BitVec 2) (v : Bool) : (s.issueStore l c v).tlb = s.tlb := rfl
@[simp] theorem State.issueStore_nodes (s : State) (l : List (Place × Byte)) (c : BitVec 2) (v : Bool) : (s.issueStore l c v).nodes = s.nodes := rfl
@[simp] theorem State.issueStore_ports (s : State) (l : List (Place × Byte)) (c : BitVec 2) (v : Bool) : (s.issueStore l c v).ports = s.ports := rfl
@[simp] theorem State.issueStore_peers (s : State) (l : List (Place × Byte)) (c : BitVec 2) (v : Bool) : (s.issueStore l c v).peers = s.peers := rfl
@[simp] theorem State.issueStore_peerSets (s : State) (l : List (Place × Byte)) (c : BitVec 2) (v : Bool) : (s.issueStore l c v).peerSets = s.peerSets := rfl
@[simp] theorem State.issueStore_requests (s : State) (l : List (Place × Byte)) (c : BitVec 2) (v : Bool) : (s.issueStore l c v).requests = s.requests := rfl
@[simp] theorem State.issueStore_untrained (s : State) (l : List (Place × Byte)) (c : BitVec 2) (v : Bool) : (s.issueStore l c v).untrained = s.untrained := rfl
@[simp] theorem State.issueStore_dfver (s : State) (l : List (Place × Byte)) (c : BitVec 2) (v : Bool) : (s.issueStore l c v).dfver = s.dfver := rfl
@[simp] theorem State.issueStore_fwver (s : State) (l : List (Place × Byte)) (c : BitVec 2) (v : Bool) : (s.issueStore l c v).fwver = s.fwver := rfl
@[simp] theorem State.issueStore_repairs (s : State) (l : List (Place × Byte)) (c : BitVec 2) (v : Bool) : (s.issueStore l c v).repairs = s.repairs := rfl
@[simp] theorem State.issueStore_dropped (s : State) (l : List (Place × Byte)) (c : BitVec 2) (v : Bool) : (s.issueStore l c v).dropped = s.dropped := rfl
@[simp] theorem State.issueStore_devSel (s : State) (l : List (Place × Byte)) (c : BitVec 2) (v : Bool) : (s.issueStore l c v).devSel = s.devSel := rfl
@[simp] theorem State.issueStore_devCnt (s : State) (l : List (Place × Byte)) (c : BitVec 2) (v : Bool) : (s.issueStore l c v).devCnt = s.devCnt := rfl
@[simp] theorem State.issueStore_lifetime (s : State) (l : List (Place × Byte)) (c : BitVec 2) (v : Bool) : (s.issueStore l c v).lifetime = s.lifetime := rfl
@[simp] theorem State.issueStore_snapshot (s : State) (l : List (Place × Byte)) (c : BitVec 2) (v : Bool) : (s.issueStore l c v).snapshot = s.snapshot := rfl
@[simp] theorem State.issueStore_flash (s : State) (l : List (Place × Byte)) (c : BitVec 2) (v : Bool) : (s.issueStore l c v).flash = s.flash := rfl
@[simp] theorem State.issueStore_firmware (s : State) (l : List (Place × Byte)) (c : BitVec 2) (v : Bool) : (s.issueStore l c v).firmware = s.firmware := rfl
@[simp] theorem State.issueStore_power (s : State) (l : List (Place × Byte)) (c : BitVec 2) (v : Bool) : (s.issueStore l c v).power = s.power := rfl
@[simp] theorem State.issueStore_off (s : State) (l : List (Place × Byte)) (c : BitVec 2) (v : Bool) : (s.issueStore l c v).off = s.off := rfl
@[simp] theorem State.issueStore_holds (s : State) (l : List (Place × Byte)) (c : BitVec 2) (v : Bool) : (s.issueStore l c v).holds = s.holds := rfl
@[simp] theorem State.issueStore_cpuRead (s : State) (l : List (Place × Byte)) (c : BitVec 2) (v : Bool) : (s.issueStore l c v).cpuRead = s.cpuRead := rfl
@[simp] theorem State.issueStore_completion (s : State) (l : List (Place × Byte)) (c : BitVec 2) (v : Bool) : (s.issueStore l c v).completion = s.completion := rfl
@[simp] theorem State.issueStore_clock (s : State) (l : List (Place × Byte)) (c : BitVec 2) (v : Bool) : (s.issueStore l c v).clock = s.clock := rfl
@[simp] theorem State.issueStore_freeCtr (s : State) (l : List (Place × Byte)) (c : BitVec 2) (v : Bool) : (s.issueStore l c v).freeCtr = s.freeCtr := rfl
@[simp] theorem State.issueStore_agenda (s : State) (l : List (Place × Byte)) (c : BitVec 2) (v : Bool) : (s.issueStore l c v).agenda = s.agenda := rfl
@[simp] theorem State.issueStore_turns (s : State) (l : List (Place × Byte)) (c : BitVec 2) (v : Bool) : (s.issueStore l c v).turns = s.turns := rfl
@[simp] theorem State.issueStore_pulse (s : State) (l : List (Place × Byte)) (c : BitVec 2) (v : Bool) : (s.issueStore l c v).pulse = s.pulse := rfl
@[simp] theorem State.issueStore_duty (s : State) (l : List (Place × Byte)) (c : BitVec 2) (v : Bool) : (s.issueStore l c v).duty = s.duty := rfl
@[simp] theorem State.issueStore_breaks (s : State) (l : List (Place × Byte)) (c : BitVec 2) (v : Bool) : (s.issueStore l c v).breaks = s.breaks := rfl

@[simp] theorem State.afterWrites_thr (s u : State) : (s.afterWrites u).thr = u.thr := by unfold State.afterWrites; split <;> rfl
@[simp] theorem State.afterWrites_others (s u : State) : (s.afterWrites u).others = u.others := by unfold State.afterWrites; split <;> rfl
@[simp] theorem State.afterWrites_mem (s u : State) : (s.afterWrites u).mem = u.mem := by unfold State.afterWrites; split <;> rfl
@[simp] theorem State.afterWrites_badMem (s u : State) : (s.afterWrites u).badMem = u.badMem := by unfold State.afterWrites; split <;> rfl
@[simp] theorem State.afterWrites_homes (s u : State) : (s.afterWrites u).homes = u.homes := by unfold State.afterWrites; split <;> rfl
@[simp] theorem State.afterWrites_dispatched (s u : State) : (s.afterWrites u).dispatched = u.dispatched := by unfold State.afterWrites; split <;> rfl
@[simp] theorem State.afterWrites_badCsa (s u : State) : (s.afterWrites u).badCsa = u.badCsa := by unfold State.afterWrites; split <;> rfl
@[simp] theorem State.afterWrites_cores (s u : State) : (s.afterWrites u).cores = u.cores := by unfold State.afterWrites; split <;> rfl
@[simp] theorem State.afterWrites_parts (s u : State) : (s.afterWrites u).parts = u.parts := by unfold State.afterWrites; split <;> rfl
@[simp] theorem State.afterWrites_procs (s u : State) : (s.afterWrites u).procs = u.procs := by unfold State.afterWrites; split <;> rfl
@[simp] theorem State.afterWrites_tethers (s u : State) : (s.afterWrites u).tethers = u.tethers := by unfold State.afterWrites; split <;> rfl
@[simp] theorem State.afterWrites_gens (s u : State) : (s.afterWrites u).gens = u.gens := by unfold State.afterWrites; split <;> rfl
@[simp] theorem State.afterWrites_groups (s u : State) : (s.afterWrites u).groups = u.groups := by unfold State.afterWrites; split <;> rfl
@[simp] theorem State.afterWrites_tlb (s u : State) : (s.afterWrites u).tlb = u.tlb := by unfold State.afterWrites; split <;> rfl
@[simp] theorem State.afterWrites_nodes (s u : State) : (s.afterWrites u).nodes = u.nodes := by unfold State.afterWrites; split <;> rfl
@[simp] theorem State.afterWrites_ports (s u : State) : (s.afterWrites u).ports = u.ports := by unfold State.afterWrites; split <;> rfl
@[simp] theorem State.afterWrites_peers (s u : State) : (s.afterWrites u).peers = u.peers := by unfold State.afterWrites; split <;> rfl
@[simp] theorem State.afterWrites_peerSets (s u : State) : (s.afterWrites u).peerSets = u.peerSets := by unfold State.afterWrites; split <;> rfl
@[simp] theorem State.afterWrites_requests (s u : State) : (s.afterWrites u).requests = u.requests := by unfold State.afterWrites; split <;> rfl
@[simp] theorem State.afterWrites_untrained (s u : State) : (s.afterWrites u).untrained = u.untrained := by unfold State.afterWrites; split <;> rfl
@[simp] theorem State.afterWrites_dfver (s u : State) : (s.afterWrites u).dfver = u.dfver := by unfold State.afterWrites; split <;> rfl
@[simp] theorem State.afterWrites_fwver (s u : State) : (s.afterWrites u).fwver = u.fwver := by unfold State.afterWrites; split <;> rfl
@[simp] theorem State.afterWrites_repairs (s u : State) : (s.afterWrites u).repairs = u.repairs := by unfold State.afterWrites; split <;> rfl
@[simp] theorem State.afterWrites_dropped (s u : State) : (s.afterWrites u).dropped = u.dropped := by unfold State.afterWrites; split <;> rfl
@[simp] theorem State.afterWrites_devSel (s u : State) : (s.afterWrites u).devSel = u.devSel := by unfold State.afterWrites; split <;> rfl
@[simp] theorem State.afterWrites_devCnt (s u : State) : (s.afterWrites u).devCnt = u.devCnt := by unfold State.afterWrites; split <;> rfl
@[simp] theorem State.afterWrites_lifetime (s u : State) : (s.afterWrites u).lifetime = u.lifetime := by unfold State.afterWrites; split <;> rfl
@[simp] theorem State.afterWrites_snapshot (s u : State) : (s.afterWrites u).snapshot = u.snapshot := by unfold State.afterWrites; split <;> rfl
@[simp] theorem State.afterWrites_flash (s u : State) : (s.afterWrites u).flash = u.flash := by unfold State.afterWrites; split <;> rfl
@[simp] theorem State.afterWrites_firmware (s u : State) : (s.afterWrites u).firmware = u.firmware := by unfold State.afterWrites; split <;> rfl
@[simp] theorem State.afterWrites_power (s u : State) : (s.afterWrites u).power = u.power := by unfold State.afterWrites; split <;> rfl
@[simp] theorem State.afterWrites_off (s u : State) : (s.afterWrites u).off = u.off := by unfold State.afterWrites; split <;> rfl
@[simp] theorem State.afterWrites_holds (s u : State) : (s.afterWrites u).holds = u.holds := by unfold State.afterWrites; split <;> rfl
@[simp] theorem State.afterWrites_cpuRead (s u : State) : (s.afterWrites u).cpuRead = u.cpuRead := by unfold State.afterWrites; split <;> rfl
@[simp] theorem State.afterWrites_completion (s u : State) : (s.afterWrites u).completion = u.completion := by unfold State.afterWrites; split <;> rfl
@[simp] theorem State.afterWrites_clock (s u : State) : (s.afterWrites u).clock = u.clock := by unfold State.afterWrites; split <;> rfl
@[simp] theorem State.afterWrites_freeCtr (s u : State) : (s.afterWrites u).freeCtr = u.freeCtr := by unfold State.afterWrites; split <;> rfl
@[simp] theorem State.afterWrites_agenda (s u : State) : (s.afterWrites u).agenda = u.agenda := by unfold State.afterWrites; split <;> rfl
@[simp] theorem State.afterWrites_turns (s u : State) : (s.afterWrites u).turns = u.turns := by unfold State.afterWrites; split <;> rfl
@[simp] theorem State.afterWrites_pulse (s u : State) : (s.afterWrites u).pulse = u.pulse := by unfold State.afterWrites; split <;> rfl
@[simp] theorem State.afterWrites_duty (s u : State) : (s.afterWrites u).duty = u.duty := by unfold State.afterWrites; split <;> rfl
@[simp] theorem State.afterWrites_breaks (s u : State) : (s.afterWrites u).breaks = u.breaks := by unfold State.afterWrites; split <;> rfl

/-! ### Updates of a thread -/

@[simp] theorem Thread.setX_key (t : Thread) (r : Reg) (w : Word) : (t.setX r w).key = t.key := by unfold Thread.setX; split <;> rfl
@[simp] theorem Thread.setX_pc (t : Thread) (r : Reg) (w : Word) : (t.setX r w).pc = t.pc := by unfold Thread.setX; split <;> rfl
@[simp] theorem Thread.setX_v (t : Thread) (r : Reg) (w : Word) : (t.setX r w).v = t.v := by unfold Thread.setX; split <;> rfl
@[simp] theorem Thread.setX_p (t : Thread) (r : Reg) (w : Word) : (t.setX r w).p = t.p := by unfold Thread.setX; split <;> rfl
@[simp] theorem Thread.setX_m (t : Thread) (r : Reg) (w : Word) : (t.setX r w).m = t.m := by unfold Thread.setX; split <;> rfl
@[simp] theorem Thread.setX_fcsr (t : Thread) (r : Reg) (w : Word) : (t.setX r w).fcsr = t.fcsr := by unfold Thread.setX; split <;> rfl
@[simp] theorem Thread.setX_vl (t : Thread) (r : Reg) (w : Word) : (t.setX r w).vl = t.vl := by unfold Thread.setX; split <;> rfl
@[simp] theorem Thread.setX_vlb (t : Thread) (r : Reg) (w : Word) : (t.setX r w).vlb = t.vlb := by unfold Thread.setX; split <;> rfl
@[simp] theorem Thread.setX_vtype (t : Thread) (r : Reg) (w : Word) : (t.setX r w).vtype = t.vtype := by unfold Thread.setX; split <;> rfl
@[simp] theorem Thread.setX_tshape (t : Thread) (r : Reg) (w : Word) : (t.setX r w).tshape = t.tshape := by unfold Thread.setX; split <;> rfl
@[simp] theorem Thread.setX_tdirty (t : Thread) (r : Reg) (w : Word) : (t.setX r w).tdirty = t.tdirty := by unfold Thread.setX; split <;> rfl
@[simp] theorem Thread.setX_prio (t : Thread) (r : Reg) (w : Word) : (t.setX r w).prio = t.prio := by unfold Thread.setX; split <;> rfl
@[simp] theorem Thread.setX_ffcause (t : Thread) (r : Reg) (w : Word) : (t.setX r w).ffcause = t.ffcause := by unfold Thread.setX; split <;> rfl
@[simp] theorem Thread.setX_ffaddr (t : Thread) (r : Reg) (w : Word) : (t.setX r w).ffaddr = t.ffaddr := by unfold Thread.setX; split <;> rfl
@[simp] theorem Thread.setX_ffidx (t : Thread) (r : Reg) (w : Word) : (t.setX r w).ffidx = t.ffidx := by unfold Thread.setX; split <;> rfl
@[simp] theorem Thread.setX_ffhidden (t : Thread) (r : Reg) (w : Word) : (t.setX r w).ffhidden = t.ffhidden := by unfold Thread.setX; split <;> rfl
@[simp] theorem Thread.setX_tcause (t : Thread) (r : Reg) (w : Word) : (t.setX r w).tcause = t.tcause := by unfold Thread.setX; split <;> rfl
@[simp] theorem Thread.setX_tpc (t : Thread) (r : Reg) (w : Word) : (t.setX r w).tpc = t.tpc := by unfold Thread.setX; split <;> rfl
@[simp] theorem Thread.setX_tval (t : Thread) (r : Reg) (w : Word) : (t.setX r w).tval = t.tval := by unfold Thread.setX; split <;> rfl
@[simp] theorem Thread.setX_telem (t : Thread) (r : Reg) (w : Word) : (t.setX r w).telem = t.telem := by unfold Thread.setX; split <;> rfl
@[simp] theorem Thread.setX_tvcp (t : Thread) (r : Reg) (w : Word) : (t.setX r w).tvcp = t.tvcp := by unfold Thread.setX; split <;> rfl
@[simp] theorem Thread.setX_tstep (t : Thread) (r : Reg) (w : Word) : (t.setX r w).tstep = t.tstep := by unfold Thread.setX; split <;> rfl
@[simp] theorem Thread.setX_evsel (t : Thread) (r : Reg) (w : Word) : (t.setX r w).evsel = t.evsel := by unfold Thread.setX; split <;> rfl
@[simp] theorem Thread.setX_evcnt (t : Thread) (r : Reg) (w : Word) : (t.setX r w).evcnt = t.evcnt := by unfold Thread.setX; split <;> rfl
@[simp] theorem Thread.setX_supervisor (t : Thread) (r : Reg) (w : Word) : (t.setX r w).supervisor = t.supervisor := by unfold Thread.setX; split <;> rfl
@[simp] theorem Thread.setX_claimed (t : Thread) (r : Reg) (w : Word) : (t.setX r w).claimed = t.claimed := by unfold Thread.setX; split <;> rfl
@[simp] theorem Thread.setX_life (t : Thread) (r : Reg) (w : Word) : (t.setX r w).life = t.life := by unfold Thread.setX; split <;> rfl
@[simp] theorem Thread.setX_held (t : Thread) (r : Reg) (w : Word) : (t.setX r w).held = t.held := by unfold Thread.setX; split <;> rfl
@[simp] theorem Thread.setX_wish (t : Thread) (r : Reg) (w : Word) : (t.setX r w).wish = t.wish := by unfold Thread.setX; split <;> rfl
@[simp] theorem Thread.setX_triggered (t : Thread) (r : Reg) (w : Word) : (t.setX r w).triggered = t.triggered := by unfold Thread.setX; split <;> rfl
@[simp] theorem Thread.setX_migrated (t : Thread) (r : Reg) (w : Word) : (t.setX r w).migrated = t.migrated := by unfold Thread.setX; split <;> rfl
@[simp] theorem Thread.setX_afresh (t : Thread) (r : Reg) (w : Word) : (t.setX r w).afresh = t.afresh := by unfold Thread.setX; split <;> rfl
@[simp] theorem Thread.setX_core (t : Thread) (r : Reg) (w : Word) : (t.setX r w).core = t.core := by unfold Thread.setX; split <;> rfl
@[simp] theorem Thread.setX_lanes (t : Thread) (r : Reg) (w : Word) : (t.setX r w).lanes = t.lanes := by unfold Thread.setX; split <;> rfl
@[simp] theorem Thread.setX_cls (t : Thread) (r : Reg) (w : Word) : (t.setX r w).cls = t.cls := by unfold Thread.setX; split <;> rfl
@[simp] theorem Thread.setX_vlen (t : Thread) (r : Reg) (w : Word) : (t.setX r w).vlen = t.vlen := by unfold Thread.setX; split <;> rfl
@[simp] theorem Thread.setX_mcols (t : Thread) (r : Reg) (w : Word) : (t.setX r w).mcols = t.mcols := by unfold Thread.setX; split <;> rfl
@[simp] theorem Thread.setX_capmask (t : Thread) (r : Reg) (w : Word) : (t.setX r w).capmask = t.capmask := by unfold Thread.setX; split <;> rfl
@[simp] theorem Thread.setX_fver (t : Thread) (r : Reg) (w : Word) : (t.setX r w).fver = t.fver := by unfold Thread.setX; split <;> rfl
@[simp] theorem Thread.setX_savedVer (t : Thread) (r : Reg) (w : Word) : (t.setX r w).savedVer = t.savedVer := by unfold Thread.setX; split <;> rfl
@[simp] theorem Thread.setX_avoid (t : Thread) (r : Reg) (w : Word) : (t.setX r w).avoid = t.avoid := by unfold Thread.setX; split <;> rfl
@[simp] theorem Thread.setX_slot (t : Thread) (r : Reg) (w : Word) : (t.setX r w).slot = t.slot := by unfold Thread.setX; split <;> rfl
@[simp] theorem Thread.setX_placed (t : Thread) (r : Reg) (w : Word) : (t.setX r w).placed = t.placed := by unfold Thread.setX; split <;> rfl
@[simp] theorem Thread.setX_queued (t : Thread) (r : Reg) (w : Word) : (t.setX r w).queued = t.queued := by unfold Thread.setX; split <;> rfl
@[simp] theorem Thread.setX_told (t : Thread) (r : Reg) (w : Word) : (t.setX r w).told = t.told := by unfold Thread.setX; split <;> rfl
@[simp] theorem Thread.setX_hdr (t : Thread) (r : Reg) (w : Word) : (t.setX r w).hdr = t.hdr := by unfold Thread.setX; split <;> rfl
@[simp] theorem Thread.setX_launchPrio (t : Thread) (r : Reg) (w : Word) : (t.setX r w).launchPrio = t.launchPrio := by unfold Thread.setX; split <;> rfl
@[simp] theorem Thread.setX_localStore (t : Thread) (r : Reg) (w : Word) : (t.setX r w).localStore = t.localStore := by unfold Thread.setX; split <;> rfl
@[simp] theorem Thread.setX_csa (t : Thread) (r : Reg) (w : Word) : (t.setX r w).csa = t.csa := by unfold Thread.setX; split <;> rfl
@[simp] theorem Thread.setX_binds (t : Thread) (r : Reg) (w : Word) : (t.setX r w).binds = t.binds := by unfold Thread.setX; split <;> rfl
@[simp] theorem Thread.setX_window (t : Thread) (r : Reg) (w : Word) : (t.setX r w).window = t.window := by unfold Thread.setX; split <;> rfl
@[simp] theorem Thread.setX_preds (t : Thread) (r : Reg) (w : Word) : (t.setX r w).preds = t.preds := by unfold Thread.setX; split <;> rfl
@[simp] theorem Thread.setX_awaiting (t : Thread) (r : Reg) (w : Word) : (t.setX r w).awaiting = t.awaiting := by unfold Thread.setX; split <;> rfl
@[simp] theorem Thread.setX_popped (t : Thread) (r : Reg) (w : Word) : (t.setX r w).popped = t.popped := by unfold Thread.setX; split <;> rfl
@[simp] theorem Thread.setX_micro (t : Thread) (r : Reg) (w : Word) : (t.setX r w).micro = t.micro := by unfold Thread.setX; split <;> rfl
@[simp] theorem Thread.setX_vq (t : Thread) (r : Reg) (w : Word) : (t.setX r w).vq = t.vq := by unfold Thread.setX; split <;> rfl
@[simp] theorem Thread.setX_sq (t : Thread) (r : Reg) (w : Word) : (t.setX r w).sq = t.sq := by unfold Thread.setX; split <;> rfl
@[simp] theorem Thread.setX_stores (t : Thread) (r : Reg) (w : Word) : (t.setX r w).stores = t.stores := by unfold Thread.setX; split <;> rfl
@[simp] theorem Thread.setX_peerData (t : Thread) (r : Reg) (w : Word) : (t.setX r w).peerData = t.peerData := by unfold Thread.setX; split <;> rfl
@[simp] theorem Thread.setX_started (t : Thread) (r : Reg) (w : Word) : (t.setX r w).started = t.started := by unfold Thread.setX; split <;> rfl
@[simp] theorem Thread.setX_leftStep (t : Thread) (r : Reg) (w : Word) : (t.setX r w).leftStep = t.leftStep := by unfold Thread.setX; split <;> rfl
@[simp] theorem Thread.setX_begun (t : Thread) (r : Reg) (w : Word) : (t.setX r w).begun = t.begun := by unfold Thread.setX; split <;> rfl
@[simp] theorem Thread.setX_half (t : Thread) (r : Reg) (w : Word) : (t.setX r w).half = t.half := by unfold Thread.setX; split <;> rfl
@[simp] theorem Thread.setX_passed (t : Thread) (r : Reg) (w : Word) : (t.setX r w).passed = t.passed := by unfold Thread.setX; split <;> rfl
@[simp] theorem Thread.setX_boosted (t : Thread) (r : Reg) (w : Word) : (t.setX r w).boosted = t.boosted := by unfold Thread.setX; split <;> rfl

@[simp] theorem Thread.count_key (t : Thread) (c k : Nat) : (t.count c k).key = t.key := rfl
@[simp] theorem Thread.count_x (t : Thread) (c k : Nat) : (t.count c k).x = t.x := rfl
@[simp] theorem Thread.count_pc (t : Thread) (c k : Nat) : (t.count c k).pc = t.pc := rfl
@[simp] theorem Thread.count_v (t : Thread) (c k : Nat) : (t.count c k).v = t.v := rfl
@[simp] theorem Thread.count_p (t : Thread) (c k : Nat) : (t.count c k).p = t.p := rfl
@[simp] theorem Thread.count_m (t : Thread) (c k : Nat) : (t.count c k).m = t.m := rfl
@[simp] theorem Thread.count_fcsr (t : Thread) (c k : Nat) : (t.count c k).fcsr = t.fcsr := rfl
@[simp] theorem Thread.count_vl (t : Thread) (c k : Nat) : (t.count c k).vl = t.vl := rfl
@[simp] theorem Thread.count_vlb (t : Thread) (c k : Nat) : (t.count c k).vlb = t.vlb := rfl
@[simp] theorem Thread.count_vtype (t : Thread) (c k : Nat) : (t.count c k).vtype = t.vtype := rfl
@[simp] theorem Thread.count_tshape (t : Thread) (c k : Nat) : (t.count c k).tshape = t.tshape := rfl
@[simp] theorem Thread.count_tdirty (t : Thread) (c k : Nat) : (t.count c k).tdirty = t.tdirty := rfl
@[simp] theorem Thread.count_prio (t : Thread) (c k : Nat) : (t.count c k).prio = t.prio := rfl
@[simp] theorem Thread.count_ffcause (t : Thread) (c k : Nat) : (t.count c k).ffcause = t.ffcause := rfl
@[simp] theorem Thread.count_ffaddr (t : Thread) (c k : Nat) : (t.count c k).ffaddr = t.ffaddr := rfl
@[simp] theorem Thread.count_ffidx (t : Thread) (c k : Nat) : (t.count c k).ffidx = t.ffidx := rfl
@[simp] theorem Thread.count_ffhidden (t : Thread) (c k : Nat) : (t.count c k).ffhidden = t.ffhidden := rfl
@[simp] theorem Thread.count_tcause (t : Thread) (c k : Nat) : (t.count c k).tcause = t.tcause := rfl
@[simp] theorem Thread.count_tpc (t : Thread) (c k : Nat) : (t.count c k).tpc = t.tpc := rfl
@[simp] theorem Thread.count_tval (t : Thread) (c k : Nat) : (t.count c k).tval = t.tval := rfl
@[simp] theorem Thread.count_telem (t : Thread) (c k : Nat) : (t.count c k).telem = t.telem := rfl
@[simp] theorem Thread.count_tvcp (t : Thread) (c k : Nat) : (t.count c k).tvcp = t.tvcp := rfl
@[simp] theorem Thread.count_tstep (t : Thread) (c k : Nat) : (t.count c k).tstep = t.tstep := rfl
@[simp] theorem Thread.count_evsel (t : Thread) (c k : Nat) : (t.count c k).evsel = t.evsel := rfl
@[simp] theorem Thread.count_supervisor (t : Thread) (c k : Nat) : (t.count c k).supervisor = t.supervisor := rfl
@[simp] theorem Thread.count_claimed (t : Thread) (c k : Nat) : (t.count c k).claimed = t.claimed := rfl
@[simp] theorem Thread.count_life (t : Thread) (c k : Nat) : (t.count c k).life = t.life := rfl
@[simp] theorem Thread.count_held (t : Thread) (c k : Nat) : (t.count c k).held = t.held := rfl
@[simp] theorem Thread.count_wish (t : Thread) (c k : Nat) : (t.count c k).wish = t.wish := rfl
@[simp] theorem Thread.count_triggered (t : Thread) (c k : Nat) : (t.count c k).triggered = t.triggered := rfl
@[simp] theorem Thread.count_migrated (t : Thread) (c k : Nat) : (t.count c k).migrated = t.migrated := rfl
@[simp] theorem Thread.count_afresh (t : Thread) (c k : Nat) : (t.count c k).afresh = t.afresh := rfl
@[simp] theorem Thread.count_core (t : Thread) (c k : Nat) : (t.count c k).core = t.core := rfl
@[simp] theorem Thread.count_lanes (t : Thread) (c k : Nat) : (t.count c k).lanes = t.lanes := rfl
@[simp] theorem Thread.count_cls (t : Thread) (c k : Nat) : (t.count c k).cls = t.cls := rfl
@[simp] theorem Thread.count_vlen (t : Thread) (c k : Nat) : (t.count c k).vlen = t.vlen := rfl
@[simp] theorem Thread.count_mcols (t : Thread) (c k : Nat) : (t.count c k).mcols = t.mcols := rfl
@[simp] theorem Thread.count_capmask (t : Thread) (c k : Nat) : (t.count c k).capmask = t.capmask := rfl
@[simp] theorem Thread.count_fver (t : Thread) (c k : Nat) : (t.count c k).fver = t.fver := rfl
@[simp] theorem Thread.count_savedVer (t : Thread) (c k : Nat) : (t.count c k).savedVer = t.savedVer := rfl
@[simp] theorem Thread.count_avoid (t : Thread) (c k : Nat) : (t.count c k).avoid = t.avoid := rfl
@[simp] theorem Thread.count_slot (t : Thread) (c k : Nat) : (t.count c k).slot = t.slot := rfl
@[simp] theorem Thread.count_placed (t : Thread) (c k : Nat) : (t.count c k).placed = t.placed := rfl
@[simp] theorem Thread.count_queued (t : Thread) (c k : Nat) : (t.count c k).queued = t.queued := rfl
@[simp] theorem Thread.count_told (t : Thread) (c k : Nat) : (t.count c k).told = t.told := rfl
@[simp] theorem Thread.count_hdr (t : Thread) (c k : Nat) : (t.count c k).hdr = t.hdr := rfl
@[simp] theorem Thread.count_launchPrio (t : Thread) (c k : Nat) : (t.count c k).launchPrio = t.launchPrio := rfl
@[simp] theorem Thread.count_localStore (t : Thread) (c k : Nat) : (t.count c k).localStore = t.localStore := rfl
@[simp] theorem Thread.count_csa (t : Thread) (c k : Nat) : (t.count c k).csa = t.csa := rfl
@[simp] theorem Thread.count_binds (t : Thread) (c k : Nat) : (t.count c k).binds = t.binds := rfl
@[simp] theorem Thread.count_window (t : Thread) (c k : Nat) : (t.count c k).window = t.window := rfl
@[simp] theorem Thread.count_preds (t : Thread) (c k : Nat) : (t.count c k).preds = t.preds := rfl
@[simp] theorem Thread.count_awaiting (t : Thread) (c k : Nat) : (t.count c k).awaiting = t.awaiting := rfl
@[simp] theorem Thread.count_popped (t : Thread) (c k : Nat) : (t.count c k).popped = t.popped := rfl
@[simp] theorem Thread.count_micro (t : Thread) (c k : Nat) : (t.count c k).micro = t.micro := rfl
@[simp] theorem Thread.count_vq (t : Thread) (c k : Nat) : (t.count c k).vq = t.vq := rfl
@[simp] theorem Thread.count_sq (t : Thread) (c k : Nat) : (t.count c k).sq = t.sq := rfl
@[simp] theorem Thread.count_stores (t : Thread) (c k : Nat) : (t.count c k).stores = t.stores := rfl
@[simp] theorem Thread.count_peerData (t : Thread) (c k : Nat) : (t.count c k).peerData = t.peerData := rfl
@[simp] theorem Thread.count_started (t : Thread) (c k : Nat) : (t.count c k).started = t.started := rfl
@[simp] theorem Thread.count_leftStep (t : Thread) (c k : Nat) : (t.count c k).leftStep = t.leftStep := rfl
@[simp] theorem Thread.count_begun (t : Thread) (c k : Nat) : (t.count c k).begun = t.begun := rfl
@[simp] theorem Thread.count_half (t : Thread) (c k : Nat) : (t.count c k).half = t.half := rfl
@[simp] theorem Thread.count_passed (t : Thread) (c k : Nat) : (t.count c k).passed = t.passed := rfl
@[simp] theorem Thread.count_boosted (t : Thread) (c k : Nat) : (t.count c k).boosted = t.boosted := rfl

@[simp] theorem Thread.commitAll_key (t : Thread) : (t.commitAll).key = t.key := rfl
@[simp] theorem Thread.commitAll_x (t : Thread) : (t.commitAll).x = t.x := rfl
@[simp] theorem Thread.commitAll_pc (t : Thread) : (t.commitAll).pc = t.pc := rfl
@[simp] theorem Thread.commitAll_v (t : Thread) : (t.commitAll).v = t.v := rfl
@[simp] theorem Thread.commitAll_p (t : Thread) : (t.commitAll).p = t.p := rfl
@[simp] theorem Thread.commitAll_m (t : Thread) : (t.commitAll).m = t.m := rfl
@[simp] theorem Thread.commitAll_fcsr (t : Thread) : (t.commitAll).fcsr = t.fcsr := rfl
@[simp] theorem Thread.commitAll_vl (t : Thread) : (t.commitAll).vl = t.vl := rfl
@[simp] theorem Thread.commitAll_vlb (t : Thread) : (t.commitAll).vlb = t.vlb := rfl
@[simp] theorem Thread.commitAll_vtype (t : Thread) : (t.commitAll).vtype = t.vtype := rfl
@[simp] theorem Thread.commitAll_tshape (t : Thread) : (t.commitAll).tshape = t.tshape := rfl
@[simp] theorem Thread.commitAll_tdirty (t : Thread) : (t.commitAll).tdirty = t.tdirty := rfl
@[simp] theorem Thread.commitAll_prio (t : Thread) : (t.commitAll).prio = t.prio := rfl
@[simp] theorem Thread.commitAll_ffcause (t : Thread) : (t.commitAll).ffcause = t.ffcause := rfl
@[simp] theorem Thread.commitAll_ffaddr (t : Thread) : (t.commitAll).ffaddr = t.ffaddr := rfl
@[simp] theorem Thread.commitAll_ffidx (t : Thread) : (t.commitAll).ffidx = t.ffidx := rfl
@[simp] theorem Thread.commitAll_ffhidden (t : Thread) : (t.commitAll).ffhidden = t.ffhidden := rfl
@[simp] theorem Thread.commitAll_tcause (t : Thread) : (t.commitAll).tcause = t.tcause := rfl
@[simp] theorem Thread.commitAll_tpc (t : Thread) : (t.commitAll).tpc = t.tpc := rfl
@[simp] theorem Thread.commitAll_tval (t : Thread) : (t.commitAll).tval = t.tval := rfl
@[simp] theorem Thread.commitAll_telem (t : Thread) : (t.commitAll).telem = t.telem := rfl
@[simp] theorem Thread.commitAll_tvcp (t : Thread) : (t.commitAll).tvcp = t.tvcp := rfl
@[simp] theorem Thread.commitAll_tstep (t : Thread) : (t.commitAll).tstep = t.tstep := rfl
@[simp] theorem Thread.commitAll_evsel (t : Thread) : (t.commitAll).evsel = t.evsel := rfl
@[simp] theorem Thread.commitAll_supervisor (t : Thread) : (t.commitAll).supervisor = t.supervisor := rfl
@[simp] theorem Thread.commitAll_claimed (t : Thread) : (t.commitAll).claimed = t.claimed := rfl
@[simp] theorem Thread.commitAll_life (t : Thread) : (t.commitAll).life = t.life := rfl
@[simp] theorem Thread.commitAll_held (t : Thread) : (t.commitAll).held = t.held := rfl
@[simp] theorem Thread.commitAll_wish (t : Thread) : (t.commitAll).wish = t.wish := rfl
@[simp] theorem Thread.commitAll_triggered (t : Thread) : (t.commitAll).triggered = t.triggered := rfl
@[simp] theorem Thread.commitAll_migrated (t : Thread) : (t.commitAll).migrated = t.migrated := rfl
@[simp] theorem Thread.commitAll_afresh (t : Thread) : (t.commitAll).afresh = t.afresh := rfl
@[simp] theorem Thread.commitAll_core (t : Thread) : (t.commitAll).core = t.core := rfl
@[simp] theorem Thread.commitAll_lanes (t : Thread) : (t.commitAll).lanes = t.lanes := rfl
@[simp] theorem Thread.commitAll_cls (t : Thread) : (t.commitAll).cls = t.cls := rfl
@[simp] theorem Thread.commitAll_vlen (t : Thread) : (t.commitAll).vlen = t.vlen := rfl
@[simp] theorem Thread.commitAll_mcols (t : Thread) : (t.commitAll).mcols = t.mcols := rfl
@[simp] theorem Thread.commitAll_capmask (t : Thread) : (t.commitAll).capmask = t.capmask := rfl
@[simp] theorem Thread.commitAll_fver (t : Thread) : (t.commitAll).fver = t.fver := rfl
@[simp] theorem Thread.commitAll_savedVer (t : Thread) : (t.commitAll).savedVer = t.savedVer := rfl
@[simp] theorem Thread.commitAll_avoid (t : Thread) : (t.commitAll).avoid = t.avoid := rfl
@[simp] theorem Thread.commitAll_slot (t : Thread) : (t.commitAll).slot = t.slot := rfl
@[simp] theorem Thread.commitAll_placed (t : Thread) : (t.commitAll).placed = t.placed := rfl
@[simp] theorem Thread.commitAll_queued (t : Thread) : (t.commitAll).queued = t.queued := rfl
@[simp] theorem Thread.commitAll_told (t : Thread) : (t.commitAll).told = t.told := rfl
@[simp] theorem Thread.commitAll_hdr (t : Thread) : (t.commitAll).hdr = t.hdr := rfl
@[simp] theorem Thread.commitAll_launchPrio (t : Thread) : (t.commitAll).launchPrio = t.launchPrio := rfl
@[simp] theorem Thread.commitAll_localStore (t : Thread) : (t.commitAll).localStore = t.localStore := rfl
@[simp] theorem Thread.commitAll_csa (t : Thread) : (t.commitAll).csa = t.csa := rfl
@[simp] theorem Thread.commitAll_binds (t : Thread) : (t.commitAll).binds = t.binds := rfl
@[simp] theorem Thread.commitAll_window (t : Thread) : (t.commitAll).window = t.window := rfl
@[simp] theorem Thread.commitAll_preds (t : Thread) : (t.commitAll).preds = t.preds := rfl
@[simp] theorem Thread.commitAll_awaiting (t : Thread) : (t.commitAll).awaiting = t.awaiting := rfl
@[simp] theorem Thread.commitAll_popped (t : Thread) : (t.commitAll).popped = t.popped := rfl
@[simp] theorem Thread.commitAll_micro (t : Thread) : (t.commitAll).micro = t.micro := rfl
@[simp] theorem Thread.commitAll_sq (t : Thread) : (t.commitAll).sq = t.sq := rfl
@[simp] theorem Thread.commitAll_stores (t : Thread) : (t.commitAll).stores = t.stores := rfl
@[simp] theorem Thread.commitAll_peerData (t : Thread) : (t.commitAll).peerData = t.peerData := rfl
@[simp] theorem Thread.commitAll_started (t : Thread) : (t.commitAll).started = t.started := rfl
@[simp] theorem Thread.commitAll_leftStep (t : Thread) : (t.commitAll).leftStep = t.leftStep := rfl
@[simp] theorem Thread.commitAll_begun (t : Thread) : (t.commitAll).begun = t.begun := rfl
@[simp] theorem Thread.commitAll_half (t : Thread) : (t.commitAll).half = t.half := rfl
@[simp] theorem Thread.commitAll_passed (t : Thread) : (t.commitAll).passed = t.passed := rfl
@[simp] theorem Thread.commitAll_boosted (t : Thread) : (t.commitAll).boosted = t.boosted := rfl
@[simp] theorem Thread.commitAll_evcnt (t : Thread) : (t.commitAll).evcnt = (t.count 3 t.vq.length).evcnt := rfl
@[simp] theorem Thread.commitAll_vq (t : Thread) : (t.commitAll).vq = [] := rfl

@[simp] theorem Thread.park_key (t : Thread) (w : Wait) : (t.park w).key = t.key := by cases w <;> rfl
@[simp] theorem Thread.park_x (t : Thread) (w : Wait) : (t.park w).x = t.x := by cases w <;> rfl
@[simp] theorem Thread.park_pc (t : Thread) (w : Wait) : (t.park w).pc = t.pc := by cases w <;> rfl
@[simp] theorem Thread.park_v (t : Thread) (w : Wait) : (t.park w).v = t.v := by cases w <;> rfl
@[simp] theorem Thread.park_p (t : Thread) (w : Wait) : (t.park w).p = t.p := by cases w <;> rfl
@[simp] theorem Thread.park_m (t : Thread) (w : Wait) : (t.park w).m = t.m := by cases w <;> rfl
@[simp] theorem Thread.park_fcsr (t : Thread) (w : Wait) : (t.park w).fcsr = t.fcsr := by cases w <;> rfl
@[simp] theorem Thread.park_vl (t : Thread) (w : Wait) : (t.park w).vl = t.vl := by cases w <;> rfl
@[simp] theorem Thread.park_vlb (t : Thread) (w : Wait) : (t.park w).vlb = t.vlb := by cases w <;> rfl
@[simp] theorem Thread.park_vtype (t : Thread) (w : Wait) : (t.park w).vtype = t.vtype := by cases w <;> rfl
@[simp] theorem Thread.park_tshape (t : Thread) (w : Wait) : (t.park w).tshape = t.tshape := by cases w <;> rfl
@[simp] theorem Thread.park_tdirty (t : Thread) (w : Wait) : (t.park w).tdirty = t.tdirty := by cases w <;> rfl
@[simp] theorem Thread.park_prio (t : Thread) (w : Wait) : (t.park w).prio = t.prio := by cases w <;> rfl
@[simp] theorem Thread.park_ffcause (t : Thread) (w : Wait) : (t.park w).ffcause = t.ffcause := by cases w <;> rfl
@[simp] theorem Thread.park_ffaddr (t : Thread) (w : Wait) : (t.park w).ffaddr = t.ffaddr := by cases w <;> rfl
@[simp] theorem Thread.park_ffidx (t : Thread) (w : Wait) : (t.park w).ffidx = t.ffidx := by cases w <;> rfl
@[simp] theorem Thread.park_ffhidden (t : Thread) (w : Wait) : (t.park w).ffhidden = t.ffhidden := by cases w <;> rfl
@[simp] theorem Thread.park_tcause (t : Thread) (w : Wait) : (t.park w).tcause = t.tcause := by cases w <;> rfl
@[simp] theorem Thread.park_tpc (t : Thread) (w : Wait) : (t.park w).tpc = t.tpc := by cases w <;> rfl
@[simp] theorem Thread.park_tval (t : Thread) (w : Wait) : (t.park w).tval = t.tval := by cases w <;> rfl
@[simp] theorem Thread.park_telem (t : Thread) (w : Wait) : (t.park w).telem = t.telem := by cases w <;> rfl
@[simp] theorem Thread.park_tvcp (t : Thread) (w : Wait) : (t.park w).tvcp = t.tvcp := by cases w <;> rfl
@[simp] theorem Thread.park_tstep (t : Thread) (w : Wait) : (t.park w).tstep = t.tstep := by cases w <;> rfl
@[simp] theorem Thread.park_evsel (t : Thread) (w : Wait) : (t.park w).evsel = t.evsel := by cases w <;> rfl
@[simp] theorem Thread.park_evcnt (t : Thread) (w : Wait) : (t.park w).evcnt = t.evcnt := by cases w <;> rfl
@[simp] theorem Thread.park_supervisor (t : Thread) (w : Wait) : (t.park w).supervisor = t.supervisor := by cases w <;> rfl
@[simp] theorem Thread.park_claimed (t : Thread) (w : Wait) : (t.park w).claimed = t.claimed := by cases w <;> rfl
@[simp] theorem Thread.park_held (t : Thread) (w : Wait) : (t.park w).held = t.held := by cases w <;> rfl
@[simp] theorem Thread.park_wish (t : Thread) (w : Wait) : (t.park w).wish = t.wish := by cases w <;> rfl
@[simp] theorem Thread.park_triggered (t : Thread) (w : Wait) : (t.park w).triggered = t.triggered := by cases w <;> rfl
@[simp] theorem Thread.park_migrated (t : Thread) (w : Wait) : (t.park w).migrated = t.migrated := by cases w <;> rfl
@[simp] theorem Thread.park_afresh (t : Thread) (w : Wait) : (t.park w).afresh = t.afresh := by cases w <;> rfl
@[simp] theorem Thread.park_core (t : Thread) (w : Wait) : (t.park w).core = t.core := by cases w <;> rfl
@[simp] theorem Thread.park_lanes (t : Thread) (w : Wait) : (t.park w).lanes = t.lanes := by cases w <;> rfl
@[simp] theorem Thread.park_cls (t : Thread) (w : Wait) : (t.park w).cls = t.cls := by cases w <;> rfl
@[simp] theorem Thread.park_vlen (t : Thread) (w : Wait) : (t.park w).vlen = t.vlen := by cases w <;> rfl
@[simp] theorem Thread.park_mcols (t : Thread) (w : Wait) : (t.park w).mcols = t.mcols := by cases w <;> rfl
@[simp] theorem Thread.park_capmask (t : Thread) (w : Wait) : (t.park w).capmask = t.capmask := by cases w <;> rfl
@[simp] theorem Thread.park_fver (t : Thread) (w : Wait) : (t.park w).fver = t.fver := by cases w <;> rfl
@[simp] theorem Thread.park_savedVer (t : Thread) (w : Wait) : (t.park w).savedVer = t.savedVer := by cases w <;> rfl
@[simp] theorem Thread.park_avoid (t : Thread) (w : Wait) : (t.park w).avoid = t.avoid := by cases w <;> rfl
@[simp] theorem Thread.park_slot (t : Thread) (w : Wait) : (t.park w).slot = t.slot := by cases w <;> rfl
@[simp] theorem Thread.park_placed (t : Thread) (w : Wait) : (t.park w).placed = t.placed := by cases w <;> rfl
@[simp] theorem Thread.park_queued (t : Thread) (w : Wait) : (t.park w).queued = t.queued := by cases w <;> rfl
@[simp] theorem Thread.park_told (t : Thread) (w : Wait) : (t.park w).told = t.told := by cases w <;> rfl
@[simp] theorem Thread.park_hdr (t : Thread) (w : Wait) : (t.park w).hdr = t.hdr := by cases w <;> rfl
@[simp] theorem Thread.park_launchPrio (t : Thread) (w : Wait) : (t.park w).launchPrio = t.launchPrio := by cases w <;> rfl
@[simp] theorem Thread.park_localStore (t : Thread) (w : Wait) : (t.park w).localStore = t.localStore := by cases w <;> rfl
@[simp] theorem Thread.park_csa (t : Thread) (w : Wait) : (t.park w).csa = t.csa := by cases w <;> rfl
@[simp] theorem Thread.park_binds (t : Thread) (w : Wait) : (t.park w).binds = t.binds := by cases w <;> rfl
@[simp] theorem Thread.park_window (t : Thread) (w : Wait) : (t.park w).window = t.window := by cases w <;> rfl
@[simp] theorem Thread.park_preds (t : Thread) (w : Wait) : (t.park w).preds = t.preds := by cases w <;> rfl
@[simp] theorem Thread.park_awaiting (t : Thread) (w : Wait) : (t.park w).awaiting = t.awaiting := by cases w <;> rfl
@[simp] theorem Thread.park_popped (t : Thread) (w : Wait) : (t.park w).popped = t.popped := by cases w <;> rfl
@[simp] theorem Thread.park_micro (t : Thread) (w : Wait) : (t.park w).micro = t.micro := by cases w <;> rfl
@[simp] theorem Thread.park_vq (t : Thread) (w : Wait) : (t.park w).vq = t.vq := by cases w <;> rfl
@[simp] theorem Thread.park_sq (t : Thread) (w : Wait) : (t.park w).sq = t.sq := by cases w <;> rfl
@[simp] theorem Thread.park_stores (t : Thread) (w : Wait) : (t.park w).stores = t.stores := by cases w <;> rfl
@[simp] theorem Thread.park_peerData (t : Thread) (w : Wait) : (t.park w).peerData = t.peerData := by cases w <;> rfl
@[simp] theorem Thread.park_leftStep (t : Thread) (w : Wait) : (t.park w).leftStep = t.leftStep := by cases w <;> rfl
@[simp] theorem Thread.park_begun (t : Thread) (w : Wait) : (t.park w).begun = t.begun := by cases w <;> rfl
@[simp] theorem Thread.park_half (t : Thread) (w : Wait) : (t.park w).half = t.half := by cases w <;> rfl
@[simp] theorem Thread.park_passed (t : Thread) (w : Wait) : (t.park w).passed = t.passed := by cases w <;> rfl
@[simp] theorem Thread.park_boosted (t : Thread) (w : Wait) : (t.park w).boosted = t.boosted := by cases w <;> rfl

@[simp] theorem Thread.retire_key (t : Thread) (vec : Bool) (pc : Word) : (t.retire vec pc).key = t.key := rfl
@[simp] theorem Thread.retire_x (t : Thread) (vec : Bool) (pc : Word) : (t.retire vec pc).x = t.x := rfl
@[simp] theorem Thread.retire_v (t : Thread) (vec : Bool) (pc : Word) : (t.retire vec pc).v = t.v := rfl
@[simp] theorem Thread.retire_p (t : Thread) (vec : Bool) (pc : Word) : (t.retire vec pc).p = t.p := rfl
@[simp] theorem Thread.retire_m (t : Thread) (vec : Bool) (pc : Word) : (t.retire vec pc).m = t.m := rfl
@[simp] theorem Thread.retire_fcsr (t : Thread) (vec : Bool) (pc : Word) : (t.retire vec pc).fcsr = t.fcsr := rfl
@[simp] theorem Thread.retire_vl (t : Thread) (vec : Bool) (pc : Word) : (t.retire vec pc).vl = t.vl := rfl
@[simp] theorem Thread.retire_vlb (t : Thread) (vec : Bool) (pc : Word) : (t.retire vec pc).vlb = t.vlb := rfl
@[simp] theorem Thread.retire_vtype (t : Thread) (vec : Bool) (pc : Word) : (t.retire vec pc).vtype = t.vtype := rfl
@[simp] theorem Thread.retire_tshape (t : Thread) (vec : Bool) (pc : Word) : (t.retire vec pc).tshape = t.tshape := rfl
@[simp] theorem Thread.retire_tdirty (t : Thread) (vec : Bool) (pc : Word) : (t.retire vec pc).tdirty = t.tdirty := rfl
@[simp] theorem Thread.retire_prio (t : Thread) (vec : Bool) (pc : Word) : (t.retire vec pc).prio = t.prio := rfl
@[simp] theorem Thread.retire_ffcause (t : Thread) (vec : Bool) (pc : Word) : (t.retire vec pc).ffcause = t.ffcause := rfl
@[simp] theorem Thread.retire_ffaddr (t : Thread) (vec : Bool) (pc : Word) : (t.retire vec pc).ffaddr = t.ffaddr := rfl
@[simp] theorem Thread.retire_ffidx (t : Thread) (vec : Bool) (pc : Word) : (t.retire vec pc).ffidx = t.ffidx := rfl
@[simp] theorem Thread.retire_ffhidden (t : Thread) (vec : Bool) (pc : Word) : (t.retire vec pc).ffhidden = t.ffhidden := rfl
@[simp] theorem Thread.retire_tcause (t : Thread) (vec : Bool) (pc : Word) : (t.retire vec pc).tcause = t.tcause := rfl
@[simp] theorem Thread.retire_tpc (t : Thread) (vec : Bool) (pc : Word) : (t.retire vec pc).tpc = t.tpc := rfl
@[simp] theorem Thread.retire_tval (t : Thread) (vec : Bool) (pc : Word) : (t.retire vec pc).tval = t.tval := rfl
@[simp] theorem Thread.retire_telem (t : Thread) (vec : Bool) (pc : Word) : (t.retire vec pc).telem = t.telem := rfl
@[simp] theorem Thread.retire_tvcp (t : Thread) (vec : Bool) (pc : Word) : (t.retire vec pc).tvcp = t.tvcp := rfl
@[simp] theorem Thread.retire_tstep (t : Thread) (vec : Bool) (pc : Word) : (t.retire vec pc).tstep = t.tstep := rfl
@[simp] theorem Thread.retire_evsel (t : Thread) (vec : Bool) (pc : Word) : (t.retire vec pc).evsel = t.evsel := rfl
@[simp] theorem Thread.retire_supervisor (t : Thread) (vec : Bool) (pc : Word) : (t.retire vec pc).supervisor = t.supervisor := rfl
@[simp] theorem Thread.retire_claimed (t : Thread) (vec : Bool) (pc : Word) : (t.retire vec pc).claimed = t.claimed := rfl
@[simp] theorem Thread.retire_life (t : Thread) (vec : Bool) (pc : Word) : (t.retire vec pc).life = t.life := rfl
@[simp] theorem Thread.retire_held (t : Thread) (vec : Bool) (pc : Word) : (t.retire vec pc).held = t.held := rfl
@[simp] theorem Thread.retire_wish (t : Thread) (vec : Bool) (pc : Word) : (t.retire vec pc).wish = t.wish := rfl
@[simp] theorem Thread.retire_triggered (t : Thread) (vec : Bool) (pc : Word) : (t.retire vec pc).triggered = t.triggered := rfl
@[simp] theorem Thread.retire_migrated (t : Thread) (vec : Bool) (pc : Word) : (t.retire vec pc).migrated = t.migrated := rfl
@[simp] theorem Thread.retire_afresh (t : Thread) (vec : Bool) (pc : Word) : (t.retire vec pc).afresh = t.afresh := rfl
@[simp] theorem Thread.retire_core (t : Thread) (vec : Bool) (pc : Word) : (t.retire vec pc).core = t.core := rfl
@[simp] theorem Thread.retire_lanes (t : Thread) (vec : Bool) (pc : Word) : (t.retire vec pc).lanes = t.lanes := rfl
@[simp] theorem Thread.retire_cls (t : Thread) (vec : Bool) (pc : Word) : (t.retire vec pc).cls = t.cls := rfl
@[simp] theorem Thread.retire_vlen (t : Thread) (vec : Bool) (pc : Word) : (t.retire vec pc).vlen = t.vlen := rfl
@[simp] theorem Thread.retire_mcols (t : Thread) (vec : Bool) (pc : Word) : (t.retire vec pc).mcols = t.mcols := rfl
@[simp] theorem Thread.retire_capmask (t : Thread) (vec : Bool) (pc : Word) : (t.retire vec pc).capmask = t.capmask := rfl
@[simp] theorem Thread.retire_fver (t : Thread) (vec : Bool) (pc : Word) : (t.retire vec pc).fver = t.fver := rfl
@[simp] theorem Thread.retire_savedVer (t : Thread) (vec : Bool) (pc : Word) : (t.retire vec pc).savedVer = t.savedVer := rfl
@[simp] theorem Thread.retire_avoid (t : Thread) (vec : Bool) (pc : Word) : (t.retire vec pc).avoid = t.avoid := rfl
@[simp] theorem Thread.retire_slot (t : Thread) (vec : Bool) (pc : Word) : (t.retire vec pc).slot = t.slot := rfl
@[simp] theorem Thread.retire_placed (t : Thread) (vec : Bool) (pc : Word) : (t.retire vec pc).placed = t.placed := rfl
@[simp] theorem Thread.retire_queued (t : Thread) (vec : Bool) (pc : Word) : (t.retire vec pc).queued = t.queued := rfl
@[simp] theorem Thread.retire_told (t : Thread) (vec : Bool) (pc : Word) : (t.retire vec pc).told = t.told := rfl
@[simp] theorem Thread.retire_hdr (t : Thread) (vec : Bool) (pc : Word) : (t.retire vec pc).hdr = t.hdr := rfl
@[simp] theorem Thread.retire_launchPrio (t : Thread) (vec : Bool) (pc : Word) : (t.retire vec pc).launchPrio = t.launchPrio := rfl
@[simp] theorem Thread.retire_localStore (t : Thread) (vec : Bool) (pc : Word) : (t.retire vec pc).localStore = t.localStore := rfl
@[simp] theorem Thread.retire_binds (t : Thread) (vec : Bool) (pc : Word) : (t.retire vec pc).binds = t.binds := rfl
@[simp] theorem Thread.retire_window (t : Thread) (vec : Bool) (pc : Word) : (t.retire vec pc).window = t.window := rfl
@[simp] theorem Thread.retire_preds (t : Thread) (vec : Bool) (pc : Word) : (t.retire vec pc).preds = t.preds := rfl
@[simp] theorem Thread.retire_awaiting (t : Thread) (vec : Bool) (pc : Word) : (t.retire vec pc).awaiting = t.awaiting := rfl
@[simp] theorem Thread.retire_popped (t : Thread) (vec : Bool) (pc : Word) : (t.retire vec pc).popped = t.popped := rfl
@[simp] theorem Thread.retire_sq (t : Thread) (vec : Bool) (pc : Word) : (t.retire vec pc).sq = t.sq := rfl
@[simp] theorem Thread.retire_stores (t : Thread) (vec : Bool) (pc : Word) : (t.retire vec pc).stores = t.stores := rfl
@[simp] theorem Thread.retire_leftStep (t : Thread) (vec : Bool) (pc : Word) : (t.retire vec pc).leftStep = t.leftStep := rfl
@[simp] theorem Thread.retire_begun (t : Thread) (vec : Bool) (pc : Word) : (t.retire vec pc).begun = none := rfl
@[simp] theorem Thread.retire_half (t : Thread) (vec : Bool) (pc : Word) : (t.retire vec pc).half = t.half := rfl
@[simp] theorem Thread.retire_passed (t : Thread) (vec : Bool) (pc : Word) : (t.retire vec pc).passed = t.passed := rfl
@[simp] theorem Thread.retire_boosted (t : Thread) (vec : Bool) (pc : Word) : (t.retire vec pc).boosted = t.boosted := rfl
@[simp] theorem Thread.retire_evcnt (t : Thread) (vec : Bool) (pc : Word) : (t.retire vec pc).evcnt = (t.count 2 1).evcnt := rfl
@[simp] theorem Thread.retire_pc (t : Thread) (vec : Bool) (pc : Word) : (t.retire vec pc).pc = pc := rfl
@[simp] theorem Thread.retire_peerData (t : Thread) (vec : Bool) (pc : Word) : (t.retire vec pc).peerData = t.otherAnswers := rfl
@[simp] theorem Thread.retire_micro (t : Thread) (vec : Bool) (pc : Word) : (t.retire vec pc).micro = none := rfl
@[simp] theorem Thread.retire_started (t : Thread) (vec : Bool) (pc : Word) : (t.retire vec pc).started = false := rfl
@[simp] theorem Thread.retire_vq (t : Thread) (vec : Bool) (pc : Word) : (t.retire vec pc).vq = if vec then t.vq else ranOn t.vq := rfl

@[simp] theorem Thread.noteRead_key (t : Thread) (c : BitVec 2) (a : Bool) (l : List Range) : (t.noteRead c a l).key = t.key := rfl
@[simp] theorem Thread.noteRead_x (t : Thread) (c : BitVec 2) (a : Bool) (l : List Range) : (t.noteRead c a l).x = t.x := rfl
@[simp] theorem Thread.noteRead_pc (t : Thread) (c : BitVec 2) (a : Bool) (l : List Range) : (t.noteRead c a l).pc = t.pc := rfl
@[simp] theorem Thread.noteRead_v (t : Thread) (c : BitVec 2) (a : Bool) (l : List Range) : (t.noteRead c a l).v = t.v := rfl
@[simp] theorem Thread.noteRead_p (t : Thread) (c : BitVec 2) (a : Bool) (l : List Range) : (t.noteRead c a l).p = t.p := rfl
@[simp] theorem Thread.noteRead_m (t : Thread) (c : BitVec 2) (a : Bool) (l : List Range) : (t.noteRead c a l).m = t.m := rfl
@[simp] theorem Thread.noteRead_fcsr (t : Thread) (c : BitVec 2) (a : Bool) (l : List Range) : (t.noteRead c a l).fcsr = t.fcsr := rfl
@[simp] theorem Thread.noteRead_vl (t : Thread) (c : BitVec 2) (a : Bool) (l : List Range) : (t.noteRead c a l).vl = t.vl := rfl
@[simp] theorem Thread.noteRead_vlb (t : Thread) (c : BitVec 2) (a : Bool) (l : List Range) : (t.noteRead c a l).vlb = t.vlb := rfl
@[simp] theorem Thread.noteRead_vtype (t : Thread) (c : BitVec 2) (a : Bool) (l : List Range) : (t.noteRead c a l).vtype = t.vtype := rfl
@[simp] theorem Thread.noteRead_tshape (t : Thread) (c : BitVec 2) (a : Bool) (l : List Range) : (t.noteRead c a l).tshape = t.tshape := rfl
@[simp] theorem Thread.noteRead_tdirty (t : Thread) (c : BitVec 2) (a : Bool) (l : List Range) : (t.noteRead c a l).tdirty = t.tdirty := rfl
@[simp] theorem Thread.noteRead_prio (t : Thread) (c : BitVec 2) (a : Bool) (l : List Range) : (t.noteRead c a l).prio = t.prio := rfl
@[simp] theorem Thread.noteRead_ffcause (t : Thread) (c : BitVec 2) (a : Bool) (l : List Range) : (t.noteRead c a l).ffcause = t.ffcause := rfl
@[simp] theorem Thread.noteRead_ffaddr (t : Thread) (c : BitVec 2) (a : Bool) (l : List Range) : (t.noteRead c a l).ffaddr = t.ffaddr := rfl
@[simp] theorem Thread.noteRead_ffidx (t : Thread) (c : BitVec 2) (a : Bool) (l : List Range) : (t.noteRead c a l).ffidx = t.ffidx := rfl
@[simp] theorem Thread.noteRead_ffhidden (t : Thread) (c : BitVec 2) (a : Bool) (l : List Range) : (t.noteRead c a l).ffhidden = t.ffhidden := rfl
@[simp] theorem Thread.noteRead_tcause (t : Thread) (c : BitVec 2) (a : Bool) (l : List Range) : (t.noteRead c a l).tcause = t.tcause := rfl
@[simp] theorem Thread.noteRead_tpc (t : Thread) (c : BitVec 2) (a : Bool) (l : List Range) : (t.noteRead c a l).tpc = t.tpc := rfl
@[simp] theorem Thread.noteRead_tval (t : Thread) (c : BitVec 2) (a : Bool) (l : List Range) : (t.noteRead c a l).tval = t.tval := rfl
@[simp] theorem Thread.noteRead_telem (t : Thread) (c : BitVec 2) (a : Bool) (l : List Range) : (t.noteRead c a l).telem = t.telem := rfl
@[simp] theorem Thread.noteRead_tvcp (t : Thread) (c : BitVec 2) (a : Bool) (l : List Range) : (t.noteRead c a l).tvcp = t.tvcp := rfl
@[simp] theorem Thread.noteRead_tstep (t : Thread) (c : BitVec 2) (a : Bool) (l : List Range) : (t.noteRead c a l).tstep = t.tstep := rfl
@[simp] theorem Thread.noteRead_evsel (t : Thread) (c : BitVec 2) (a : Bool) (l : List Range) : (t.noteRead c a l).evsel = t.evsel := rfl
@[simp] theorem Thread.noteRead_evcnt (t : Thread) (c : BitVec 2) (a : Bool) (l : List Range) : (t.noteRead c a l).evcnt = t.evcnt := rfl
@[simp] theorem Thread.noteRead_supervisor (t : Thread) (c : BitVec 2) (a : Bool) (l : List Range) : (t.noteRead c a l).supervisor = t.supervisor := rfl
@[simp] theorem Thread.noteRead_claimed (t : Thread) (c : BitVec 2) (a : Bool) (l : List Range) : (t.noteRead c a l).claimed = t.claimed := rfl
@[simp] theorem Thread.noteRead_life (t : Thread) (c : BitVec 2) (a : Bool) (l : List Range) : (t.noteRead c a l).life = t.life := rfl
@[simp] theorem Thread.noteRead_held (t : Thread) (c : BitVec 2) (a : Bool) (l : List Range) : (t.noteRead c a l).held = t.held := rfl
@[simp] theorem Thread.noteRead_wish (t : Thread) (c : BitVec 2) (a : Bool) (l : List Range) : (t.noteRead c a l).wish = t.wish := rfl
@[simp] theorem Thread.noteRead_triggered (t : Thread) (c : BitVec 2) (a : Bool) (l : List Range) : (t.noteRead c a l).triggered = t.triggered := rfl
@[simp] theorem Thread.noteRead_migrated (t : Thread) (c : BitVec 2) (a : Bool) (l : List Range) : (t.noteRead c a l).migrated = t.migrated := rfl
@[simp] theorem Thread.noteRead_afresh (t : Thread) (c : BitVec 2) (a : Bool) (l : List Range) : (t.noteRead c a l).afresh = t.afresh := rfl
@[simp] theorem Thread.noteRead_core (t : Thread) (c : BitVec 2) (a : Bool) (l : List Range) : (t.noteRead c a l).core = t.core := rfl
@[simp] theorem Thread.noteRead_lanes (t : Thread) (c : BitVec 2) (a : Bool) (l : List Range) : (t.noteRead c a l).lanes = t.lanes := rfl
@[simp] theorem Thread.noteRead_cls (t : Thread) (c : BitVec 2) (a : Bool) (l : List Range) : (t.noteRead c a l).cls = t.cls := rfl
@[simp] theorem Thread.noteRead_vlen (t : Thread) (c : BitVec 2) (a : Bool) (l : List Range) : (t.noteRead c a l).vlen = t.vlen := rfl
@[simp] theorem Thread.noteRead_mcols (t : Thread) (c : BitVec 2) (a : Bool) (l : List Range) : (t.noteRead c a l).mcols = t.mcols := rfl
@[simp] theorem Thread.noteRead_capmask (t : Thread) (c : BitVec 2) (a : Bool) (l : List Range) : (t.noteRead c a l).capmask = t.capmask := rfl
@[simp] theorem Thread.noteRead_fver (t : Thread) (c : BitVec 2) (a : Bool) (l : List Range) : (t.noteRead c a l).fver = t.fver := rfl
@[simp] theorem Thread.noteRead_savedVer (t : Thread) (c : BitVec 2) (a : Bool) (l : List Range) : (t.noteRead c a l).savedVer = t.savedVer := rfl
@[simp] theorem Thread.noteRead_avoid (t : Thread) (c : BitVec 2) (a : Bool) (l : List Range) : (t.noteRead c a l).avoid = t.avoid := rfl
@[simp] theorem Thread.noteRead_slot (t : Thread) (c : BitVec 2) (a : Bool) (l : List Range) : (t.noteRead c a l).slot = t.slot := rfl
@[simp] theorem Thread.noteRead_placed (t : Thread) (c : BitVec 2) (a : Bool) (l : List Range) : (t.noteRead c a l).placed = t.placed := rfl
@[simp] theorem Thread.noteRead_queued (t : Thread) (c : BitVec 2) (a : Bool) (l : List Range) : (t.noteRead c a l).queued = t.queued := rfl
@[simp] theorem Thread.noteRead_told (t : Thread) (c : BitVec 2) (a : Bool) (l : List Range) : (t.noteRead c a l).told = t.told := rfl
@[simp] theorem Thread.noteRead_hdr (t : Thread) (c : BitVec 2) (a : Bool) (l : List Range) : (t.noteRead c a l).hdr = t.hdr := rfl
@[simp] theorem Thread.noteRead_launchPrio (t : Thread) (c : BitVec 2) (a : Bool) (l : List Range) : (t.noteRead c a l).launchPrio = t.launchPrio := rfl
@[simp] theorem Thread.noteRead_localStore (t : Thread) (c : BitVec 2) (a : Bool) (l : List Range) : (t.noteRead c a l).localStore = t.localStore := rfl
@[simp] theorem Thread.noteRead_csa (t : Thread) (c : BitVec 2) (a : Bool) (l : List Range) : (t.noteRead c a l).csa = t.csa := rfl
@[simp] theorem Thread.noteRead_binds (t : Thread) (c : BitVec 2) (a : Bool) (l : List Range) : (t.noteRead c a l).binds = t.binds := rfl
@[simp] theorem Thread.noteRead_window (t : Thread) (c : BitVec 2) (a : Bool) (l : List Range) : (t.noteRead c a l).window = t.window := rfl
@[simp] theorem Thread.noteRead_preds (t : Thread) (c : BitVec 2) (a : Bool) (l : List Range) : (t.noteRead c a l).preds = t.preds := rfl
@[simp] theorem Thread.noteRead_awaiting (t : Thread) (c : BitVec 2) (a : Bool) (l : List Range) : (t.noteRead c a l).awaiting = t.awaiting := rfl
@[simp] theorem Thread.noteRead_popped (t : Thread) (c : BitVec 2) (a : Bool) (l : List Range) : (t.noteRead c a l).popped = t.popped := rfl
@[simp] theorem Thread.noteRead_micro (t : Thread) (c : BitVec 2) (a : Bool) (l : List Range) : (t.noteRead c a l).micro = t.micro := rfl
@[simp] theorem Thread.noteRead_vq (t : Thread) (c : BitVec 2) (a : Bool) (l : List Range) : (t.noteRead c a l).vq = t.vq := rfl
@[simp] theorem Thread.noteRead_stores (t : Thread) (c : BitVec 2) (a : Bool) (l : List Range) : (t.noteRead c a l).stores = t.stores := rfl
@[simp] theorem Thread.noteRead_peerData (t : Thread) (c : BitVec 2) (a : Bool) (l : List Range) : (t.noteRead c a l).peerData = t.peerData := rfl
@[simp] theorem Thread.noteRead_started (t : Thread) (c : BitVec 2) (a : Bool) (l : List Range) : (t.noteRead c a l).started = t.started := rfl
@[simp] theorem Thread.noteRead_leftStep (t : Thread) (c : BitVec 2) (a : Bool) (l : List Range) : (t.noteRead c a l).leftStep = t.leftStep := rfl
@[simp] theorem Thread.noteRead_begun (t : Thread) (c : BitVec 2) (a : Bool) (l : List Range) : (t.noteRead c a l).begun = t.begun := rfl
@[simp] theorem Thread.noteRead_half (t : Thread) (c : BitVec 2) (a : Bool) (l : List Range) : (t.noteRead c a l).half = t.half := rfl
@[simp] theorem Thread.noteRead_passed (t : Thread) (c : BitVec 2) (a : Bool) (l : List Range) : (t.noteRead c a l).passed = t.passed := rfl
@[simp] theorem Thread.noteRead_boosted (t : Thread) (c : BitVec 2) (a : Bool) (l : List Range) : (t.noteRead c a l).boosted = t.boosted := rfl
@[simp] theorem Thread.noteRead_sq (t : Thread) (c : BitVec 2) (a : Bool) (l : List Range) : (t.noteRead c a l).sq = noteReads c a l [] t.sq := rfl

@[simp] theorem Thread.setTrap_key (t : Thread) (c : TrapCause) (a b e : Word) (v : Bool) (d : Word) : (t.setTrap c a b e v d).key = t.key := rfl
@[simp] theorem Thread.setTrap_x (t : Thread) (c : TrapCause) (a b e : Word) (v : Bool) (d : Word) : (t.setTrap c a b e v d).x = t.x := rfl
@[simp] theorem Thread.setTrap_pc (t : Thread) (c : TrapCause) (a b e : Word) (v : Bool) (d : Word) : (t.setTrap c a b e v d).pc = t.pc := rfl
@[simp] theorem Thread.setTrap_v (t : Thread) (c : TrapCause) (a b e : Word) (v : Bool) (d : Word) : (t.setTrap c a b e v d).v = t.v := rfl
@[simp] theorem Thread.setTrap_p (t : Thread) (c : TrapCause) (a b e : Word) (v : Bool) (d : Word) : (t.setTrap c a b e v d).p = t.p := rfl
@[simp] theorem Thread.setTrap_m (t : Thread) (c : TrapCause) (a b e : Word) (v : Bool) (d : Word) : (t.setTrap c a b e v d).m = t.m := rfl
@[simp] theorem Thread.setTrap_fcsr (t : Thread) (c : TrapCause) (a b e : Word) (v : Bool) (d : Word) : (t.setTrap c a b e v d).fcsr = t.fcsr := rfl
@[simp] theorem Thread.setTrap_vl (t : Thread) (c : TrapCause) (a b e : Word) (v : Bool) (d : Word) : (t.setTrap c a b e v d).vl = t.vl := rfl
@[simp] theorem Thread.setTrap_vlb (t : Thread) (c : TrapCause) (a b e : Word) (v : Bool) (d : Word) : (t.setTrap c a b e v d).vlb = t.vlb := rfl
@[simp] theorem Thread.setTrap_vtype (t : Thread) (c : TrapCause) (a b e : Word) (v : Bool) (d : Word) : (t.setTrap c a b e v d).vtype = t.vtype := rfl
@[simp] theorem Thread.setTrap_tshape (t : Thread) (c : TrapCause) (a b e : Word) (v : Bool) (d : Word) : (t.setTrap c a b e v d).tshape = t.tshape := rfl
@[simp] theorem Thread.setTrap_tdirty (t : Thread) (c : TrapCause) (a b e : Word) (v : Bool) (d : Word) : (t.setTrap c a b e v d).tdirty = t.tdirty := rfl
@[simp] theorem Thread.setTrap_prio (t : Thread) (c : TrapCause) (a b e : Word) (v : Bool) (d : Word) : (t.setTrap c a b e v d).prio = t.prio := rfl
@[simp] theorem Thread.setTrap_ffcause (t : Thread) (c : TrapCause) (a b e : Word) (v : Bool) (d : Word) : (t.setTrap c a b e v d).ffcause = t.ffcause := rfl
@[simp] theorem Thread.setTrap_ffaddr (t : Thread) (c : TrapCause) (a b e : Word) (v : Bool) (d : Word) : (t.setTrap c a b e v d).ffaddr = t.ffaddr := rfl
@[simp] theorem Thread.setTrap_ffidx (t : Thread) (c : TrapCause) (a b e : Word) (v : Bool) (d : Word) : (t.setTrap c a b e v d).ffidx = t.ffidx := rfl
@[simp] theorem Thread.setTrap_ffhidden (t : Thread) (c : TrapCause) (a b e : Word) (v : Bool) (d : Word) : (t.setTrap c a b e v d).ffhidden = t.ffhidden := rfl
@[simp] theorem Thread.setTrap_evsel (t : Thread) (c : TrapCause) (a b e : Word) (v : Bool) (d : Word) : (t.setTrap c a b e v d).evsel = t.evsel := rfl
@[simp] theorem Thread.setTrap_evcnt (t : Thread) (c : TrapCause) (a b e : Word) (v : Bool) (d : Word) : (t.setTrap c a b e v d).evcnt = t.evcnt := rfl
@[simp] theorem Thread.setTrap_supervisor (t : Thread) (c : TrapCause) (a b e : Word) (v : Bool) (d : Word) : (t.setTrap c a b e v d).supervisor = t.supervisor := rfl
@[simp] theorem Thread.setTrap_claimed (t : Thread) (c : TrapCause) (a b e : Word) (v : Bool) (d : Word) : (t.setTrap c a b e v d).claimed = t.claimed := rfl
@[simp] theorem Thread.setTrap_life (t : Thread) (c : TrapCause) (a b e : Word) (v : Bool) (d : Word) : (t.setTrap c a b e v d).life = t.life := rfl
@[simp] theorem Thread.setTrap_held (t : Thread) (c : TrapCause) (a b e : Word) (v : Bool) (d : Word) : (t.setTrap c a b e v d).held = t.held := rfl
@[simp] theorem Thread.setTrap_wish (t : Thread) (c : TrapCause) (a b e : Word) (v : Bool) (d : Word) : (t.setTrap c a b e v d).wish = t.wish := rfl
@[simp] theorem Thread.setTrap_triggered (t : Thread) (c : TrapCause) (a b e : Word) (v : Bool) (d : Word) : (t.setTrap c a b e v d).triggered = t.triggered := rfl
@[simp] theorem Thread.setTrap_migrated (t : Thread) (c : TrapCause) (a b e : Word) (v : Bool) (d : Word) : (t.setTrap c a b e v d).migrated = t.migrated := rfl
@[simp] theorem Thread.setTrap_afresh (t : Thread) (c : TrapCause) (a b e : Word) (v : Bool) (d : Word) : (t.setTrap c a b e v d).afresh = t.afresh := rfl
@[simp] theorem Thread.setTrap_core (t : Thread) (c : TrapCause) (a b e : Word) (v : Bool) (d : Word) : (t.setTrap c a b e v d).core = t.core := rfl
@[simp] theorem Thread.setTrap_lanes (t : Thread) (c : TrapCause) (a b e : Word) (v : Bool) (d : Word) : (t.setTrap c a b e v d).lanes = t.lanes := rfl
@[simp] theorem Thread.setTrap_cls (t : Thread) (c : TrapCause) (a b e : Word) (v : Bool) (d : Word) : (t.setTrap c a b e v d).cls = t.cls := rfl
@[simp] theorem Thread.setTrap_vlen (t : Thread) (c : TrapCause) (a b e : Word) (v : Bool) (d : Word) : (t.setTrap c a b e v d).vlen = t.vlen := rfl
@[simp] theorem Thread.setTrap_mcols (t : Thread) (c : TrapCause) (a b e : Word) (v : Bool) (d : Word) : (t.setTrap c a b e v d).mcols = t.mcols := rfl
@[simp] theorem Thread.setTrap_capmask (t : Thread) (c : TrapCause) (a b e : Word) (v : Bool) (d : Word) : (t.setTrap c a b e v d).capmask = t.capmask := rfl
@[simp] theorem Thread.setTrap_fver (t : Thread) (c : TrapCause) (a b e : Word) (v : Bool) (d : Word) : (t.setTrap c a b e v d).fver = t.fver := rfl
@[simp] theorem Thread.setTrap_savedVer (t : Thread) (c : TrapCause) (a b e : Word) (v : Bool) (d : Word) : (t.setTrap c a b e v d).savedVer = t.savedVer := rfl
@[simp] theorem Thread.setTrap_avoid (t : Thread) (c : TrapCause) (a b e : Word) (v : Bool) (d : Word) : (t.setTrap c a b e v d).avoid = t.avoid := rfl
@[simp] theorem Thread.setTrap_slot (t : Thread) (c : TrapCause) (a b e : Word) (v : Bool) (d : Word) : (t.setTrap c a b e v d).slot = t.slot := rfl
@[simp] theorem Thread.setTrap_placed (t : Thread) (c : TrapCause) (a b e : Word) (v : Bool) (d : Word) : (t.setTrap c a b e v d).placed = t.placed := rfl
@[simp] theorem Thread.setTrap_queued (t : Thread) (c : TrapCause) (a b e : Word) (v : Bool) (d : Word) : (t.setTrap c a b e v d).queued = t.queued := rfl
@[simp] theorem Thread.setTrap_told (t : Thread) (c : TrapCause) (a b e : Word) (v : Bool) (d : Word) : (t.setTrap c a b e v d).told = t.told := rfl
@[simp] theorem Thread.setTrap_hdr (t : Thread) (c : TrapCause) (a b e : Word) (v : Bool) (d : Word) : (t.setTrap c a b e v d).hdr = t.hdr := rfl
@[simp] theorem Thread.setTrap_launchPrio (t : Thread) (c : TrapCause) (a b e : Word) (v : Bool) (d : Word) : (t.setTrap c a b e v d).launchPrio = t.launchPrio := rfl
@[simp] theorem Thread.setTrap_localStore (t : Thread) (c : TrapCause) (a b e : Word) (v : Bool) (d : Word) : (t.setTrap c a b e v d).localStore = t.localStore := rfl
@[simp] theorem Thread.setTrap_csa (t : Thread) (c : TrapCause) (a b e : Word) (v : Bool) (d : Word) : (t.setTrap c a b e v d).csa = t.csa := rfl
@[simp] theorem Thread.setTrap_binds (t : Thread) (c : TrapCause) (a b e : Word) (v : Bool) (d : Word) : (t.setTrap c a b e v d).binds = t.binds := rfl
@[simp] theorem Thread.setTrap_window (t : Thread) (c : TrapCause) (a b e : Word) (v : Bool) (d : Word) : (t.setTrap c a b e v d).window = t.window := rfl
@[simp] theorem Thread.setTrap_preds (t : Thread) (c : TrapCause) (a b e : Word) (v : Bool) (d : Word) : (t.setTrap c a b e v d).preds = t.preds := rfl
@[simp] theorem Thread.setTrap_awaiting (t : Thread) (c : TrapCause) (a b e : Word) (v : Bool) (d : Word) : (t.setTrap c a b e v d).awaiting = t.awaiting := rfl
@[simp] theorem Thread.setTrap_popped (t : Thread) (c : TrapCause) (a b e : Word) (v : Bool) (d : Word) : (t.setTrap c a b e v d).popped = t.popped := rfl
@[simp] theorem Thread.setTrap_micro (t : Thread) (c : TrapCause) (a b e : Word) (v : Bool) (d : Word) : (t.setTrap c a b e v d).micro = t.micro := rfl
@[simp] theorem Thread.setTrap_vq (t : Thread) (c : TrapCause) (a b e : Word) (v : Bool) (d : Word) : (t.setTrap c a b e v d).vq = t.vq := rfl
@[simp] theorem Thread.setTrap_sq (t : Thread) (c : TrapCause) (a b e : Word) (v : Bool) (d : Word) : (t.setTrap c a b e v d).sq = t.sq := rfl
@[simp] theorem Thread.setTrap_stores (t : Thread) (c : TrapCause) (a b e : Word) (v : Bool) (d : Word) : (t.setTrap c a b e v d).stores = t.stores := rfl
@[simp] theorem Thread.setTrap_peerData (t : Thread) (c : TrapCause) (a b e : Word) (v : Bool) (d : Word) : (t.setTrap c a b e v d).peerData = t.peerData := rfl
@[simp] theorem Thread.setTrap_started (t : Thread) (c : TrapCause) (a b e : Word) (v : Bool) (d : Word) : (t.setTrap c a b e v d).started = t.started := rfl
@[simp] theorem Thread.setTrap_leftStep (t : Thread) (c : TrapCause) (a b e : Word) (v : Bool) (d : Word) : (t.setTrap c a b e v d).leftStep = t.leftStep := rfl
@[simp] theorem Thread.setTrap_begun (t : Thread) (c : TrapCause) (a b e : Word) (v : Bool) (d : Word) : (t.setTrap c a b e v d).begun = t.begun := rfl
@[simp] theorem Thread.setTrap_half (t : Thread) (c : TrapCause) (a b e : Word) (v : Bool) (d : Word) : (t.setTrap c a b e v d).half = t.half := rfl
@[simp] theorem Thread.setTrap_passed (t : Thread) (c : TrapCause) (a b e : Word) (v : Bool) (d : Word) : (t.setTrap c a b e v d).passed = t.passed := rfl
@[simp] theorem Thread.setTrap_boosted (t : Thread) (c : TrapCause) (a b e : Word) (v : Bool) (d : Word) : (t.setTrap c a b e v d).boosted = t.boosted := rfl
@[simp] theorem Thread.setTrap_tcause (t : Thread) (c : TrapCause) (a b e : Word) (v : Bool) (d : Word) : (t.setTrap c a b e v d).tcause = BitVec.ofNat 64 (causeCode c) := rfl
@[simp] theorem Thread.setTrap_tpc (t : Thread) (c : TrapCause) (a b e : Word) (v : Bool) (d : Word) : (t.setTrap c a b e v d).tpc = a := rfl
@[simp] theorem Thread.setTrap_tval (t : Thread) (c : TrapCause) (a b e : Word) (v : Bool) (d : Word) : (t.setTrap c a b e v d).tval = b := rfl
@[simp] theorem Thread.setTrap_telem (t : Thread) (c : TrapCause) (a b e : Word) (v : Bool) (d : Word) : (t.setTrap c a b e v d).telem = e := rfl

@[simp] theorem Thread.putElems_key (t : Thread) (b w : Nat) (f : Nat → Nat) (g : Nat) : (t.putElems b w f g).key = t.key := by induction g with | zero => rfl | succ g ih => simpa [Thread.putElems] using ih
@[simp] theorem Thread.putElems_x (t : Thread) (b w : Nat) (f : Nat → Nat) (g : Nat) : (t.putElems b w f g).x = t.x := by induction g with | zero => rfl | succ g ih => simpa [Thread.putElems] using ih
@[simp] theorem Thread.putElems_pc (t : Thread) (b w : Nat) (f : Nat → Nat) (g : Nat) : (t.putElems b w f g).pc = t.pc := by induction g with | zero => rfl | succ g ih => simpa [Thread.putElems] using ih
@[simp] theorem Thread.putElems_p (t : Thread) (b w : Nat) (f : Nat → Nat) (g : Nat) : (t.putElems b w f g).p = t.p := by induction g with | zero => rfl | succ g ih => simpa [Thread.putElems] using ih
@[simp] theorem Thread.putElems_m (t : Thread) (b w : Nat) (f : Nat → Nat) (g : Nat) : (t.putElems b w f g).m = t.m := by induction g with | zero => rfl | succ g ih => simpa [Thread.putElems] using ih
@[simp] theorem Thread.putElems_fcsr (t : Thread) (b w : Nat) (f : Nat → Nat) (g : Nat) : (t.putElems b w f g).fcsr = t.fcsr := by induction g with | zero => rfl | succ g ih => simpa [Thread.putElems] using ih
@[simp] theorem Thread.putElems_vl (t : Thread) (b w : Nat) (f : Nat → Nat) (g : Nat) : (t.putElems b w f g).vl = t.vl := by induction g with | zero => rfl | succ g ih => simpa [Thread.putElems] using ih
@[simp] theorem Thread.putElems_vlb (t : Thread) (b w : Nat) (f : Nat → Nat) (g : Nat) : (t.putElems b w f g).vlb = t.vlb := by induction g with | zero => rfl | succ g ih => simpa [Thread.putElems] using ih
@[simp] theorem Thread.putElems_vtype (t : Thread) (b w : Nat) (f : Nat → Nat) (g : Nat) : (t.putElems b w f g).vtype = t.vtype := by induction g with | zero => rfl | succ g ih => simpa [Thread.putElems] using ih
@[simp] theorem Thread.putElems_tshape (t : Thread) (b w : Nat) (f : Nat → Nat) (g : Nat) : (t.putElems b w f g).tshape = t.tshape := by induction g with | zero => rfl | succ g ih => simpa [Thread.putElems] using ih
@[simp] theorem Thread.putElems_tdirty (t : Thread) (b w : Nat) (f : Nat → Nat) (g : Nat) : (t.putElems b w f g).tdirty = t.tdirty := by induction g with | zero => rfl | succ g ih => simpa [Thread.putElems] using ih
@[simp] theorem Thread.putElems_prio (t : Thread) (b w : Nat) (f : Nat → Nat) (g : Nat) : (t.putElems b w f g).prio = t.prio := by induction g with | zero => rfl | succ g ih => simpa [Thread.putElems] using ih
@[simp] theorem Thread.putElems_ffcause (t : Thread) (b w : Nat) (f : Nat → Nat) (g : Nat) : (t.putElems b w f g).ffcause = t.ffcause := by induction g with | zero => rfl | succ g ih => simpa [Thread.putElems] using ih
@[simp] theorem Thread.putElems_ffaddr (t : Thread) (b w : Nat) (f : Nat → Nat) (g : Nat) : (t.putElems b w f g).ffaddr = t.ffaddr := by induction g with | zero => rfl | succ g ih => simpa [Thread.putElems] using ih
@[simp] theorem Thread.putElems_ffidx (t : Thread) (b w : Nat) (f : Nat → Nat) (g : Nat) : (t.putElems b w f g).ffidx = t.ffidx := by induction g with | zero => rfl | succ g ih => simpa [Thread.putElems] using ih
@[simp] theorem Thread.putElems_ffhidden (t : Thread) (b w : Nat) (f : Nat → Nat) (g : Nat) : (t.putElems b w f g).ffhidden = t.ffhidden := by induction g with | zero => rfl | succ g ih => simpa [Thread.putElems] using ih
@[simp] theorem Thread.putElems_tcause (t : Thread) (b w : Nat) (f : Nat → Nat) (g : Nat) : (t.putElems b w f g).tcause = t.tcause := by induction g with | zero => rfl | succ g ih => simpa [Thread.putElems] using ih
@[simp] theorem Thread.putElems_tpc (t : Thread) (b w : Nat) (f : Nat → Nat) (g : Nat) : (t.putElems b w f g).tpc = t.tpc := by induction g with | zero => rfl | succ g ih => simpa [Thread.putElems] using ih
@[simp] theorem Thread.putElems_tval (t : Thread) (b w : Nat) (f : Nat → Nat) (g : Nat) : (t.putElems b w f g).tval = t.tval := by induction g with | zero => rfl | succ g ih => simpa [Thread.putElems] using ih
@[simp] theorem Thread.putElems_telem (t : Thread) (b w : Nat) (f : Nat → Nat) (g : Nat) : (t.putElems b w f g).telem = t.telem := by induction g with | zero => rfl | succ g ih => simpa [Thread.putElems] using ih
@[simp] theorem Thread.putElems_tvcp (t : Thread) (b w : Nat) (f : Nat → Nat) (g : Nat) : (t.putElems b w f g).tvcp = t.tvcp := by induction g with | zero => rfl | succ g ih => simpa [Thread.putElems] using ih
@[simp] theorem Thread.putElems_tstep (t : Thread) (b w : Nat) (f : Nat → Nat) (g : Nat) : (t.putElems b w f g).tstep = t.tstep := by induction g with | zero => rfl | succ g ih => simpa [Thread.putElems] using ih
@[simp] theorem Thread.putElems_evsel (t : Thread) (b w : Nat) (f : Nat → Nat) (g : Nat) : (t.putElems b w f g).evsel = t.evsel := by induction g with | zero => rfl | succ g ih => simpa [Thread.putElems] using ih
@[simp] theorem Thread.putElems_evcnt (t : Thread) (b w : Nat) (f : Nat → Nat) (g : Nat) : (t.putElems b w f g).evcnt = t.evcnt := by induction g with | zero => rfl | succ g ih => simpa [Thread.putElems] using ih
@[simp] theorem Thread.putElems_supervisor (t : Thread) (b w : Nat) (f : Nat → Nat) (g : Nat) : (t.putElems b w f g).supervisor = t.supervisor := by induction g with | zero => rfl | succ g ih => simpa [Thread.putElems] using ih
@[simp] theorem Thread.putElems_claimed (t : Thread) (b w : Nat) (f : Nat → Nat) (g : Nat) : (t.putElems b w f g).claimed = t.claimed := by induction g with | zero => rfl | succ g ih => simpa [Thread.putElems] using ih
@[simp] theorem Thread.putElems_life (t : Thread) (b w : Nat) (f : Nat → Nat) (g : Nat) : (t.putElems b w f g).life = t.life := by induction g with | zero => rfl | succ g ih => simpa [Thread.putElems] using ih
@[simp] theorem Thread.putElems_held (t : Thread) (b w : Nat) (f : Nat → Nat) (g : Nat) : (t.putElems b w f g).held = t.held := by induction g with | zero => rfl | succ g ih => simpa [Thread.putElems] using ih
@[simp] theorem Thread.putElems_wish (t : Thread) (b w : Nat) (f : Nat → Nat) (g : Nat) : (t.putElems b w f g).wish = t.wish := by induction g with | zero => rfl | succ g ih => simpa [Thread.putElems] using ih
@[simp] theorem Thread.putElems_triggered (t : Thread) (b w : Nat) (f : Nat → Nat) (g : Nat) : (t.putElems b w f g).triggered = t.triggered := by induction g with | zero => rfl | succ g ih => simpa [Thread.putElems] using ih
@[simp] theorem Thread.putElems_migrated (t : Thread) (b w : Nat) (f : Nat → Nat) (g : Nat) : (t.putElems b w f g).migrated = t.migrated := by induction g with | zero => rfl | succ g ih => simpa [Thread.putElems] using ih
@[simp] theorem Thread.putElems_afresh (t : Thread) (b w : Nat) (f : Nat → Nat) (g : Nat) : (t.putElems b w f g).afresh = t.afresh := by induction g with | zero => rfl | succ g ih => simpa [Thread.putElems] using ih
@[simp] theorem Thread.putElems_core (t : Thread) (b w : Nat) (f : Nat → Nat) (g : Nat) : (t.putElems b w f g).core = t.core := by induction g with | zero => rfl | succ g ih => simpa [Thread.putElems] using ih
@[simp] theorem Thread.putElems_lanes (t : Thread) (b w : Nat) (f : Nat → Nat) (g : Nat) : (t.putElems b w f g).lanes = t.lanes := by induction g with | zero => rfl | succ g ih => simpa [Thread.putElems] using ih
@[simp] theorem Thread.putElems_cls (t : Thread) (b w : Nat) (f : Nat → Nat) (g : Nat) : (t.putElems b w f g).cls = t.cls := by induction g with | zero => rfl | succ g ih => simpa [Thread.putElems] using ih
@[simp] theorem Thread.putElems_vlen (t : Thread) (b w : Nat) (f : Nat → Nat) (g : Nat) : (t.putElems b w f g).vlen = t.vlen := by induction g with | zero => rfl | succ g ih => simpa [Thread.putElems] using ih
@[simp] theorem Thread.putElems_mcols (t : Thread) (b w : Nat) (f : Nat → Nat) (g : Nat) : (t.putElems b w f g).mcols = t.mcols := by induction g with | zero => rfl | succ g ih => simpa [Thread.putElems] using ih
@[simp] theorem Thread.putElems_capmask (t : Thread) (b w : Nat) (f : Nat → Nat) (g : Nat) : (t.putElems b w f g).capmask = t.capmask := by induction g with | zero => rfl | succ g ih => simpa [Thread.putElems] using ih
@[simp] theorem Thread.putElems_fver (t : Thread) (b w : Nat) (f : Nat → Nat) (g : Nat) : (t.putElems b w f g).fver = t.fver := by induction g with | zero => rfl | succ g ih => simpa [Thread.putElems] using ih
@[simp] theorem Thread.putElems_savedVer (t : Thread) (b w : Nat) (f : Nat → Nat) (g : Nat) : (t.putElems b w f g).savedVer = t.savedVer := by induction g with | zero => rfl | succ g ih => simpa [Thread.putElems] using ih
@[simp] theorem Thread.putElems_avoid (t : Thread) (b w : Nat) (f : Nat → Nat) (g : Nat) : (t.putElems b w f g).avoid = t.avoid := by induction g with | zero => rfl | succ g ih => simpa [Thread.putElems] using ih
@[simp] theorem Thread.putElems_slot (t : Thread) (b w : Nat) (f : Nat → Nat) (g : Nat) : (t.putElems b w f g).slot = t.slot := by induction g with | zero => rfl | succ g ih => simpa [Thread.putElems] using ih
@[simp] theorem Thread.putElems_placed (t : Thread) (b w : Nat) (f : Nat → Nat) (g : Nat) : (t.putElems b w f g).placed = t.placed := by induction g with | zero => rfl | succ g ih => simpa [Thread.putElems] using ih
@[simp] theorem Thread.putElems_queued (t : Thread) (b w : Nat) (f : Nat → Nat) (g : Nat) : (t.putElems b w f g).queued = t.queued := by induction g with | zero => rfl | succ g ih => simpa [Thread.putElems] using ih
@[simp] theorem Thread.putElems_told (t : Thread) (b w : Nat) (f : Nat → Nat) (g : Nat) : (t.putElems b w f g).told = t.told := by induction g with | zero => rfl | succ g ih => simpa [Thread.putElems] using ih
@[simp] theorem Thread.putElems_hdr (t : Thread) (b w : Nat) (f : Nat → Nat) (g : Nat) : (t.putElems b w f g).hdr = t.hdr := by induction g with | zero => rfl | succ g ih => simpa [Thread.putElems] using ih
@[simp] theorem Thread.putElems_launchPrio (t : Thread) (b w : Nat) (f : Nat → Nat) (g : Nat) : (t.putElems b w f g).launchPrio = t.launchPrio := by induction g with | zero => rfl | succ g ih => simpa [Thread.putElems] using ih
@[simp] theorem Thread.putElems_localStore (t : Thread) (b w : Nat) (f : Nat → Nat) (g : Nat) : (t.putElems b w f g).localStore = t.localStore := by induction g with | zero => rfl | succ g ih => simpa [Thread.putElems] using ih
@[simp] theorem Thread.putElems_csa (t : Thread) (b w : Nat) (f : Nat → Nat) (g : Nat) : (t.putElems b w f g).csa = t.csa := by induction g with | zero => rfl | succ g ih => simpa [Thread.putElems] using ih
@[simp] theorem Thread.putElems_binds (t : Thread) (b w : Nat) (f : Nat → Nat) (g : Nat) : (t.putElems b w f g).binds = t.binds := by induction g with | zero => rfl | succ g ih => simpa [Thread.putElems] using ih
@[simp] theorem Thread.putElems_window (t : Thread) (b w : Nat) (f : Nat → Nat) (g : Nat) : (t.putElems b w f g).window = t.window := by induction g with | zero => rfl | succ g ih => simpa [Thread.putElems] using ih
@[simp] theorem Thread.putElems_preds (t : Thread) (b w : Nat) (f : Nat → Nat) (g : Nat) : (t.putElems b w f g).preds = t.preds := by induction g with | zero => rfl | succ g ih => simpa [Thread.putElems] using ih
@[simp] theorem Thread.putElems_awaiting (t : Thread) (b w : Nat) (f : Nat → Nat) (g : Nat) : (t.putElems b w f g).awaiting = t.awaiting := by induction g with | zero => rfl | succ g ih => simpa [Thread.putElems] using ih
@[simp] theorem Thread.putElems_popped (t : Thread) (b w : Nat) (f : Nat → Nat) (g : Nat) : (t.putElems b w f g).popped = t.popped := by induction g with | zero => rfl | succ g ih => simpa [Thread.putElems] using ih
@[simp] theorem Thread.putElems_micro (t : Thread) (b w : Nat) (f : Nat → Nat) (g : Nat) : (t.putElems b w f g).micro = t.micro := by induction g with | zero => rfl | succ g ih => simpa [Thread.putElems] using ih
@[simp] theorem Thread.putElems_vq (t : Thread) (b w : Nat) (f : Nat → Nat) (g : Nat) : (t.putElems b w f g).vq = t.vq := by induction g with | zero => rfl | succ g ih => simpa [Thread.putElems] using ih
@[simp] theorem Thread.putElems_sq (t : Thread) (b w : Nat) (f : Nat → Nat) (g : Nat) : (t.putElems b w f g).sq = t.sq := by induction g with | zero => rfl | succ g ih => simpa [Thread.putElems] using ih
@[simp] theorem Thread.putElems_stores (t : Thread) (b w : Nat) (f : Nat → Nat) (g : Nat) : (t.putElems b w f g).stores = t.stores := by induction g with | zero => rfl | succ g ih => simpa [Thread.putElems] using ih
@[simp] theorem Thread.putElems_peerData (t : Thread) (b w : Nat) (f : Nat → Nat) (g : Nat) : (t.putElems b w f g).peerData = t.peerData := by induction g with | zero => rfl | succ g ih => simpa [Thread.putElems] using ih
@[simp] theorem Thread.putElems_started (t : Thread) (b w : Nat) (f : Nat → Nat) (g : Nat) : (t.putElems b w f g).started = t.started := by induction g with | zero => rfl | succ g ih => simpa [Thread.putElems] using ih
@[simp] theorem Thread.putElems_leftStep (t : Thread) (b w : Nat) (f : Nat → Nat) (g : Nat) : (t.putElems b w f g).leftStep = t.leftStep := by induction g with | zero => rfl | succ g ih => simpa [Thread.putElems] using ih
@[simp] theorem Thread.putElems_begun (t : Thread) (b w : Nat) (f : Nat → Nat) (g : Nat) : (t.putElems b w f g).begun = t.begun := by induction g with | zero => rfl | succ g ih => simpa [Thread.putElems] using ih
@[simp] theorem Thread.putElems_half (t : Thread) (b w : Nat) (f : Nat → Nat) (g : Nat) : (t.putElems b w f g).half = t.half := by induction g with | zero => rfl | succ g ih => simpa [Thread.putElems] using ih
@[simp] theorem Thread.putElems_passed (t : Thread) (b w : Nat) (f : Nat → Nat) (g : Nat) : (t.putElems b w f g).passed = t.passed := by induction g with | zero => rfl | succ g ih => simpa [Thread.putElems] using ih
@[simp] theorem Thread.putElems_boosted (t : Thread) (b w : Nat) (f : Nat → Nat) (g : Nat) : (t.putElems b w f g).boosted = t.boosted := by induction g with | zero => rfl | succ g ih => simpa [Thread.putElems] using ih

@[simp] theorem Thread.writeVec_key (t : Thread) (v : Nat) (act : Nat → Bool) (res : Nat → Nat) : (t.writeVec v act res).key = t.key := by simp [Thread.writeVec]
@[simp] theorem Thread.writeVec_x (t : Thread) (v : Nat) (act : Nat → Bool) (res : Nat → Nat) : (t.writeVec v act res).x = t.x := by simp [Thread.writeVec]
@[simp] theorem Thread.writeVec_pc (t : Thread) (v : Nat) (act : Nat → Bool) (res : Nat → Nat) : (t.writeVec v act res).pc = t.pc := by simp [Thread.writeVec]
@[simp] theorem Thread.writeVec_p (t : Thread) (v : Nat) (act : Nat → Bool) (res : Nat → Nat) : (t.writeVec v act res).p = t.p := by simp [Thread.writeVec]
@[simp] theorem Thread.writeVec_m (t : Thread) (v : Nat) (act : Nat → Bool) (res : Nat → Nat) : (t.writeVec v act res).m = t.m := by simp [Thread.writeVec]
@[simp] theorem Thread.writeVec_fcsr (t : Thread) (v : Nat) (act : Nat → Bool) (res : Nat → Nat) : (t.writeVec v act res).fcsr = t.fcsr := by simp [Thread.writeVec]
@[simp] theorem Thread.writeVec_vl (t : Thread) (v : Nat) (act : Nat → Bool) (res : Nat → Nat) : (t.writeVec v act res).vl = t.vl := by simp [Thread.writeVec]
@[simp] theorem Thread.writeVec_vlb (t : Thread) (v : Nat) (act : Nat → Bool) (res : Nat → Nat) : (t.writeVec v act res).vlb = t.vlb := by simp [Thread.writeVec]
@[simp] theorem Thread.writeVec_vtype (t : Thread) (v : Nat) (act : Nat → Bool) (res : Nat → Nat) : (t.writeVec v act res).vtype = t.vtype := by simp [Thread.writeVec]
@[simp] theorem Thread.writeVec_tshape (t : Thread) (v : Nat) (act : Nat → Bool) (res : Nat → Nat) : (t.writeVec v act res).tshape = t.tshape := by simp [Thread.writeVec]
@[simp] theorem Thread.writeVec_tdirty (t : Thread) (v : Nat) (act : Nat → Bool) (res : Nat → Nat) : (t.writeVec v act res).tdirty = t.tdirty := by simp [Thread.writeVec]
@[simp] theorem Thread.writeVec_prio (t : Thread) (v : Nat) (act : Nat → Bool) (res : Nat → Nat) : (t.writeVec v act res).prio = t.prio := by simp [Thread.writeVec]
@[simp] theorem Thread.writeVec_ffcause (t : Thread) (v : Nat) (act : Nat → Bool) (res : Nat → Nat) : (t.writeVec v act res).ffcause = t.ffcause := by simp [Thread.writeVec]
@[simp] theorem Thread.writeVec_ffaddr (t : Thread) (v : Nat) (act : Nat → Bool) (res : Nat → Nat) : (t.writeVec v act res).ffaddr = t.ffaddr := by simp [Thread.writeVec]
@[simp] theorem Thread.writeVec_ffidx (t : Thread) (v : Nat) (act : Nat → Bool) (res : Nat → Nat) : (t.writeVec v act res).ffidx = t.ffidx := by simp [Thread.writeVec]
@[simp] theorem Thread.writeVec_ffhidden (t : Thread) (v : Nat) (act : Nat → Bool) (res : Nat → Nat) : (t.writeVec v act res).ffhidden = t.ffhidden := by simp [Thread.writeVec]
@[simp] theorem Thread.writeVec_tcause (t : Thread) (v : Nat) (act : Nat → Bool) (res : Nat → Nat) : (t.writeVec v act res).tcause = t.tcause := by simp [Thread.writeVec]
@[simp] theorem Thread.writeVec_tpc (t : Thread) (v : Nat) (act : Nat → Bool) (res : Nat → Nat) : (t.writeVec v act res).tpc = t.tpc := by simp [Thread.writeVec]
@[simp] theorem Thread.writeVec_tval (t : Thread) (v : Nat) (act : Nat → Bool) (res : Nat → Nat) : (t.writeVec v act res).tval = t.tval := by simp [Thread.writeVec]
@[simp] theorem Thread.writeVec_telem (t : Thread) (v : Nat) (act : Nat → Bool) (res : Nat → Nat) : (t.writeVec v act res).telem = t.telem := by simp [Thread.writeVec]
@[simp] theorem Thread.writeVec_tvcp (t : Thread) (v : Nat) (act : Nat → Bool) (res : Nat → Nat) : (t.writeVec v act res).tvcp = t.tvcp := by simp [Thread.writeVec]
@[simp] theorem Thread.writeVec_tstep (t : Thread) (v : Nat) (act : Nat → Bool) (res : Nat → Nat) : (t.writeVec v act res).tstep = t.tstep := by simp [Thread.writeVec]
@[simp] theorem Thread.writeVec_evsel (t : Thread) (v : Nat) (act : Nat → Bool) (res : Nat → Nat) : (t.writeVec v act res).evsel = t.evsel := by simp [Thread.writeVec]
@[simp] theorem Thread.writeVec_evcnt (t : Thread) (v : Nat) (act : Nat → Bool) (res : Nat → Nat) : (t.writeVec v act res).evcnt = t.evcnt := by simp [Thread.writeVec]
@[simp] theorem Thread.writeVec_supervisor (t : Thread) (v : Nat) (act : Nat → Bool) (res : Nat → Nat) : (t.writeVec v act res).supervisor = t.supervisor := by simp [Thread.writeVec]
@[simp] theorem Thread.writeVec_claimed (t : Thread) (v : Nat) (act : Nat → Bool) (res : Nat → Nat) : (t.writeVec v act res).claimed = t.claimed := by simp [Thread.writeVec]
@[simp] theorem Thread.writeVec_life (t : Thread) (v : Nat) (act : Nat → Bool) (res : Nat → Nat) : (t.writeVec v act res).life = t.life := by simp [Thread.writeVec]
@[simp] theorem Thread.writeVec_held (t : Thread) (v : Nat) (act : Nat → Bool) (res : Nat → Nat) : (t.writeVec v act res).held = t.held := by simp [Thread.writeVec]
@[simp] theorem Thread.writeVec_wish (t : Thread) (v : Nat) (act : Nat → Bool) (res : Nat → Nat) : (t.writeVec v act res).wish = t.wish := by simp [Thread.writeVec]
@[simp] theorem Thread.writeVec_triggered (t : Thread) (v : Nat) (act : Nat → Bool) (res : Nat → Nat) : (t.writeVec v act res).triggered = t.triggered := by simp [Thread.writeVec]
@[simp] theorem Thread.writeVec_migrated (t : Thread) (v : Nat) (act : Nat → Bool) (res : Nat → Nat) : (t.writeVec v act res).migrated = t.migrated := by simp [Thread.writeVec]
@[simp] theorem Thread.writeVec_afresh (t : Thread) (v : Nat) (act : Nat → Bool) (res : Nat → Nat) : (t.writeVec v act res).afresh = t.afresh := by simp [Thread.writeVec]
@[simp] theorem Thread.writeVec_core (t : Thread) (v : Nat) (act : Nat → Bool) (res : Nat → Nat) : (t.writeVec v act res).core = t.core := by simp [Thread.writeVec]
@[simp] theorem Thread.writeVec_lanes (t : Thread) (v : Nat) (act : Nat → Bool) (res : Nat → Nat) : (t.writeVec v act res).lanes = t.lanes := by simp [Thread.writeVec]
@[simp] theorem Thread.writeVec_cls (t : Thread) (v : Nat) (act : Nat → Bool) (res : Nat → Nat) : (t.writeVec v act res).cls = t.cls := by simp [Thread.writeVec]
@[simp] theorem Thread.writeVec_vlen (t : Thread) (v : Nat) (act : Nat → Bool) (res : Nat → Nat) : (t.writeVec v act res).vlen = t.vlen := by simp [Thread.writeVec]
@[simp] theorem Thread.writeVec_mcols (t : Thread) (v : Nat) (act : Nat → Bool) (res : Nat → Nat) : (t.writeVec v act res).mcols = t.mcols := by simp [Thread.writeVec]
@[simp] theorem Thread.writeVec_capmask (t : Thread) (v : Nat) (act : Nat → Bool) (res : Nat → Nat) : (t.writeVec v act res).capmask = t.capmask := by simp [Thread.writeVec]
@[simp] theorem Thread.writeVec_fver (t : Thread) (v : Nat) (act : Nat → Bool) (res : Nat → Nat) : (t.writeVec v act res).fver = t.fver := by simp [Thread.writeVec]
@[simp] theorem Thread.writeVec_savedVer (t : Thread) (v : Nat) (act : Nat → Bool) (res : Nat → Nat) : (t.writeVec v act res).savedVer = t.savedVer := by simp [Thread.writeVec]
@[simp] theorem Thread.writeVec_avoid (t : Thread) (v : Nat) (act : Nat → Bool) (res : Nat → Nat) : (t.writeVec v act res).avoid = t.avoid := by simp [Thread.writeVec]
@[simp] theorem Thread.writeVec_slot (t : Thread) (v : Nat) (act : Nat → Bool) (res : Nat → Nat) : (t.writeVec v act res).slot = t.slot := by simp [Thread.writeVec]
@[simp] theorem Thread.writeVec_placed (t : Thread) (v : Nat) (act : Nat → Bool) (res : Nat → Nat) : (t.writeVec v act res).placed = t.placed := by simp [Thread.writeVec]
@[simp] theorem Thread.writeVec_queued (t : Thread) (v : Nat) (act : Nat → Bool) (res : Nat → Nat) : (t.writeVec v act res).queued = t.queued := by simp [Thread.writeVec]
@[simp] theorem Thread.writeVec_told (t : Thread) (v : Nat) (act : Nat → Bool) (res : Nat → Nat) : (t.writeVec v act res).told = t.told := by simp [Thread.writeVec]
@[simp] theorem Thread.writeVec_hdr (t : Thread) (v : Nat) (act : Nat → Bool) (res : Nat → Nat) : (t.writeVec v act res).hdr = t.hdr := by simp [Thread.writeVec]
@[simp] theorem Thread.writeVec_launchPrio (t : Thread) (v : Nat) (act : Nat → Bool) (res : Nat → Nat) : (t.writeVec v act res).launchPrio = t.launchPrio := by simp [Thread.writeVec]
@[simp] theorem Thread.writeVec_localStore (t : Thread) (v : Nat) (act : Nat → Bool) (res : Nat → Nat) : (t.writeVec v act res).localStore = t.localStore := by simp [Thread.writeVec]
@[simp] theorem Thread.writeVec_csa (t : Thread) (v : Nat) (act : Nat → Bool) (res : Nat → Nat) : (t.writeVec v act res).csa = t.csa := by simp [Thread.writeVec]
@[simp] theorem Thread.writeVec_binds (t : Thread) (v : Nat) (act : Nat → Bool) (res : Nat → Nat) : (t.writeVec v act res).binds = t.binds := by simp [Thread.writeVec]
@[simp] theorem Thread.writeVec_window (t : Thread) (v : Nat) (act : Nat → Bool) (res : Nat → Nat) : (t.writeVec v act res).window = t.window := by simp [Thread.writeVec]
@[simp] theorem Thread.writeVec_preds (t : Thread) (v : Nat) (act : Nat → Bool) (res : Nat → Nat) : (t.writeVec v act res).preds = t.preds := by simp [Thread.writeVec]
@[simp] theorem Thread.writeVec_awaiting (t : Thread) (v : Nat) (act : Nat → Bool) (res : Nat → Nat) : (t.writeVec v act res).awaiting = t.awaiting := by simp [Thread.writeVec]
@[simp] theorem Thread.writeVec_popped (t : Thread) (v : Nat) (act : Nat → Bool) (res : Nat → Nat) : (t.writeVec v act res).popped = t.popped := by simp [Thread.writeVec]
@[simp] theorem Thread.writeVec_micro (t : Thread) (v : Nat) (act : Nat → Bool) (res : Nat → Nat) : (t.writeVec v act res).micro = t.micro := by simp [Thread.writeVec]
@[simp] theorem Thread.writeVec_vq (t : Thread) (v : Nat) (act : Nat → Bool) (res : Nat → Nat) : (t.writeVec v act res).vq = t.vq := by simp [Thread.writeVec]
@[simp] theorem Thread.writeVec_sq (t : Thread) (v : Nat) (act : Nat → Bool) (res : Nat → Nat) : (t.writeVec v act res).sq = t.sq := by simp [Thread.writeVec]
@[simp] theorem Thread.writeVec_stores (t : Thread) (v : Nat) (act : Nat → Bool) (res : Nat → Nat) : (t.writeVec v act res).stores = t.stores := by simp [Thread.writeVec]
@[simp] theorem Thread.writeVec_peerData (t : Thread) (v : Nat) (act : Nat → Bool) (res : Nat → Nat) : (t.writeVec v act res).peerData = t.peerData := by simp [Thread.writeVec]
@[simp] theorem Thread.writeVec_started (t : Thread) (v : Nat) (act : Nat → Bool) (res : Nat → Nat) : (t.writeVec v act res).started = t.started := by simp [Thread.writeVec]
@[simp] theorem Thread.writeVec_leftStep (t : Thread) (v : Nat) (act : Nat → Bool) (res : Nat → Nat) : (t.writeVec v act res).leftStep = t.leftStep := by simp [Thread.writeVec]
@[simp] theorem Thread.writeVec_begun (t : Thread) (v : Nat) (act : Nat → Bool) (res : Nat → Nat) : (t.writeVec v act res).begun = t.begun := by simp [Thread.writeVec]
@[simp] theorem Thread.writeVec_half (t : Thread) (v : Nat) (act : Nat → Bool) (res : Nat → Nat) : (t.writeVec v act res).half = t.half := by simp [Thread.writeVec]
@[simp] theorem Thread.writeVec_passed (t : Thread) (v : Nat) (act : Nat → Bool) (res : Nat → Nat) : (t.writeVec v act res).passed = t.passed := by simp [Thread.writeVec]
@[simp] theorem Thread.writeVec_boosted (t : Thread) (v : Nat) (act : Nat → Bool) (res : Nat → Nat) : (t.writeVec v act res).boosted = t.boosted := by simp [Thread.writeVec]

@[simp] theorem Thread.writePred_key (t : Thread) (d : Reg) (act res : Nat → Bool) : (t.writePred d act res).key = t.key := rfl
@[simp] theorem Thread.writePred_x (t : Thread) (d : Reg) (act res : Nat → Bool) : (t.writePred d act res).x = t.x := rfl
@[simp] theorem Thread.writePred_pc (t : Thread) (d : Reg) (act res : Nat → Bool) : (t.writePred d act res).pc = t.pc := rfl
@[simp] theorem Thread.writePred_v (t : Thread) (d : Reg) (act res : Nat → Bool) : (t.writePred d act res).v = t.v := rfl
@[simp] theorem Thread.writePred_m (t : Thread) (d : Reg) (act res : Nat → Bool) : (t.writePred d act res).m = t.m := rfl
@[simp] theorem Thread.writePred_fcsr (t : Thread) (d : Reg) (act res : Nat → Bool) : (t.writePred d act res).fcsr = t.fcsr := rfl
@[simp] theorem Thread.writePred_vl (t : Thread) (d : Reg) (act res : Nat → Bool) : (t.writePred d act res).vl = t.vl := rfl
@[simp] theorem Thread.writePred_vlb (t : Thread) (d : Reg) (act res : Nat → Bool) : (t.writePred d act res).vlb = t.vlb := rfl
@[simp] theorem Thread.writePred_vtype (t : Thread) (d : Reg) (act res : Nat → Bool) : (t.writePred d act res).vtype = t.vtype := rfl
@[simp] theorem Thread.writePred_tshape (t : Thread) (d : Reg) (act res : Nat → Bool) : (t.writePred d act res).tshape = t.tshape := rfl
@[simp] theorem Thread.writePred_tdirty (t : Thread) (d : Reg) (act res : Nat → Bool) : (t.writePred d act res).tdirty = t.tdirty := rfl
@[simp] theorem Thread.writePred_prio (t : Thread) (d : Reg) (act res : Nat → Bool) : (t.writePred d act res).prio = t.prio := rfl
@[simp] theorem Thread.writePred_ffcause (t : Thread) (d : Reg) (act res : Nat → Bool) : (t.writePred d act res).ffcause = t.ffcause := rfl
@[simp] theorem Thread.writePred_ffaddr (t : Thread) (d : Reg) (act res : Nat → Bool) : (t.writePred d act res).ffaddr = t.ffaddr := rfl
@[simp] theorem Thread.writePred_ffidx (t : Thread) (d : Reg) (act res : Nat → Bool) : (t.writePred d act res).ffidx = t.ffidx := rfl
@[simp] theorem Thread.writePred_ffhidden (t : Thread) (d : Reg) (act res : Nat → Bool) : (t.writePred d act res).ffhidden = t.ffhidden := rfl
@[simp] theorem Thread.writePred_tcause (t : Thread) (d : Reg) (act res : Nat → Bool) : (t.writePred d act res).tcause = t.tcause := rfl
@[simp] theorem Thread.writePred_tpc (t : Thread) (d : Reg) (act res : Nat → Bool) : (t.writePred d act res).tpc = t.tpc := rfl
@[simp] theorem Thread.writePred_tval (t : Thread) (d : Reg) (act res : Nat → Bool) : (t.writePred d act res).tval = t.tval := rfl
@[simp] theorem Thread.writePred_telem (t : Thread) (d : Reg) (act res : Nat → Bool) : (t.writePred d act res).telem = t.telem := rfl
@[simp] theorem Thread.writePred_tvcp (t : Thread) (d : Reg) (act res : Nat → Bool) : (t.writePred d act res).tvcp = t.tvcp := rfl
@[simp] theorem Thread.writePred_tstep (t : Thread) (d : Reg) (act res : Nat → Bool) : (t.writePred d act res).tstep = t.tstep := rfl
@[simp] theorem Thread.writePred_evsel (t : Thread) (d : Reg) (act res : Nat → Bool) : (t.writePred d act res).evsel = t.evsel := rfl
@[simp] theorem Thread.writePred_evcnt (t : Thread) (d : Reg) (act res : Nat → Bool) : (t.writePred d act res).evcnt = t.evcnt := rfl
@[simp] theorem Thread.writePred_supervisor (t : Thread) (d : Reg) (act res : Nat → Bool) : (t.writePred d act res).supervisor = t.supervisor := rfl
@[simp] theorem Thread.writePred_claimed (t : Thread) (d : Reg) (act res : Nat → Bool) : (t.writePred d act res).claimed = t.claimed := rfl
@[simp] theorem Thread.writePred_life (t : Thread) (d : Reg) (act res : Nat → Bool) : (t.writePred d act res).life = t.life := rfl
@[simp] theorem Thread.writePred_held (t : Thread) (d : Reg) (act res : Nat → Bool) : (t.writePred d act res).held = t.held := rfl
@[simp] theorem Thread.writePred_wish (t : Thread) (d : Reg) (act res : Nat → Bool) : (t.writePred d act res).wish = t.wish := rfl
@[simp] theorem Thread.writePred_triggered (t : Thread) (d : Reg) (act res : Nat → Bool) : (t.writePred d act res).triggered = t.triggered := rfl
@[simp] theorem Thread.writePred_migrated (t : Thread) (d : Reg) (act res : Nat → Bool) : (t.writePred d act res).migrated = t.migrated := rfl
@[simp] theorem Thread.writePred_afresh (t : Thread) (d : Reg) (act res : Nat → Bool) : (t.writePred d act res).afresh = t.afresh := rfl
@[simp] theorem Thread.writePred_core (t : Thread) (d : Reg) (act res : Nat → Bool) : (t.writePred d act res).core = t.core := rfl
@[simp] theorem Thread.writePred_lanes (t : Thread) (d : Reg) (act res : Nat → Bool) : (t.writePred d act res).lanes = t.lanes := rfl
@[simp] theorem Thread.writePred_cls (t : Thread) (d : Reg) (act res : Nat → Bool) : (t.writePred d act res).cls = t.cls := rfl
@[simp] theorem Thread.writePred_vlen (t : Thread) (d : Reg) (act res : Nat → Bool) : (t.writePred d act res).vlen = t.vlen := rfl
@[simp] theorem Thread.writePred_mcols (t : Thread) (d : Reg) (act res : Nat → Bool) : (t.writePred d act res).mcols = t.mcols := rfl
@[simp] theorem Thread.writePred_capmask (t : Thread) (d : Reg) (act res : Nat → Bool) : (t.writePred d act res).capmask = t.capmask := rfl
@[simp] theorem Thread.writePred_fver (t : Thread) (d : Reg) (act res : Nat → Bool) : (t.writePred d act res).fver = t.fver := rfl
@[simp] theorem Thread.writePred_savedVer (t : Thread) (d : Reg) (act res : Nat → Bool) : (t.writePred d act res).savedVer = t.savedVer := rfl
@[simp] theorem Thread.writePred_avoid (t : Thread) (d : Reg) (act res : Nat → Bool) : (t.writePred d act res).avoid = t.avoid := rfl
@[simp] theorem Thread.writePred_slot (t : Thread) (d : Reg) (act res : Nat → Bool) : (t.writePred d act res).slot = t.slot := rfl
@[simp] theorem Thread.writePred_placed (t : Thread) (d : Reg) (act res : Nat → Bool) : (t.writePred d act res).placed = t.placed := rfl
@[simp] theorem Thread.writePred_queued (t : Thread) (d : Reg) (act res : Nat → Bool) : (t.writePred d act res).queued = t.queued := rfl
@[simp] theorem Thread.writePred_told (t : Thread) (d : Reg) (act res : Nat → Bool) : (t.writePred d act res).told = t.told := rfl
@[simp] theorem Thread.writePred_hdr (t : Thread) (d : Reg) (act res : Nat → Bool) : (t.writePred d act res).hdr = t.hdr := rfl
@[simp] theorem Thread.writePred_launchPrio (t : Thread) (d : Reg) (act res : Nat → Bool) : (t.writePred d act res).launchPrio = t.launchPrio := rfl
@[simp] theorem Thread.writePred_localStore (t : Thread) (d : Reg) (act res : Nat → Bool) : (t.writePred d act res).localStore = t.localStore := rfl
@[simp] theorem Thread.writePred_csa (t : Thread) (d : Reg) (act res : Nat → Bool) : (t.writePred d act res).csa = t.csa := rfl
@[simp] theorem Thread.writePred_binds (t : Thread) (d : Reg) (act res : Nat → Bool) : (t.writePred d act res).binds = t.binds := rfl
@[simp] theorem Thread.writePred_window (t : Thread) (d : Reg) (act res : Nat → Bool) : (t.writePred d act res).window = t.window := rfl
@[simp] theorem Thread.writePred_preds (t : Thread) (d : Reg) (act res : Nat → Bool) : (t.writePred d act res).preds = t.preds := rfl
@[simp] theorem Thread.writePred_awaiting (t : Thread) (d : Reg) (act res : Nat → Bool) : (t.writePred d act res).awaiting = t.awaiting := rfl
@[simp] theorem Thread.writePred_popped (t : Thread) (d : Reg) (act res : Nat → Bool) : (t.writePred d act res).popped = t.popped := rfl
@[simp] theorem Thread.writePred_micro (t : Thread) (d : Reg) (act res : Nat → Bool) : (t.writePred d act res).micro = t.micro := rfl
@[simp] theorem Thread.writePred_vq (t : Thread) (d : Reg) (act res : Nat → Bool) : (t.writePred d act res).vq = t.vq := rfl
@[simp] theorem Thread.writePred_sq (t : Thread) (d : Reg) (act res : Nat → Bool) : (t.writePred d act res).sq = t.sq := rfl
@[simp] theorem Thread.writePred_stores (t : Thread) (d : Reg) (act res : Nat → Bool) : (t.writePred d act res).stores = t.stores := rfl
@[simp] theorem Thread.writePred_peerData (t : Thread) (d : Reg) (act res : Nat → Bool) : (t.writePred d act res).peerData = t.peerData := rfl
@[simp] theorem Thread.writePred_started (t : Thread) (d : Reg) (act res : Nat → Bool) : (t.writePred d act res).started = t.started := rfl
@[simp] theorem Thread.writePred_leftStep (t : Thread) (d : Reg) (act res : Nat → Bool) : (t.writePred d act res).leftStep = t.leftStep := rfl
@[simp] theorem Thread.writePred_begun (t : Thread) (d : Reg) (act res : Nat → Bool) : (t.writePred d act res).begun = t.begun := rfl
@[simp] theorem Thread.writePred_half (t : Thread) (d : Reg) (act res : Nat → Bool) : (t.writePred d act res).half = t.half := rfl
@[simp] theorem Thread.writePred_passed (t : Thread) (d : Reg) (act res : Nat → Bool) : (t.writePred d act res).passed = t.passed := rfl
@[simp] theorem Thread.writePred_boosted (t : Thread) (d : Reg) (act res : Nat → Bool) : (t.writePred d act res).boosted = t.boosted := rfl

@[simp] theorem Thread.raiseFlags_key (t : Thread) (act : Nat → Bool) (fl : Nat → Flags) : (t.raiseFlags act fl).key = t.key := rfl
@[simp] theorem Thread.raiseFlags_x (t : Thread) (act : Nat → Bool) (fl : Nat → Flags) : (t.raiseFlags act fl).x = t.x := rfl
@[simp] theorem Thread.raiseFlags_pc (t : Thread) (act : Nat → Bool) (fl : Nat → Flags) : (t.raiseFlags act fl).pc = t.pc := rfl
@[simp] theorem Thread.raiseFlags_v (t : Thread) (act : Nat → Bool) (fl : Nat → Flags) : (t.raiseFlags act fl).v = t.v := rfl
@[simp] theorem Thread.raiseFlags_p (t : Thread) (act : Nat → Bool) (fl : Nat → Flags) : (t.raiseFlags act fl).p = t.p := rfl
@[simp] theorem Thread.raiseFlags_m (t : Thread) (act : Nat → Bool) (fl : Nat → Flags) : (t.raiseFlags act fl).m = t.m := rfl
@[simp] theorem Thread.raiseFlags_vl (t : Thread) (act : Nat → Bool) (fl : Nat → Flags) : (t.raiseFlags act fl).vl = t.vl := rfl
@[simp] theorem Thread.raiseFlags_vlb (t : Thread) (act : Nat → Bool) (fl : Nat → Flags) : (t.raiseFlags act fl).vlb = t.vlb := rfl
@[simp] theorem Thread.raiseFlags_vtype (t : Thread) (act : Nat → Bool) (fl : Nat → Flags) : (t.raiseFlags act fl).vtype = t.vtype := rfl
@[simp] theorem Thread.raiseFlags_tshape (t : Thread) (act : Nat → Bool) (fl : Nat → Flags) : (t.raiseFlags act fl).tshape = t.tshape := rfl
@[simp] theorem Thread.raiseFlags_tdirty (t : Thread) (act : Nat → Bool) (fl : Nat → Flags) : (t.raiseFlags act fl).tdirty = t.tdirty := rfl
@[simp] theorem Thread.raiseFlags_prio (t : Thread) (act : Nat → Bool) (fl : Nat → Flags) : (t.raiseFlags act fl).prio = t.prio := rfl
@[simp] theorem Thread.raiseFlags_ffcause (t : Thread) (act : Nat → Bool) (fl : Nat → Flags) : (t.raiseFlags act fl).ffcause = t.ffcause := rfl
@[simp] theorem Thread.raiseFlags_ffaddr (t : Thread) (act : Nat → Bool) (fl : Nat → Flags) : (t.raiseFlags act fl).ffaddr = t.ffaddr := rfl
@[simp] theorem Thread.raiseFlags_ffidx (t : Thread) (act : Nat → Bool) (fl : Nat → Flags) : (t.raiseFlags act fl).ffidx = t.ffidx := rfl
@[simp] theorem Thread.raiseFlags_ffhidden (t : Thread) (act : Nat → Bool) (fl : Nat → Flags) : (t.raiseFlags act fl).ffhidden = t.ffhidden := rfl
@[simp] theorem Thread.raiseFlags_tcause (t : Thread) (act : Nat → Bool) (fl : Nat → Flags) : (t.raiseFlags act fl).tcause = t.tcause := rfl
@[simp] theorem Thread.raiseFlags_tpc (t : Thread) (act : Nat → Bool) (fl : Nat → Flags) : (t.raiseFlags act fl).tpc = t.tpc := rfl
@[simp] theorem Thread.raiseFlags_tval (t : Thread) (act : Nat → Bool) (fl : Nat → Flags) : (t.raiseFlags act fl).tval = t.tval := rfl
@[simp] theorem Thread.raiseFlags_telem (t : Thread) (act : Nat → Bool) (fl : Nat → Flags) : (t.raiseFlags act fl).telem = t.telem := rfl
@[simp] theorem Thread.raiseFlags_tvcp (t : Thread) (act : Nat → Bool) (fl : Nat → Flags) : (t.raiseFlags act fl).tvcp = t.tvcp := rfl
@[simp] theorem Thread.raiseFlags_tstep (t : Thread) (act : Nat → Bool) (fl : Nat → Flags) : (t.raiseFlags act fl).tstep = t.tstep := rfl
@[simp] theorem Thread.raiseFlags_evsel (t : Thread) (act : Nat → Bool) (fl : Nat → Flags) : (t.raiseFlags act fl).evsel = t.evsel := rfl
@[simp] theorem Thread.raiseFlags_evcnt (t : Thread) (act : Nat → Bool) (fl : Nat → Flags) : (t.raiseFlags act fl).evcnt = t.evcnt := rfl
@[simp] theorem Thread.raiseFlags_supervisor (t : Thread) (act : Nat → Bool) (fl : Nat → Flags) : (t.raiseFlags act fl).supervisor = t.supervisor := rfl
@[simp] theorem Thread.raiseFlags_claimed (t : Thread) (act : Nat → Bool) (fl : Nat → Flags) : (t.raiseFlags act fl).claimed = t.claimed := rfl
@[simp] theorem Thread.raiseFlags_life (t : Thread) (act : Nat → Bool) (fl : Nat → Flags) : (t.raiseFlags act fl).life = t.life := rfl
@[simp] theorem Thread.raiseFlags_held (t : Thread) (act : Nat → Bool) (fl : Nat → Flags) : (t.raiseFlags act fl).held = t.held := rfl
@[simp] theorem Thread.raiseFlags_wish (t : Thread) (act : Nat → Bool) (fl : Nat → Flags) : (t.raiseFlags act fl).wish = t.wish := rfl
@[simp] theorem Thread.raiseFlags_triggered (t : Thread) (act : Nat → Bool) (fl : Nat → Flags) : (t.raiseFlags act fl).triggered = t.triggered := rfl
@[simp] theorem Thread.raiseFlags_migrated (t : Thread) (act : Nat → Bool) (fl : Nat → Flags) : (t.raiseFlags act fl).migrated = t.migrated := rfl
@[simp] theorem Thread.raiseFlags_afresh (t : Thread) (act : Nat → Bool) (fl : Nat → Flags) : (t.raiseFlags act fl).afresh = t.afresh := rfl
@[simp] theorem Thread.raiseFlags_core (t : Thread) (act : Nat → Bool) (fl : Nat → Flags) : (t.raiseFlags act fl).core = t.core := rfl
@[simp] theorem Thread.raiseFlags_lanes (t : Thread) (act : Nat → Bool) (fl : Nat → Flags) : (t.raiseFlags act fl).lanes = t.lanes := rfl
@[simp] theorem Thread.raiseFlags_cls (t : Thread) (act : Nat → Bool) (fl : Nat → Flags) : (t.raiseFlags act fl).cls = t.cls := rfl
@[simp] theorem Thread.raiseFlags_vlen (t : Thread) (act : Nat → Bool) (fl : Nat → Flags) : (t.raiseFlags act fl).vlen = t.vlen := rfl
@[simp] theorem Thread.raiseFlags_mcols (t : Thread) (act : Nat → Bool) (fl : Nat → Flags) : (t.raiseFlags act fl).mcols = t.mcols := rfl
@[simp] theorem Thread.raiseFlags_capmask (t : Thread) (act : Nat → Bool) (fl : Nat → Flags) : (t.raiseFlags act fl).capmask = t.capmask := rfl
@[simp] theorem Thread.raiseFlags_fver (t : Thread) (act : Nat → Bool) (fl : Nat → Flags) : (t.raiseFlags act fl).fver = t.fver := rfl
@[simp] theorem Thread.raiseFlags_savedVer (t : Thread) (act : Nat → Bool) (fl : Nat → Flags) : (t.raiseFlags act fl).savedVer = t.savedVer := rfl
@[simp] theorem Thread.raiseFlags_avoid (t : Thread) (act : Nat → Bool) (fl : Nat → Flags) : (t.raiseFlags act fl).avoid = t.avoid := rfl
@[simp] theorem Thread.raiseFlags_slot (t : Thread) (act : Nat → Bool) (fl : Nat → Flags) : (t.raiseFlags act fl).slot = t.slot := rfl
@[simp] theorem Thread.raiseFlags_placed (t : Thread) (act : Nat → Bool) (fl : Nat → Flags) : (t.raiseFlags act fl).placed = t.placed := rfl
@[simp] theorem Thread.raiseFlags_queued (t : Thread) (act : Nat → Bool) (fl : Nat → Flags) : (t.raiseFlags act fl).queued = t.queued := rfl
@[simp] theorem Thread.raiseFlags_told (t : Thread) (act : Nat → Bool) (fl : Nat → Flags) : (t.raiseFlags act fl).told = t.told := rfl
@[simp] theorem Thread.raiseFlags_hdr (t : Thread) (act : Nat → Bool) (fl : Nat → Flags) : (t.raiseFlags act fl).hdr = t.hdr := rfl
@[simp] theorem Thread.raiseFlags_launchPrio (t : Thread) (act : Nat → Bool) (fl : Nat → Flags) : (t.raiseFlags act fl).launchPrio = t.launchPrio := rfl
@[simp] theorem Thread.raiseFlags_localStore (t : Thread) (act : Nat → Bool) (fl : Nat → Flags) : (t.raiseFlags act fl).localStore = t.localStore := rfl
@[simp] theorem Thread.raiseFlags_csa (t : Thread) (act : Nat → Bool) (fl : Nat → Flags) : (t.raiseFlags act fl).csa = t.csa := rfl
@[simp] theorem Thread.raiseFlags_binds (t : Thread) (act : Nat → Bool) (fl : Nat → Flags) : (t.raiseFlags act fl).binds = t.binds := rfl
@[simp] theorem Thread.raiseFlags_window (t : Thread) (act : Nat → Bool) (fl : Nat → Flags) : (t.raiseFlags act fl).window = t.window := rfl
@[simp] theorem Thread.raiseFlags_preds (t : Thread) (act : Nat → Bool) (fl : Nat → Flags) : (t.raiseFlags act fl).preds = t.preds := rfl
@[simp] theorem Thread.raiseFlags_awaiting (t : Thread) (act : Nat → Bool) (fl : Nat → Flags) : (t.raiseFlags act fl).awaiting = t.awaiting := rfl
@[simp] theorem Thread.raiseFlags_popped (t : Thread) (act : Nat → Bool) (fl : Nat → Flags) : (t.raiseFlags act fl).popped = t.popped := rfl
@[simp] theorem Thread.raiseFlags_micro (t : Thread) (act : Nat → Bool) (fl : Nat → Flags) : (t.raiseFlags act fl).micro = t.micro := rfl
@[simp] theorem Thread.raiseFlags_vq (t : Thread) (act : Nat → Bool) (fl : Nat → Flags) : (t.raiseFlags act fl).vq = t.vq := rfl
@[simp] theorem Thread.raiseFlags_sq (t : Thread) (act : Nat → Bool) (fl : Nat → Flags) : (t.raiseFlags act fl).sq = t.sq := rfl
@[simp] theorem Thread.raiseFlags_stores (t : Thread) (act : Nat → Bool) (fl : Nat → Flags) : (t.raiseFlags act fl).stores = t.stores := rfl
@[simp] theorem Thread.raiseFlags_peerData (t : Thread) (act : Nat → Bool) (fl : Nat → Flags) : (t.raiseFlags act fl).peerData = t.peerData := rfl
@[simp] theorem Thread.raiseFlags_started (t : Thread) (act : Nat → Bool) (fl : Nat → Flags) : (t.raiseFlags act fl).started = t.started := rfl
@[simp] theorem Thread.raiseFlags_leftStep (t : Thread) (act : Nat → Bool) (fl : Nat → Flags) : (t.raiseFlags act fl).leftStep = t.leftStep := rfl
@[simp] theorem Thread.raiseFlags_begun (t : Thread) (act : Nat → Bool) (fl : Nat → Flags) : (t.raiseFlags act fl).begun = t.begun := rfl
@[simp] theorem Thread.raiseFlags_half (t : Thread) (act : Nat → Bool) (fl : Nat → Flags) : (t.raiseFlags act fl).half = t.half := rfl
@[simp] theorem Thread.raiseFlags_passed (t : Thread) (act : Nat → Bool) (fl : Nat → Flags) : (t.raiseFlags act fl).passed = t.passed := rfl
@[simp] theorem Thread.raiseFlags_boosted (t : Thread) (act : Nat → Bool) (fl : Nat → Flags) : (t.raiseFlags act fl).boosted = t.boosted := rfl

end Sys2Proof.Machine
end

