-- ==== Sys2Proof/Laws/Ops.lean ====
section
/-! SUPPORT. What the shared operations do: registers, the checks of R80, issue and completion. -/
set_option Elab.async false

namespace Sys2Proof.Machine

/-! ### Registers (R44, R99) -/

@[simp] theorem Thread.xr_zero (t : Thread) : t.xr 0 = 0 := rfl

theorem Thread.xr_setX (t : Thread) (d r : Reg) (w : Word) :
    (t.setX d w).xr r = if r = d ∧ d ≠ 0 then w else t.xr r := by
  by_cases hd : d = 0
  · rw [if_neg fun h => h.2 hd, Thread.setX, if_pos hd]
  · by_cases hr : r = 0
    · rw [if_neg fun h : r = d ∧ d ≠ 0 => hd (h.1 ▸ hr), hr]; rfl
    · rw [Thread.setX, if_neg hd, Thread.xr, if_neg hr, Thread.xr, if_neg hr, Vector.getElem_set]
      by_cases hrd : r = d
      · rw [if_pos (by rw [hrd]), if_pos ⟨hrd, hd⟩]
      · rw [if_neg fun h => hrd (BitVec.eq_of_toNat_eq h.symm), if_neg fun h => hrd h.1]

@[simp] theorem State.xr_setX (s : State) (d r : Reg) (w : Word) :
    (s.setX d w).xr r = if r = d ∧ d ≠ 0 then w else s.xr r := Thread.xr_setX s.thr d r w

@[simp] theorem Thread.xr_retire (t : Thread) (vec : Bool) (pc : Word) (r : Reg) : (t.retire vec pc).xr r = t.xr r := rfl
@[simp] theorem State.xr_mapThr (s : State) (f : Thread → Thread) (r : Reg) : (s.mapThr f).xr r = (f s.thr).xr r := rfl

/-! ### Completion -/

theorem Thread.retire_sameCsa (t : Thread) (vec : Bool) (pc : Word) : t.sameCsa (t.retire vec pc) := by
  unfold Thread.sameCsa Thread.retire Thread.clearSkip isSkip
  dsimp only
  split
  · refine ⟨fun a ha => ?_, fun a ha => ?_⟩
    · rw [Memory.byte_put, if_neg (by simpa using ha)]
    · rw [Memory.byte_put, if_pos (by simpa using ha)]
      have : ∀ i < 8, (List.replicate 8 (0 : Byte))[i]?.getD 0 = 0 := by decide
      exact this _ (by omega)
  · exact ⟨fun _ _ => rfl, fun _ _ => rfl⟩

theorem Thread.retire_scalarFrame (t u : Thread) (pc : Word) (h : u = { t with x := u.x }) :
    t.scalarFrame (u.retire false pc) := by
  refine ⟨?_, ?_⟩
  · rw [h]; rfl
  · have := Thread.retire_sameCsa u false pc
    rw [h] at this ⊢
    exact this

/-- An instruction of a thread whose registers hold no error leaves the errors in registers as they are (R390). -/
theorem State.afterWrites_eq (s t : State) (h : ∀ e ∈ t.badReg, e.1 ≠ s.thr.key) : s.afterWrites t = t := by
  unfold State.afterWrites
  split
  · rfl
  · have : (t.badReg.filter fun e => !(decide (e.1 = s.thr.key ∧ e.2.1 ≤ 1 ∧ t.thr.key = s.thr.key ∧
        t.thr.badBits e ≠ s.thr.badBits e))) = t.badReg := by
      rw [List.filter_eq_self]
      intro e he
      simp [h e he]
    rw [this]

/-- A body that completes, when the thread's registers hold no error. -/
theorem conclude_ok (vec : Bool) (s t : State) (pc : Word) (h : ∀ e ∈ t.badReg, e.1 ≠ s.thr.key) :
    conclude vec s (.ok (t, pc)) = .next (t.mapThr fun u => u.retire vec pc) := by
  simp only [conclude, State.afterWrites_eq s t h]

/-! ### The checks of R80 -/

theorem lowestMissing_none (caps : List Nat) (m : Nat) (h : ∀ c ∈ caps, m.testBit c = true) : lowestMissing caps m = none := by
  unfold lowestMissing
  rw [List.find?_eq_none]
  intro c _
  simp only [Bool.and_eq_true, List.contains_eq_mem, decide_eq_true_eq, Bool.not_eq_true', not_and, Bool.not_eq_false]
  exact fun hc => h c hc

/-- An instruction whose capabilities are there and whose registers hold no error passes the checks of R80. -/
theorem State.check_ok (s : State) (r : Req) (h : s.fit r.caps) (hl : r.legal = true) (hd : r.declared = true) :
    s.check r = .ok () := by
  have hb : s.badSource r.reads = none := by
    unfold State.badSource
    rw [List.findSome?_eq_none_iff]
    intro e he
    simp [badElem, h.2 e he]
  unfold State.check need State.checkCaps State.checkSources
  rw [hl, hd, hb, lowestMissing_none r.caps s.thr.hdr.usemask.toNat fun c hc => (h.1 c hc).1,
    lowestMissing_none r.caps (s.core s.thr.core).cap.toNat fun c hc => (h.1 c hc).2]
  cases s.thr.begun <;> cases s.thr.started <;> rfl

/-- With room in the vector queue and the run-ahead window an instruction issues (R233). -/
theorem State.window_ok (s : State) (h : s.thr.vq.length < 64 ∧ s.thr.ahead < 64) : s.window = .ok () := by
  unfold State.window Thread.vectorRoom
  rw [decide_eq_true h]
  rfl

/-! ### Issue -/

/-- A scalar instruction whose checks and body succeed completes at the next word. -/
theorem issue_ok (len : Nat) (r : Req) (s s' : State) (body : State → Run State) (h : s.scalarFit r.caps)
    (hl : r.legal = true) (hd : r.declared = true) (hb : body s = .ok s') (hr : s'.badReg = s.badReg) :
    issue len r s body = .next (s'.mapThr fun t => t.retire false (s.thr.pc + BitVec.ofNat 64 len)) := by
  unfold issue
  rw [State.window_ok s h.2, State.check_ok s r h.1 hl hd]
  simp only [bind, Except.bind, hb]
  exact conclude_ok false s s' _ (hr ▸ h.1.2)

theorem issueTo_ok (r : Req) (s s' : State) (pc : Word) (body : State → Run (State × Word)) (h : s.scalarFit r.caps)
    (hl : r.legal = true) (hd : r.declared = true) (hb : body s = .ok (s', pc)) (hr : s'.badReg = s.badReg) :
    issueTo r s body = .next (s'.mapThr fun t => t.retire false pc) := by
  unfold issueTo
  rw [State.window_ok s h.2, State.check_ok s r h.1 hl hd]
  simp only [bind, Except.bind, hb]
  exact conclude_ok false s s' pc (hr ▸ h.1.2)

theorem issueHeld_ok (r : Req) (s s' : State) (body : State → Run State) (h : s.scalarFit r.caps) (hl : r.legal = true)
    (hd : r.declared = true) (hb : body (s.mapThr Thread.commitAll) = .ok s') (hr : s'.badReg = s.badReg) :
    issueHeld r s body = .next (s'.mapThr fun t => t.retire false (s.thr.pc + 4)) :=
  issue_ok 4 r s s' _ h hl hd hb hr

/-- A vector instruction that can issue and whose body succeeds completes and enters the vector queue. -/
theorem issueVector_ok (r : Req) (s s' : State) (body : State → Run State) (hq : s.thr.vq.length < 64 ∧ s.thr.ahead < 64)
    (hc : s.check { r with legal := r.legal && s.thr.vectorOpen } = .ok ()) (hb : body s = .ok s')
    (hr : ∀ e ∈ s'.badReg, e.1 ≠ s.thr.key) :
    issueVector r s body =
      .next ((s'.mapThr fun t => { t with vq := t.vq ++ [(s.thr.pc, 0)] }).mapThr fun t => t.retire true (s.thr.pc + 4)) := by
  unfold issueVector
  rw [State.window_ok s hq]
  simp only [bind, Except.bind, hc, hb]
  exact conclude_ok true s _ _ hr

/-- The frame of an instruction that writes one x register. -/
theorem State.wrote_of (s : State) (d : Reg) (v pc : Word) : s.wrote ((s.setX d v).mapThr fun t => t.retire false pc) d v pc := by
  refine ⟨rfl, Thread.retire_scalarFrame _ _ _ ?_, rfl, fun r => ?_⟩
  · simp only [State.setX_thr, Thread.setX]; split <;> rfl
  · exact Thread.xr_setX s.thr d r v

theorem State.wroteNothing_of (s : State) (pc : Word) : s.wroteNothing (s.mapThr fun t => t.retire false pc) pc :=
  ⟨rfl, Thread.retire_scalarFrame _ _ _ rfl, rfl, fun _ => rfl⟩

end Sys2Proof.Machine
end

