-- ==== Sys2Proof/Laws/Access.lean ====
section
/-! SUPPORT. What one access does: the bytes a read answers, and what the thread reads after a store (R107 to R109). -/
set_option Elab.async false

namespace Sys2Proof.Machine

theorem State.number_device (s : State) (d n : Nat) : s.number (.device d) n = natOfBytes (s.bytesAt (.device d) n) := by
  induction n generalizing d with
  | zero => rfl
  | succ n ih => simp only [State.number, Place.plus, ih]; rfl

theorem State.number_localStore (s : State) (d n : Nat) :
    s.number (.localStore d) n = natOfBytes (s.bytesAt (.localStore d) n) := by
  induction n generalizing d with
  | zero => rfl
  | succ n ih => simp only [State.number, Place.plus, ih]; rfl

theorem Thread.csaBytes_succ (t : Thread) (o n : Nat) :
    t.csaBytes o (n + 1) = (t.csa.byte o &&& csaMask t.vlen o) :: t.csaBytes (o + 1) n := by
  unfold Thread.csaBytes
  rw [List.range_succ_eq_map, List.map_cons, List.map_map]
  congr 1
  exact List.map_congr_left fun i _ => by simp [Nat.add_assoc, Nat.add_comm 1 i]

theorem State.number_csa (s : State) (d n : Nat) : s.number (.csa d) n = natOfBytes (s.bytesAt (.csa d) n) := by
  induction n generalizing d with
  | zero => rfl
  | succ n ih =>
    simp only [State.number, Place.plus, ih, State.bytesAt, Thread.csaBytes_succ]
    rfl

/-- The number at a place is that of its bytes. -/
theorem State.number_eq (s : State) (pl : Place) (n : Nat) : s.number pl n = natOfBytes (s.bytesAt pl n) := by
  cases pl with
  | device d => exact s.number_device d n
  | localStore d => exact s.number_localStore d n
  | csa d => exact s.number_csa d n

/-- An access that no watermark stalls goes on (R255). -/
theorem State.passWatermark_ok (s : State) (a n : Nat) (h : inWindow a = true ∨ s.stalled s.thr a n = false) :
    s.passWatermark [⟨a, n⟩] = .ok () := by
  unfold State.passWatermark
  rw [if_neg]
  rcases h with h | h <;> simp [h]

/-- A read that R108 lets pass answers the bytes at its place. -/
theorem State.read_ok (s : State) (cls : BitVec 2) (ea : Word) (n : Nat) (pl : Place) (telem : Nat) (h : s.loadable ea n pl) :
    s.read cls .load ea n telem = .ok (s.bytesAt pl n) := by
  obtain ⟨⟨h1, h2, h3, h4⟩, h5⟩ := h
  unfold State.read
  rw [if_neg (by omega), h2]
  simp only [State.passWatermark_ok s _ _ h4, bind, Except.bind]
  unfold State.readAt
  cases pl <;> simp [h3, h5]

/-- A store that R108 lets pass is issued. -/
theorem State.write_ok (s : State) (ea : Word) (bs : List Byte) (cls : BitVec 2) (pl : Place)
    (h : s.storable ea bs.length pl) : s.write ea bs cls = .ok (s.issueStore (placeCells pl 0 bs) cls false) := by
  obtain ⟨⟨h1, h2, h3, h4⟩, h5⟩ := h
  unfold State.write need
  rw [if_neg (by omega), h2]
  simp only [State.passWatermark_ok s _ _ h4, bind, Except.bind, h5]
  rfl

theorem bytesOf_length (n v : Nat) : (bytesOf n v).length = n := by
  induction n generalizing v with
  | zero => rfl
  | succ n ih => simp [bytesOf, ih]

/-! ### What an issued store leaves -/

theorem placeCells_filterMap (f : Place × Byte → Option Host.Cell) (pl : Place) (i base : Nat) (bs : List Byte)
    (h : ∀ k b, f (pl.plus k, b) = some (base + k, b)) : (placeCells pl i bs).filterMap f = cellsAt (base + i) bs := by
  induction bs generalizing i with
  | nil => rfl
  | cons b bs ih => simp only [placeCells, List.filterMap_cons, cellsAt, h, ih, Nat.add_assoc]

theorem placeCells_filterMap_none (f : Place × Byte → Option Host.Cell) (pl : Place) (i : Nat) (bs : List Byte)
    (h : ∀ k b, f (pl.plus k, b) = none) : (placeCells pl i bs).filterMap f = [] := by
  induction bs generalizing i with
  | nil => rfl
  | cons b bs ih => simp only [placeCells, List.filterMap_cons, h, ih]

theorem Memory.byte_putCells_csa (m : Memory) (vlen d i a : Nat) (bs : List Byte) :
    (m.putCells ((placeCells (.csa d) i bs).filterMap (csaCell vlen))).byte a =
      if d + i ≤ a ∧ a < d + i + bs.length ∧ csaMask vlen a ≠ 0 then bs.getD (a - (d + i)) 0 &&& csaMask vlen a else m.byte a := by
  induction bs generalizing i m with
  | nil => rw [if_neg (by simp; omega)]; rfl
  | cons b bs ih =>
    have hget (h : d + (i + 1) ≤ a) : (b :: bs).getD (a - (d + i)) 0 = bs.getD (a - (d + (i + 1))) 0 := by
      rw [show a - (d + i) = (a - (d + (i + 1))) + 1 by omega]; rfl
    simp only [placeCells, List.filterMap_cons, Place.plus]
    by_cases hc : csaMask vlen (d + i) = 0
    · rw [csaCell, if_pos hc]
      dsimp only
      rw [ih]
      have hne : a = d + i → ¬(csaMask vlen a ≠ 0) := by
        rintro rfl h; exact h hc
      by_cases hin : d + (i + 1) ≤ a ∧ a < d + (i + 1) + bs.length ∧ csaMask vlen a ≠ 0
      · rw [if_pos hin, if_pos ⟨by omega, by simp only [List.length_cons]; omega, hin.2.2⟩, hget hin.1]
      · rw [if_neg hin, if_neg]
        rintro ⟨h1, h2, h3⟩
        simp only [List.length_cons] at h2
        by_cases he : a = d + i
        · exact hne he h3
        · exact hin ⟨by omega, by omega, h3⟩
    · rw [csaCell, if_neg hc]
      dsimp only
      rw [Memory.putCells, ih, Memory.byte_put]
      by_cases hin : d + (i + 1) ≤ a ∧ a < d + (i + 1) + bs.length ∧ csaMask vlen a ≠ 0
      · rw [if_pos hin, if_pos ⟨by omega, by simp only [List.length_cons]; omega, hin.2.2⟩, hget hin.1]
      · rw [if_neg hin]
        by_cases he : a = d + i
        · subst he
          rw [if_pos (by simp), if_pos ⟨le_rfl, by simp, hc⟩]
          simp
        · rw [if_neg (by simp only [List.length_singleton]; omega), if_neg]
          rintro ⟨h1, h2, h3⟩
          simp only [List.length_cons] at h2
          exact hin ⟨by omega, by omega, h3⟩

theorem Memory.putCells_append (m : Memory) (a b : List Host.Cell) : m.putCells (a ++ b) = (m.putCells a).putCells b := by
  induction a generalizing m with
  | nil => rfl
  | cons c cs ih => exact ih _

/-- What a thread sees of device memory after a store has joined its issued ones. -/
theorem view_addStores (sq : List PendStore) (n : Nat) (mem : Memory) (cls : BitVec 2) (vec : Bool) (units : List (List Host.Cell)) :
    (addStores sq n cls vec units).foldl (fun m p => m.putCells p.cells) mem =
      units.foldl (fun m u => m.putCells u) (sq.foldl (fun m p => m.putCells p.cells) mem) := by
  unfold addStores
  rw [List.foldl_append, List.foldl_map]
  generalize sq.foldl (fun m p => m.putCells p.cells) mem = m
  have fold_zipIdx (us : List (List Host.Cell)) (k : Nat) (m : Memory) :
      (us.zipIdx k).foldl (fun m u => m.putCells u.1) m = us.foldl (fun m u => m.putCells u) m := by
    induction us generalizing k m with
    | nil => rfl
    | cons u us ih => exact ih (k + 1) _
  refine (fold_zipIdx _ 0 m).trans ?_
  induction units generalizing m with
  | nil => rfl
  | cons u us ih =>
    rw [List.filter_cons, List.foldl_cons]
    cases hu : u.isEmpty
    · simpa using ih _
    · rw [List.isEmpty_iff.1 hu]; exact ih m

@[simp] theorem State.issueStore_thr_sq (s : State) (l : List (Place × Byte)) (c : BitVec 2) (v : Bool) :
    (s.issueStore l c v).thr.sq = addStores s.thr.sq (s.thr.stores + 1) c v [l.filterMap deviceCell] := rfl
@[simp] theorem State.issueStore_thr_localStore (s : State) (l : List (Place × Byte)) (c : BitVec 2) (v : Bool) :
    (s.issueStore l c v).thr.localStore = s.thr.localStore.putCells (l.filterMap localCell) := by
  simp [State.issueStore, State.issueUnits]
@[simp] theorem State.issueStore_thr_csa (s : State) (l : List (Place × Byte)) (c : BitVec 2) (v : Bool) :
    (s.issueStore l c v).thr.csa = s.thr.csa.putCells (l.filterMap (csaCell s.thr.vlen)) := by
  simp [State.issueStore, State.issueUnits]
@[simp] theorem State.issueStore_thr_vlen (s : State) (l : List (Place × Byte)) (c : BitVec 2) (v : Bool) :
    (s.issueStore l c v).thr.vlen = s.thr.vlen := rfl

/-- What the thread sees of device memory after a store. -/
theorem State.issueStore_view (s : State) (l : List (Place × Byte)) (c : BitVec 2) (v : Bool) (m : Memory) :
    (s.issueStore l c v).thr.view m = (s.thr.view m).putCells (l.filterMap deviceCell) := by
  simp [Thread.view, view_addStores]

/-- What the thread sees rests on memory, its issued stores and its two windows. -/
theorem State.seen_congr {s t : State} (hm : t.mem = s.mem) (hq : t.thr.sq = s.thr.sq)
    (hl : t.thr.localStore = s.thr.localStore) (hv : t.thr.vlen = s.thr.vlen) (q : Place)
    (hc : ∀ o, q = .csa o → t.thr.csa.byte o = s.thr.csa.byte o) : t.seen q = s.seen q := by
  cases q with
  | device a => simp only [State.seen, Thread.view, hm, hq]
  | localStore a => simp only [State.seen, hl]
  | csa a => simp only [State.seen, hc a rfl, hv]

/-- What the thread reads at any place after a store has been issued. -/
theorem State.seen_issueStore (s : State) (pl q : Place) (bs : List Byte) (cls : BitVec 2) (vec : Bool) :
    (s.issueStore (placeCells pl 0 bs) cls vec).seen q = q.newByte s.thr.vlen pl bs (s.seen q) := by
  have hand (b : Byte) : b &&& 0xFF = b := BitVec.and_allOnes
  have hcell (m : Memory) (d a : Nat) : (m.putCells (cellsAt d bs)).byte a =
      (match (if d ≤ a then some (a - d) else none) with
        | some i => (match bs[i]? with | some b => b &&& 0xFF | none => m.byte a)
        | none => m.byte a) := by
    rw [Memory.byte_putCells_cellsAt]
    by_cases h : d ≤ a
    · rw [if_pos h]; dsimp only
      by_cases h2 : a - d < bs.length
      · rw [if_pos (by omega), List.getElem?_eq_getElem h2, List.getD_eq_getElem _ _ h2]
        exact (hand _).symm
      · rw [if_neg (by omega), List.getElem?_eq_none (by omega)]
    · rw [if_neg h, if_neg (by omega)]
  cases pl with
  | device d =>
    have h1 := placeCells_filterMap deviceCell (.device d) 0 d bs fun _ _ => rfl
    have h2 := placeCells_filterMap_none localCell (.device d) 0 bs fun _ _ => rfl
    have h3 := placeCells_filterMap_none (csaCell s.thr.vlen) (.device d) 0 bs fun _ _ => rfl
    rw [Nat.add_zero] at h1
    cases q with
    | device a =>
      simp only [State.seen, State.issueStore_view, h1, State.issueStore_mem]
      exact hcell _ d a
    | localStore a => simp only [State.seen, State.issueStore_thr_localStore, h2]; rfl
    | csa a => simp only [State.seen, State.issueStore_thr_csa, h3]; rfl
  | localStore d =>
    have h1 := placeCells_filterMap_none deviceCell (.localStore d) 0 bs fun _ _ => rfl
    have h2 := placeCells_filterMap localCell (.localStore d) 0 d bs fun _ _ => rfl
    have h3 := placeCells_filterMap_none (csaCell s.thr.vlen) (.localStore d) 0 bs fun _ _ => rfl
    rw [Nat.add_zero] at h2
    cases q with
    | device a => simp only [State.seen, State.issueStore_view, h1, State.issueStore_mem]; rfl
    | localStore a =>
      simp only [State.seen, State.issueStore_thr_localStore, h2]
      exact hcell _ d a
    | csa a => simp only [State.seen, State.issueStore_thr_csa, h3]; rfl
  | csa d =>
    have h1 := placeCells_filterMap_none deviceCell (.csa d) 0 bs fun _ _ => rfl
    have h2 := placeCells_filterMap_none localCell (.csa d) 0 bs fun _ _ => rfl
    cases q with
    | device a => simp only [State.seen, State.issueStore_view, h1, State.issueStore_mem]; rfl
    | localStore a => simp only [State.seen, State.issueStore_thr_localStore, h2]; rfl
    | csa a =>
      simp only [State.seen, State.issueStore_thr_csa, State.issueStore_thr_vlen]
      rw [Memory.byte_putCells_csa, Nat.add_zero]
      simp only [Place.newByte, Place.above, Place.kept]
      by_cases hd : d ≤ a
      · rw [if_pos hd]
        by_cases h2 : a - d < bs.length
        · dsimp only
          rw [List.getElem?_eq_getElem h2]
          dsimp only
          by_cases hm : csaMask s.thr.vlen a = 0
          · rw [if_neg (by simp [hm]), hm]; simp
          · rw [if_pos ⟨hd, by omega, hm⟩, List.getD_eq_getElem _ _ h2, BitVec.and_assoc, BitVec.and_self]
        · dsimp only
          rw [List.getElem?_eq_none (by omega), if_neg (by omega)]
      · rw [if_neg hd, if_neg (by omega)]

/-- A drain that marks no store changes nothing. -/
theorem State.drainWhere_none (s : State) (f : PendStore → Bool) (h : ∀ p ∈ s.thr.sq, f p = false) : s.drainWhere f = .ok s := by
  have : s.thr.sq.any f = false := by simpa using h
  simp [State.drainWhere, this]

/-- A break between two parts is none where none has been asked for. -/
theorem State.breakHere_none (s : State) (h : s.breaks = []) : s.breakHere = .ok s := by
  simp [State.breakHere, h]

/-- A load of an alias class at a place that lets it pass, once the stores it joins have been performed: the bytes there with every
store of the thread, or, by a free choice, without those that it may miss (R155, R261). -/
theorem State.readClass_ok (s s1 : State) (cls : BitVec 2) (ea : Word) (n : Nat) (pl : Place) (h : s.loadable ea n pl)
    (hd : s.drainWhere (s.thr.joined cls (s.seesAll cls 0 (pl.range n)) (pl.range n)) = .ok s1) :
    s.readClass cls ea n = .ok ((s1.sight cls (s.seesAll cls 0 (pl.range n)) (pl.range n)).bytesAt pl n,
      (s1.spend (s.split cls (pl.range n))).mapThr fun t => t.noteRead cls (s.seesAll cls 0 (pl.range n)) (pl.range n)) := by
  have hp : s.place .load ea n = .ok pl := h.1.2.1
  have hr : pl.remote = false := h.1.2.2.1
  simp only [State.readClass, State.read_ok s cls ea n pl 0 h, hp, hr, bind, Except.bind, hd, Bool.false_eq_true, if_false]

theorem State.sight_or (s : State) (cls : BitVec 2) (all : Bool) (rs : List Range) :
    s.sight cls all rs = s ∨ s.sight cls all rs = s.seeing cls rs := by
  cases all
  · exact .inr rfl
  · exact .inl rfl

theorem State.seeing_eq (s : State) (cls : BitVec 2) (rs : List Range) (h : ∀ p ∈ s.thr.sq, p.visible cls rs = true) :
    s.seeing cls rs = s := by
  show ({ s with thr := { s.thr with sq := s.thr.sq.filter (PendStore.visible cls rs) } } : State) = s
  rw [List.filter_eq_self.mpr h]

/-- A load meets no free choice when it can miss no issued store of the thread. -/
theorem State.split_false (s : State) (cls : BitVec 2) (rs : List Range) (h : ∀ p ∈ s.thr.sq, p.visible cls rs = true) :
    s.split cls rs = false := by
  have : (s.thr.sq.any fun p => !p.visible cls rs && p.meets rs) = false := by
    rw [List.any_eq_false]
    intro p hp
    simp [h p hp]
  simp only [State.split, this, Bool.false_and]

end Sys2Proof.Machine
end

