-- ==== Sys2Proof/Laws/Vector.lean ====
section
/-! SUPPORT. Vector and predicate registers: what an element or a bit reads after a destination is written (R9, R120, R136),
and what a completed vector instruction is. -/
set_option Elab.async false

namespace Sys2Proof.Machine

/-! ### Packed elements -/

theorem packElems_lt (w : Nat) (l : List Nat) : packElems w l < 2 ^ (w * l.length) := by
  induction l with
  | nil => simp [packElems]
  | cons e es ih =>
    rw [packElems, List.length_cons, Nat.mul_succ, Nat.add_comm (w * es.length), Nat.pow_add]
    have h1 : e % 2 ^ w < 2 ^ w := Nat.mod_lt _ (Nat.two_pow_pos w)
    calc e % 2 ^ w + 2 ^ w * packElems w es < 2 ^ w + 2 ^ w * packElems w es := by omega
      _ = 2 ^ w * (packElems w es + 1) := by ring
      _ ≤ 2 ^ w * 2 ^ (w * es.length) := Nat.mul_le_mul_left _ ih

/-- Element `k` of packed elements. -/
theorem bitsAt_packElems (w : Nat) (l : List Nat) (k : Nat) (hk : k < l.length) :
    bitsAt (packElems w l) (k * w) w = l[k] % 2 ^ w := by
  induction l generalizing k with
  | nil => simp at hk
  | cons e es ih =>
    have hp : 0 < 2 ^ w := Nat.two_pow_pos w
    cases k with
    | zero => simp [bitsAt, packElems, Nat.add_mul_mod_self_left]
    | succ k =>
      have := ih k (by simpa using hk)
      unfold bitsAt at this ⊢
      rw [packElems, Nat.succ_mul, Nat.add_comm (k * w), Nat.pow_add, ← Nat.div_div_eq_div_mul,
        Nat.add_mul_div_left _ _ hp, Nat.div_eq_of_lt (Nat.mod_lt _ hp), Nat.zero_add, this]
      simp

/-! ### Groups of vector registers -/

theorem Thread.putElems_v_outside (t : Thread) (base w : Nat) (f : Nat → Nat) (g r : Nat)
    (hr : r < base ∨ base + g ≤ r) : (t.putElems base w f g).v[r]? = t.v[r]? := by
  induction g with
  | zero => rfl
  | succ g ih =>
    rw [Thread.putElems]
    dsimp only
    rw [Vector.getElem?_setIfInBounds, if_neg (by omega)]
    exact ih (by omega)

theorem Thread.putElems_v_inside (t : Thread) (base w : Nat) (f : Nat → Nat) (g k : Nat) (hk : k < g) (hb : base + g ≤ 32) :
    (t.putElems base w f g).v[base + k]? =
      some (BitVec.ofNat 16384 (packElems w ((List.range (t.vlen / w)).map fun j => f (k * (t.vlen / w) + j)))) := by
  induction g with
  | zero => omega
  | succ g ih =>
    rw [Thread.putElems]
    dsimp only
    rw [Vector.getElem?_setIfInBounds]
    by_cases h : k = g
    · subst h
      rw [if_pos rfl, if_pos (by omega)]
    · rw [if_neg (by omega)]
      exact ih (by omega) (by omega)

/-- An element of a group that has been written. -/
theorem Thread.elem_putElems (t : Thread) (base w : Nat) (f : Nat → Nat) (g i : Nat) (hw : 0 < w) (hd : w ∣ t.vlen)
    (hv : t.vlen ≤ 16384) (hb : base + g ≤ 32) (hi : i < g * (t.vlen / w)) :
    (t.putElems base w f g).elem base i w = f i % 2 ^ w := by
  obtain ⟨per, hper⟩ := hd
  have hpw : t.vlen / w = per := by rw [hper, Nat.mul_div_cancel_left _ hw]
  rw [hpw] at hi
  have hpos : 0 < per := by
    rcases Nat.eq_zero_or_pos per with h | h
    · subst h; simp at hi
    · exact h
  have hvpos : 0 < t.vlen := by rw [hper]; exact Nat.mul_pos hw hpos
  have hq : i * w / t.vlen = i / per := by
    rw [hper, Nat.mul_comm w per, Nat.mul_div_mul_right _ _ hw]
  have hm : i * w % t.vlen = i % per * w := by
    rw [hper, Nat.mul_comm w per, Nat.mul_mod_mul_right]
  have hk : i / per < g := Nat.div_lt_of_lt_mul (by rw [Nat.mul_comm]; exact hi)
  unfold Thread.elem
  rw [Thread.putElems_vlen, hq, hm, Thread.putElems_v_inside t base w f g _ hk hb, hpw, Option.getD_some, BitVec.toNat_ofNat,
    Nat.mod_eq_of_lt]
  · rw [bitsAt_packElems]
    · rw [List.getElem_map, List.getElem_range]
      congr 2
      rw [Nat.mul_comm]
      exact Nat.div_add_mod i per
    · simp [Nat.mod_lt _ hpos]
  · refine lt_of_lt_of_le (packElems_lt _ _) (Nat.pow_le_pow_right (by omega) ?_)
    simp only [List.length_map, List.length_range]
    rw [← hper]; exact hv

/-! ### VTYPE figures -/

theorem Thread.sew_pos (t : Thread) : 0 < t.sew := by
  unfold Thread.sew vtSew; positivity

theorem Thread.sew_dvd (t : Thread) (h : t.vlen % 1024 = 0) : t.sew ∣ t.vlen := by
  have h1 : t.sew ∣ 64 := by
    unfold Thread.sew vtSew
    have : t.vtype.toNat % 4 < 4 := Nat.mod_lt _ (by omega)
    interval_cases t.vtype.toNat % 4 <;> decide
  exact h1.trans ((by decide : 64 ∣ 1024).trans (Nat.dvd_of_mod_eq_zero h))

theorem Thread.vlmax_eq (t : Thread) (h : t.vlen % 1024 = 0) : t.vlmax = t.grp * (t.vlen / t.sew) := by
  obtain ⟨k, hk⟩ := Thread.sew_dvd t h
  unfold Thread.vlmax vlmaxOf
  change t.vlen * t.grp / t.sew = _
  rw [hk, Nat.mul_div_cancel_left _ t.sew_pos, Nat.mul_assoc, Nat.mul_div_cancel_left _ t.sew_pos, Nat.mul_comm]

/-- Writing a destination group gives R120's elements and leaves the other registers. -/
theorem Thread.writeVec_result (t u : Thread) (d p : Reg) (act : Nat → Bool) (res : Nat → Nat) (hok : t.vectorOk)
    (hd : t.groupOk d) (ha : ∀ i < t.vl, act i = t.pbit p i)
    (hu : u.v = (t.writeVec d.toNat act res).v) (hl : u.vlen = t.vlen) : t.vecResult u d p res := by
  have helem (i : Nat) : u.elem d.toNat i t.sew = (t.writeVec d.toNat act res).elem d.toNat i t.sew := by
    unfold Thread.elem; rw [hu, hl, Thread.writeVec_vlen]
  have hold (i : Nat) : t.elem d.toNat i t.sew % 2 ^ t.sew = t.elem d.toNat i t.sew := by
    unfold Thread.elem bitsAt; exact Nat.mod_mod _ _
  refine ⟨fun i hi => ?_, fun r hr => ?_⟩
  · rw [helem, Thread.writeVec, Thread.elem_putElems t d.toNat t.sew _ t.grp i t.sew_pos (t.sew_dvd hok.1) hok.2.2.1 hd.2.2
      (by rw [← t.vlmax_eq hok.1]; exact hi)]
    unfold Thread.newElem vtMz vtTz
    by_cases hlt : i < t.vl
    · rw [if_pos hlt, if_pos hlt, ha i hlt]
      split
      · rfl
      · split
        · exact Nat.zero_mod _
        · exact hold i
    · rw [if_neg hlt, if_neg hlt]
      split
      · exact Nat.zero_mod _
      · exact hold i
  · have := Thread.putElems_v_outside t d.toNat t.sew (fun i => t.newElem d.toNat t.sew i (act i) (res i)) t.grp r.val hr
    rw [hu, Thread.writeVec]
    simpa using this

/-! ### Predicates -/

theorem testBit_packElems_one (l : List Nat) (k : Nat) (hk : k < l.length) :
    (packElems 1 l).testBit k = decide (l[k] % 2 = 1) := by
  have h := bitsAt_packElems 1 l k hk
  rw [Nat.mul_one] at h
  rw [Nat.testBit_eq_decide_div_mod_eq]
  unfold bitsAt at h
  simp only [Nat.pow_one] at h
  rw [h]

/-- Writing a destination predicate gives R136's bits and leaves the other predicates. -/
theorem Thread.writePred_result (t u : Thread) (d p : Reg) (res : Nat → Bool) (hok : t.vectorOk)
    (hd : t.predDestOk d) (hu : u.p = (t.writePred d (t.pbit p) res).p) : t.predResult u d p res := by
  have hlen : t.vlen / 8 ≤ 2048 := by have := hok.2.2.1; omega
  refine ⟨fun i hi => ?_, fun r hr => ?_⟩
  · rw [hu, Thread.writePred]
    dsimp only
    rw [Vector.getElem?_setIfInBounds, if_pos rfl, if_pos hd.2.1, Option.getD_some, BitVec.getLsbD_ofNat,
      testBit_packElems_one _ _ (by simpa using hi)]
    rw [List.getElem_map, List.getElem_range]
    have h2 : decide (i < 2048) = true := decide_eq_true (by omega)
    have hbit : ∀ b : Bool, decide ((if b = true then 1 else 0) % 2 = 1) = b := by decide
    rw [h2, Bool.true_and, hbit]
    rfl
  · rw [hu, Thread.writePred]
    dsimp only
    rw [Fin.getElem_fin, Vector.getElem_setIfInBounds, if_neg (fun h => hr h.symm)]
    rfl

/-! ### Operands -/

@[simp] theorem one_legal (r : Nat) : (one r).legal = true ↔ r + 1 ≤ 32 := by simp [one, VOp.legal, Nat.mod_one]

theorem Thread.own_legal (t : Thread) (r : Reg) (h : t.groupOk r) : (t.own r).legal = true := by
  exact decide_eq_true ⟨h.1, h.2.2⟩

theorem Thread.own_declared (t : Thread) (r : Reg) (h : t.groupOk r) : (t.own r).base + (t.own r).count ≤ t.hdr.vregs := h.2.1

theorem Thread.predOk_legal (t : Thread) (p : Reg) (h : t.predOk p) : isPred p = true ∧ t.predDeclared p = true := by
  obtain ⟨h1, h2⟩ := h
  exact ⟨by simpa [isPred] using h1, by simpa [Thread.predDeclared] using h2⟩

theorem Thread.predDestOk_legal (t : Thread) (p : Reg) (h : t.predDestOk p) :
    isPredDest p = true ∧ t.predDeclared p = true := by
  obtain ⟨h1, h2, h3⟩ := h
  refine ⟨?_, by simp [Thread.predDeclared, h3]⟩
  simp only [isPredDest, isPred, Bool.and_eq_true, decide_eq_true_eq]
  exact ⟨h2, fun h => by subst h; simp at h1⟩

/-- A vector instruction whose operands are legal and declared passes R80 steps 2 and 3. -/
theorem Thread.vreq_ok (t : Thread) (a : VArgs) (hl : a.legal = true)
    (hv : ∀ o ∈ a.dst ++ a.src, o.legal = true ∧ o.base + o.count ≤ t.hdr.vregs)
    (hpd : ∀ p ∈ a.pdst, t.predDestOk p) (hps : ∀ p ∈ a.psrc, t.predOk p) :
    (t.vreq a).legal = true ∧ (t.vreq a).declared = true := by
  unfold Thread.vreq
  simp only [hl, Bool.true_and, Bool.and_eq_true, List.all_eq_true, decide_eq_true_eq]
  refine ⟨⟨⟨fun o ho => (hv o ho).1, fun p hp => (t.predDestOk_legal p (hpd p hp)).1⟩,
    fun p hp => (t.predOk_legal p (hps p hp)).1⟩, fun o ho => (hv o ho).2, fun p hp => ?_⟩
  rcases List.mem_append.1 hp with h | h
  · exact (t.predDestOk_legal p (hpd p h)).2
  · exact (t.predOk_legal p (hps p h)).2

/-! ### Completion of a vector instruction -/

/-- What a vector instruction that can issue and whose body succeeds answers. -/
theorem issueVector_done (r : Req) (s s' : State) (body : State → Run State) (h : s.vectorFit r.caps) (hl : r.legal = true)
    (hd : r.declared = true) (hb : body s = .ok s') (hreg : s'.badReg = s.badReg) :
    issueVector r s body =
      .next ((s'.mapThr fun t => { t with vq := t.vq ++ [(s.thr.pc, 0)] }).mapThr fun t => t.retire true (s.thr.pc + 4)) := by
  refine issueVector_ok r s s' body h.2.1 (State.check_ok _ _ h.1 ?_ hd) hb (hreg ▸ h.1.2)
  rcases h.2.2 with h | h <;> simp [hl, Thread.vectorOpen, h]

theorem Thread.sameCsa_of {t t' u : Thread} (hc : t'.csa = t.csa) (hs : t'.supervisor = t.supervisor) (h : t'.sameCsa u) :
    t.sameCsa u := by
  unfold Thread.sameCsa at h ⊢
  rw [hc, hs] at h
  exact h

/-- The whole of a completed vector instruction whose body changes its thread by `f`, and `f` only registers. -/
theorem State.vectorDone_of (s : State) (f : Thread → Thread) (hvq : (f s.thr).vq = s.thr.vq)
    (hcsa : (f s.thr).csa = s.thr.csa) (hsup : (f s.thr).supervisor = s.thr.supervisor)
    (hpd : (f s.thr).peerData = s.thr.peerData) :
    s.vectorDone (((s.mapThr f).mapThr fun t => { t with vq := t.vq ++ [(s.thr.pc, 0)] }).mapThr fun t =>
      t.retire true (s.thr.pc + 4)) f := by
  refine ⟨rfl, ?_, ?_⟩
  · exact Thread.sameCsa_of hcsa hsup (Thread.retire_sameCsa { (f s.thr) with vq := (f s.thr).vq ++ [(s.thr.pc, 0)] } true (s.thr.pc + 4))
  · simp only [State.mapThr_thr, ← hvq, Thread.retire, Thread.otherAnswers, hsup, hpd]
    rfl

/-- What an instruction that VL governs answers when VL is not 0. -/
theorem issueVl_done (a : VArgs) (s s' : State) (body : State → Run State) (h : s.vectorFit a.caps)
    (hr : (s.thr.vreq a).legal = true ∧ (s.thr.vreq a).declared = true) (hvl : s.thr.vl ≠ 0) (hb : body s = .ok s')
    (hreg : s'.badReg = s.badReg) :
    issueVl a s body =
      .next ((s'.mapThr fun t => { t with vq := t.vq ++ [(s.thr.pc, 0)] }).mapThr fun t => t.retire true (s.thr.pc + 4)) :=
  issueVector_done _ s s' _ h hr.1 hr.2 (by rw [if_neg hvl]; exact hb) hreg

/-- With VL = 0 an instruction that VL governs only goes on (R121). -/
theorem issueVl_zero (a : VArgs) (s : State) (body : State → Run State) (h : s.vectorFit a.caps)
    (hr : (s.thr.vreq a).legal = true ∧ (s.thr.vreq a).declared = true) (hvl : s.thr.vl = 0) :
    issueVl a s body =
      .next ((s.mapThr fun t => { t with vq := t.vq ++ [(s.thr.pc, 0)] }).mapThr fun t => t.retire true (s.thr.pc + 4)) :=
  issueVector_done _ s s _ h hr.1 hr.2 (by rw [if_pos hvl]) rfl

/-- What an element-wise instruction does: R120's elements, and the flags of the active ones. -/
theorem elemOp_ok (a : VArgs) (d p : Reg) (res : Thread → Nat → Nat × Flags) (s : State) (h : s.vectorFit a.caps)
    (hr : (s.thr.vreq a).legal = true ∧ (s.thr.vreq a).declared = true) (hvl : s.thr.vl ≠ 0) (hok : s.thr.vectorOk)
    (hd : s.thr.groupOk d) :
    ∃ t, elemOp a d p res s = .next t ∧ s.vecDone t ∧ s.thr.vecResult t.thr d p (fun i => (res s.thr i).1) ∧
      t.thr.fcsr = fcsrRaise s.thr.fcsr (orFlags ((s.thr.actives p).map fun i => (res s.thr i).2)) := by
  refine ⟨_, issueVl_done a s _ _ h hr hvl rfl rfl, ?_, ?_, ?_⟩
  · have := State.vectorDone_of s (fun t =>
      (t.writeVec d.toNat (t.pbit p) fun i => (res t i).1).raiseFlags (t.pbit p) fun i => (res t i).2) (by simp) (by simp) (by simp) (by simp)
    refine ⟨this.1, this.2.1, this.2.2.trans ?_⟩
    simp only [Thread.raiseFlags, Thread.writeVec, Thread.retire, State.mapThr_thr]
    congr 1 <;> simp
  · refine Thread.writeVec_result s.thr _ d p (s.thr.pbit p) _ hok hd (fun _ _ => rfl) ?_ ?_
    · simp
    · simp
  · simp [Thread.raiseFlags, Thread.actives]

/-- What an instruction that writes a predicate does. -/
theorem predOp_ok (a : VArgs) (d p : Reg) (res : Thread → Nat → Bool × Flags) (s : State) (h : s.vectorFit a.caps)
    (hr : (s.thr.vreq a).legal = true ∧ (s.thr.vreq a).declared = true) (hvl : s.thr.vl ≠ 0) (hok : s.thr.vectorOk)
    (hd : s.thr.predDestOk d) :
    ∃ t, predOp a d p res s = .next t ∧ s.predDone t ∧ s.thr.predResult t.thr d p (fun i => (res s.thr i).1) ∧
      t.thr.fcsr = fcsrRaise s.thr.fcsr (orFlags ((s.thr.actives p).map fun i => (res s.thr i).2)) := by
  refine ⟨_, issueVl_done a s _ _ h hr hvl rfl rfl, ?_, ?_, ?_⟩
  · have := State.vectorDone_of s (fun t =>
      (t.writePred d (t.pbit p) fun i => (res t i).1).raiseFlags (t.pbit p) fun i => (res t i).2) (by simp) (by simp) (by simp) (by simp)
    refine ⟨this.1, this.2.1, this.2.2.trans ?_⟩
    simp only [Thread.raiseFlags, Thread.writePred, Thread.retire, State.mapThr_thr]
    congr 1
  · refine Thread.writePred_result s.thr _ d p _ hok hd ?_
    simp
  · simp [Thread.raiseFlags, Thread.actives]

theorem fcsrRaise_zero (c : BitVec 8) : fcsrRaise c 0 = c := by simp [fcsrRaise]

theorem orFlags_zero (l : List Nat) : orFlags (l.map fun _ => (0 : Flags)) = 0 := by
  induction l with
  | nil => rfl
  | cons a l ih => simpa [orFlags] using ih

end Sys2Proof.Machine
end

