-- ==== Sys2Proof/Tests/Slice0.lean ====
section
/-! SUPPORT. Tests: ill-formed instructions, words of the spec, results of one step, and for every statement with hypotheses a
state and operands that meet them. Expected results are the spec's own worked cases or computed from its rules by hand. -/

namespace Sys2Proof.Tests
open Sys2Proof Sys2Proof.Machine Sys2Proof.Statements
set_option Elab.async false

/-! ### Well-formedness: one ill-formed term for each check -/

theorem test_wf_refuses_predicate_24 : (Instr.vaddVv 1 2 3 24).wf = false ∧ (Instr.pand 1 24 2 0).wf = false := by decide +kernel
theorem test_wf_refuses_p0_destination : (Instr.pset 0 0).wf = false ∧ (Instr.vcmpVv 0 1 2 0 .eq false).wf = false := by decide +kernel
theorem test_wf_refuses_tile_8 : (Instr.tcfg 8 1).wf = false ∧ (Instr.touter 8 1 2 0).wf = false := by decide +kernel
theorem test_wf_refuses_stream_8 : (Instr.vldq 1 8 0 .e8).wf = false ∧ (Instr.qget 1 8).wf = false := by decide +kernel
theorem test_wf_refuses_qtry_destinations : (Instr.qtry 0 1).wf = false ∧ (Instr.qtry 31 1).wf = false := by decide +kernel
theorem test_wf_refuses_conversion_codes : (Instr.fcvt 1 2 13 .double .rne).wf = false ∧ (Instr.vfcvt 1 2 11 0).wf = false := by
  decide +kernel
theorem test_wf_refuses_narrow_and_slice_codes : (Instr.vnarrow 1 2 4 0).wf = false ∧ (Instr.vslice 1 2 9 0).wf = false := by
  decide +kernel
theorem test_wf_refuses_triple_at_30 : (Instr.copy 1 30 2 0 false).wf = false ∧ (Instr.copy 1 29 2 0 false).wf = true := by
  decide +kernel
theorem test_wf_refuses_tstat_selector_6 : (Instr.tstat 1 2 6).wf = false := by decide +kernel
theorem test_wf_refuses_field_past_bit_63 : (Instr.bfx 1 2 60 4).wf = false ∧ (Instr.bfx 1 2 60 3).wf = true := by decide +kernel
theorem test_wf_refuses_segment_counts : (Instr.vlseg 1 2 0 0 0 .e8).wf = false ∧ (Instr.vsseg 1 2 8 0 0 .e8).wf = false := by
  decide +kernel
theorem test_wf_refuses_integer_conditions :
    (Instr.vcmpVv 1 2 3 0 .unord false).wf = false ∧ (Instr.vcmpVx 1 2 3 0 .ne true).wf = false := by decide +kernel
theorem test_wf_refuses_unsigned_add : (Instr.vamo 1 2 3 0 .add false false true).wf = false := by decide +kernel
theorem test_wf_refuses_core_site : (Instr.planeLoad ⟨4, 0⟩ 0).wf = false ∧ (Instr.planeLoad ⟨3, 64⟩ 0).wf = false := by decide +kernel
theorem test_wf_refuses_partition_16 : (Instr.partitionHalt 16).wf = false ∧ (Instr.partitionHalt 15).wf = true := by decide +kernel

/-! ### Words of the spec -/

/-- The instruction that one word decodes to. -/
noncomputable def reads (w : BitVec 32) (i : Instr) : Bool :=
  match decodeWords [w] with
  | .ok (j, []) => decide (j = i)
  | _ => false

/-- A word that is no instruction (R79). -/
noncomputable def noInstr (w : BitVec 32) : Bool :=
  match decodeWords [w] with
  | .ok _ => false
  | .error _ => true

/-- Chapters 3, 5 and 19, and the programs of chapters 17, 18 and 23: scalar words beside their assembly. -/
theorem test_words_scalar : (([
    (0x04A63800, .add 5 6 7),
    (0x054A9000, .add 10 10 18),
    (0x08420020, .addi 2 2 32),
    (0x0842FFE0, .addi 2 2 0xFFE0),
    (0x08A58000, .addi 5 5 0x8000),
    (0x3120FFFF, .li 9 0xFFFF),
    (0x2CA00004, .addpc 5 4),
    (0x2507040A, .bfx 8 7 16 10),
    (0x34C57002, .ldd 6 5 1 2),
    (0x34C53000, .ldd 6 5 0 0),
    (0x34C33005, .ldd 6 3 0 5),
    (0x39481800, .std 10 8 0 0),
    (0x38621801, .std 3 2 0 1),
    (0x3CA00010, .beq 5 0 0x10),
    (0x5C260000, .jalr 1 6 0),
    (0x5C010000, .jalr 0 1 0)] :
    List (BitVec 32 × Instr)).all fun e => reads e.1 e.2) = true := by decide +kernel

/-- Chapters 3, 5, 7, 13 and 18: scalar floating point, atomics and fences. -/
theorem test_words_float_and_atomics : (([
    (0x614B61E0, .fma 10 11 12 .double .rne),
    (0x60A60B20, .fcvt 5 6 1 .double .rne),
    (0x654B61FC, .amocas 10 11 12 true true .d .device),
    (0x64A6385C, .amoadd 5 6 7 false true .d .device),
    (0x64174844, .amoadd 0 23 9 false false .w .device),
    (0x65090224, .ldaq 8 9 .w .device),
    (0x6409525E, .strl 9 10 .d .system),
    (0x6415A25C, .strl 21 20 .d .device),
    (0x70001000, .fence .full .device),
    (0x70021800, .fence .rel .system)] :
    List (BitVec 32 × Instr)).all fun e => reads e.1 e.2) = true := by decide +kernel

/-- Chapters 10 and 20, and the programs: system instructions, CSRs, groups, queues and deprecated instructions. -/
theorem test_words_system : (([
    (0x68000000, .syscall),
    (0x68000001, .brk),
    (0x68000002, .eret),
    (0x68000003, .claim),
    (0x68000004, .unclaim),
    (0x68000005, .exitThread),
    (0x68000006, .yield),
    (0x68A60007, .launch 5 6),
    (0x68000008, .trigger),
    (0x6D800001, .csrr 12 1),
    (0x6CE00042, .csrr 7 0x42),
    (0x6C051000, .csrw 0 5 0),
    (0x6CC72012, .csrset 6 7 0x12),
    (0x700F0001, .gjoin 15),
    (0x700F0003, .gbar 15),
    (0x70074806, .qpush 7 9),
    (0x71270007, .qpop 9 7),
    (0x70A63809, .hreg 5 6 7),
    (0x7005000A, .hunreg 5),
    (0xF8A84800, .dvdot 5 8 9),
    (0xF8A80001, .dvsum 5 8),
    (0xFA084802, .dvperm 16 8 9)] :
    List (BitVec 32 × Instr)).all fun e => reads e.1 e.2) = true := by decide +kernel

/-- Chapters 3, 6, 17 and 18: vector words. -/
theorem test_words_vector : (([
    (0x80A63800, .vsetvl 5 6 7),
    (0x7CA66002, .vsetvli 5 6 0x6002),
    (0x84221900, .vaddVv 1 2 3 4),
    (0x8510C0C0, .vaddVv 8 16 24 3),
    (0x898C8000, .vaddVx 12 12 16 0),
    (0x8D8C100C, .vshlVi 12 12 2 0),
    (0x90886046, .vfmaccVv 4 8 12 1),
    (0x98440804, .vfcvt 2 4 1 0),
    (0x9C286802, .vcmpVx 1 8 13 0 .eq false),
    (0xA1810008, .pfirst 12 1 0),
    (0xA5800008, .vid 12 0),
    (0xB18A5805, .vqdot 12 10 11 0),
    (0xB60530A6, .vlds 16 5 6 2 2 .e32),
    (0xB50A0008, .vldff 8 10 0 0 .e8),
    (0xBD4A4002, .vldx 10 10 8 0 0 .e32),
    (0xC80B3000, .chwin .add 11 6),
    (0xC8084801, .vchadd 8 9 0),
    (0xC8086001, .vchadd 8 12 0),
    (0xC8000005, .churn)] :
    List (BitVec 32 × Instr)).all fun e => reads e.1 e.2) = true := by decide +kernel

/-- Chapters 8 and 9, and the programs: tiles, tethers, streams and the fabric. -/
theorem test_words_tiles_tethers_fabric : (([
    (0x78250000, .tcfg 1 5),
    (0x7A213804, .tmvrv 17 1 7 0),
    (0x7A013805, .tmvcv 16 1 7 0),
    (0x78221808, .touter 1 2 3 0),
    (0x78221888, .touter 1 2 3 2),
    (0x752A2380, .mma 9 10 4 3 true),
    (0x77103080, .mma 24 16 6 0 true),
    (0x76CA2001, .bload 22 10 4 0 false),
    (0x75943002, .copy 12 20 6 0 false),
    (0x75343082, .copy 9 20 6 0 true),
    (0x74A90004, .twait 5 9),
    (0x74A90005, .ttest 5 9),
    (0x74E90007, .tdetach 7 9),
    (0x74C90008, .tadopt 6 9),
    (0x74095809, .tafter 9 11),
    (0x7509100A, .tstat 8 9 2),
    (0x7409060B, .tsetpri 9 6),
    (0xCE08600C, .fop 16 8 12 0 3),
    (0xCE08600E, .fopVlb 16 8 12 0 3),
    (0xCE084808, .fop 16 8 9 0 2),
    (0xD0AA5800, .fbind 5 10 11),
    (0xD00B0001, .funbind 11),
    (0xD00B0002, .fprefetch 11),
    (0xD0CB0003, .fquery 6 11)] :
    List (BitVec 32 × Instr)).all fun e => reads e.1 e.2) = true := by decide +kernel

/-- Chapter 3: `li x9, 0x1_2345_6789` is the pair 0xFC01_2345, 0x3120_6789 (R69). -/
theorem test_words_pair : (match decodeWords [0xFC012345, 0x31206789] with
    | .ok (i, []) => decide (i = .lpxPair (.li 9 0x123456789))
    | _ => false) = true := by decide +kernel

/-- R79: the all-zero word, majors 0x00 and 0x36 to 0x3D, a nonzero unused field, reserved subfields, and a prefix before a
word that takes none are no instructions. -/
theorem test_words_refused : ([0, 0x00000001, 0xD8000000, 0xF4000000, 0x04A63FFF, 0x68000009, 0x6C00C000, 0x9C28683E, 0xCE084801] :
    List (BitVec 32)).all noInstr = true := by decide +kernel
theorem test_pair_refused : (match decodeWords [0xFC000001, 0x04A63800] with | .ok _ => false | .error _ => true) = true := by decide +kernel

/-! ### A small machine -/

/-- The token of the launch that the test thread belongs to: KERNEL tether 5 of die 0 in generation 1. -/
def launchToken : Word := 0x10005

/-- A class Q thread that declares everything, READY in user mode at 0x1000, with VTYPE 0x000A: SEW 32, SEW2 32. -/
def thread0 : Thread :=
  { Thread.fresh with
    key := ⟨0, 0, launchToken, 0⟩, pc := 0x1000, life := .ready, hdr := programHeader, lanes := [0], vtype := 0x000A }

/-- The machine with that thread; a translation maps the low 2^38 bytes to themselves, to be read, written and executed. -/
def machine0 : State := { State.reset with thr := thread0, tlb := [⟨.core ⟨0, 0⟩, 0, 0, 0, 2 ^ 38, 0, 0, 0, 0, 7, 7⟩] }

/-- The machine with values in x registers. -/
def withX (s : State) (l : List (Reg × Word)) : State := l.foldl (fun u e => u.setX e.1 e.2) s

/-- The machine with bytes in device memory. -/
def withMem (s : State) (a : Nat) (bs : List Byte) : State := { s with mem := s.mem.put a bs }

/-- A group whose elements of `w` bits are these, from element 0. -/
def withElems (s : State) (r : Fin 32) (w : Nat) (l : List Nat) : State :=
  { s with thr := { s.thr with v := s.thr.v.set r (BitVec.ofNat 16384 (packElems w l)) } }

def withVl (s : State) (vt : BitVec 16) (n : Nat) : State := { s with thr := { s.thr with vtype := vt, vl := n } }

/-- The machine after an instruction. -/
noncomputable def after (s : State) (i : Instr) : State := stateOf s (exec i s)

/-- True when the instruction goes on with no stop. -/
noncomputable def goes (s : State) (i : Instr) : Bool := match exec i s with | .next _ => true | _ => false

/-- An x register after one instruction that goes on to the next word. -/
noncomputable def gives (s : State) (i : Instr) (d : Reg) (v : Word) : Bool :=
  goes s i && decide ((after s i).xr d = v ∧ (after s i).thr.pc = s.thr.pc + 4)

/-- A trap of the instruction into the handler: cause, TPC and TVAL. -/
noncomputable def traps (s : State) (i : Instr) (cause : Nat) (tpc tval : Word) : Bool :=
  goes s i && decide ((after s i).thr.supervisor = true ∧ (after s i).thr.tcause = BitVec.ofNat 64 cause ∧
    (after s i).thr.tpc = tpc ∧ (after s i).thr.tval = tval)

/-! ### Scalar instructions -/

/-- The worked case of R102: −7 by 2, and the same word unsigned. -/
def minus7 : State := withX machine0 [(6, 0xFFFFFFFFFFFFFFF9), (7, 2)]
theorem test_div_worked : gives minus7 (.div 5 6 7) 5 0xFFFFFFFFFFFFFFFD = true ∧ gives minus7 (.rem 5 6 7) 5 0xFFFFFFFFFFFFFFFF = true := by
  decide +kernel
theorem test_divu_worked : gives minus7 (.divu 5 6 7) 5 0x7FFFFFFFFFFFFFFC = true ∧ gives minus7 (.remu 5 6 7) 5 1 = true := by
  decide +kernel

/-- R102: by zero, and the most negative number by −1. -/
def divCorner : State := withX machine0 [(6, 0x8000000000000000), (7, 0xFFFFFFFFFFFFFFFF)]
theorem test_div_corners : gives divCorner (.div 5 6 0) 5 0xFFFFFFFFFFFFFFFF = true ∧ gives divCorner (.div 5 6 7) 5 0x8000000000000000 = true := by
  decide +kernel
theorem test_rem_corners : gives divCorner (.rem 5 6 0) 5 0x8000000000000000 = true ∧ gives divCorner (.rem 5 6 7) 5 0 = true := by
  decide +kernel

/-- R101: sums wrap, shifts take the low six bits, the sign is copied, high products. -/
def wraps : State := withX machine0 [(6, 0xFFFFFFFFFFFFFFF0), (7, 68), (8, 0x8000000000000000)]
theorem test_add_sub_wrap : gives wraps (.add 5 6 7) 5 52 = true ∧ gives wraps (.sub 5 0 7) 5 0xFFFFFFFFFFFFFFBC = true := by decide +kernel
theorem test_shifts_mod_64 : gives wraps (.sra 5 6 7) 5 0xFFFFFFFFFFFFFFFF = true ∧ gives wraps (.shl 5 7 7) 5 1088 = true ∧
    gives wraps (.shr 5 8 7) 5 0x0800000000000000 = true := by decide +kernel
theorem test_high_products : gives wraps (.mulh 5 6 6) 5 0 = true ∧ gives wraps (.mulhu 5 6 6) 5 0xFFFFFFFFFFFFFFE0 = true ∧
    gives wraps (.mul 5 6 6) 5 256 = true := by decide +kernel
theorem test_signed_and_unsigned_order : gives wraps (.slt 5 6 7) 5 1 = true ∧ gives wraps (.sltu 5 6 7) 5 0 = true ∧
    gives wraps (.minr 5 6 7) 5 0xFFFFFFFFFFFFFFF0 = true ∧ gives wraps (.maxr 5 6 7) 5 68 = true := by decide +kernel
theorem test_x0_discards : gives wraps (.add 0 6 7) 0 0 = true := by decide +kernel

/-- R104, R105: counts and fields. -/
theorem test_counts : gives wraps (.clz 5 0) 5 64 = true ∧ gives wraps (.ctz 5 7) 5 2 = true ∧ gives wraps (.popc 5 6) 5 60 = true := by
  decide +kernel
theorem test_fields : gives wraps (.bfx 5 8 60 3) 5 8 = true ∧
    gives (withX machine0 [(5, 0xFFFF), (6, 0x5)]) (.bfi 5 6 4 3) 5 0xFF5F = true := by decide +kernel

/-- The worked cases of R82 and R105: an address in two parts, and a constant in three steps. -/
theorem test_addpc_worked : gives machine0 (.addpc 5 4) 5 0x41000 = true ∧
    gives (withX machine0 [(5, 0x41000)]) (.addi 5 5 0x8000) 5 0x39000 = true := by decide +kernel
theorem test_long_constant : (after machine0 (.lpxPair (.li 5 0x123456789AB))).xr 5 = 0x123456789AB ∧
    (after machine0 (.lpxPair (.li 5 0x123456789AB))).thr.pc = 0x1008 ∧
    gives (withX machine0 [(5, 0x123456789AB)]) (.shli 5 5 20) 5 0x123456789AB00000 = true ∧
    (after (withX machine0 [(5, 0x123456789AB00000)]) (.lpxPair (.imm .ori 5 5 0xCDEF0))).xr 5 = 0x123456789ABCDEF0 := by
  decide +kernel
theorem test_immediates : gives wraps (.andi 5 6 0xFFFF) 5 0xFFF0 = true ∧ gives wraps (.xori 5 7 0x8000) 5 0x8044 = true ∧
    gives wraps (.slti 5 7 0xFFFF) 5 0 = true ∧ gives wraps (.sltiu 5 7 0xFFFF) 5 1 = true := by decide +kernel

/-- R110 to R112: targets, the link, and a target that is no multiple of 4. -/
theorem test_branches : (after wraps (.blt 6 7 0xFFFE)).thr.pc = 0xFF8 ∧ (after wraps (.bltu 6 7 0xFFFE)).thr.pc = 0x1004 ∧
    (after wraps (.beq 6 6 4)).thr.pc = 0x1010 := by decide +kernel
theorem test_jumps : (after machine0 (.jal 2)).thr.pc = 0x1008 ∧ (after machine0 (.jal 2)).xr 1 = 0x1004 ∧
    (after (withX machine0 [(1, 0x2000)]) (.jalr 1 1 8)).thr.pc = 0x2008 ∧ (after (withX machine0 [(1, 0x2000)]) (.jalr 1 1 8)).xr 1 = 0x1004 := by
  decide +kernel
theorem test_jalr_align : traps (withX machine0 [(6, 0x2002)]) (.jalr 1 6 0) 4 0x1000 0x2002 = true := by decide +kernel

/-- R107: little-endian loads with their sign; scaled offsets; a store is seen by its own thread at once. -/
def loads0 : State := withX (withMem machine0 0x20000 [0x80, 0xFF, 0x34, 0x12, 0x78, 0x56, 0x9A, 0xF0]) [(6, 0x20008), (7, 0x1122334455667788)]
theorem test_loads : gives loads0 (.ldb 5 6 0 0x7F8) 5 0xFFFFFFFFFFFFFF80 = true ∧ gives loads0 (.ldbu 5 6 0 0x7F8) 5 0x80 = true ∧
    gives loads0 (.ldh 5 6 0 0x7FC) 5 0xFFFFFFFFFFFFFF80 = true ∧ gives loads0 (.ldw 5 6 0 0x7FF) 5 0xFFFFFFFFF09A5678 = true ∧
    gives loads0 (.ldd 5 6 0 0x7FF) 5 0xF09A56781234FF80 = true := by decide +kernel
theorem test_loads_unsigned : gives loads0 (.ldhu 5 6 0 0x7FC) 5 0xFF80 = true ∧ gives loads0 (.ldwu 5 6 0 0x7FF) 5 0xF09A5678 = true := by decide +kernel
theorem test_store_seen : gives (after loads0 (.stw 7 6 0 0x7FF)) (.ldd 5 6 0 0x7FF) 5 0x556677881234FF80 = true ∧
    (after loads0 (.stw 7 6 0 0x7FF)).mem = loads0.mem := by decide +kernel
theorem test_store_bytes : gives (after loads0 (.stb 7 6 0 0x7F9)) (.ldhu 5 6 0 0x7FC) 5 0x8880 = true ∧
    gives (after loads0 (.sth 7 6 0 0x7FC)) (.ldhu 5 6 0 0x7FC) 5 0x7788 = true ∧
    gives (after loads0 (.std 7 6 0 1)) (.ldd 5 6 0 1) 5 0x1122334455667788 = true := by decide +kernel
theorem test_load_align : traps (withX machine0 [(7, 0x20004)]) (.ldd 5 7 0 0) 4 0x1000 0x20004 = true := by decide +kernel

/-! ### Scalar floating point -/

/-- The table of R117: `fcvt.d` to int32 under RNE and RNA, with the flags in FCSR (NX 1, NV 16). -/
noncomputable def converts (x : Word) (k : Reg) (r : FRound) (v : Word) (flags : BitVec 8) : Bool :=
  gives (withX machine0 [(6, x)]) (.fcvt 5 6 k .double r) 5 v &&
    decide ((after (withX machine0 [(6, x)]) (.fcvt 5 6 k .double r)).thr.fcsr = flags)
theorem test_fcvt_worked : converts 0x4004000000000000 1 .rne 2 1 = true ∧ converts 0x4004000000000000 1 .rna 3 1 = true ∧
    converts 0xBFE0000000000000 1 .rne 0 1 = true ∧ converts 0xBFE0000000000000 1 .rna 0xFFFFFFFFFFFFFFFF 1 = true := by decide +kernel
theorem test_fcvt_saturates : converts 0x41E65A0BC0000000 1 .rne 0x7FFFFFFF 16 = true ∧
    converts 0xFFF0000000000000 1 .rne 0xFFFFFFFF80000000 16 = true ∧ converts 0x7FF8000000000000 1 .rne 0x7FFFFFFF 16 = true ∧
    converts 0xBFF0000000000000 2 .rne 0 16 = true := by decide +kernel

/-- A scalar floating-point result on x6 and x7, with the flags. -/
noncomputable def computes (s : State) (i : Instr) (v : Word) (flags : BitVec 8) : Bool :=
  gives s i 5 v && decide ((after s i).thr.fcsr = flags)

/-- 1.0 and 2^−53 in binary64: their sum is a tie, to even under RNE and up under RUP (R20); 1/3 is inexact. -/
def floats0 : State := withX machine0 [(6, 0x3FF0000000000000), (7, 0x3CA0000000000000), (8, 0x4008000000000000), (9, 0x7FF0000000000000)]
theorem test_fadd_rounds : computes floats0 (.fadd 5 6 7 .double .rne) 0x3FF0000000000000 1 = true ∧
    computes floats0 (.fadd 5 6 7 .double .rup) 0x3FF0000000000001 1 = true := by decide +kernel
theorem test_fdiv_and_fsub : computes floats0 (.fdiv 5 6 8 .double .rne) 0x3FD5555555555555 1 = true ∧
    computes floats0 (.fsub 5 9 9 .double .rne) 0x7FF8000000000000 16 = true := by decide +kernel
theorem test_fdiv_by_zero : computes floats0 (.fdiv 5 6 0 .double .rne) 0x7FF0000000000000 8 = true := by decide +kernel
theorem test_fma_and_fmul : computes (withX floats0 [(5, 0xC000000000000000)]) (.fma 5 8 6 .double .rne) 0x3FF0000000000000 0 = true ∧
    computes floats0 (.fmul 5 8 8 .double .rne) 0x4022000000000000 0 = true := by decide +kernel
theorem test_fsqrt : computes (withX machine0 [(6, 0x4010000000000000)]) (.fsqrt 5 6 .double .rne) 0x4000000000000000 0 = true ∧
    computes (withX machine0 [(6, 0xC010000000000000)]) (.fsqrt 5 6 .double .rne) 0x7FF8000000000000 16 = true := by decide +kernel
/-- R28, R29: −0 below +0; a quiet NaN gives way to a number and raises NV in `flt` only. -/
def zeros0 : State := withX machine0 [(6, 0x8000000000000000), (7, 0), (8, 0x7FF8000000000000)]
theorem test_minmax : computes zeros0 (.fmin 5 7 6 .double) 0x8000000000000000 0 = true ∧ computes zeros0 (.fmax 5 8 6 .double) 0x8000000000000000 0 = true := by
  decide +kernel
theorem test_compares : computes zeros0 (.feq 5 6 7 .double) 1 0 = true ∧ computes zeros0 (.flt 5 8 7 .double) 0 16 = true ∧
    computes zeros0 (.fle 5 6 7 .double) 1 0 = true ∧ computes zeros0 (.feq 5 8 8 .double) 0 0 = true := by decide +kernel
theorem test_fsgnj : computes floats0 (.fsgnj 5 6 6 .double .neg) 0xBFF0000000000000 0 = true ∧
    computes zeros0 (.fsgnj 5 6 6 .double .xor) 0 0 = true := by decide +kernel

/-! ### Atomics, groups and queues -/

def atom0 : State := withX (withMem machine0 0x30000 [5, 0, 0, 0x80, 9]) [(6, 0x30000), (7, 3), (5, 0xFFFFFFFF80000005)]
theorem test_amo : gives atom0 (.amoadd 8 6 7 false false .w .device) 8 0xFFFFFFFF80000005 = true ∧
    (after atom0 (.amoadd 8 6 7 false false .w .device)).mem.load 0x30000 8 = 0x980000008 ∧
    (after atom0 (.amomin 8 6 7 false false .w .device)).mem.load 0x30000 4 = 0x80000005 ∧
    (after atom0 (.amomax 8 6 7 false false .w .device)).mem.load 0x30000 4 = 3 := by decide +kernel
/-- R156: xD holds the expected value. -/
theorem test_amocas : gives atom0 (.amocas 5 6 7 true true .w .device) 5 0xFFFFFFFF80000005 = true ∧
    (after atom0 (.amocas 5 6 7 true true .w .device)).mem.load 0x30000 4 = 3 ∧
    (after atom0 (.amocas 7 6 5 true true .w .device)).mem = atom0.mem := by decide +kernel
theorem test_ldaq_strl : gives atom0 (.ldaq 8 6 .w .device) 8 0xFFFFFFFF80000005 = true ∧
    (after (after atom0 (.strl 6 7 .d .device)) (.fence .rel .device)).mem.load 0x30000 8 = 3 := by decide +kernel
/-- R160: a release fence performs the issued stores. -/
theorem test_fence : (after (after loads0 (.std 7 6 0 0)) (.fence .rel .device)).mem.load 0x20008 8 = 0x1122334455667788 := by decide +kernel

/-- The worked phase of chapter 7: a group in phase 5 with one member that has arrived. -/
def group0 : State :=
  { withX machine0 [(5, 2)] with groups := [((machine0.thr.groupOwner, 2), ⟨[(⟨0, 0, launchToken, 1⟩, true)], 5⟩)] }
theorem test_gjoin_gwait : ((after group0 (.gjoin 5)).group machine0.thr.groupOwner 2).members =
      [(⟨0, 0, launchToken, 1⟩, true), (⟨0, 0, launchToken, 0⟩, false)] ∧
    gives group0 (.garrive 6 5) 6 5 = true ∧ ((after group0 (.garrive 6 5)).group machine0.thr.groupOwner 2).phase = 5 ∧
    (after (withX group0 [(6, 5)]) (.gwait 5 6)).thr.life = .parked (.phase 2 5) := by decide +kernel
theorem test_gbar_last : ((after (after group0 (.gjoin 5)) (.gbar 5)).group machine0.thr.groupOwner 2) =
    ⟨[(⟨0, 0, launchToken, 1⟩, false), (⟨0, 0, launchToken, 0⟩, false)], 6⟩ := by decide +kernel

def queue0 : State :=
  { withX machine0 [(6, 3), (7, 0xABC)] with procs := [((0, 0), { Process.fresh with live := true, queues := [(3, ⟨2, .device, []⟩)] })] }
theorem test_queue : gives (after queue0 (.qpush 6 7)) (.qpop 5 6) 5 0xABC = true ∧
    gives (after queue0 (.qpush 6 7)) (.qtry 5 6) 5 1 = true ∧ (after (after queue0 (.qpush 6 7)) (.qtry 5 6)).xr 6 = 0xABC ∧
    gives queue0 (.qtry 5 6) 5 0 = true := by decide +kernel
theorem test_queue_parks : (after queue0 (.qpop 5 6)).thr.life = .parked (.queueEntry 3) ∧
    (after (after (after queue0 (.qpush 6 7)) (.qpush 6 7)) (.qpush 6 7)).thr.life = .parked (.queueRoom 3) := by decide +kernel

/-! ### Vector instructions -/

/-- The worked mask and tail of chapter 6, with VTYPE 0x6002 and with 0x0002. -/
noncomputable def strip (vt : BitVec 16) : State :=
  let s := withElems (withElems (withElems (withX machine0 [(6, 5)]) 1 32 (List.replicate 32 100)) 2 32 (List.range 32)) 3 32 (List.replicate 32 10)
  after { s with thr := { s.thr with p := s.thr.p.set 4 0b10110 } } (.vsetvli 5 6 vt)
theorem test_vsetvli_worked : (strip 0x6002).xr 5 = 5 ∧ (strip 0x6002).thr.vl = 5 ∧ (strip 0x6002).thr.vlmax = 32 := by decide +kernel
noncomputable def row (s : State) (r : Nat) (n w : Nat) : List Nat := (List.range n).map fun i => s.thr.elem r i w
theorem test_vadd_worked : row (after (strip 0x6002) (.vaddVv 1 2 3 4)) 1 6 32 = [0, 11, 12, 0, 14, 0] ∧
    row (after (strip 0x0002) (.vaddVv 1 2 3 4)) 1 6 32 = [100, 11, 12, 100, 14, 100] := by decide +kernel

/-- The worked trimmed strip of chapter 6. -/
def trim0 : State :=
  let s := withMem (withMem (withX machine0 [(10, 0x4FFA0), (13, 0x0A)]) 0x4FFC8 [0x0A]) 0x4FFF0 [0x0A]
  withVl { s with tlb := [⟨.core ⟨0, 0⟩, 0, 0, 0x40000, 0x10000, 0x40000, 0x40000, 2, 2, 7, 7⟩] } 0x2000 128
theorem test_vldff_worked : (after trim0 (.vldff 8 10 0 0 .e8)).thr.vl = 96 ∧ (after trim0 (.vldff 8 10 0 0 .e8)).thr.elem 8 40 8 = 0x0A ∧
    (after trim0 (.vldff 8 10 0 0 .e8)).thr.elem 8 127 8 = 0 := by decide +kernel
theorem test_vldff_traps : traps (withX trim0 [(10, 0x50000)]) (.vldff 8 10 0 0 .e8) 5 0x1000 0x50000 = true := by decide +kernel
noncomputable def trim1 : State := after trim0 (.vldff 8 10 0 0 .e8)
theorem test_vcmp_pfirst_worked : (after trim1 (.vcmpVx 1 8 13 0 .eq false)).thr.p[1] = BitVec.ofNat 2048 (2 ^ 40 + 2 ^ 80) ∧
    (after (after trim1 (.vcmpVx 1 8 13 0 .eq false)) (.pfirst 12 1 0)).xr 12 = 40 := by decide +kernel

/-- Elements of 32 bits for v2 and v3, and xD's old values in v1, with VL 4. -/
def ints (vt : BitVec 16) (a b d : List Nat) : State := withVl (withElems (withElems (withElems machine0 2 32 a) 3 32 b) 1 32 d) vt 4
def ints0 : State := ints 0x000A [0x80000000, 7, 0xFFFFFFFF, 5] [0xFFFFFFFF, 0, 0xFFFFFFFF, 33] [1, 2, 3, 4]
/-- The four elements that an instruction leaves in v1. -/
noncomputable def lane (s : State) (i : Instr) : List Nat := row (after s i) 1 4 32
theorem test_vdiv_vrem : lane ints0 (.vdivVv 1 2 3 0) = [0x80000000, 0xFFFFFFFF, 1, 0] ∧ lane ints0 (.vremVv 1 2 3 0) = [0, 7, 0, 5] := by
  decide +kernel
theorem test_vdivu_vremu : lane ints0 (.vdivuVv 1 2 3 0) = [0, 0xFFFFFFFF, 1, 0] ∧ lane ints0 (.vremuVv 1 2 3 0) = [0x80000000, 7, 0, 5] := by
  decide +kernel
theorem test_vshifts : lane ints0 (.vshlVv 1 2 3 0) = [0, 7, 0x80000000, 10] ∧ lane ints0 (.vshrVi 1 2 31 0) = [1, 0, 1, 0] ∧
    lane ints0 (.vsraVi 1 2 31 0) = [0xFFFFFFFF, 0, 0xFFFFFFFF, 0] := by decide +kernel
theorem test_vsaturating : lane ints0 (.vsaddVv 1 2 3 0) = [0x80000000, 7, 0xFFFFFFFE, 38] ∧ lane ints0 (.vssubVi 1 2 1 0) =
    [0x80000000, 6, 0xFFFFFFFE, 4] := by decide +kernel
theorem test_vminmax : lane ints0 (.vminVi 1 2 31 0) = [0x80000000, 0xFFFFFFFF, 0xFFFFFFFF, 0xFFFFFFFF] ∧
    lane ints0 (.vmaxuVv 1 2 3 0) = [0xFFFFFFFF, 7, 0xFFFFFFFF, 33] := by decide +kernel
theorem test_vmul_vmacc : lane ints0 (.vmulhVv 1 2 2 0) = [0x40000000, 0, 0, 0] ∧ lane ints0 (.vmulhuVv 1 2 3 0) = [0x7FFFFFFF, 0, 0xFFFFFFFE, 0] ∧
    lane ints0 (.vmaccVv 1 2 3 0) = [0x80000001, 2, 4, 169] := by decide +kernel
theorem test_vmerge_vmv : lane ints0 (.vmergeVi 1 2 1 0) = [1, 1, 1, 1] ∧ lane ints0 (.vmvVi 1 31 0) = [0xFFFFFFFF, 0xFFFFFFFF, 0xFFFFFFFF, 0xFFFFFFFF] := by
  decide +kernel
theorem test_vsub_vlogic : lane ints0 (.vsubVi 1 2 31 0) = [0x80000001, 8, 0, 6] ∧ lane ints0 (.vandVv 1 2 3 0) = [0x80000000, 0, 0xFFFFFFFF, 1] ∧
    lane ints0 (.vxorVv 1 2 3 0) = [0x7FFFFFFF, 7, 0, 36] := by decide +kernel

/-- 1.0, 2.0, −0.0 and 3.0 in binary32, and 2^−25, −2.0, 0.0 and an infinity. -/
def floats : State := ints 0x000A [0x3F800000, 0x40000000, 0x80000000, 0x40400000] [0x33000000, 0xC0000000, 0, 0x7F800000] [0x3F800000, 0x3F800000, 0x3F800000, 0x3F800000]
theorem test_vfadd : lane floats (.vfaddVv 1 2 3 0) = [0x3F800000, 0, 0, 0x7F800000] ∧ (after floats (.vfaddVv 1 2 3 0)).thr.fcsr = 1 := by
  decide +kernel
theorem test_vfmacc_signs : lane floats (.vfmaccVv 1 2 2 0) = [0x40000000, 0x40A00000, 0x3F800000, 0x41200000] ∧
    lane floats (.vfmsacVv 1 2 2 0) = [0, 0x40400000, 0xBF800000, 0x41000000] ∧
    lane floats (.vfnmaccVv 1 2 2 0) = [0xC0000000, 0xC0A00000, 0xBF800000, 0xC1200000] := by decide +kernel
theorem test_vfmin_vfsgnj : lane floats (.vfminVv 1 2 3 0) = [0x33000000, 0xC0000000, 0x80000000, 0x40400000] ∧
    lane floats (.vfsgnjnVv 1 2 2 0) = [0xBF800000, 0xC0000000, 0, 0xC0400000] := by decide +kernel
theorem test_vfclass_vfsqrt : lane floats (.vfsqrt 1 2 0) = [0x3F800000, 0x3FB504F3, 0x80000000, 0x3FDDB3D7] ∧
    lane floats (.vfclass 1 3 0) = [64, 2, 16, 128] := by decide +kernel

/-- Conversions at SEW 32 from SEW2 8: 0x80, 0x7F, 0xFF, 0x01. -/
def bytes0 : State := withVl (withElems machine0 2 8 [0x80, 0x7F, 0xFF, 0x01]) 0x0002 4
theorem test_vsext_vzext : lane bytes0 (.vsext 1 2 0) = [0xFFFFFF80, 0x7F, 0xFFFFFFFF, 1] ∧ lane bytes0 (.vzext 1 2 0) = [0x80, 0x7F, 0xFF, 1] := by
  decide +kernel
/-- Narrowing from SEW2 32 to SEW 8 (R134): truncated, and clamped with and without a sign. -/
def wide0 : State := withVl (withElems machine0 4 32 [0x1FF, 0xFFFFFF00, 0x7F, 0xFFFFFFFF]) 0x0008 4
theorem test_vnarrow : row (after wide0 (.vnarrow 1 4 0 0)) 1 4 8 = [0xFF, 0, 0x7F, 0xFF] ∧ row (after wide0 (.vnarrow 1 4 1 0)) 1 4 8 = [0x7F, 0x80, 0x7F, 0xFF] ∧
    row (after wide0 (.vnarrow 1 4 2 0)) 1 4 8 = [0xFF, 0xFF, 0x7F, 0xFF] ∧ row (after wide0 (.vnarrow 1 4 3 0)) 1 4 8 = [0xFF, 0, 0x7F, 0] := by decide +kernel

/-- The worked cases of R36: −1,000 as a residue word and back; 8,000,000 + 8,000,000 leaves the range. -/
def residues0 : State := withVl (withElems machine0 2 32 [0xFFFFFC18, 8000000]) 0x000A 2
theorem test_vrenc_worked : (after residues0 (.vrenc 3 2 0)).thr.elem 3 0 32 = 0x201C1418 ∧
    (after (after residues0 (.vrenc 3 2 0)) (.vrdec 1 3 0)).thr.elem 1 0 32 = 0xFFFFFC18 := by decide +kernel
noncomputable def overflow0 : State := after (after residues0 (.vrenc 3 2 0)) (.vradd 4 3 3 0)
theorem test_vrdec_overflow_worked : (after overflow0 (.vrdec 1 4 0)).thr.elem 1 1 32 = wrap 32 (-776960) ∧ (after overflow0 (.vrdec 1 4 0)).thr.fcsr = 16 ∧
    (after overflow0 (.vrchk 1 4 0)).thr.p[1] = 2 := by decide +kernel

/-- The worked alignment of chapter 1: BF16 1.5, 1 + 2^−7, −0.75 and 2^−14 with S = 2. -/
noncomputable def sliced (k : Reg) : List Nat := row (after (withVl (withElems machine0 2 16 [0x3FC0, 0x3F81, 0xBF40, 0x3880]) 0x0094 4) (.vslice 1 2 k 0)) 1 4 8
theorem test_vslice_worked : sliced 1 = [96, 64, 0xD0, 0] ∧ sliced 0 = [0, 64, 0, 0] := by decide +kernel
/-- R145: 96 × 128 + 64. -/
theorem test_vunslice : lane (withVl (withElems (withElems machine0 1 32 [96]) 2 8 [64]) 0x0002 1) (.vunslice 1 2 0) = [12352, 0, 0, 0] := by decide +kernel
/-- R146: four signed bytes by four. -/
theorem test_vqdot : lane (ints 0x000A [0x01020304, 0xFF000000] [0x01010101, 0x7F000000] [5, 0]) (.vqdot 1 2 3 0) = [15, 0xFFFFFF81, 0, 0] := by decide +kernel
theorem test_mixed_width : lane (withVl (withElems (withElems machine0 2 32 [10, 10, 10, 10]) 3 8 [0x80, 0x7F, 0xFF, 1]) 0x0002 4) (.vwadd 1 2 3 0) =
      [0xFFFFFF8A, 137, 9, 11] ∧
    lane (withVl (withElems (withElems machine0 2 32 [10, 10, 10, 10]) 3 8 [0x80, 0x7F, 0xFF, 1]) 0x0002 4) (.vwmul 1 2 3 0) =
      [0xFFFFFB00, 1270, 0xFFFFFFF6, 10] := by decide +kernel

/-- Permutations of 10, 20, 30 and 40 (R139, R140). -/
def perm0 : State := withX (ints 0x000A [10, 20, 30, 40] [3, 40, 0, 1] [1, 2, 3, 4]) [(6, 1)]
theorem test_slides : lane perm0 (.vslideup 1 2 6 0) = [1, 10, 20, 30] ∧ lane perm0 (.vslidedown 1 2 6 0) = [20, 30, 40, 0] := by decide +kernel
theorem test_gather : lane perm0 (.vrgather 1 2 3 0) = [40, 0, 10, 20] ∧ lane perm0 (.vbcast 1 2 6 0) = [20, 20, 20, 20] := by decide +kernel
def masked0 : State := { perm0 with thr := { perm0.thr with p := perm0.thr.p.set 1 0b1010 } }
theorem test_compress_expand : lane masked0 (.vcompress 1 2 1) = [20, 40, 3, 4] ∧ lane masked0 (.vexpand 1 2 1) = [1, 10, 3, 20] := by decide +kernel
theorem test_extract_insert : (after (withElems perm0 2 32 [0, 0xFFFFFFFE]) (.vextract 5 2 6)).xr 5 = 0xFFFFFFFFFFFFFFFE ∧
    lane (withX perm0 [(7, 77)]) (.vinsert 1 7 6) = [1, 77, 3, 4] := by decide +kernel
theorem test_reductions : (after perm0 (.vredsum 1 2 3 0)).thr.elem 1 0 32 = 103 ∧ (after masked0 (.vredmax 1 2 3 1)).thr.elem 1 0 32 = 40 := by decide +kernel
/-- R43, R141: (1 + 2^24) + (−2^24 + 1) from 0 by the tree is 0 + ((1 + 2^24) + (−2^24 + 1)) in binary32, and in order it is 1. -/
def tree0 : State := ints 0x000A [0x3F800000, 0x4B800000, 0xCB800000, 0x3F800000] [0] []
theorem test_float_reductions : (after tree0 (.vfredosum 1 2 3 0)).thr.elem 1 0 32 = 0x3F800000 ∧ (after tree0 (.vfredsum 1 2 3 0)).thr.elem 1 0 32 = 0x3F800000 := by
  decide +kernel
theorem test_predicates : (after masked0 (.pmsbf 2 1 0)).thr.p[2] = 1 ∧ (after masked0 (.pmsif 2 1 0)).thr.p[2] = 3 ∧
    (after masked0 (.pcount 5 1 0)).xr 5 = 2 ∧ (after masked0 (.pnot 2 1 0)).thr.p[2] = 0b0101 := by decide +kernel

/-! ### Vector memory, churn windows, streams and tiles -/

/-- R147: sign extension from EW to SEW, a stride, and signed byte offsets. -/
def vmem0 : State :=
  withX (withVl (withElems (withMem machine0 0x20000 [0xFE, 0xFF, 1, 0, 2, 0, 3, 0]) 3 32 [6, 0xFFFFFFFE, 0, 4]) 0x000A 4) [(10, 0x20000), (11, 4), (12, 0x20002)]
theorem test_vld_vlds : lane vmem0 (.vld 1 10 0 0 .e16) = [0xFFFFFFFE, 1, 2, 3] ∧ lane vmem0 (.vlds 1 10 11 0 0 .e16) = [0xFFFFFFFE, 2, 0, 0] := by
  decide +kernel
theorem test_vldx_vlseg : lane vmem0 (.vldx 1 12 3 0 0 .e16) = [0, 0xFFFFFFFE, 1, 3] ∧
    (after (withVl vmem0 0x000A 2) (.vlseg 1 10 1 0 0 .e16)).thr.elem 2 1 32 = 3 := by decide +kernel
/-- R149, R153: the low EW bits, and fields side by side. -/
def vstore0 : State := withX (withVl (withElems machine0 3 32 [0x11111234, 0x55555678]) 0x000A 2) [(10, 0x20000)]
theorem test_vst : gives (after vstore0 (.vst 3 10 0 0 .e16)) (.ldwu 5 10 0 0) 5 0x56781234 = true := by decide +kernel
theorem test_vsseg : gives (after vstore0 (.vsseg 3 10 1 0 0 .e16)) (.ldd 5 10 0 0) 5 0x567800001234 = true := by decide +kernel
theorem test_pld_pst : (after (withVl (withMem vmem0 0x20000 [0b1011]) 0x000A 3) (.pld 1 10)).thr.p[1] = 0b011 := by decide +kernel

/-- The worked fold of chapter 7. -/
def churn0 : State :=
  let m := { machine0 with thr := { machine0.thr with hdr := { programHeader with churnb := 4096 } } }
  withX (withVl (withElems (withElems (withMem m 0x20008 [100]) 8 32 (List.replicate 10 2)) 12 32 ((List.range 10).map (· + 1))) 0x000A 10)
    [(10, 0x20000), (11, 4)]
noncomputable def churn1 : State := after (after churn0 (.chwin .add 10 11)) (.vchadd 8 12 0)
theorem test_churn_worked : (after churn1 .churn).mem.load 0x20008 4 = 155 ∧ (after churn1 .churn).mem.load 0x20004 4 = 0 ∧
    (after churn1 .churn).thr.window = none ∧ (after churn1 .chdrop).mem = churn0.mem := by decide +kernel
theorem test_churn_copies : (churn1.thr.window.map fun w => copyIn w (1, 2)) = some (some 12) := by decide +kernel

/-- R167: one location taken twice, in rising index. -/
def vamo0 : State := withVl (withElems (withElems (withMem machine0 0x30000 [5]) 2 64 [0x30000, 0x30000]) 4 32 [3, 4]) 0x000E 2
theorem test_vamo : row (after vamo0 (.vamo 1 2 4 0 .add false false false)) 1 2 32 = [5, 8] ∧
    (after vamo0 (.vamo 1 2 4 0 .add false false false)).mem.load 0x30000 4 = 12 := by decide +kernel
theorem test_vwait : goes (withElems vamo0 4 32 [5, 5]) (.vwait 2 4 0 .eq) = true ∧
    (after (withElems vamo0 4 32 [5, 5]) (.vwait 2 4 0 .eq)).thr.pc = 0x1004 ∧
    (match (after vamo0 (.vwait 2 4 0 .eq)).thr.life with | .parked (.watch _) => true | _ => false) = true := by decide +kernel

/-- The worked outer product of chapter 8. -/
def tile0 : State :=
  let m := { machine0 with thr := { machine0.thr with cls := 1, vlen := 4096, lanes := [0, 1, 2, 3] } }
  withX (withElems (withElems m 2 32 [0x3F800000, 0x40000000, 0x40400000, 0x40800000]) 3 32 [0x41200000, 0x41A00000, 0x41F00000, 0x42200000])
    [(5, 0x18C3), (6, 4), (7, 2)]
noncomputable def tile1 : State := after (after tile0 (.tcfg 1 5)) (.vsetvli 8 6 0x000A)
theorem test_tcfg_worked : (after tile1 (.csrr 9 8)).xr 9 = 0x98C30000 ∧ tile1.thr.tdirty = 0 := by decide +kernel
noncomputable def tile2 : State := after tile1 (.touter 1 2 3 0)
theorem test_touter_worked : (List.range 4).map (fun c => tile2.thr.tileElem 1 1 c) = [0x41A00000, 0x42200000, 0x42700000, 0x42A00000] ∧
    tile2.thr.tdirty = 2 ∧ tile2.thr.fcsr = 0 := by decide +kernel
noncomputable def tile3 : State := let s := tile2; after { s with thr := { s.thr with p := s.thr.p.set 2 0b101 } } (.touter 1 2 3 2)
theorem test_tmv_worked : row (after tile3 (.tmvcv 16 1 7 0)) 16 4 32 = [0x42700000, 0x42700000, 0x43340000, 0x42F00000] ∧
    row (after tile3 (.tmvrv 17 1 7 0)) 17 4 32 = [0x42700000, 0x42F00000, 0x43340000, 0x43700000] := by decide +kernel
theorem test_tile_unconfigured : traps tile3 (.tmvrv 18 0 7 0) 9 0x1010 0 = true := by decide +kernel

/-! ### Tethers, fabric and system -/

/-- R183: COPY tether 0x2A5 of die 2 in generation 0x13. -/
theorem test_token_worked : tetherToken { Tether.blank .copy 0 0 2 ⟨0, 0, 0, 0⟩ ⟨0, 0⟩ with index := 0x2A5, gen := 0x13 } = 0x3001322A5 := by decide +kernel

/-- The worked integer row of chapter 15: a BLOAD of one column with K = 4. -/
def bload0 : Tether :=
  { Tether.blank .bload 0 0 0 ⟨0, 0, launchToken, 0⟩ ⟨0, 0⟩ with
    index := 7, gen := 1, state := .running, ops := (0x41000, 0, 0x1FC0000), layout := [(1, 4), (4, 1)] }
def matrix0 : State :=
  let s := withMem (withMem (withMem machine0 0x41000 [0x80, 3, 2, 0]) 0x40000 [0, 3, 0xFC, 1, 0, 0, 0, 0, 0x80, 100, 0xCE, 7]) 0x42000 [0xE8, 3]
  let t := s.setCore ⟨0, 0⟩ { s.core ⟨0, 0⟩ with banks := #v[some 0, none, none, none] }
  (t.setPart 0 { t.part 0 with run := true, quota := 0x100 }).setProc 0 0 { Process.fresh with live := true, root := 1 }
def loaded0 : State := stateOf matrix0 (execBloadColumn ⟨0, 0⟩ { matrix0 with tethers := [bload0] })
theorem test_bload_worked : ((loaded0.core ⟨0, 0⟩).blocks.map fun e => (e.1, e.2.digits)) = [((0, 0), [[-127], [3], [2], [0]])] ∧
    (loaded0.tethers.map fun t => (t.state, t.clamps)) = [(.done, 1)] := by decide +kernel
def mma0 : Tether :=
  { Tether.blank .mma 0 0 0 ⟨0, 0, launchToken, 0⟩ ⟨0, 0⟩ with
    index := 8, gen := 1, state := .running, ops := (0x40000, 0x42000, 0), layout := [(16, 1), (4, 1)] }
def multiplied (t : Tether) (up : Upset) : State := stateOf loaded0 (execMmaKblock ⟨0, 0⟩ 0 0 up { loaded0 with tethers := [t] })
theorem test_mma_worked : (multiplied mma0 ⟨[], [], false⟩).mem.load 0x42000 4 = 17329 ∧
    ((multiplied mma0 ⟨[], [], false⟩).tethers.map fun t => (t.state, t.flags, t.clamps)) = [(.done, 0, 1)] := by decide +kernel
theorem test_mma_residue_worked : (multiplied mma0 ⟨[⟨0, 0, 0, 1, 0⟩], [⟨0, 0, 0, 1, 0⟩], false⟩).mem.load 0x42000 4 = 1000 ∧
    ((multiplied mma0 ⟨[⟨0, 0, 0, 1, 0⟩], [⟨0, 0, 0, 1, 0⟩], false⟩).tethers.map fun t => (t.state, t.cause)) = [(.faulted, .residue)] := by
  decide +kernel

/-- The worked slice row of chapter 15: BF16 with S = 2 into binary32 and into BF16. -/
def slice0 (c : Word) : State :=
  let s := withMem (withMem loaded0 0x41000 [0x80, 0x3F, 0x40, 0xBF]) 0x40000 [0x27, 1, 0xFC, 1, 0, 0, 0, 0, 0xC0, 0x3F, 0x81, 0x3F]
  let b := { bload0 with ops := (0x41000, 0, 0x1FC0027), layout := [(2, 2), (4, 1)] }
  let t := stateOf s (execBloadColumn ⟨0, 0⟩ { s with tethers := [b] })
  stateOf t (execMmaKblock ⟨0, 0⟩ 0 0 ⟨[], [], false⟩ { t with tethers := [{ mma0 with ops := (0x40000, 0x42000, c) }] })
theorem test_mma_slice_worked : (slice0 0x111000).mem.load 0x42000 4 = 0x3F3E8000 ∧ ((slice0 0x111000).tethers.map fun t => t.flags) = [0] ∧
    (slice0 0x131000).mem.load 0x42000 2 = 0x3F3E ∧ ((slice0 0x131000).tethers.map fun t => t.flags) = [1] := by decide +kernel

/-- The worked clipped copy of chapter 8: its one burst of 60 bytes. -/
def copy0 : State :=
  let w (k : Nat) : List Byte := bytesOf 4 k
  let rows := [0, 1, 2].foldl (fun s r => withMem s (0x50000 + 64 * r) ((List.range 5).flatMap fun k => w (100 * r + k))) matrix0
  rows
def copyTether : Tether :=
  { Tether.blank .copy 0 0 0 ⟨0, 0, launchToken, 0⟩ ⟨0, 0⟩ with
    index := 9, gen := 1, state := .running, ops := (0x50000, 0x60000, 0xFFFFFFFF000004A1), layout := [(4, 5), (64, 3)] }
def copied : State := stateOf copy0 (execCopyBurst (tetherToken copyTether) 0 { copy0 with tethers := [copyTether] })
theorem test_copy_worked : ((List.range 15).map fun k => copied.mem.load (0x60000 + 4 * k) 4) =
      [0, 1, 2, 3, 0xFFFFFFFF, 100, 101, 102, 103, 0xFFFFFFFF, 200, 201, 202, 203, 0xFFFFFFFF] ∧
    copied.mem.load 0x6003C 8 = 0 ∧ (copied.tethers.map fun t => (t.state, t.progress)) = [(.done, 60)] := by decide +kernel

/-- The worked graph of chapter 9, its element words by FE; its image binds in slot 2. -/
def runLengths : List Word :=
  0x40 :: (List.range 64).map fun f =>
    match f with
    | 0 => 0x0382000000000000 | 1 => 0x1E85800000000000 | 2 => 0x0486000000000000 | 3 => 0x2400000000000000
    | 8 => 0x0382800000000400 | _ => 0
def bind0 : State := withX (withMem matrix0 0x40000 (wordsToBytes runLengths)) [(10, 0x40000), (11, 2)]
theorem test_fbind_worked : gives bind0 (.fbind 5 10 11) 5 0 = true ∧ (slotOf (after bind0 (.fbind 5 10 11)) 2).gen = 1 ∧
    gives (after bind0 (.fbind 5 10 11)) (.fquery 6 11) 6 0x100400005 = true := by decide +kernel
theorem test_fop_unbound : traps (withVl machine0 0x0002 4) (.fop 16 8 9 0 2) 10 0x1000 2 = true := by decide +kernel

/-! ### Traps, CSRs and the deprecated instructions -/

/-- R225, R363: what the handler of the partition finds. -/
def trap0 : State := withX (machine0.setPart 0 { machine0.part 0 with hentry := 0x8000, run := true }) [(2, 0x1234), (10, 77)]
theorem test_syscall : traps trap0 .syscall 14 0x1004 0 = true ∧ (after trap0 .syscall).thr.pc = 0x8000 ∧ (after trap0 .syscall).xr 2 = 0x1FFFFFFF80000 ∧
    (after trap0 .syscall).xr 10 = 0 := by decide +kernel
/-- A handler whose victim's x10 is 77 and whose TPC is 0x2000 (R216, R362). -/
def handler0 : State :=
  { trap0 with thr := { trap0.thr with supervisor := true, tpc := 0x2000, csa := trap0.thr.csa.put 0x50 (bytesOf 8 77) } }
theorem test_eret : (after handler0 .eret).thr.pc = 0x2000 ∧ (after handler0 .eret).xr 10 = 77 ∧ (after handler0 .eret).thr.supervisor = false := by
  decide +kernel
theorem test_brk_in_handler : (after handler0 .brk).thr.life = .halted := by decide +kernel
noncomputable def claimed0 : State := after (withElems (withVl handler0 0x0002 3) 4 32 [9]) .claim
theorem test_claim_unclaim : claimed0.thr.vl = 0 ∧ claimed0.thr.csa.load 0x4000 4 = 9 ∧ (after claimed0 .unclaim).thr.vl = 3 := by decide +kernel
theorem test_privileged : traps trap0 .eret 1 0x1000 0x68000002 = true ∧ traps trap0 (.csrr 5 0x40) 1 0x1000 0x6CA00040 = true := by decide +kernel
theorem test_undeclared : traps { trap0 with thr := { trap0.thr with hdr := { programHeader with usemask := 1 } } } (.mul 5 6 7) 2 0x1000 0x04A63802 = true := by
  decide +kernel
theorem test_csr : gives (withX machine0 [(6, 0xE5)]) (.csrw 5 6 0) 5 0 = true ∧ (after (withX machine0 [(6, 0xE5)]) (.csrw 5 6 0)).thr.fcsr = 5 ∧
    gives machine0 (.csrr 5 0x13) 5 3 = true ∧ gives machine0 (.csrr 5 0x11) 5 launchToken = true := by decide +kernel

/-- The worked case of R224: the dot product is 70 after three micro-steps. -/
def dot0 : State := withVl (withElems (withElems machine0 8 32 [1, 2, 3, 4]) 9 32 [5, 6, 7, 8]) 0x0002 4
noncomputable def dot2 : State := after (after dot0 (.dvdot 5 8 9)) (.dvdot 5 8 9)
theorem test_dvdot_worked : dot2.thr.pc = 0x1000 ∧ dot2.xr 5 = 0 ∧ gives dot2 (.dvdot 5 8 9) 5 70 = true := by decide +kernel
/-- The same, with VEC_INT fenced before step 1: FENCED leaves the core, TSTEP 1 and x5 unchanged. -/
noncomputable def dotFenced : State :=
  let s := after dot0 (.dvdot 5 8 9)
  after (s.setCore ⟨0, 0⟩ { s.core ⟨0, 0⟩ with cap := 0x1FFFFF7 }) (.dvdot 5 8 9)
theorem test_dvdot_fenced_worked : dotFenced.thr.life = .preempted ∧ dotFenced.thr.pc = 0x1000 ∧ dotFenced.xr 5 = 0 := by decide +kernel
theorem test_dvsum_dvperm : gives (after dot0 (.dvsum 5 9)) (.dvsum 5 9) 5 26 = true ∧
    row (after (after (withElems dot0 9 32 [3, 0, 40, 1]) (.dvperm 1 8 9)) (.dvperm 1 8 9)) 1 4 32 = [4, 1, 0, 2] := by decide +kernel

/-! ### Translation, device steps and the step itself -/

/-- The worked address of chapter 21: both walks, from nodes at chosen places. -/
def pages0 : Memory :=
  let put (m : Memory) (a v : Nat) : Memory := m.put a (bytesOf 8 v)
  let m := put [] (0x100000 + 8 * 306) 0x200001
  let m := put m (0x200000 + 0xA38) 0x32800000F
  let m := put (put m 0x300000 0x400001) (0x400000 + 8 * 101) 0x500001
  let m := put m (0x500000 + 8 * 0x712) 0x24001000F
  put m 0x400000 0x1F
def walked0 : State := (machine0.setPart 0 { machine0.part 0 with root := 0x300001 }).setProc 0 0 { Process.fresh with live := true, root := 0x100001 }
theorem test_walk_worked : (match walkBoth pages0 walked0 (.core ⟨0, 0⟩) 0 0 0x4C8A3F123456 with
    | .ok e => decide (e.ppa + (0x4C8A3F123456 - e.base) = 0x32F123456 ∧ e.dpa + (0x4C8A3F123456 - e.base) = 0x240013456)
    | .error _ => false) = true := by decide +kernel

/-- The worked fence of chapter 24: core 9 of die 1 loses bit 7; RLOG0 is 0x07_2503, RLOG1 0x413. -/
noncomputable def fenced0 : State :=
  let s := { machine0 with dfver := 0x412 }
  let t := after s (.laneCheckTest ⟨1, 9⟩ (.shared 7) true true)
  after t (.laneCheckTest ⟨1, 9⟩ (.shared 7) true true)
theorem test_fence_worked : (fenced0.core ⟨1, 9⟩).cap = 0x1FFFF7F ∧ fenced0.dfver = 0x413 ∧ fenced0.repairs = [⟨0x72503, 0x413⟩] := by decide +kernel

/-- R414: 2,650 W above a limit of 2,400 W lowers the clock from 24 to 23 and sets PLIM. -/
theorem test_throttle : (after { machine0 with power := { Power.fresh with limit := 2400 } } (.clockThrottle 2650 60)).power = ⟨2650, 60, 23, false, true, 2400⟩ := by
  decide +kernel
theorem test_commit : (after { machine0 with thr := { machine0.thr with vq := [(0x1000, 0)], life := .blocked } } (.vectorCommit machine0.thr.key)).thr.life = .ready := by
  decide +kernel

/-- R64, R101: the first step of a program that is loaded from outside, `addi x5, x0, 7`. -/
theorem test_step_runs_word : (stateOf State.reset (step (State.reset.withFetchWord 32 0x08A00007))).xr 5 = 7 ∧
    (stateOf State.reset (step (State.reset.withFetchWord 32 0x08A00007))).thr.pc = 0x10004 := by decide +kernel
theorem test_decode_table_word : (match decodeTableWord 32 0x04A63800 with | some i => decide (i = .add 5 6 7) | none => false) = true := by decide +kernel
theorem test_reset_goes_on : (match step State.reset with | .next s => decide (s.thr.live = false ∧ s.mem = []) | _ => false) = true := by decide +kernel
/-! ### Witnesses: states and operands that meet the hypotheses of each statement together -/

/-- What holds of the value in an `Option`, from the Bool that says so. -/
theorem of_all {α : Type} {p : α → Prop} [DecidablePred p] {o : Option α} (h : o.all (fun x => decide (p x)) = true) :
    ∀ x, o = some x → p x := by
  intro x hx
  subst hx
  simpa using h

/-- Every capability is declared and held, and the run-ahead window has room. -/
theorem machine0_fit : ∀ c < 25, machine0.scalarFit [c] := by unfold State.scalarFit State.fit; decide +kernel

theorem witness_ScalarAluResults : machine0.scalarFit [0] ∧ machine0.scalarFit [1] ∧ (60 : BitVec 6).toNat + ((3 : BitVec 6).toNat + 1) ≤ 64 :=
  ⟨machine0_fit 0 (by decide), machine0_fit 1 (by decide), by decide⟩
theorem witness_DivisionResults :
    (divCorner.scalarFit [1] ∧ divCorner.xr 0 = 0) ∧
    (divCorner.scalarFit [1] ∧ (divCorner.xr 6).toInt = -2 ^ 63 ∧ (divCorner.xr 7).toInt = -1) ∧
    (minus7.scalarFit [1] ∧ minus7.xr 7 ≠ 0 ∧ ¬((minus7.xr 6).toInt = -2 ^ 63 ∧ (minus7.xr 7).toInt = -1) ∧ (minus7.xr 6).toInt ≤ 0) := by
  unfold State.scalarFit State.fit; decide +kernel
theorem witness_BranchResults : machine0.scalarFit [0] ∧ (machine0.xr 0 + (0xFFFC : BitVec 16).signExtend 64).toNat % 4 = 0 ∧
    (machine0.xr 0 + (0x3FFFFFFFFFC : BitVec 42).signExtend 64).toNat % 4 = 0 := ⟨machine0_fit 0 (by decide), by decide⟩

/-- What `State.place` answers, as a Bool. -/
def placed (s : State) (acc : Access) (ea : Word) (n : Nat) (pl : Place) : Bool :=
  match s.place acc ea n with | .ok q => decide (q = pl) | .error _ => false
theorem of_placed {s : State} {acc : Access} {ea : Word} {n : Nat} {pl : Place} (h : placed s acc ea n pl = true) :
    s.place acc ea n = .ok pl := by
  unfold placed at h
  split at h
  · rename_i q hq; rw [hq, of_decide_eq_true h]
  · cases h

/-- Every condition of an access, as a Bool. -/
def mayAccess (s : State) (acc : Access) (ea : Word) (n : Nat) (pl : Place) : Bool :=
  decide (ea.toNat % n = 0) && placed s acc ea n pl && !pl.remote && (inWindow ea.toNat || !s.stalled s.thr ea.toNat n)
theorem of_mayAccess {s : State} {acc : Access} {ea : Word} {n : Nat} {pl : Place} (h : mayAccess s acc ea n pl = true) :
    s.accessible acc ea n pl := by
  simp only [mayAccess, Bool.and_eq_true, Bool.or_eq_true, Bool.not_eq_true', decide_eq_true_eq] at h
  exact ⟨h.1.1.1, of_placed h.1.1.2, h.1.2, h.2⟩
theorem of_mayLoad {s : State} {ea : Word} {n : Nat} {pl : Place}
    (h : (mayAccess s .load ea n pl && !s.badData s.thr pl n) = true) : s.loadable ea n pl := by
  simp only [Bool.and_eq_true, Bool.not_eq_true'] at h
  exact ⟨of_mayAccess h.1, h.2⟩
theorem of_mayStore {s : State} {ea : Word} {n : Nat} {pl : Place}
    (h : (mayAccess s .store ea n pl && !s.badStore s.thr pl n) = true) : s.storable ea n pl := by
  simp only [Bool.and_eq_true, Bool.not_eq_true'] at h
  exact ⟨of_mayAccess h.1, h.2⟩

/-- With no issued store every read is calm; nothing of an instruction begun and nothing answered is its start. -/
theorem calm_of_empty {s : State} (h : s.thr.sq = []) (rs : List Range) : s.calm rs := .inl fun p hp => by rw [h] at hp; cases hp
theorem atStart_of_empty {t : Thread} (h : t.begun = none ∧ t.peerData = []) : t.atStart :=
  ⟨h.1, fun a ha => (by rw [h.2] at ha; cases ha)⟩

/-- x6 in device memory, x7 at the foot of the local store, in a thread that declares 4,096 bytes of it. -/
def places0 : State :=
  let s := withX (withMem machine0 0x20000 [1, 2, 3]) [(6, 0x20008), (7, BitVec.ofNat 64 localBase)]
  { s with thr := { s.thr with hdr := { programHeader with lstore := 4096 } } }
theorem witness_ScalarLoadResults : places0.scalarFit [0] ∧
    (∀ e ∈ loadTable, places0.loadable (address (places0.xr 6) (0x7FF : BitVec 11) e.2.2.1) e.2.2.1 (.device (0x20008 - e.2.2.1))) ∧
    (∀ e ∈ loadTable, places0.loadable (address (places0.xr 7) (1 : BitVec 37) e.2.2.1) e.2.2.1 (.localStore e.2.2.1)) ∧
    ∀ rs, places0.calm rs := by
  refine ⟨by unfold State.scalarFit State.fit; decide +kernel, ?_, ?_, calm_of_empty rfl⟩ <;>
    simp only [loadTable, List.forall_mem_cons, List.not_mem_nil, false_imp_iff, implies_true, and_true] <;>
    refine ⟨?_, ?_, ?_, ?_, ?_, ?_, ?_⟩ <;> exact of_mayLoad (by decide +kernel)
theorem witness_ScalarStoreResults : places0.scalarFit [0] ∧
    (∀ e ∈ storeTable, places0.storable (address (places0.xr 6) (0x7FF : BitVec 11) e.2.2) e.2.2 (.device (0x20008 - e.2.2))) ∧
    ∀ e ∈ storeTable, places0.storable (address (places0.xr 7) (1 : BitVec 37) e.2.2) e.2.2 (.localStore e.2.2) := by
  refine ⟨by unfold State.scalarFit State.fit; decide +kernel, ?_, ?_⟩ <;>
    simp only [storeTable, List.forall_mem_cons, List.not_mem_nil, false_imp_iff, implies_true, and_true] <;>
    refine ⟨?_, ?_, ?_, ?_⟩ <;> exact of_mayStore (by decide +kernel)
theorem witness_ScalarFloatResults : machine0.scalarFit [2] := machine0_fit 2 (by decide)
theorem witness_RoundingResults : ∀ f ∈ roundedFormats, 1 < 2 ^ f.bits ∧ ∃ x, f.unpack 1 = .fin x ∧ x.m ≠ 0 := by
  have h : ∀ f ∈ roundedFormats, 1 < 2 ^ f.bits ∧ (match f.unpack 1 with | .fin x => decide (x.m ≠ 0) | _ => false) = true := by decide +kernel
  intro f hf
  obtain ⟨h1, h2⟩ := h f hf
  refine ⟨h1, ?_⟩
  split at h2
  · rename_i x hx; exact ⟨x, hx, of_decide_eq_true h2⟩
  · cases h2
/-- Codes of each kind in each format: a finite one, a zero, an infinity, a quiet and a signalling NaN. -/
theorem witness_ExactFloatResults : ∀ f ∈ arithmeticFormats, (match f.unpack 1 with | .fin x => decide (x.m ≠ 0 ∧ x.neg = false) | _ => false) = true ∧
    (match f.unpack (f.signed true 1) with | .fin x => decide (x.m ≠ 0 ∧ x.neg = true) | _ => false) = true ∧
    (match f.unpack 0 with | .fin x => decide (x.m = 0) | _ => false) = true ∧
    (match f.unpack (f.inf true) with | .inf n => n | _ => false) = true ∧
    (f.unpack f.qnan).isNan = true ∧ (f.unpack (f.inf false + 1)).isSignalling = true := by decide +kernel
theorem witness_ScalarAtomicResults : places0.scalarFit [22] ∧ places0.thr.sq = [] ∧ places0.thr.begun = none ∧ userPlace (.device 0x20008) ∧
    userPlace (.localStore 0) ∧
    (∀ z : AtomSize, ∀ c ∈ [Access.atomic, .atomicRead], places0.accessible c (places0.xr 6) (atomBytes z) (.device 0x20008) ∧
      places0.accessible c (places0.xr 7) (atomBytes z) (.localStore 0)) ∧
    ∀ z : AtomSize, places0.badData places0.thr (.device 0x20008) (atomBytes z) = false ∧
      places0.badStore places0.thr (.device 0x20008) (atomBytes z) = false ∧
      places0.badData places0.thr (.localStore 0) (atomBytes z) = false ∧
      places0.badStore places0.thr (.localStore 0) (atomBytes z) = false := by
  refine ⟨by unfold State.scalarFit State.fit; decide +kernel, rfl, rfl, ?_, ?_, ?_, ?_⟩
  · intro o h; cases h
  · intro o h; cases h
  · intro z c hc
    simp only [List.mem_cons, List.not_mem_nil, or_false] at hc
    rcases hc with rfl | rfl <;> cases z <;> exact ⟨of_mayAccess (by decide +kernel), of_mayAccess (by decide +kernel)⟩
  · intro z
    cases z <;> decide +kernel
/-- A thread with two issued stores, of which a load has taken in the first. -/
noncomputable def twoStores : State := after (after (after loads0 (.std 7 6 0 0)) (.ldd 5 6 0 0)) (.std 7 6 0 1)
theorem witness_FenceResults : twoStores.scalarFit [] ∧ (twoStores.thr.sq.map fun p => p.read) = [true, false] ∧ twoStores.thr.near ∧
    twoStores.thr.orderly := by
  unfold State.scalarFit State.fit Thread.near Thread.orderly; decide +kernel
/-- The read that comes after them is calm. -/
theorem witness_ScalarLoadResults_after : ∀ rs, twoStores.calm rs := fun _ => .inr witness_FenceResults.2.2
/-- R259: `std`, and `ldd` of the same bytes: the store is then one that a read took in, and an acquire fence performs it. -/
theorem test_acquire_fence : ((after (after loads0 (.std 7 6 0 0)) (.ldd 5 6 0 0)).thr.sq.map fun p => p.read) = [true] ∧
    (after (after (after loads0 (.std 7 6 0 0)) (.ldd 5 6 0 0)) (.fence .acq .core)).thr.sq = [] ∧
    (after twoStores (.fence .acq .core)).mem.load 0x20008 8 = 0x1122334455667788 ∧
    ((after twoStores (.fence .acq .core)).thr.sq.map fun p => p.seq) = [2] := by decide +kernel

/-- The thread alone in a group in phase 5, with its flag as given, waiting in the `gbar` at its PC for a phase or not. -/
def inGroup (flag : Bool) (w : Option (Nat × BitVec 32)) : State :=
  { withX machine0 [(5, 3), (6, 4)] with
    groups := [((machine0.thr.groupOwner, 3), ⟨[(thread0.key, flag)], 5⟩)],
    thr := { (withX machine0 [(5, 3), (6, 4)]).thr with awaiting := w.toList.map fun g => ((0x1000, false), g) } }
theorem witness_GroupResults :
    (∀ s ∈ [group0, inGroup false none, inGroup true (some (3, 4))], s.scalarFit [] ∧ (s.xr 5).toNat < s.thr.hdr.groups ∧ s.thr.sq = []) ∧
    Assoc.get? (groupAt group0 2).members group0.thr.key ≠ some true ∧
    Assoc.get? (groupAt (inGroup false none) 3).members thread0.key = some false ∧
    ((inGroup false none).xr 6).truncate 32 ≠ (groupAt (inGroup false none) 3).phase ∧
    (Assoc.get? (inGroup true (some (3, 4))).thr.awaiting thread0.here = some (3, 4) ∧ (groupAt (inGroup true (some (3, 4))) 3).phase ≠ 4) ∧
    Assoc.get? (inGroup false none).thr.awaiting thread0.here = none ∧
    (∀ e ∈ (groupAt (inGroup false none) 3).members, e.1 ≠ thread0.key → e.2 = true) ∧
    ((groupAt (inGroup false none) 3).members.map Prod.fst).Nodup := by unfold State.scalarFit State.fit groupAt; decide +kernel

/-- A queue of two entries with one in it, entered by the thread itself, and a header to register for it; the same queue with
its entry already removed by the `qpop` at the PC. -/
def queue1 : State :=
  { withX machine0 [(6, 3), (7, 0x20040), (8, 3 + 5 * 1024)] with
    procs := [((0, 0), { Process.fresh with live := true, queues := [(3, ⟨2, .device, [⟨7, thread0.key, 0⟩]⟩)] })] }
def popping : State := { queue1 with thr := { queue1.thr with popped := [((0x1000, false), ⟨7, thread0.key, 0⟩)] } }
/-- The same with the producer's first store still to come. -/
def queue2 : State :=
  { queue1 with procs := [((0, 0), { Process.fresh with live := true, queues := [(3, ⟨2, .device, [⟨7, thread0.key, 1⟩]⟩)] })],
                thr := { queue1.thr with sq := [⟨[(0x20000, 1)], 0, false, 1, 1, false, [], []⟩], stores := 1 } }
theorem stampDone_of_counts {s : State} {e : QEntry} (hr : s.requests = [])
    (h : (s.thread? e.producer).all (fun u => u.sq.all fun p => decide (e.stamp < p.seq)) = true) : stampDone s e := by
  refine ⟨fun u hu p hp => ?_, fun r hm => by rw [hr] at hm; cases hm⟩
  rw [hu] at h
  exact of_decide_eq_true (List.all_eq_true.1 h p hp)
theorem witness_QueueResults :
    (queue1.scalarFit [] ∧ queueNamed queue1 (queue1.xr 6) ⟨2, .device, [⟨7, thread0.key, 0⟩]⟩ ∧ stampDone queue1 ⟨7, thread0.key, 0⟩ ∧
      queue1.thr.popped = []) ∧
    (popping.scalarFit [] ∧ Assoc.get? popping.thr.popped popping.thr.here = some ⟨7, thread0.key, 0⟩ ∧ stampDone popping ⟨7, thread0.key, 0⟩) ∧
    (queue0.scalarFit [] ∧ queueNamed queue0 (queue0.xr 6) ⟨2, .device, []⟩) ∧
    (queue2.scalarFit [] ∧ queueNamed queue2 (queue2.xr 6) ⟨2, .device, [⟨7, thread0.key, 1⟩]⟩ ∧ ¬stampDone queue2 ⟨7, thread0.key, 1⟩) := by
  refine ⟨⟨by unfold State.scalarFit State.fit; decide +kernel, by unfold queueNamed; decide +kernel, stampDone_of_counts rfl (by decide +kernel), rfl⟩,
    ⟨by unfold State.scalarFit State.fit; decide +kernel, by decide +kernel, stampDone_of_counts rfl (by decide +kernel)⟩,
    ⟨by unfold State.scalarFit State.fit; decide +kernel, by unfold queueNamed; decide +kernel⟩,
    by unfold State.scalarFit State.fit; decide +kernel, by unfold queueNamed; decide +kernel, fun h => ?_⟩
  have e : queue2.thread? thread0.key = some queue2.thr := by decide +kernel
  exact absurd (h.1 _ e _ (List.mem_singleton.2 rfl)) (by decide)
/-- The thread's core with entries of the handler table in use, each for another queue but one. -/
def registered (n q9 : Nat) : State :=
  queue1.setCore ⟨0, 0⟩ { queue1.core ⟨0, 0⟩ with handlers := (List.range n).map fun i => (i, ⟨0, 0, if i = 9 then q9 else 100 + i, 5, 0x20040⟩) }
theorem witness_QueueResults_header : (queue1.xr 8).toNat < 2 ^ 13 ∧
    queueNamed queue1 (BitVec.ofNat 64 ((queue1.xr 8).toNat % 1024)) ⟨2, .device, [⟨7, thread0.key, 0⟩]⟩ ∧ (queue1.xr 7).toNat % 8 = 0 ∧
    (match placePieces (queue1.place .load) (pieces 65 (queue1.xr 7) 64) with | .ok _ => true | .error _ => false) = true ∧
    ((registered 10 3).core thread0.core).handlers.find? (fun e => sameQueue (bindingOf queue1 (queue1.xr 8) (queue1.xr 7)) e.2) =
      some (9, ⟨0, 0, 3, 5, 0x20040⟩) ∧
    (∀ s ∈ [registered 0 3, registered 9 3, registered 32 9], (∀ e ∈ (s.core thread0.core).handlers, sameQueue (bindingOf queue1 (queue1.xr 8) (queue1.xr 7)) e.2 = false)) ∧
    (Assoc.get? ((registered 9 3).core thread0.core).handlers 9 = none ∧ ∀ j < 9, (Assoc.get? ((registered 9 3).core thread0.core).handlers j).isSome) ∧
    (∀ i < 32, (Assoc.get? ((registered 32 9).core thread0.core).handlers i).isSome) ∧
    Assoc.get? ((registered 10 3).core queue1.thr.core).handlers (queue1.xr 6).toNat = some ⟨0, 0, 103, 5, 0x20040⟩ := by unfold queueNamed; decide +kernel
theorem machine0_vectorFit : ∀ c < 25, machine0.vectorFit [c] := by unfold State.vectorFit State.fit; decide +kernel
theorem witness_VectorSetResults : machine0.vectorFit [3] ∧ vtLegal 0x6002 = true ∧ (withX machine0 [(7, 0x6002)]).xr 7 = (0x6002 : BitVec 16).zeroExtend 64 :=
  ⟨machine0_vectorFit 3 (by decide), by decide +kernel⟩

/-- Threads with four elements, at several pairs of SEW and SEW2. -/
def at32 : State := withVl machine0 0x000A 4
def at16of8 : State := withVl machine0 0x0001 4
def at32of8 : State := withVl machine0 0x0002 4
def at32of16 : State := withVl machine0 0x0006 4
def at8of32 : State := withVl machine0 0x0808 4
def at16 : State := withVl machine0 0x0005 4

/-- What every element-wise statement asks of the thread and of registers 4, 8 and 12 and predicate 1. -/
def vectorReady (s : State) : Prop :=
  (∀ c < 25, s.vectorFit [c]) ∧ s.thr.vectorOk ∧ s.thr.vl ≠ 0 ∧ s.thr.groupOk 4 ∧ s.thr.groupOk 8 ∧ s.thr.groupOk 12 ∧
  s.thr.secondOk 8 ∧ s.thr.secondOk 12 ∧ s.thr.predOk 1 ∧ s.thr.predOk 23 ∧ s.thr.predDestOk 2 ∧ s.thr.predDestOk 23

theorem vectorReady_at32 : vectorReady at32 := by
  unfold vectorReady State.vectorFit State.fit Thread.vectorOk Thread.groupOk Thread.secondOk Thread.predOk Thread.predDestOk
  and_intros <;> decide +kernel
theorem vectorReady_at16of8 : vectorReady at16of8 := by
  unfold vectorReady State.vectorFit State.fit Thread.vectorOk Thread.groupOk Thread.secondOk Thread.predOk Thread.predDestOk
  and_intros <;> decide +kernel
theorem vectorReady_at32of8 : vectorReady at32of8 := by
  unfold vectorReady State.vectorFit State.fit Thread.vectorOk Thread.groupOk Thread.secondOk Thread.predOk Thread.predDestOk
  and_intros <;> decide +kernel
theorem vectorReady_at32of16 : vectorReady at32of16 := by
  unfold vectorReady State.vectorFit State.fit Thread.vectorOk Thread.groupOk Thread.secondOk Thread.predOk Thread.predDestOk
  and_intros <;> decide +kernel
theorem vectorReady_at16 : vectorReady at16 := by
  unfold vectorReady State.vectorFit State.fit Thread.vectorOk Thread.groupOk Thread.secondOk Thread.predOk Thread.predDestOk
  and_intros <;> decide +kernel
theorem vectorReady_at8of32 : vectorReady at8of32 := by
  unfold vectorReady State.vectorFit State.fit Thread.vectorOk Thread.groupOk Thread.secondOk Thread.predOk Thread.predDestOk
  and_intros <;> decide +kernel

/-- A row of a table has a thread that is ready for it, and operands 4, 8 and `b` that it takes there. -/
def rowMet (e : VRow) : Prop := ∃ s, vectorReady s ∧ e.cap s.thr < 25 ∧ ∃ b, e.ok s.thr 4 8 b

/-- A row whose capability and operands do for a thread, on registers `d` and `a`. -/
def rowTaken (t : Thread) (d a : Reg) (e : VRow) : Prop := e.cap t < 25 ∧ ∃ b, e.ok t d a b

theorem intRows_taken {t : Thread} {d a b : Reg} (ha : t.groupOk a) (hb : t.groupOk b) (vv vx vi : Reg → Reg → Reg → Reg → Instr)
    (cap : Nat) (shift : Bool) (f : Nat → Nat → Nat → Nat → Nat) (hc : cap < 25) :
    ∀ e ∈ intRows vv vx vi cap shift f, rowTaken t d a e := by
  simp only [intRows, List.forall_mem_cons, List.not_mem_nil, false_imp_iff, implies_true, and_true]
  exact ⟨⟨hc, b, ha, hb⟩, ⟨hc, b, ha⟩, ⟨hc, b, ha⟩⟩
theorem taken_append {t : Thread} {d a : Reg} {l r : List VRow} (hl : ∀ e ∈ l, rowTaken t d a e) (hr : ∀ e ∈ r, rowTaken t d a e) :
    ∀ e ∈ l ++ r, rowTaken t d a e := List.forall_mem_append.2 ⟨hl, hr⟩
theorem integer_rows_taken {t : Thread} {d a b : Reg} (ha : t.groupOk a) (hb : t.groupOk b) :
    ∀ e ∈ vectorIntegerRows ++ vectorMoveRows, rowTaken t d a e := by
  refine taken_append ?_ ?_
  · unfold vectorIntegerRows
    iterate 21 refine taken_append ?_ (intRows_taken ha hb _ _ _ _ _ _ (by decide))
    exact intRows_taken ha hb _ _ _ _ _ _ (by decide)
  · simp only [vectorMoveRows, List.forall_mem_cons, List.not_mem_nil, false_imp_iff, implies_true, and_true]
    have h3 : 3 < 25 := by decide
    exact ⟨⟨h3, b, hb⟩, ⟨h3, b, trivial⟩, h3, b, trivial⟩
theorem float_rows_taken {t : Thread} {d a b : Reg} (ha : t.groupOk a) (hb : t.groupOk b) (h8 : t.sew ≠ 8) :
    ∀ e ∈ vectorFloatRows, rowTaken t d a e := by
  have hc : fpCapAt t < 25 := by
    unfold fpCapAt
    split
    · decide
    · split <;> decide
  have h : ∀ vv vx f, ∀ e ∈ fpRows vv vx f, rowTaken t d a e := fun vv vx f => by
    simp only [fpRows, List.forall_mem_cons, List.not_mem_nil, false_imp_iff, implies_true, and_true]
    exact ⟨⟨hc, b, h8, ha, hb⟩, hc, b, h8, ha⟩
  simp only [vectorFloatRows, List.forall_mem_append, List.forall_mem_cons, List.not_mem_nil, false_imp_iff, implies_true, and_true]
  exact ⟨by and_intros <;> exact h _ _ _, ⟨hc, b, h8, ha⟩, ⟨hc, b, h8, ha⟩, ⟨hc, b, h8, ha⟩, hc, b, h8, ha⟩
theorem witness_VectorArithmeticResults : (∀ e ∈ vectorIntegerRows ++ vectorMoveRows, rowMet e) ∧ (∀ e ∈ vectorFloatRows, rowMet e) ∧
    vectorReady at32 :=
  ⟨fun e he => ⟨at32, vectorReady_at32, integer_rows_taken vectorReady_at32.2.2.2.2.1 vectorReady_at32.2.2.2.2.2.1 e he⟩,
    fun e he => ⟨at32, vectorReady_at32,
      float_rows_taken vectorReady_at32.2.2.2.2.1 vectorReady_at32.2.2.2.2.2.1 (by decide +kernel) e he⟩, vectorReady_at32⟩

/-- A row of the conversions is met by one of the six threads. -/
theorem witness_VectorConversionResults : (∀ e ∈ vectorConversionRows, rowMet e) ∧ at8of32.thr.sew = 8 ∧ at8of32.thr.sew2 ≠ 8 ∧
    at8of32.thr.secondOk 8 := by
  refine ⟨?_, by decide +kernel, by decide +kernel, vectorReady_at8of32.2.2.2.2.2.2.1⟩
  simp only [vectorConversionRows, vfcvtTable, List.map_cons, List.map_nil, List.forall_mem_append, List.forall_mem_cons,
    List.not_mem_nil, false_imp_iff, implies_true, and_true]
  have a := vectorReady_at32of8.2.2.2.2.2.2.1
  have b := vectorReady_at8of32.2.2.2.2.2.2.1
  have c := vectorReady_at32.2.2.2.2.2.2.1
  have g := vectorReady_at32of16.2.2.2.2.2.2.1
  have h := vectorReady_at16.2.2.2.2.2.2.1
  refine ⟨⟨⟨⟨at32of16, vectorReady_at32of16, by decide, 0, rfl, by decide +kernel, g⟩, ⟨at32, vectorReady_at32, by decide, 1, rfl, by decide +kernel, c⟩,
    ⟨at32, vectorReady_at32, by decide, 2, rfl, by decide +kernel, c⟩, ⟨at32, vectorReady_at32, by decide, 3, rfl, by decide +kernel, c⟩,
    ⟨at32, vectorReady_at32, by decide, 4, rfl, by decide +kernel, c⟩, ⟨at16, vectorReady_at16, by decide, 5, rfl, by decide +kernel, h⟩,
    ⟨at16, vectorReady_at16, by decide, 6, rfl, by decide +kernel, h⟩, ⟨at32of8, vectorReady_at32of8, by decide, 7, rfl, by decide +kernel, a⟩,
    ⟨at32of8, vectorReady_at32of8, by decide, 8, rfl, by decide +kernel, a⟩, ⟨at8of32, vectorReady_at8of32, by decide, 9, rfl, by decide +kernel, b⟩,
    ⟨at8of32, vectorReady_at8of32, by decide, 10, rfl, by decide +kernel, b⟩⟩,
    ⟨at32of8, vectorReady_at32of8, by decide, 0, by decide +kernel, a⟩,
    ⟨at32of8, vectorReady_at32of8, by decide, 0, by decide +kernel, a⟩,
    ⟨at8of32, vectorReady_at8of32, by decide, 0, by decide +kernel, rfl, b⟩,
    ⟨at8of32, vectorReady_at8of32, by decide, 1, by decide +kernel, rfl, b⟩,
    ⟨at8of32, vectorReady_at8of32, by decide, 2, by decide +kernel, rfl, b⟩,
    ⟨at8of32, vectorReady_at8of32, by decide, 3, by decide +kernel, rfl, b⟩⟩, ?_⟩
  have w : at32of8.thr.sew ≠ 8 ∧ at32of8.thr.sew2 = 8 := by decide +kernel
  have v : (8 : Reg).toNat + 2 ≤ 32 ∧ (8 : Reg).toNat + 2 ≤ at32of8.thr.hdr.vregs := by decide +kernel
  and_intros <;> exact ⟨at32of8, vectorReady_at32of8, by decide, 0, w.1, w.2, a, v.1, v.2⟩
/-- Three threads for the residue words, the mixed widths and the slices. -/
theorem witness_VectorResidueResults : (∀ e ∈ vectorResidueRows, rowMet e) ∧
    (at8of32.thr.secondOk 8 ∧ at8of32.thr.sew2 ≠ 8 ∧ (0 : Reg).toNat < vtSlices at8of32.thr.vtype ∧ at8of32.thr.sew = 8) ∧
    at32.thr.secondOk 8 ∧ at32.thr.sew2 ≠ 8 ∧ at32.thr.sew ≠ 8 := by
  have g8 := vectorReady_at32.2.2.2.2.1
  have g12 := vectorReady_at32.2.2.2.2.2.1
  have c := vectorReady_at32.2.2.2.2.2.2.1
  have c12 := vectorReady_at32.2.2.2.2.2.2.2.1
  have w : at32.thr.sew = 32 ∧ at32.thr.sew2 = 32 := by decide +kernel
  refine ⟨?_, ⟨vectorReady_at8of32.2.2.2.2.2.2.1, by decide +kernel, by decide +kernel, by decide +kernel⟩, c, by rw [w.2]; decide, by rw [w.1]; decide⟩
  simp only [vectorResidueRows, List.forall_mem_cons, List.not_mem_nil, false_imp_iff, implies_true, and_true]
  have le : at32.thr.sew2 ≤ at32.thr.sew := Nat.le_of_eq (w.2.trans w.1.symm)
  have n8 : at32.thr.sew ≠ 8 ∧ at32.thr.sew2 ≠ 8 := by rw [w.1, w.2]; decide
  have f : fpCapAt at32.thr < 25 := by decide +kernel
  refine ⟨?_, ?_, ?_, ?_, ?_, ?_, ?_, ?_, ?_, ?_, ?_, ?_, ?_⟩
  · exact ⟨at32, vectorReady_at32, by decide, 0, w.1, c⟩
  iterate 4 exact ⟨at32, vectorReady_at32, by decide, 12, w.1, g8, g12⟩
  · exact ⟨at32, vectorReady_at32, by decide, 0, w.1, g8⟩
  iterate 4 exact ⟨at32, vectorReady_at32, by decide, 12, le, g8, c12⟩
  · exact ⟨at32, vectorReady_at32, f, 12, n8.1, n8.2, le, g8, c12⟩
  · exact ⟨at32, vectorReady_at32, by decide, 12, w.1, w.2, g8, g12⟩
  · exact ⟨at32of8, vectorReady_at32of8, by decide, 0, by decide +kernel, by decide +kernel, vectorReady_at32of8.2.2.2.2.2.2.1⟩

/-- A row of the comparisons and operations on predicates has such a thread. -/
def predRowMet (e : PRow) : Prop := ∃ s, vectorReady s ∧ e.cap s.thr < 25 ∧ ∃ a b, e.ok s.thr a b
theorem witness_PredicateResults : ∀ e ∈ compareRows ++ predicateRows, predRowMet e := by
  have g8 := vectorReady_at32.2.2.2.2.1
  have g12 := vectorReady_at32.2.2.2.2.2.1
  have p1 := vectorReady_at32.2.2.2.2.2.2.2.2.1
  have p23 := vectorReady_at32.2.2.2.2.2.2.2.2.2.1
  have w : at32.thr.sew = 32 ∧ at32.thr.sew ≠ 8 := by decide +kernel
  have f : fpCapAt at32.thr < 25 := by decide +kernel
  have i : ∀ c ∈ integerConditions, ∀ e ∈ [
      (⟨fun d a b p => .vcmpVv d a b p c.1 c.2, fun t a b => t.groupOk a ∧ t.groupOk b, fun _ => 3,
        fun t a b _ i => (conditionOn c.1 c.2 t.sew (elemAt t a i) (elemAt t b i), 0)⟩ : PRow),
      ⟨fun d a b p => .vcmpVx d a b p c.1 c.2, fun t a _ => t.groupOk a, fun _ => 3,
        fun t a b _ i => (conditionOn c.1 c.2 t.sew (elemAt t a i) (xLow t b), 0)⟩], predRowMet e := by
    intro c _
    simp only [List.forall_mem_cons, List.not_mem_nil, false_imp_iff, implies_true, and_true]
    exact ⟨⟨at32, vectorReady_at32, (by decide : 3 < 25), 8, 12, g8, g12⟩, at32, vectorReady_at32, (by decide : 3 < 25), 8, 0, g8⟩
  simp only [compareRows, predicateRows, List.forall_mem_append, List.forall_mem_cons, List.not_mem_nil, false_imp_iff,
    implies_true, and_true]
  refine ⟨⟨?_, ?_⟩, ?_⟩
  · intro e he
    obtain ⟨c, hc, h⟩ := List.mem_flatMap.1 he
    exact i c hc e h
  · intro e he
    obtain ⟨c, -, h⟩ := List.mem_flatMap.1 he
    simp only [List.mem_cons, List.not_mem_nil, or_false] at h
    rcases h with rfl | rfl
    · exact ⟨at32, vectorReady_at32, f, 8, 12, w.2, g8, g12⟩
    · exact ⟨at32, vectorReady_at32, f, 8, 0, w.2, g8⟩
  · refine ⟨?_, ?_, ?_, ?_, ?_, ?_, ?_, ?_, ?_⟩
    iterate 3 exact ⟨at32, vectorReady_at32, by decide, 1, 23, p1, p23⟩
    · exact ⟨at32, vectorReady_at32, by decide, 1, 0, p1⟩
    iterate 2 exact ⟨at32, vectorReady_at32, by decide, 1, 0, trivial⟩
    iterate 2 exact ⟨at32, vectorReady_at32, by decide, 1, 0, p1⟩
    · exact ⟨at32, vectorReady_at32, by decide, 8, 0, w.1, g8⟩
theorem witness_PermutationResults : ∀ e ∈ permuteRows, rowMet e := by
  have g8 := vectorReady_at32.2.2.2.2.1
  have g12 := vectorReady_at32.2.2.2.2.2.1
  simp only [permuteRows, List.forall_mem_cons, List.not_mem_nil, false_imp_iff, implies_true, and_true]
  exact ⟨⟨at32, vectorReady_at32, by decide, 0, g8⟩, ⟨at32, vectorReady_at32, by decide, 0, g8⟩,
    ⟨at32, vectorReady_at32, by decide, 12, g8, g12⟩, ⟨at32, vectorReady_at32, by decide, 0, g8⟩, at32, vectorReady_at32, by decide, 0, trivial⟩
theorem witness_ReductionResults : vectorReady at32 ∧ at32.thr.sew ≠ 8 ∧ (31 : Reg).toNat < at32.thr.hdr.vregs :=
  ⟨vectorReady_at32, by decide +kernel, by decide +kernel⟩

/-- A thread with VL = 0 for the rows that SEW 32 and SEW2 32 suit. -/
def empty32 : State := withVl machine0 0x000A 0
theorem witness_VlZeroExecutesNothing :
    (∀ e ∈ vectorIntegerRows ++ vectorMoveRows ++ vectorFloatRows, rowTaken empty32.thr 4 8 e) ∧
    (∀ c < 25, empty32.vectorFit [c]) ∧ empty32.thr.vectorOk ∧ empty32.thr.vl = 0 ∧ empty32.thr.groupOk 4 ∧ empty32.thr.predOk 1 ∧
    empty32.thr.predDestOk 2 ∧ empty32.thr.predOk 3 := by
  have g : empty32.thr.groupOk 8 ∧ empty32.thr.groupOk 12 := by unfold Thread.groupOk; decide +kernel
  refine ⟨?_, ?_⟩
  · intro e he
    rcases List.mem_append.1 he with h | h
    · exact integer_rows_taken g.1 g.2 e h
    · exact float_rows_taken g.1 g.2 (by decide +kernel) e h
  · unfold State.vectorFit State.fit Thread.vectorOk Thread.groupOk Thread.predOk Thread.predDestOk
    and_intros <;> decide +kernel
/-- Threads with VL = 0 and SEW 8 beside SEW2 32, for the rows and the conversions that these widths suit. -/
def empty8of32 : State := withVl machine0 0x0808 0
def empty32of8 : State := withVl machine0 0x0002 0
theorem witness_VlZeroExecutesNothing_others :
    (∀ s ∈ [empty8of32, empty32of8], (∀ c < 25, s.vectorFit [c]) ∧ s.thr.vectorOk ∧ s.thr.vl = 0 ∧ s.thr.groupOk 4 ∧ s.thr.groupOk 8 ∧ s.thr.predOk 1 ∧
      s.thr.secondOk 8) ∧ empty8of32.thr.sew = 8 ∧ empty8of32.thr.sew2 ≠ 8 ∧ (0 : Reg).toNat < vtSlices empty8of32.thr.vtype ∧
    empty32of8.thr.sew ≠ 8 ∧ empty32of8.thr.sew2 = 8 ∧ empty32.thr.sew2 ≠ 8 ∧ (31 : Reg).toNat < empty32.thr.hdr.vregs := by
  unfold State.vectorFit State.fit Thread.vectorOk Thread.groupOk Thread.predOk Thread.secondOk
  decide +kernel
/-- Threads with VL = 0 at SEW2 64, with a bound stream register, and with an open window of each operation. -/
def empty32of64 : State := withVl machine0 0x000E 0
def emptyStream (n : Nat) : State := { empty32 with thr := { empty32.thr with binds := [(2, ⟨launchToken, 0x20000, 64, n, 0, none⟩)] } }
def emptyWindow (o : ChOp) : State := { empty32 with thr := { empty32.thr with window := some ⟨o, 32, 0x20000, 3, [], 0, []⟩ } }
theorem witness_VlZeroExecutesNothing_memory :
    (empty32.thr.groupOk 4 ∧ empty32.thr.secondOk 8 ∧ empty32.thr.predOk 1 ∧ empty32.thr.predDestOk 2 ∧ empty32.thr.supervisor = false ∧
      segmentOk empty32.thr 4 7 ∧ 8 * elemBytes .e32 ≤ empty32.thr.sew) ∧
    (∀ e : ElemWidth, Assoc.get? (emptyStream (elemBytes e)).thr.binds (2 : Reg).toNat = some ⟨launchToken, 0x20000, 64, elemBytes e, 0, none⟩) ∧
    (empty8of32.thr.sew = 8 ∧ (30 : Reg).toNat + 2 ≤ empty8of32.thr.hdr.vregs) ∧
    ((∀ c < 25, empty32of64.vectorFit [c]) ∧ empty32of64.thr.vectorOk ∧ empty32of64.thr.vl = 0 ∧ 32 ≤ empty32of64.thr.sew ∧
      empty32of64.thr.sew2 = 64 ∧ empty32of64.thr.secondOk 8 ∧ empty32of64.thr.groupOk 4) ∧
    (∀ x ∈ churnTable, ∃ w, (emptyWindow x.2).thr.window = some w ∧ w.op = x.2 ∧ w.bits = (emptyWindow x.2).thr.sew ∧
      (emptyWindow x.2).thr.vl = 0) ∧
    (empty32.vectorFit [3, 4] ∧ empty32.thr.groupOk 8 ∧ empty32.thr.micro = none) := by
  refine ⟨?_, fun e => (by cases e <;> rfl), by decide +kernel, ?_, fun x _ => ⟨_, rfl, rfl, ?_⟩, ?_⟩
  · unfold Thread.groupOk Thread.secondOk Thread.predOk Thread.predDestOk segmentOk; decide +kernel
  · unfold State.vectorFit State.fit Thread.vectorOk Thread.groupOk Thread.secondOk; decide +kernel
  · have h : ∀ o : ChOp, 32 = (emptyWindow o).thr.sew ∧ (emptyWindow o).thr.vl = 0 := fun o => by cases o <;> decide +kernel
    exact h _
  · unfold State.vectorFit State.fit Thread.groupOk; decide +kernel
/-- Four elements of 32 bits: base x10, stride x11 and index group 12 that lay them side by side, and the local store at x7. -/
def vectors0 : State :=
  withX (withVl (withElems (withElems (withMem places0 0x20000 [1, 2, 3, 4, 5]) 12 32 [0, 4, 8, 12]) 4 32 [7, 8, 9, 10]) 0x000A 4)
    [(10, 0x20000), (11, 4), (7, BitVec.ofNat 64 localBase)]
/-- Where element `i` of 4 bytes lies. -/
def side (i : Nat) : Place := .device (0x20000 + 4 * i)

theorem vectors0_ready : vectors0.vectorFit [3] ∧ vectors0.vectorFit [24] ∧ vectors0.vectorFit [22] ∧ vectors0.thr.vectorOk ∧
    vectors0.thr.vl ≠ 0 ∧ vectors0.thr.groupOk 4 ∧ vectors0.thr.secondOk 12 ∧ vectors0.thr.predOk 0 ∧ 8 * elemBytes .e32 ≤ vectors0.thr.sew := by
  unfold State.vectorFit State.fit Thread.vectorOk Thread.groupOk Thread.secondOk Thread.predOk
  and_intros <;> decide +kernel
theorem vectors0_still : vectors0.thr.atStart ∧ ∀ rs, vectors0.calm rs :=
  ⟨atStart_of_empty (by decide +kernel), calm_of_empty (by decide +kernel)⟩
theorem vectors0_unit : (∀ i ∈ vectors0.thr.actives 0, vectors0.loadable (unitAddr vectors0.thr 10 11 .e32 i) 4 (side i)) ∧
    ∀ i ∈ vectors0.thr.actives 0, vectors0.storable (unitAddr vectors0.thr 10 11 .e32 i) 4 (side i) := by
  have h : ∀ i ∈ vectors0.thr.actives 0, (mayAccess vectors0 .load (unitAddr vectors0.thr 10 11 .e32 i) 4 (side i) &&
      !vectors0.badData vectors0.thr (side i) 4) = true ∧ (mayAccess vectors0 .store (unitAddr vectors0.thr 10 11 .e32 i) 4 (side i) &&
      !vectors0.badStore vectors0.thr (side i) 4) = true := by decide +kernel
  exact ⟨fun i hi => of_mayLoad (h i hi).1, fun i hi => of_mayStore (h i hi).2⟩
theorem vectors0_rows : (∀ i ∈ vectors0.thr.actives 0, unitAddr vectors0.thr 10 12 .e32 i = unitAddr vectors0.thr 10 11 .e32 i ∧
    strideAddr vectors0.thr 10 11 .e32 i = unitAddr vectors0.thr 10 11 .e32 i ∧
    indexAddr vectors0.thr 10 12 .e32 i = unitAddr vectors0.thr 10 11 .e32 i) := by decide +kernel
theorem witness_VectorLoadResults : (vectors0.thr.atStart ∧ ∀ rs, vectors0.calm rs) ∧
    ∀ r ∈ vectorLoadRows, ∃ b, vectors0.vectorFit [r.cap] ∧ (r.indexed = true → vectors0.thr.secondOk b) ∧
    ∀ i ∈ vectors0.thr.actives 0, vectors0.loadable (r.addr vectors0.thr 10 b .e32 i) 4 (side i) := by
  have g := vectors0_ready
  have u := vectors0_unit.1
  have e := vectors0_rows
  refine ⟨vectors0_still, ?_⟩
  simp only [vectorLoadRows, List.forall_mem_cons, List.not_mem_nil, false_imp_iff, implies_true, and_true]
  exact ⟨⟨11, g.1, fun h => (by cases h), u⟩, ⟨11, g.2.1, fun h => (by cases h), fun i hi => (e i hi).2.1 ▸ u i hi⟩,
    12, g.2.1, fun _ => g.2.2.2.2.2.2.1, fun i hi => (e i hi).2.2 ▸ u i hi⟩
theorem witness_VectorStoreResults : ∀ r ∈ vectorStoreRows, ∃ b, vectors0.vectorFit [r.cap] ∧ (r.indexed = true → vectors0.thr.secondOk b) ∧
    ∀ i ∈ vectors0.thr.actives 0, vectors0.storable (r.addr vectors0.thr 10 b .e32 i) 4 (side i) := by
  have g := vectors0_ready
  have u := vectors0_unit.2
  have e := vectors0_rows
  simp only [vectorStoreRows, List.forall_mem_cons, List.not_mem_nil, false_imp_iff, implies_true, and_true]
  exact ⟨⟨11, g.1, fun h => (by cases h), u⟩, ⟨11, g.2.1, fun h => (by cases h), fun i hi => (e i hi).2.1 ▸ u i hi⟩,
    12, g.2.1, fun _ => g.2.2.2.2.2.2.1, fun i hi => (e i hi).2.2 ▸ u i hi⟩

/-- `vldff` that stops at element 96, where the mapping ends. -/
theorem witness_VectorLoadResults_trimmed : trim0.vectorFit [3] ∧ trim0.thr.vectorOk ∧ trim0.thr.groupOk 8 ∧ 96 ∈ trim0.thr.actives 0 ∧
    0 ∈ trim0.thr.actives 0 ∧
    (∀ i ∈ trim0.thr.actives 0, i < 96 → trim0.loadable (unitAddr trim0.thr 10 0 .e8 i) 1 (.device (0x4FFA0 + i))) ∧
    (trim0.thr.atStart ∧ ∀ rs, trim0.calm rs) ∧
    (match trim0.place .load (unitAddr trim0.thr 10 0 .e8 96) 1 with | .ok _ => false | .error _ => true) = true := by
  have h : ∀ i ∈ trim0.thr.actives 0, i < 96 → (mayAccess trim0 .load (unitAddr trim0.thr 10 0 .e8 i) 1 (.device (0x4FFA0 + i)) &&
      !trim0.badData trim0.thr (.device (0x4FFA0 + i)) 1) = true := by decide +kernel
  refine ⟨?_, ?_, ?_, by decide +kernel, by decide +kernel, fun i hi hl => of_mayLoad (h i hi hl),
    ⟨atStart_of_empty (by decide +kernel), calm_of_empty (by decide +kernel)⟩, by decide +kernel⟩
  · unfold State.vectorFit State.fit; decide +kernel
  · unfold Thread.vectorOk; decide +kernel
  · unfold Thread.groupOk; decide +kernel

/-- `vldff` that stops at element 16, whose byte carries an uncorrectable error. -/
def spoiltTrim : State := { withVl vectors0 0x0000 20 with badMem := [(0x20010, 0)] }
theorem witness_VectorLoadResults_spoilt : 16 ∈ spoiltTrim.thr.actives 0 ∧ 0 ∈ spoiltTrim.thr.actives 0 ∧
    (∀ i ∈ spoiltTrim.thr.actives 0, i < 16 → spoiltTrim.loadable (unitAddr spoiltTrim.thr 10 0 .e8 i) 1 (.device (0x20000 + i))) ∧
    placed spoiltTrim .load (unitAddr spoiltTrim.thr 10 0 .e8 16) 1 (.device 0x20010) = true ∧
    spoiltTrim.badData spoiltTrim.thr (.device 0x20010) 1 = true := by
  have h : ∀ i ∈ spoiltTrim.thr.actives 0, i < 16 → (mayAccess spoiltTrim .load (unitAddr spoiltTrim.thr 10 0 .e8 i) 1 (.device (0x20000 + i)) &&
      !spoiltTrim.badData spoiltTrim.thr (.device (0x20000 + i)) 1) = true := by decide +kernel
  exact ⟨by decide +kernel, by decide +kernel, fun i hi hl => of_mayLoad (h i hi hl), by decide +kernel, by decide +kernel⟩

/-- A COPY of the thread, done, to 16 bytes at 0x20000, with a stream register bound to it at element 1. -/
def feed : Tether :=
  { Tether.blank .copy 0 0 0 thread0.key ⟨0, 0⟩ with
    index := 9, gen := 1, state := .done, progress := 16, owner := some thread0.key, ops := (0x50000, 0x20000, 0x20), layout := [(4, 4)] }
def feedBind : StreamBind := ⟨tetherToken feed, 0x20000, 16, 4, 1, none⟩
def streams0 : State :=
  let s := withX (withVl vectors0 0x000A 3) [(5, tetherToken feed), (6, 2)]
  { s.setProc 0 0 { Process.fresh with live := true, root := 1 } with
    tethers := [feed], thr := { s.thr with binds := [(2, feedBind)] } }
theorem streams0_has (n : Nat) (h : n ≤ 3) : streamHas streams0 2 feedBind n := by
  refine ⟨by decide, by decide +kernel, ?_, ?_⟩
  · show (1 + n) * 4 ≤ 16; omega
  · have : (streams0.arrived feedBind).1 = 16 := by decide +kernel
    rw [this]; show (1 + n) * 4 ≤ 16; omega
theorem witness_VectorLoadResults_stream : streams0.vectorFit [3] ∧ streams0.thr.supervisor = false ∧
    streamHas streams0 2 feedBind (streams0.thr.actives 0).length ∧ feedBind.bytes = elemBytes .e32 ∧
    (streams0.thr.atStart ∧ ∀ rs, streams0.calm rs) ∧
    ∀ k < (streams0.thr.actives 0).length, streams0.loadable (streamAddr feedBind k) 4 (.device (0x20004 + 4 * k)) := by
  have l : (streams0.thr.actives 0).length = 3 := by decide +kernel
  have h : ∀ k < 3, (mayAccess streams0 .load (streamAddr feedBind k) 4 (.device (0x20004 + 4 * k)) &&
      !streams0.badData streams0.thr (.device (0x20004 + 4 * k)) 4) = true := by decide +kernel
  exact ⟨by unfold State.vectorFit State.fit; decide +kernel, by decide +kernel, by rw [l]; exact streams0_has 3 (by decide), rfl,
    ⟨atStart_of_empty (by decide +kernel), calm_of_empty (by decide +kernel)⟩,
    fun k hk => of_mayLoad (h k (by rwa [l] at hk))⟩
theorem witness_StreamResults : streams0.scalarFit [17] ∧ streams0.thr.supervisor = false ∧ streams0.myTether? (streams0.xr 5) = some feed ∧
    (toWindow feed = true → feed.issuer = streams0.thr.key) ∧ (streams0.xr 6).toNat < 4 ∧
    feed.ops.2.1.toNat % 2 ^ (streams0.xr 6).toNat = 0 ∧ copyEsz feed.ops.2.2 * volume feed.layout % 2 ^ (streams0.xr 6).toNat = 0 ∧
    Assoc.get? streams0.thr.binds 2 = some feedBind ∧ streamHas streams0 2 feedBind 1 ∧
    streams0.loadable (streamAddr feedBind 0) feedBind.bytes (.device 0x20004) ∧ ∀ rs, streams0.calm rs :=
  ⟨by unfold State.scalarFit State.fit; decide +kernel, rfl, by decide +kernel, by decide +kernel, by decide +kernel, by decide +kernel, by decide +kernel,
    by decide +kernel, streams0_has 1 (by decide), of_mayLoad (by decide +kernel), calm_of_empty (by decide +kernel)⟩

/-- Seven fields of two segments of bytes; the 32 bytes of the places of an MX block; the bytes of a predicate. -/
def segments0 : State := withVl vectors0 0x0000 2
theorem witness_SegmentResults_fields : segments0.vectorFit [3] ∧ segments0.thr.vectorOk ∧ segments0.thr.vl ≠ 0 ∧
    segmentOk segments0.thr 8 7 ∧ (segments0.thr.atStart ∧ ∀ rs, segments0.calm rs) ∧
    (∀ i ∈ segments0.thr.actives 0, ∀ f < 8, segments0.loadable (fieldAddr segments0.thr 10 8 .e8 i f) 1 (.device (0x20000 + (i * 8 + f))) ∧
      segments0.storable (fieldAddr segments0.thr 10 8 .e8 i f) 1 (.device (0x20000 + (i * 8 + f)))) := by
  have h : ∀ i ∈ segments0.thr.actives 0, ∀ f < 8, (mayAccess segments0 .load (fieldAddr segments0.thr 10 8 .e8 i f) 1 (.device (0x20000 + (i * 8 + f))) &&
      !segments0.badData segments0.thr (.device (0x20000 + (i * 8 + f))) 1) = true ∧
      (mayAccess segments0 .store (fieldAddr segments0.thr 10 8 .e8 i f) 1 (.device (0x20000 + (i * 8 + f))) &&
      !segments0.badStore segments0.thr (.device (0x20000 + (i * 8 + f))) 1) = true := by decide +kernel
  refine ⟨?_, ?_, by decide +kernel, ?_, ⟨atStart_of_empty (by decide +kernel), calm_of_empty (by decide +kernel)⟩,
    fun i hi f hf => ⟨of_mayLoad (h i hi f hf).1, of_mayStore (h i hi f hf).2⟩⟩
  · unfold State.vectorFit State.fit; decide +kernel
  · unfold Thread.vectorOk; decide +kernel
  · unfold segmentOk; decide +kernel
def blocks0 : State := withVl vectors0 0x0000 64
theorem witness_SegmentResults_blocks : ∀ f : MxFmt, (blocks0.thr.atStart ∧ ∀ rs, blocks0.calm rs) ∧ blocks0.thr.sew = 8 ∧ blocks0.thr.vl % 32 = 0 ∧ (30 : Reg).toNat + 2 ≤ blocks0.thr.hdr.vregs ∧
    ∀ j ∈ activeBlocks blocks0.thr 0, ∀ k < mxBlockBytes f,
      blocks0.loadable (blockAddr blocks0.thr 10 f j k) 1 (.device (0x20000 + (j * mxBlockBytes f + k))) ∧
      blocks0.storable (blockAddr blocks0.thr 10 f j k) 1 (.device (0x20000 + (j * mxBlockBytes f + k))) := by
  intro f
  have h : ∀ j ∈ activeBlocks blocks0.thr 0, ∀ k < mxBlockBytes f,
      (mayAccess blocks0 .load (blockAddr blocks0.thr 10 f j k) 1 (.device (0x20000 + (j * mxBlockBytes f + k))) &&
        !blocks0.badData blocks0.thr (.device (0x20000 + (j * mxBlockBytes f + k))) 1) = true ∧
      (mayAccess blocks0 .store (blockAddr blocks0.thr 10 f j k) 1 (.device (0x20000 + (j * mxBlockBytes f + k))) &&
        !blocks0.badStore blocks0.thr (.device (0x20000 + (j * mxBlockBytes f + k))) 1) = true := by cases f <;> decide +kernel
  exact ⟨⟨atStart_of_empty (by decide +kernel), calm_of_empty (by decide +kernel)⟩, by decide +kernel, by decide +kernel, by decide +kernel,
    fun j hj k hk => ⟨of_mayLoad (h j hj k hk).1, of_mayStore (h j hj k hk).2⟩⟩
theorem witness_SegmentResults_predicates : vectors0.thr.predDestOk 23 ∧
    ∀ k < (vectors0.thr.vl + 7) / 8, vectors0.loadable (vectors0.xr 10 + BitVec.ofNat 64 k) 1 (.device (0x20000 + k)) ∧
      vectors0.storable (vectors0.xr 10 + BitVec.ofNat 64 k) 1 (.device (0x20000 + k)) := by
  have h : ∀ k < (vectors0.thr.vl + 7) / 8, (mayAccess vectors0 .load (vectors0.xr 10 + BitVec.ofNat 64 k) 1 (.device (0x20000 + k)) &&
      !vectors0.badData vectors0.thr (.device (0x20000 + k)) 1) = true ∧
      (mayAccess vectors0 .store (vectors0.xr 10 + BitVec.ofNat 64 k) 1 (.device (0x20000 + k)) &&
      !vectors0.badStore vectors0.thr (.device (0x20000 + k)) 1) = true := by decide +kernel
  exact ⟨by unfold Thread.predDestOk; decide +kernel, fun k hk => ⟨of_mayLoad (h k hk).1, of_mayStore (h k hk).2⟩⟩

/-- Two words at one place, each equal to the element that `vwait` compares it with. -/
def watched0 : State := withElems vamo0 4 32 [5, 5]
theorem witness_VectorAtomicResults : watched0.vectorFit [22] ∧ watched0.thr.vectorOk ∧ watched0.thr.vl ≠ 0 ∧ watched0.thr.sq = [] ∧
    (watched0.breaks = [] ∧ watched0.thr.atStart) ∧
    32 ≤ watched0.thr.sew ∧ watched0.thr.sew2 = 64 ∧ watched0.thr.secondOk 2 ∧ watched0.thr.groupOk 4 ∧ watched0.thr.groupOk 1 ∧
    watched0.thr.predOk 0 ∧ (∀ _ : Nat, userPlace (.device 0x30000)) ∧
    ∀ i ∈ watched0.thr.actives 0, watched0.accessible .atomic (BitVec.ofNat 64 (elem2At watched0.thr 2 i)) 4 (.device 0x30000) ∧
      watched0.accessible .atomicRead (BitVec.ofNat 64 (elem2At watched0.thr 2 i)) 4 (.device 0x30000) ∧
      watched0.badData watched0.thr (.device 0x30000) 4 = false ∧
      waitHolds .eq 32 (watched0.number (.device 0x30000) 4) (elemAt watched0.thr 4 i) = true := by
  have h : ∀ i ∈ watched0.thr.actives 0, mayAccess watched0 .atomic (BitVec.ofNat 64 (elem2At watched0.thr 2 i)) 4 (.device 0x30000) = true ∧
      mayAccess watched0 .atomicRead (BitVec.ofNat 64 (elem2At watched0.thr 2 i)) 4 (.device 0x30000) = true ∧
      watched0.badData watched0.thr (.device 0x30000) 4 = false ∧
      waitHolds .eq 32 (watched0.number (.device 0x30000) 4) (elemAt watched0.thr 4 i) = true := by decide +kernel
  refine ⟨?_, ?_, by decide +kernel, by decide +kernel, ⟨by decide +kernel, atStart_of_empty (by decide +kernel)⟩, by decide +kernel,
    by decide +kernel, ?_, ?_, ?_, ?_, fun _ o e => (by cases e),
    fun i hi => ⟨of_mayAccess (h i hi).1, of_mayAccess (h i hi).2.1, (h i hi).2.2⟩⟩
  · unfold State.vectorFit State.fit; decide +kernel
  · unfold Thread.vectorOk; decide +kernel
  · unfold Thread.secondOk; decide +kernel
  · unfold Thread.groupOk; decide +kernel
  · unfold Thread.groupOk; decide +kernel
  · unfold Thread.predOk; decide +kernel

theorem witness_ChurnResults_open : churn0.vectorFit [23] ∧ 32 ≤ churn0.thr.sew ∧ churn0.thr.window = none ∧
    (churn0.xr 10).toNat % (churn0.thr.sew / 8) = 0 ∧ (churn0.xr 11).toNat ≠ 0 ∧
    churn0.thr.vlen / 128 * (churn0.xr 11).toNat * (churn0.thr.sew / 8) ≤ churn0.thr.hdr.churnb ∧
    (churn0.xr 10).toNat + (churn0.xr 11).toNat * (churn0.thr.sew / 8) ≤ localBase := by
  unfold State.vectorFit State.fit; decide +kernel
theorem witness_ChurnResults_update : ∀ o : ChOp, ∃ (s : State) (c : ChurnWin), s.vectorFit [23] ∧ 32 ≤ s.thr.sew ∧ s.thr.vectorOk ∧ s.thr.vl ≠ 0 ∧
    s.thr.secondOk 8 ∧ s.thr.groupOk 12 ∧ s.thr.predOk 0 ∧ s.thr.window = some c ∧ c.op = o ∧ c.bits = s.thr.sew ∧
    ∀ i ∈ s.thr.actives 0, elem2At s.thr 8 i < c.n := by
  intro o
  refine ⟨{ churn0 with thr := { churn0.thr with window := some ⟨o, 32, 0x20000, 3, [], 0, []⟩ } }, ⟨o, 32, 0x20000, 3, [], 0, []⟩, ?_, ?_, ?_, ?_, ?_, ?_, ?_, rfl, rfl, ?_, ?_⟩
  · cases o <;> (unfold State.vectorFit State.fit; decide +kernel)
  · cases o <;> decide +kernel
  · cases o <;> (unfold Thread.vectorOk; decide +kernel)
  · cases o <;> decide +kernel
  · cases o <;> (unfold Thread.secondOk; decide +kernel)
  · cases o <;> (unfold Thread.groupOk; decide +kernel)
  · cases o <;> (unfold Thread.predOk; decide +kernel)
  · cases o <;> decide +kernel
  · cases o <;> decide +kernel
/-- A window with two copies of one table element. -/
def folding : ChurnWin := ⟨.add, 32, 0x20000, 4, [((0, 2), 4), ((1, 2), 12)], 0, []⟩
def churn2 : State := { churn0 with thr := { churn0.thr with window := some folding } }
theorem witness_ChurnResults_fold : churn2.vectorFit [23] ∧ churn2.thr.window = some folding ∧ inLaneOrder folding.copies ∧ churn2.thr.sq = [] ∧ churn2.badMem = [] ∧
    (churn2.breaks = [] ∧ churn2.thr.atStart ∧ folding.told = []) ∧
    ∀ x ∈ folding.copies, userPlace (side x.1.2) ∧
      churn2.accessible .store (folding.base + BitVec.ofNat 64 (x.1.2 * (folding.bits / 8))) (folding.bits / 8) (side x.1.2) := by
  have h : ∀ x ∈ folding.copies, mayAccess churn2 .store (folding.base + BitVec.ofNat 64 (x.1.2 * (folding.bits / 8))) (folding.bits / 8) (side x.1.2) = true := by
    decide +kernel
  exact ⟨by unfold State.vectorFit State.fit; decide +kernel, rfl, by unfold inLaneOrder; decide +kernel, by decide +kernel, by decide +kernel,
    ⟨by decide +kernel, atStart_of_empty (by decide +kernel), rfl⟩, fun x hx => ⟨fun o e => (by cases e), of_mayAccess (h x hx)⟩⟩
/-- A class D thread with tile 1 of 4 rows of 4 words, row addresses 0x20000 and 16 apart, and four elements. -/
def tiles0 : State :=
  let s := withX (withVl vectors0 0x000A 4) [(5, 0x18C3), (6, 3), (11, 16)]
  { s with thr := { s.thr with cls := 1, vlen := 4096, lanes := [0, 1, 2, 3], tshape := s.thr.tshape.set 1 0x98C3 } }
def cell (r c : Nat) : Place := .device (0x20000 + 16 * r + 4 * c)
theorem witness_TileResults : tiles0.vectorFit [12] ∧ tiles0.thr.vectorOk ∧ tiles0.thr.vl ≠ 0 ∧ tileNamed tiles0.thr 1 ∧ tileOk tiles0.thr 1 ∧
    tiles0.thr.predOk 0 ∧ tiles0.thr.groupOk 4 ∧ tiles0.thr.secondOk 12 ∧ tiles0.thr.sew = tiles0.thr.tileT 1 ∧
    (tiles0.xr 6).toNat < tiles0.thr.tileRows 1 ∧ (tiles0.xr 6).toNat < tiles0.thr.tileC 1 ∧
    outerTypes (shapeType (tiles0.thr.shape 1)) tiles0.thr.sew2 (tiles0.thr.vtype.getLsbD 4) := by
  unfold State.vectorFit State.fit Thread.vectorOk tileOk tileNamed Thread.predOk Thread.groupOk Thread.secondOk outerTypes
  and_intros <;> decide +kernel
theorem witness_TileResults_shape : (tiles0.xr 5).toNat < 2 ^ 14 ∧ (tiles0.xr 5).toNat / 1024 < 10 ∧
    4 * ((tiles0.xr 5).toNat / 64 % 16 + 1) % (tileTypeBits ((tiles0.xr 5).toNat / 1024) / 8) = 0 := by decide +kernel
theorem witness_TileResults_memory : (tiles0.thr.atStart ∧ ∀ rs, tiles0.calm rs) ∧ ∀ r c, tileRow tiles0.thr 1 0 r → c < tiles0.thr.tileC 1 →
    tiles0.loadable (tileAddr tiles0.thr 1 10 11 r c) (tiles0.thr.tileT 1 / 8) (cell r c) ∧
    tiles0.storable (tileAddr tiles0.thr 1 10 11 r c) (tiles0.thr.tileT 1 / 8) (cell r c) := by
  have h : ∀ r < 4, ∀ c < 4, (mayAccess tiles0 .load (tileAddr tiles0.thr 1 10 11 r c) (tiles0.thr.tileT 1 / 8) (cell r c) &&
      !tiles0.badData tiles0.thr (cell r c) (tiles0.thr.tileT 1 / 8)) = true ∧
      (mayAccess tiles0 .store (tileAddr tiles0.thr 1 10 11 r c) (tiles0.thr.tileT 1 / 8) (cell r c) &&
      !tiles0.badStore tiles0.thr (cell r c) (tiles0.thr.tileT 1 / 8)) = true := by decide +kernel
  have e : tiles0.thr.tileRows 1 = 4 ∧ tiles0.thr.tileC 1 = 4 := by decide +kernel
  refine ⟨⟨atStart_of_empty (by decide +kernel), calm_of_empty (by decide +kernel)⟩, fun r c hr hc => ?_⟩
  have hr4 := hr.2
  rw [e.1] at hr4
  rw [e.2] at hc
  exact ⟨of_mayLoad (h r hr4 c hc).1, of_mayStore (h r hr4 c hc).2⟩
theorem witness_TileResults_none : (withVl tiles0 0x000A 0).vectorFit [12] ∧ (withVl tiles0 0x000A 0).thr.vectorOk ∧
    (withVl tiles0 0x000A 0).thr.vl = 0 ∧ tileNamed (withVl tiles0 0x000A 0).thr 1 ∧ (withVl tiles0 0x000A 0).thr.groupOk 4 ∧
    (withVl tiles0 0x000A 0).thr.secondOk 12 := by
  unfold State.vectorFit State.fit Thread.vectorOk tileNamed Thread.groupOk Thread.secondOk
  and_intros <;> decide +kernel

/-- A thread of a partition with room for tethers; x20 to x22 hold the triple and v4 the layout of an issue. -/
def issuing (src dst ctl : Word) (dims : List (BitVec 40 × BitVec 24)) : State :=
  let s := withX (withVl matrix0 0x000E dims.length) [(20, src), (21, dst), (22, ctl)]
  withElems s 4 64 (dims.map fun d => d.1.toNat + 2 ^ 40 * d.2.toNat)
/-- The hypotheses of an issue that the operands do not decide. -/
theorem witness_TetherIssueResults : ∀ s ∈ [issuing 0x50000 0x60000 0x20 [(4, 4)], issuing 0x41000 0 0x1FC0000 [(1, 4), (4, 1)],
      issuing 0x40000 0x42000 0 [(16, 1), (4, 1)]],
    (∀ c < 25, s.vectorFit [c]) ∧ (4 : Reg).toNat < s.thr.hdr.vregs ∧ s.thr.sq = [] ∧
    s.tableRoom s.thr.key.part s.thr.core.die = true ∧ s.tethers = [] ∧ s.thr.preds = none := by
  unfold State.vectorFit State.fit
  decide +kernel
theorem witness_TetherIssueResults_copy : copyIssues (issuedBy (issuing 0x50000 0x60000 0x20 [(4, 4)]).thr 20 4) := by
  unfold copyIssues
  refine ⟨by decide +kernel, by decide +kernel, by decide +kernel, by decide +kernel, by decide +kernel, by decide +kernel, ?_, by decide +kernel⟩
  have h : ((issuedBy (issuing 0x50000 0x60000 0x20 [(4, 4)]).thr 20 4).dims.all fun x => decide (x.1.toInt %
      (2 ^ ((issuedBy (issuing 0x50000 0x60000 0x20 [(4, 4)]).thr 20 4).ctl.toNat / 16 % 4) : Nat) = 0)) = true := by decide +kernel
  exact fun x hx => of_decide_eq_true (List.all_eq_true.1 h x hx)
theorem witness_TetherIssueResults_bload : bloadIssues (issuedBy (issuing 0x41000 0 0x1FC0000 [(1, 4), (4, 1)]).thr 20 4) := by
  unfold bloadIssues; decide +kernel
theorem witness_TetherIssueResults_mma : mmaIssues (issuedBy (issuing 0x40000 0x42000 0 [(16, 1), (4, 1)]).thr 20 4) := by
  unfold mmaIssues; decide +kernel
/-- Peer set 3 of the partition. -/
def peers0 : State := { issuing 0x50000 0x60000 0x30020 [(4, 4)] with peerSets := [(3, (0x8000000000000001, 0))] }
theorem witness_TetherIssueResults_coll : collIssues peers0 (issuedBy peers0.thr 20 4) ∧ peers0.vectorFit [18] := by
  unfold collIssues State.vectorFit State.fit; decide +kernel

/-- The machine with one tether, whose token is in x5. -/
def holding (y : Tether) : State := { withX matrix0 [(5, tetherToken y)] with tethers := [y] }
/-- The tether that each clause names: attached or detached, final or not. -/
def attached (st : TState) : Tether := { copyTether with state := st, owner := some thread0.key, delivered := true }
def strange (st : TState) : Tether := { copyTether with state := st, owner := some ⟨0, 0, launchToken, 1⟩ }
def reeled (st : TState) : Tether := { copyTether with state := st, owner := none, detached := true, detacher := some thread0.key }
theorem witness_TetherControlResults :
    (∀ y ∈ [attached .queued, attached .running, attached .done, attached .faulted, attached .cancelled, strange .running, strange .done,
        reeled .queued, reeled .done], (holding y).scalarFit [] ∧ (holding y).myTether? ((holding y).xr 5) = some y ∧
        (holding y).thrPr.live = true ∧ (holding y).tetherAny? ((holding y).xr 5) = some y) ∧
    (tetherFinal (attached .faulted) = true ∧ (attached .faulted).owner = some (holding (attached .faulted)).thr.key ∧
      (attached .faulted).delivered = true) ∧
    (tetherFinal (strange .done) = true ∧ (strange .done).owner ≠ some thread0.key) ∧ tetherFinal (attached .running) = false ∧
    (attached .queued).state = .queued ∧ (attached .running).state = .running ∧ (attached .running).kind = .copy ∧
    ((reeled .done).detached = true ∧ (reeled .done).detacher = some thread0.key) ∧
    ((attached .running).detached = false ∧ (attached .running).owner = some thread0.key) ∧
    ((strange .running).owner ≠ some thread0.key ∧ (strange .running).detached = false) ∧ (5 : Reg).toNat ≤ 5 ∧
    (withX machine0 [(5, 0x10009)]).myTether? ((withX machine0 [(5, 0x10009)]).xr 5) = none := by
  unfold State.scalarFit State.fit; decide +kernel

/-- A slot bound to the worked graph, in no plane and in one, and an image whose first element breaks a rule. -/
def bound0 : State := withSlot (withX matrix0 [(12, 2), (13, 15)]) 2 ⟨some runLengths, 1⟩
def planed0 : State :=
  bound0.setCore ⟨0, 0⟩ { bound0.core ⟨0, 0⟩ with planes := [(1, ⟨0, 0, 2, 1, runLengths, 0⟩)] }
def broken0 : State := withX (withMem matrix0 0x40000 (wordsToBytes (0x40 :: 0xFF00000000000000 :: List.replicate 63 0))) [(10, 0x40000), (11, 2)]
/-- The words of an image that can be read. -/
def image (s : State) (a : Word) : Option (List Word) :=
  match s.readSpan .image a 520 with
  | .ok bs => some ((List.range 65).map fun i => BitVec.ofNat 64 (natOfBytes ((bs.drop (8 * i)).take 8)))
  | .error _ => none
theorem witness_FabricSlotResults :
    (bind0.scalarFit [] ∧ (bind0.xr 11).toNat < 16 ∧ (bind0.xr 10).toNat % 8 = 0 ∧ (image bind0 (bind0.xr 10)).map bindCode = some 0) ∧
    (broken0.scalarFit [] ∧ (broken0.xr 11).toNat < 16 ∧ (broken0.xr 10).toNat % 8 = 0 ∧
      ((image broken0 (broken0.xr 10)).map bindCode).any (fun c => decide (c ≠ 0)) = true) ∧
    (bound0.scalarFit [] ∧ (bound0.xr 12).toNat < 16 ∧ (slotOf bound0 2).graph = some runLengths ∧ planeOf bound0 2 = none ∧
      (bound0.core bound0.thr.core).loadingOf 0 0 2 (slotOf bound0 2).gen = false ∧ (bound0.core bound0.thr.core).freePlane.isSome = true) ∧
    ((bound0.xr 13).toNat = 15 ∧ (slotOf bound0 15).graph = none) ∧ (planeOf planed0 2).isSome = true := by
  unfold State.scalarFit State.fit; decide +kernel

/-- An image for each of the first four codes of R198: a header that gives no elements, an operation above 36, a field of an `nop`
that is not 0, and none of these. -/
theorem witness_FabricSlotResults_codes : (0x40 :: List.replicate 64 0 : List Word).length = 65 ∧ ((0 : Word).toNat % 2 ^ 16 = 0) ∧
    37 * 2 ^ 56 ≤ (0x2500000000000000 : Word).toNat ∧ ((1 : Word).toNat < 2 ^ 56 ∧ (1 : Word) ≠ 0) ∧
    ((0x40 : Word).toNat < 2 ^ 24 ∧ (0x40 : Word).toNat % 2 ^ 16 ≠ 0 ∧ (0x40 : Word).toNat % 2 ^ 16 ≤ 8192) ∧
    (boundFamilies 3).length ≠ 0 ∧ (meetingPaths 3 26).length ≠ 0 := by decide +kernel

/-- The same slot as stream 0 and 1 come from groups 8 and 12 into group 16, with VL 4, with VL 0, and after a fault. -/
def streaming (n : Nat) : State := withVl planed0 0x000A n
def faulted0 : State :=
  let s := streaming 4
  { s with thr := { s.thr with ffcause := 0x8000000000000207, ffidx := s.thr.ffidx.set 0 0x400000002, ffhidden := some ⟨1, [], false⟩ } }
theorem witness_FopResults : (streaming 4).vectorFit (graphCaps runLengths) ∧ fopOk (streaming 4).thr 16 8 12 0 ∧
    (slotOf (streaming 4) 2).graph = some runLengths ∧ (streaming 4).thr.ffcause.getLsbD 63 = false ∧ (streaming 4).thr.vl ≠ 0 ∧
    typeClash runLengths (streaming 4).thr.sew = false ∧ ((streaming 4).core (streaming 4).thr.core).run = none ∧
    planeOf (streaming 4) 2 = some 1 ∧ (streaming 0).vectorFit (graphCaps runLengths) ∧ fopOk (streaming 0).thr 16 8 12 0 ∧
    (slotOf (streaming 0) 2).graph = some runLengths ∧ (streaming 0).thr.ffcause.getLsbD 63 = false ∧ (streaming 0).thr.vl = 0 := by
  unfold State.vectorFit State.fit fopOk Thread.groupOk Thread.predOk
  and_intros <;> decide +kernel
theorem witness_FopResults_resumed : faulted0.vectorFit (graphCaps runLengths) ∧ fopOk faulted0.thr 16 8 12 0 ∧
    (slotOf faulted0 2).graph = some runLengths ∧ faulted0.thr.ffcause.getLsbD 63 = true ∧ bitsAt faulted0.thr.ffcause.toNat 8 4 = 2 ∧
    faulted0.thr.ffcause.toNat % 256 < 8 ∧ faulted0.thr.ffhidden.map (fun h => h.gen) = some (slotOf faulted0 2).gen ∧
    (faulted0.core faulted0.thr.core).run = none ∧ planeOf faulted0 2 = some 1 := by
  unfold State.vectorFit State.fit fopOk Thread.groupOk Thread.predOk
  and_intros <;> decide +kernel
/-! ### Witnesses: the fabric, traps and system instructions -/

/-- A run of the thread on its core, under plane 1, with a graph of one adder into an `out` and of one `ld`. -/
def adder : List Word :=
  0x40 :: (List.range 64).map fun f => match f with | 5 => 0x0583000000000000 | 6 => 0x0400000000000000 | 7 => 0x2283000000000000 | _ => 0
def run0 : FabricRun := FabricRun.start thread0 2 1 1 adder 16 8 12 0 false 4 4 0 0 0 []
def running0 (r : FabricRun) : State :=
  let s := vectors0
  { s.setCore ⟨0, 0⟩ { s.core ⟨0, 0⟩ with run := some r } with thr := { s.thr with life := .parked .fop } }
theorem runsHere_running0 (r : FabricRun) (h : r.thread = thread0.key ∧ r.stores = []) (l : (running0 r).thr.live = true)
    (k : (running0 r).thr.key = thread0.key) (c : ((running0 r).core (running0 r).thr.core).run = some r) : runsHere (running0 r) r :=
  ⟨l, c, h.1.trans k.symm, h.2⟩
/-- An element word with its first target at slot 0 of element 1. -/
def feWord (op imm cond ty flags : Nat) : Word :=
  BitVec.ofNat 64 (op * 2 ^ 56 + 260 * 2 ^ 47 + imm * 2 ^ 14 + cond * 2 ^ 10 + ty * 2 ^ 8 + flags)
/-- A run of the thread whose element 0 has the given word and the given tokens in its slots. -/
def oneFe (w : Word) (bufs : List (Nat × List Token)) : FabricRun :=
  { FabricRun.start thread0 2 1 1 (0x40 :: w :: List.replicate 63 0) 16 8 12 0 false 4 4 0 0 0 [] with
    bufs := bufs.map fun b => ((0, b.1), b.2) }
def datum (n : Word) : Token := ⟨some n, [.elem 0 0], 1⟩
def ending : Token := ⟨none, [.elem 0 4], 1⟩
theorem oneFe_runs (w : Word) (bufs : List (Nat × List Token)) : runsHere (running0 (oneFe w bufs)) (oneFe w bufs) :=
  runsHere_running0 _ ⟨rfl, rfl⟩ rfl rfl rfl
/-- Every slot that the element uses has a token, and each of them meets `p`; its target has room for two. -/
def supplied (r : FabricRun) (p : Token → Bool) : Bool :=
  r.room 0 2 && match r.heads 0 (r.fe 0).slots with | some toks => !toks.isEmpty && toks.all p | none => false
/-- An element with a token in each slot: data, ends, or data in slot 0 and ends in the others. -/
def allData (op ty flags : Nat) : FabricRun := oneFe (feWord op 0 0 ty flags) ((List.range 4).map fun q => (q, [datum 3]))
def allEnds (op ty flags : Nat) : FabricRun := oneFe (feWord op 0 0 ty flags) ((List.range 4).map fun q => (q, [ending]))
def mixed (op ty flags : Nat) : FabricRun :=
  oneFe (feWord op 0 0 ty flags) ((List.range 4).map fun q => (q, [if q = 0 then datum 3 else ending]))
theorem witness_FabricFiringResults : (∀ w bufs, runsHere (running0 (oneFe w bufs)) (oneFe w bufs)) ∧
    (computing.all fun o => supplied (allData o 0 0) (fun t => t.data.isSome) && decide (((allData o 0 0).fe 0).op = o)) = true ∧
    ((computing ++ [24, 25, 27, 30, 31, 33, 34, 35]).all fun o => supplied (allEnds o 0 0) (fun t => t.data.isNone) &&
      decide (((allEnds o 0 0).fe 0).op = o ∧ (allEnds o 0 0).fails = [] ∧ (allEnds o 0 0).loads = [])) = true ∧
    ([(5, 0), (16, 0), (19, 0), (24, 2), (25, 2), (27, 0), (30, 0), (31, 0), (33, 0), (35, 0)].all fun o =>
      match (mixed o.1 0 o.2).heads 0 ((mixed o.1 0 o.2).fe 0).slots with
      | some toks => toks.any (fun t => t.data.isSome) && toks.any fun t => t.data.isNone
      | none => false) = true :=
  ⟨oneFe_runs, by decide +kernel, by decide +kernel, by decide +kernel⟩
/-- acc and facc, plain and segmented; count on data and at its end; filter and gate; merge and isect on all pairs of tokens. -/
theorem witness_FabricFiringResults_streams :
    ([(24, 0), (24, 2), (25, 0), (25, 2), (26, 0), (27, 0), (31, 0)].all fun o =>
      supplied (allData o.1 0 o.2) (fun t => t.data.isSome) && decide (((allData o.1 0 o.2).fe 0).op = o.1 ∧
        (bit ((allData o.1 0 o.2).fe 0).flags 1) = decide (o.2 = 2))) = true ∧
    ([(24, 0), (24, 2), (25, 0), (25, 2), (26, 0)].all fun o => supplied (allEnds o.1 0 o.2) fun t => t.data.isNone) = true ∧
    ([28, 29].all fun o => supplied (allData o 0 0) (fun t => t.data.isSome) && supplied (allEnds o 0 0) (fun t => t.data.isNone) &&
      supplied (mixed o 0 0) fun _ => true) = true := by decide +kernel
/-- A dup and an agen whose count is at and beside its bounds; the agen at its first step. -/
def counted (op n : Nat) : FabricRun := oneFe (feWord op 0 0 3 0) [(0, [datum 0x20000]), (1, [datum (BitVec.ofNat 64 n)])]
theorem witness_FabricFiringResults_counts : ([0, 1, 4096, 4097].all fun n => supplied (counted 30 n) (fun t => t.data.isSome) &&
      supplied (counted 33 n) (fun t => t.data.isSome) && decide (((counted 30 n).fe 0).op = 30 ∧ ((counted 33 n).fe 0).op = 33 ∧
        (((counted 33 n).fe 0).imm % 4096 = 0) ∧ ((counted 33 n).val 0).k < 1) && !(counted 33 n).stopping) = true := by decide +kernel
/-- `in` of each stream at its first element and at its end; `out` of an element, of an end and past VLMAX; sink and eos. -/
def presenting (c n : Nat) : FabricRun := { oneFe (feWord 3 0 c 0 0) [] with next0 := n, next1 := n }
def outing (t : Token) (n : Nat) : FabricRun := { oneFe (feWord 4 0 0 0 0) [(3, [t])] with outBase := n }
theorem witness_FabricFiringResults_ports : ([0, 1].all fun c => (presenting c 0).room 0 1 && !(presenting c 0).stopping &&
      FabricRun.presents (running0 (presenting c 0)) (presenting c 0) c 0 &&
      decide (((presenting c 0).fe 0).op = 3 ∧ ((presenting c 0).fe 0).cond = c ∧ 0 < (presenting c 0).len0 ∧ (presenting c 0).ended = [] ∧
        max (presenting c 4).len0 (presenting c 4).next0 = 4)) = true ∧
    ([(ending, 0), (datum 3, 31), (datum 3, 32)].all fun e => (outing e.1 e.2).room 0 1 &&
      decide ((outing e.1 e.2).head 0 3 = some e.1 ∧ (running0 (outing e.1 e.2)).thr.vlmax = 32)) = true ∧
    ((allData 32 0 0).head 0 0).isSome = true ∧
    ([allData 36 0 0, allEnds 36 0 0].all fun r => decide (((r.fe 0).slots.find? fun q => (r.head 0 q).isSome) = some 0)) = true := by decide +kernel
/-- A ld and a st at a word that may be read and written, and a ld past the mapped addresses. -/
def accessing (op : Nat) (a : Word) : FabricRun := oneFe (feWord op 0 0 3 0) [(0, [datum a]), (1, [datum 7])]
theorem witness_FabricFiringResults_accesses : (∀ op ∈ [34, 35], ∀ a ∈ [(0x20000 : Nat), 0x4000000000], accepts (accessing op (BitVec.ofNat 64 a)) 0) ∧
    (running0 (accessing 34 0x20000)).loadable (memAddr ((accessing 34 0x20000).fe 0) 0x20000) (memWidth ((accessing 34 0x20000).fe 0)) (.device 0x20000) ∧
    (running0 (accessing 35 0x20000)).storable (memAddr ((accessing 35 0x20000).fe 0) 0x20000) (memWidth ((accessing 35 0x20000).fe 0)) (.device 0x20000) ∧
    (accessing 34 0x20000).loads = [] ∧
    (match (running0 (accessing 34 0x4000000000)).place .load (memAddr ((accessing 34 0x4000000000).fe 0) 0x4000000000)
      (memWidth ((accessing 34 0x4000000000).fe 0)) with | .ok _ => false | .error _ => true) = true := by
  refine ⟨?_, of_mayLoad (by decide +kernel), of_mayStore (by decide +kernel), by decide +kernel, by decide +kernel⟩
  unfold accepts; decide +kernel

def fed0 : FabricRun := { run0 with bufs := [((5, 0), [⟨some 3, [.elem 0 0], 1⟩]), ((5, 1), [⟨some 4, [.elem 1 0], 1⟩])] }
theorem witness_FabricFiringResults_adder : runsHere (running0 fed0) fed0 ∧ (fed0.fe 5).op = 5 ∧
    fed0.heads 5 (fed0.fe 5).slots = some [⟨some 3, [.elem 0 0], 1⟩, ⟨some 4, [.elem 1 0], 1⟩] ∧ fed0.room 5 1 = true :=
  ⟨runsHere_running0 fed0 ⟨rfl, rfl⟩ (by decide +kernel) (by decide +kernel) (by decide +kernel), by decide +kernel, by decide +kernel, by decide +kernel⟩
def loading0 : FabricRun := { run0 with loads := [⟨0, 7, 0x20000, [], [.elem 0 0]⟩] }
theorem witness_FabricStepResults_load : runsHere (running0 loading0) loading0 ∧
    (loading0.loads.find? fun x => decide (x.fe = 7)) = some ⟨0, 7, 0x20000, [], [.elem 0 0]⟩ ∧ (loading0.fe 7).ty ≠ 3 ∧
    (running0 loading0).loadable 0x20000 4 (.device 0x20000) ∧
    (∀ p ∈ (running0 loading0).thr.sq, p.seq ∉ loading0.chainedOf 7) ∧
    (∀ x ∈ loading0.loads, loading0.chainHead x.fe = loading0.chainHead 7 → 0 ≤ x.num) ∧ ∀ rs, (running0 loading0).calm rs :=
  ⟨runsHere_running0 loading0 ⟨rfl, rfl⟩ (by decide +kernel) (by decide +kernel) (by decide +kernel), by decide +kernel, by decide +kernel,
    of_mayLoad (by decide +kernel), by decide +kernel, fun _ _ _ => Nat.zero_le _,
    calm_of_empty (by decide +kernel)⟩
def roundRun : FabricRun := { run0 with round := true, reached := [0] }
theorem witness_FabricStepResults_round : runsHere (running0 roundRun) roundRun ∧ roundRun.round = true ∧ 63 ∉ roundRun.reached :=
  ⟨runsHere_running0 roundRun ⟨rfl, rfl⟩ (by decide +kernel) (by decide +kernel) (by decide +kernel), rfl, by decide⟩
def drainedRun : FabricRun := { run0 with round := true, reached := List.range 64, outs := [(7, [.elem 0 0])] }
theorem witness_FabricStepResults_end : runsHere (running0 drainedRun) drainedRun ∧ drainedRun.drained = true ∧
    (running0 drainedRun).thr.sq = [] ∧ (running0 drainedRun).thr.vectorOk ∧ (running0 drainedRun).thr.grp ≤ 32 - drainedRun.vd :=
  ⟨runsHere_running0 drainedRun ⟨rfl, rfl⟩ (by decide +kernel) (by decide +kernel) (by decide +kernel), by decide +kernel, by decide +kernel,
    by unfold Thread.vectorOk; decide +kernel, by decide +kernel⟩
/-- A run with one failing access of the cause given; one with one other stop event. -/
def failedRun (c : TrapCause) : FabricRun := { run0 with fails := [⟨c, 0x20004, none, 0, 7, [.elem 0 0], 0⟩] }
def metRun (e : FabricEvent) : FabricRun := { run0 with events := [e] }
theorem witness_FabricStepResults_group (r : FabricRun) (h : r.vd = 16) : (running0 r).thr.vectorOk ∧ (running0 r).thr.grp ≤ 32 - r.vd := by
  have g : vectors0.thr.grp ≤ 16 := by decide +kernel
  exact ⟨vectors0_ready.2.2.2.1, by rw [h]; exact g⟩
theorem witness_FabricStepResults_stop : (∀ e : FabricEvent, runsHere (running0 (metRun e)) (metRun e) ∧ (metRun e).events = [e] ∧
      (metRun e).fails = [] ∧ (running0 (metRun e)).thr.supervisor = false) ∧
    ∀ c : TrapCause, runsHere (running0 (failedRun c)) (failedRun c) ∧ (failedRun c).events = [] ∧
      ((failedRun c).fails.map fun x => x.cause) = [c] ∧ (running0 (failedRun c)).thr.supervisor = false :=
  ⟨fun _ => ⟨runsHere_running0 _ ⟨rfl, rfl⟩ rfl rfl rfl, rfl, rfl, rfl⟩, fun _ => ⟨runsHere_running0 _ ⟨rfl, rfl⟩ rfl rfl rfl, rfl, rfl, rfl⟩⟩
def loadingPlane : State := bound0.setCore ⟨0, 0⟩ { bound0.core ⟨0, 0⟩ with loading := [(3, ⟨0, 0, 2, 1, runLengths, 0⟩)] }
theorem witness_FabricStepResults_plane : Assoc.get? (loadingPlane.core ⟨0, 0⟩).loading 3 = some ⟨0, 0, 2, 1, runLengths, 0⟩ := by decide +kernel

theorem witness_TrapEntryResults : (trap0.scalarFit [] ∧ trap0.thr.sq = [] ∧ trap0.thr.supervisor = false ∧ trap0.thr.life = .ready ∧
      trap0.thr.begun = none ∧ trap0.thr.migrated = false) ∧
    (handler0.scalarFit [] ∧ handler0.thr.sq = [] ∧ handler0.thr.supervisor = true ∧ handler0.thr.life = .ready ∧ handler0.thr.key.part < 16 ∧
      handler0.thr.begun = none) ∧
    (dot2.thr.supervisor = false ∧ dot2.thr.life = .ready ∧ dot2.thr.begun = none ∧ dot2.thr.migrated = false ∧ (dot2.thr.micro.map fun m => m.step) = some 2) := by
  unfold State.scalarFit State.fit; decide +kernel
/-- A user thread with a MIGRATED trap pending. -/
def movedThread : State := { trap0 with thr := { trap0.thr with migrated := true } }
theorem witness_TrapEntryResults_migrated : movedThread.thr.life = .ready ∧ movedThread.thr.begun = none ∧ movedThread.thr.supervisor = false ∧
    movedThread.thr.migrated = true := by decide +kernel
/-- A thread that declares nothing; one on a core that has lost every capability, ready for vectors; registers that aim at an odd
address. -/
def undeclared0 : State := { trap0 with thr := { at32.thr with hdr := { programHeader with usemask := 0 } } }
def fencedCore : State :=
  let s := { trap0 with thr := at32.thr }
  s.setCore ⟨0, 0⟩ { s.core ⟨0, 0⟩ with cap := 0 }
theorem witness_CheckedTraps : scalarNeeds (.lpxPair (.load .ldd 5 6 1 2)) 0 ∧ scalarNeeds (.fma 5 6 7 .single .rne) 2 ∧
    (∀ s ∈ [undeclared0, fencedCore], s.thr.begun = none ∧ s.thr.supervisor = false ∧ s.thr.ahead < 64 ∧ s.thr.vq.length < 64 ∧ s.thr.vectorOk) ∧
    (∀ c < 25, undeclared0.thr.hdr.usemask.getLsbD c = false) ∧
    (∀ c < 25, fencedCore.thr.hdr.usemask.getLsbD c = true ∧ (fencedCore.core fencedCore.thr.core).cap.getLsbD c = false) ∧ fencedCore.thr.started = false ∧
    trap0.scalarFit [0] ∧ (address (trap0.xr 10) (0 : BitVec 11) 2).toNat % 2 ≠ 0 ∧ (trap0.xr 10 + (0 : BitVec 16).signExtend 64).toNat % 4 ≠ 0 := by
  refine ⟨?_, ?_, ?_⟩
  · refine .inr (.inr (.inl ⟨rfl, .inr (.inr (.inr (.inr (.inr (.inl ⟨(.ldd, .ldd, 8, true), ?_, 5, 6, 1, .inr ⟨2, rfl⟩⟩)))))⟩))
    simp only [loadTable, List.mem_cons, List.not_mem_nil, or_true, or_false]
  · exact .inr (.inr (.inr (.inl ⟨rfl, .inr (.inr ⟨5, 6, .single, .inr (.inr (.inl ⟨7, .rne, rfl⟩))⟩)⟩)))
  · unfold State.scalarFit State.fit Thread.vectorOk; decide +kernel
theorem witness_CheckedTraps_vector : vectorNeeds fencedCore.thr (.vlds 4 8 12 1 0 .e8) 24 :=
  have g : fencedCore.thr.groupOk 4 ∧ fencedCore.thr.predOk 1 := ⟨vectorReady_at32.2.2.2.1, vectorReady_at32.2.2.2.2.2.2.2.2.1⟩
  .inr (.inr ⟨⟨.vlds, 24, false, strideAddr⟩, by simp only [vectorLoadRows, List.cons_append, List.mem_cons, or_true, true_or],
    4, 8, 12, 1, 0, .e8, rfl, rfl, g.1, g.2, by decide +kernel, fun h => (by cases h)⟩)
/-- A handler that has claimed, and that stays in its `claim` no longer; the same not yet claimed. -/
theorem witness_HandlerResults : handler0.scalarFit [] ∧ handler0.thr.supervisor = true ∧ handler0.thr.claimed = false ∧ handler0.thr.sq = [] ∧
    claimed0.scalarFit [] ∧ claimed0.thr.supervisor = true ∧ claimed0.thr.claimed = true ∧ claimed0.thr.badRestore = none ∧ claimed0.thr.sq = [] ∧
    handler0.badCsa = [] ∧ claimed0.badCsa = [] := by
  unfold State.scalarFit State.fit; decide +kernel
/-- The handler with an uncorrectable error in the granule of its area that holds x2. -/
def spoiltHandler : State := { handler0 with badCsa := [(handler0.thr.key, 0x10)] }
theorem witness_HandlerResults_lost : spoiltHandler.scalarFit [] ∧ spoiltHandler.thr.supervisor = true ∧ spoiltHandler.thr.sq = [] ∧
    spoiltHandler.thr.key.part < 16 ∧ spoiltHandler.badCsa = [(spoiltHandler.thr.key, 0x10)] := by
  unfold State.scalarFit State.fit; decide +kernel

/-- Bytes of the object at 0x30000: its header with one kernel, whose header declares class Q and everything it may. -/
def objectBytes : List Byte :=
  let o := [0x43, 0x4F, 0x42, 0x4A, 1, 0, 0, 0, 1, 0] ++ List.replicate 22 0 ++ bytesOf 4 0x20000 ++ bytesOf 4 0x10000 ++ List.replicate 24 0
  let k := bytesOf 8 0x1FFFFFF ++ List.replicate 20 0 ++ [32, 24, 0, 16, 0] ++ List.replicate 31 0
  o ++ k
/-- A launch record of one thread of it, at 0x40000, and a process whose one thread slot has 256 KiB. -/
def recordBytes : List Byte := bytesOf 8 0x30000 ++ [0, 0, 0, 2] ++ bytesOf 4 1 ++ bytesOf 8 77 ++ List.replicate 40 0
def launchState : State :=
  let s := withX (withMem (withMem matrix0 0x30000 objectBytes) 0x40000 recordBytes) [(5, 0x40000)]
  { s.setProc 0 0 { Process.fresh with live := true, root := 0x4001, area := 0x100001, areaCfg := 0x10004 } with 
    tlb := [.core ⟨0, 0⟩, .die 0].map fun h => ⟨h, 0, 0, 0, 2 ^ 38, 0, 0, 0, 0, 7, 7⟩ }
theorem witness_ThreadEndResults : (machine0.scalarFit [] ∧ machine0.thr.supervisor = false ∧ machine0.thr.sq = [] ∧ machine0.thr.triggered = false ∧
    machine0.thr.window = none ∧ machine0.tethers = [] ∧ machine0.others.all (fun u => decide (u.key ≠ thread0.key)) = true) ∧
    (launchState.scalarFit [] ∧ launchState.thr.supervisor = false ∧ launchState.thr.sq = [] ∧
      (match launchState.readLaunch (launchState.xr 5) with | .ok r => decide (r.1.deps = [0, 0, 0, 0]) | .error _ => false) = true ∧
      launchState.tableRoom launchState.thr.key.part launchState.thr.core.die = true ∧ launchState.tethers = []) := by
  unfold State.scalarFit State.fit; decide +kernel
theorem witness_CsrResults : (machine0.scalarFit [] ∧ machine0.thr.supervisor = false ∧ machine0.thr.begun = none ∧ handler0.thr.begun = none) ∧ (handler0.scalarFit [] ∧ handler0.thr.supervisor = true ∧ handler0.thr.key.part < 16) ∧
    machine0.thr.ffcause &&& ~~~machine0.xr 0 = 0 ∧ plainSource machine0.thr.evsel[0] ∧ (¬csrReadable false 0x040 ∧ ¬csrWritable false 0x088 ∧
      ¬csrReadable true 0x130 ∧ ¬csrWritable true 0x001) := by
  unfold State.scalarFit State.fit plainSource csrReadable csrWritable
  and_intros <;> decide +kernel
theorem witness_DeprecatedResults : dot0.vectorFit [3, 4] ∧ dot0.thr.vectorOk ∧ dot0.thr.vl ≠ 0 ∧ dot0.thr.groupOk 8 ∧ dot0.thr.groupOk 9 ∧
    dot0.thr.groupOk 16 ∧ dot0.thr.micro = none := by
  unfold State.vectorFit State.fit Thread.vectorOk Thread.groupOk
  and_intros <;> decide +kernel

/-! ### Witnesses: events of the device -/

/-- The thread with a vector instruction under way, parked in a barrier that is over, passed over 64 times, asked to leave. -/
def blockedThread : State := { machine0 with thr := { machine0.thr with vq := [(0x1000, 0)], life := .blocked } }
def parkedThread : State := { inGroup true none with thr := { (inGroup true none).thr with life := .parked (.phase 3 4) } }
def passedThread : State := { machine0 with thr := { machine0.thr with passed := 64 } }
def leavingThread : State := { machine0 with thr := { machine0.thr with wish := some true } }
/-- The same with an MMA of the thread on its core, between rows and within one. -/
def ownedMma (w : Assoc (Nat × Nat) Nat) : Tether := { mma0 with owner := some thread0.key, work := w }
def leavingWith (w : Assoc (Nat × Nat) Nat) : State := { leavingThread with tethers := [ownedMma w] }
theorem witness_ThreadEventResults_tethers : ∀ w ∈ [[], [((0, 0), 1)]], (leavingWith w).thread? thread0.key = some leavingThread.thr ∧
    (ownedMma w).leftBy leavingThread.thr = true ∧ (leavingWith w).atBoundary (ownedMma w) = w.isEmpty := by decide +kernel
theorem witness_ThreadEventResults : (blockedThread.thread? thread0.key = some blockedThread.thr ∧ blockedThread.thr.vq = [(0x1000, 0)] ∧
      blockedThread.thr.started = false ∧ Thread.ahead { blockedThread.thr with vq := [] } < 64) ∧
    (parkedThread.thread? thread0.key = some parkedThread.thr ∧ parkedThread.thr.life = .parked (.phase 3 4) ∧
      (parkedThread.giveTurn thread0.key).wakes (.phase 3 4) = true) ∧
    (passedThread.thread? thread0.key = some passedThread.thr ∧ passedThread.thr.life = .ready ∧ 64 ≤ passedThread.thr.passed ∧
      passedThread.thr.boosted = none) ∧
    (leavingThread.thread? thread0.key = some leavingThread.thr ∧ leavingThread.thr.wish = some true ∧ leavingThread.thr.life = .ready ∧
      leavingThread.thr.supervisor = false ∧ leavingThread.thr.claimed = false) := by decide +kernel

/-- A pre-empted thread of a partition, its place taken by none, and one that a full core keeps waiting. -/
def waitingThread (part index : Nat) (w : Nat) : Thread :=
  { thread0 with key := ⟨part, 0, launchToken, index⟩, life := .preempted, lanes := [], hdr := { programHeader with width := w, lstore := 0 }, cls := w }
def residentThread (part index : Nat) : Thread :=
  { thread0 with key := ⟨part, 0, launchToken, index⟩, hdr := { programHeader with width := 3, lstore := 0 }, cls := 3, vlen := 16384, lanes := List.range 16 }
def shared0 : State :=
  let s := { machine0 with thr := residentThread 0 0, others := [waitingThread 1 0 0] }
  let t := s.setCore ⟨0, 0⟩ { s.core ⟨0, 0⟩ with banks := #v[some 0, some 1, none, none] }
  (t.setPart 0 { t.part 0 with run := true }).setPart 1 { t.part 1 with run := true }
theorem witness_ThreadEventResults_hold : (shared0.waiting? 1 ⟨0, 0⟩ (.preempted ⟨1, 0, launchToken, 0⟩)).isSome = true ∧
    (∀ c ∈ shared0.ownedCores 1, waitsFor (.preempted ⟨1, 0, launchToken, 0⟩) c = true ∧ shared0.fits (placingOf (waitingThread 1 0 0)) c = []) ∧
    shared0.holds = [] := by decide +kernel
theorem witness_ThreadEventResults_quantum :
    ((shared0.core ⟨0, 0⟩).banks.toList.filterMap id).eraseDups = [0, 1] ∧ shared0.residents ⟨0, 0⟩ = [residentThread 0 0] ∧
    shared0.waitingOf 0 ⟨0, 0⟩ = [] ∧ shared0.waitingOf 1 ⟨0, 0⟩ ≠ [] ∧
    (match shared0.couldHold 1 ⟨0, 0⟩ with
      | some pl => decide (shared0.fits pl ⟨0, 0⟩ = [] ∧ shared0.fitBeside pl ⟨0, 0⟩ (shared0.residents ⟨0, 0⟩) = [] ∧
          shared0.fitBeside pl ⟨0, 0⟩ ((shared0.residents ⟨0, 0⟩).filter fun w => decide (w.key ≠ (residentThread 0 0).key)) ≠ [])
      | none => false) = true ∧ 10 * (shared0.part 0).weight < (shared0.part 1).weight * 50 := by decide +kernel

/-- A launch of one thread of the object, RUNNING with a thread to spawn, and an entry of the handler table for it. -/
def launch1 : Launch :=
  { obj := 0x30000, hdrAddr := 0x30040, hdr := headerOf (objectBytes.drop 64), textBase := 0x50000, linkTable := 0x40000, prio := 2,
    indirect := false, early := false, n := 1, args := 77, countAddr := 0, deps := [], fromFifo := false, eligible := some 1, spawned := 0,
    ended := 0, triggered := 0, killed := none, spawnFault := none }
def kernelTether (st : TState) (l : Launch) : Tether :=
  { Tether.blank .kernel 0 0 0 thread0.key ⟨0, 0⟩ with index := 11, gen := 1, state := st, launch := some l }
def spawning : State :=
  let s := { launchState with thr := { launchState.thr with life := .ended, lanes := [] }, tethers := [kernelTether .running launch1] }
  s.setCore ⟨0, 0⟩ { s.core ⟨0, 0⟩ with banks := #v[some 0, none, none, none], handlers := [(3, ⟨0, 0, 9, 5, 0x30040⟩)] }
def handling : State :=
  { spawning with tethers := [], procs := [((0, 0), { spawning.proc 0 0 with queues := [(9, ⟨4, .device, [⟨1, thread0.key, 0⟩]⟩)] })] }
theorem witness_PlacementResults_spawn : spawning.tetherAny? (tetherToken (kernelTether .running launch1)) = some (kernelTether .running launch1) ∧
    (kernelTether .running launch1).toSpawn = some launch1 ∧
    spawning.placeChoices 0 ⟨0, 0⟩ (.unspawned (tetherToken (kernelTether .running launch1))) ≠ [] ∧ (spawning.proc 0 0).freeSlots = [0] := by
  decide +kernel
theorem witness_PlacementResults_handler : Assoc.get? (handling.core ⟨0, 0⟩).handlers 3 = some ⟨0, 0, 9, 5, 0x30040⟩ ∧
    handling.runnable ⟨0, 0, 9, 5, 0x30040⟩ = true ∧ (handling.part 0).run = true ∧
    (match handling.handlerKernel 0 ⟨0, 0, 9, 5, 0x30040⟩ with | .ok _ => true | .error _ => false) = true ∧
    handling.placeChoices 0 ⟨0, 0⟩ (.handler ⟨0, 0⟩ 3) ≠ [] ∧ (handling.proc 0 0).freeSlots = [0] := by decide +kernel
/-- An entry whose header is none: 64 zero bytes. -/
def badHandler : HandlerEntry := ⟨0, 0, 9, 5, 0x60040⟩
def failingHandler : State :=
  handling.setCore ⟨0, 0⟩ { handling.core ⟨0, 0⟩ with handlers := [(3, badHandler)] }
theorem witness_PlacementResults_fails : Assoc.get? (failingHandler.core ⟨0, 0⟩).handlers 3 = some badHandler ∧
    failingHandler.runnable badHandler = true ∧ (failingHandler.part 0).run = true ∧ (failingHandler.proc 0 0).freeSlots ≠ [] ∧
    (match failingHandler.handlerKernel 0 badHandler with | .error (.fault _ _) => true | _ => false) = true := by decide +kernel
def resuming : State :=
  let s := { matrix0 with thr := { waitingThread 0 0 0 with csa := thread0.csa.put 0x108 (bytesOf 8 0x2000) } }
  s.setCore ⟨0, 0⟩ { s.core ⟨0, 0⟩ with banks := #v[some 0, none, none, none] }
theorem witness_PlacementResults_resume : resuming.thread? thread0.key = some resuming.thr ∧
    resuming.placeChoices 0 ⟨0, 0⟩ (.preempted thread0.key) ≠ [] ∧ (∀ e ∈ resuming.badCsa, e.1 ≠ thread0.key) ∧ resuming.thr.badRestore = none ∧
    resuming.thr.inHandler = false := by decide +kernel
theorem dispatchPlace_freeCtr (s : State) (n : Nat) (reader : Word) (die part pr : Nat) (acc : Access) (ea : Word) (k : Nat) :
    State.dispatchPlace { s with freeCtr := n } reader die part pr acc ea k = s.dispatchPlace reader die part pr acc ea k := rfl
/-- Pieces that this device holds. -/
def allHere (l : List (Place × Nat × Word)) : Bool := l.all fun p => !p.1.remote
theorem dispatchWritePieces_here (k : ThreadKey) (l : List (Place × Nat × Word)) (h : allHere l = true) (s : State) (bs : List Byte) :
    s.dispatchWritePieces k l bs = { s with
      mem := (s.dispatchWritePieces k l bs).mem, homes := (s.dispatchWritePieces k l bs).homes,
      badMem := (s.dispatchWritePieces k l bs).badMem } := by
  induction l generalizing s bs with
  | nil => rfl
  | cons p r ih =>
    simp only [allHere, List.all_cons, Bool.and_eq_true, Bool.not_eq_true'] at h
    obtain ⟨⟨pl, n, a⟩, rfl⟩ : ∃ q, q = p := ⟨p, rfl⟩
    simp only [State.dispatchWritePieces]
    cases pl with
    | device d =>
      have hr : (Place.device d).remote = false := h.1
      simp only [hr, Bool.false_eq_true, if_false]
      rw [ih h.2]
      rfl
    | localStore o => exact ih h.2 s _
    | csa o => exact ih h.2 s _
theorem dispatchWrite_here {s : State} {reader : Word} {die : Nat} {k : ThreadKey} {ea : Word} {bs : List Byte} {l : List (Place × Nat × Word)}
    (h : placePieces (s.dispatchPlace reader die k.part k.proc .store) (pieces (bs.length + 1) ea bs.length) = .ok l) (hl : allHere l = true) :
    ∃ w, s.dispatchWrite reader die k ea bs = .ok w ∧ w = { s with mem := w.mem, homes := w.homes, badMem := w.badMem } :=
  ⟨s.dispatchWritePieces k l bs, by unfold State.dispatchWrite State.dispatchSpan; rw [h], dispatchWritePieces_here k l hl s bs⟩
def spawned1 : SpawnInfo := ⟨⟨0, 0, tetherToken (kernelTether .running launch1), 0⟩, launch1.hdr, 0x50000, 0x40000, 0x30000, 77, 1, 2⟩
/-- The dispatcher as it reads for the launch. -/
def launchReader : Word := spawnReader (tetherToken (kernelTether .running launch1))
theorem witness_PlacementResults_block : blocksWritable spawning launchReader 0 spawned1 := by
  have f : (spawning.proc spawned1.key.part spawned1.key.proc).freeSlots = [0] := by decide +kernel
  have h : (match placePieces (spawning.dispatchPlace launchReader 0 spawned1.key.part spawned1.key.proc .store) (pieces 65 0x100000 64) with
    | .ok l => allHere l
    | .error _ => false) = true := by decide +kernel
  have hb : ∀ slot ∈ [0], (wordsToBytes (threadBlock spawned1 (spawning.proc spawned1.key.part spawned1.key.proc)
      ((spawning.proc spawned1.key.part spawned1.key.proc).areaBase + slot * (spawning.proc spawned1.key.part spawned1.key.proc).slotSize))).length = 64 ∧
      BitVec.ofNat 64 ((spawning.proc spawned1.key.part spawned1.key.proc).areaBase +
        slot * (spawning.proc spawned1.key.part spawned1.key.proc).slotSize) = 0x100000 := by decide +kernel
  intro n slot hs
  rw [f] at hs
  split at h
  · rename_i l hl
    refine dispatchWrite_here (l := l) ?_ h
    rw [(hb slot hs).1, (hb slot hs).2, ← hl]
    exact congrArg (fun f => placePieces f (pieces 65 0x100000 64))
      (funext fun ea => funext fun k => dispatchPlace_freeCtr spawning n launchReader 0 spawned1.key.part spawned1.key.proc .store ea k)
  · cases h
/-- A launch that may start, direct and with its count in memory: of one thread and of 200, on the core of the partition, which has
room for fewer, or with no core. -/
def waitingLaunch (indirect : Bool) (n : Nat) : Launch :=
  { launch1 with indirect := indirect, countAddr := 0x48000, eligible := none, n := if indirect then 0 else n }
def starting (indirect : Bool) (n : Nat) (core : Bool) : State :=
  let s := { withMem launchState 0x48000 [BitVec.ofNat 8 n] with tethers := [kernelTether .queued (waitingLaunch indirect n)] }
  if core then s else { s with cores := [] }
theorem witness_EngineStartResults : ∀ n ∈ [1, 200], ∀ i c : Bool,
    (starting i n c).tetherAny? (tetherToken (kernelTether .queued (waitingLaunch i n))) = some (kernelTether .queued (waitingLaunch i n)) ∧
    (starting i n c).mayStart (kernelTether .queued (waitingLaunch i n)) (waitingLaunch i n) = true ∧
    (match (starting i n c).dispatchRead (tetherToken (kernelTether .queued (waitingLaunch i n))) 0 0 0 .atomicRead 0x48000 8 with
      | .ok r => decide (natOfBytes r = n)
      | .error _ => false) = true ∧
    (1 ≤ (starting i n true).capacity (launchPlacing 0 (waitingLaunch i n)) ∧ (starting i n true).capacity (launchPlacing 0 (waitingLaunch i n)) < 200 ∧
      (starting i n false).capacity (launchPlacing 0 (waitingLaunch i n)) = 0 ∧ ((starting i n c).part 0).fifo = [] ∧
      ((starting i n c).part 0).fifoWait = []) := by decide +kernel
/-- One QUEUED tether of each engine, with room on it. -/
def queued (y : Tether) : State :=
  let s := { matrix0 with tethers := [y] }
  s.setCore ⟨0, 0⟩ { s.core ⟨0, 0⟩ with blocks := (loaded0.core ⟨0, 0⟩).blocks }
def windowCopy : Tether := { copyTether with ops := (0x50000, BitVec.ofNat 64 localBase, 0xFFFFFFFF000004A1) }
def collTether (op n : Nat) : Tether :=
  { Tether.blank .coll 0 0 0 thread0.key ⟨0, 0⟩ with
    index := 12, gen := 1, ops := (0x40000, 0x60000, BitVec.ofNat 64 (0x30000 + op)), layout := [(4, BitVec.ofNat 24 n)] }
/-- A BLOAD of no columns, and an MMA of the block past the last. -/
def emptyBload : Tether := { bload0 with state := .queued, layout := [(1, 4), (4, 0)] }
def pastMma : Tether := { mma0 with state := .queued, ops := (0x40000, 0x42000, 2047), layout := [(16, 1), (4, 2)] }
def startedTethers : List Tether :=
  [{ copyTether with state := .queued }, { windowCopy with state := .queued }, { bload0 with state := .queued }, { mma0 with state := .queued },
    collTether 0 3, emptyBload, pastMma]
theorem witness_EngineStartResults_engines :
    ∀ y ∈ startedTethers, ∃ e, (queued y).engineRoom e = true ∧ firstTether ((queued y).startable e) = some y ∧ (queued y).tetherAny? (tetherToken y) = some y ∧
      ((queued y).proc y.part y.proc).live = true := by
  have h : ∀ y ∈ startedTethers,
      (match engineOf y with
      | some e => decide ((queued y).engineRoom e = true ∧ firstTether ((queued y).startable e) = some y ∧
          (queued y).tetherAny? (tetherToken y) = some y ∧ ((queued y).proc y.part y.proc).live = true)
      | none => false) = true := by decide +kernel
  intro y hy
  have g := h y hy
  split at g
  · rename_i e _; exact ⟨e, of_decide_eq_true g⟩
  · cases g
theorem witness_EngineStartResults_kinds : (toWindow copyTether = false ∧ volume copyTether.layout ≠ 0) ∧
    (toWindow windowCopy = true ∧ volume windowCopy.layout ≠ 0) ∧ volume bload0.layout ≠ 0 ∧ volume mma0.layout ≠ 0 ∧
    (∀ j < mmaCols mma0, ((queued mma0).core mma0.core).blockExists (mmaBblk mma0.ops.2.2 + j) = true) ∧ volume emptyBload.layout = 0 ∧
    volume pastMma.layout ≠ 0 ∧ 1 < mmaCols pastMma ∧ ((queued pastMma).core pastMma.core).blockExists (mmaBblk pastMma.ops.2.2 + 1) = false := by
  decide +kernel

/-- A COPY of 256 bytes at its first burst, and the state that its write leaves. -/
def longCopy : Tether := { copyTether with ops := (0x50000, 0x60000, 0x21), layout := [(4, 64)] }
def copying : State := { copy0 with tethers := [longCopy] }
/-- What an engine's write leaves differs in device memory alone. -/
def writesMemory (s : State) (r : Except EngineStop State) : Bool :=
  match r with | .ok w => decide (w = { s with mem := w.mem, homes := w.homes, badMem := w.badMem }) | .error _ => false
def okBytes (r : Except EngineStop (List Byte)) : List Byte := match r with | .ok b => b | .error _ => []
theorem witness_EngineUnitResults_copy : atWork copying longCopy ∧ longCopy.progress = 128 * 0 ∧ 128 * (0 + 1) < copyLen longCopy ∧ longCopy.work = [] ∧
    copying.unitOpen (tetherToken longCopy) 0 = false ∧ copying.burstRemote longCopy 0 = false ∧
    (okBytes (copying.burstBytes longCopy 0 none)).length = 128 ∧
    writesMemory copying (copying.engineWrite longCopy 0 0x60000 (okBytes (copying.burstBytes longCopy 0 none))) = true ∧
    copying.ports.all (fun e => e.2.reseq.isEmpty) = true := by unfold atWork; decide +kernel
/-- Nothing waits for the end of a tether: its process lives, it is no launch, no burst waits for it, no tether waits behind one. -/
def quietEnd (s : State) (y : Tether) : Bool :=
  (s.proc y.part y.proc).live && y.launch.isNone && s.ports.all (fun e => e.2.reseq.isEmpty) &&
    s.tethers.all (fun z => decide (z.state ≠ .queued)) && (List.range 16).all fun n => (s.part n).savedChannels.isEmpty
theorem of_quietEnd {s : State} {y : Tether} (h : quietEnd s y = true) : endsAlone s y := by
  simp only [quietEnd, Bool.and_eq_true, List.all_eq_true, List.isEmpty_iff, decide_eq_true_eq, Option.isNone_iff_eq_none, List.mem_range] at h
  obtain ⟨⟨⟨⟨h1, h2⟩, h3⟩, h4⟩, h5⟩ := h
  exact ⟨h1, h2, fun e he b hb => (by rw [h3 e he] at hb; cases hb), fun z hz hq => absurd hq (h4 z hz), h5⟩
/-- The last burst of a COPY, one of 60 bytes; the last column of a BLOAD. -/
theorem witness_EngineUnitResults_copyEnd : atWork { copy0 with tethers := [copyTether] } copyTether ∧ copyLen copyTether ≤ 128 * (0 + 1) ∧
    copyTether.progress = 128 * 0 ∧ 128 * 0 < copyLen copyTether ∧ endsAlone { copy0 with tethers := [copyTether] } copyTether ∧
    writesMemory copy0 (copy0.engineWrite copyTether 0 0x60000 (okBytes (copy0.burstBytes copyTether 0 none))) = true := by
  refine ⟨by unfold atWork; decide +kernel, by decide +kernel, by decide +kernel, by decide +kernel, of_quietEnd (by decide +kernel), by decide +kernel⟩
theorem witness_EngineUnitResults_bloadEnd : ({ matrix0 with tethers := [bload0] } : State).runningOn .bload ⟨0, 0⟩ = some bload0 ∧
    atWork { matrix0 with tethers := [bload0] } bload0 ∧ mmaCols bload0 ≤ bload0.progress + 1 ∧ endsAlone { matrix0 with tethers := [bload0] } bload0 := by
  refine ⟨by decide +kernel, by unfold atWork; decide +kernel, by decide +kernel, of_quietEnd (by decide +kernel)⟩
/-- A BLOAD of two columns at its first. -/
def twoColumns : Tether := { bload0 with layout := [(1, 4), (4, 2)] }
def filling : State := { matrix0 with tethers := [twoColumns] }
theorem witness_EngineUnitResults_bload : filling.runningOn .bload ⟨0, 0⟩ = some twoColumns ∧ atWork filling twoColumns ∧
    (filling.core ⟨0, 0⟩).blockExists (twoColumns.ops.2.1.toNat + twoColumns.progress) = true ∧
    (filling.core ⟨0, 0⟩).bankOf twoColumns.part = some 0 ∧
    (okBytes (filling.engineReads twoColumns twoColumns.progress (columnSpans twoColumns twoColumns.progress))).length = 4 ∧
    twoColumns.progress + 1 < mmaCols twoColumns := by unfold atWork; decide +kernel
/-- An MMA at the first of two K-blocks of its row, against a block of K = 600. -/
def longRow : List Byte := bytesOf 4 (0x1FC0000 + 599 * 256) ++ [0, 0, 0, 0] ++ List.replicate 600 1
def rowOfTwo : Tether := { mma0 with packets := [(0, longRow)] }
def twoBlocks : BBlock := { proc := 0, fmt := 0, mxb := false, slices := 1, k := 600, scale := 0, exps := [(0, false), (0, false)], digits := List.replicate 600 [1] }
/-- The same at its second and last K-block; with a second row to come; and before its packet is read. -/
def lastBlock : Tether := { rowOfTwo with work := [((0, 0), 1)] }
def rowBefore : Tether := { lastBlock with layout := [(16, 2), (4, 1)] }
def multiplyingAt (y : Tether) : State :=
  let s := { withMem matrix0 0x40000 longRow with tethers := [y] }
  s.setCore ⟨0, 0⟩ { s.core ⟨0, 0⟩ with blocks := [((0, 0), twoBlocks)] }
def cutRow (y : Tether) : (Int × Bool) × List (List Int) :=
  let h := y.rowHdr 0
  let l := (kblocks h.fmt h.slices h.k)[y.passed 0 0]?.getD (0, 0)
  cutBlock h.fmt h.mxb h.slices h.scale (natOfBytes (List.drop 8 longRow)) l.1 l.2
theorem witness_EngineUnitResults_mma : ∀ y ∈ [rowOfTwo, lastBlock, rowBefore], (multiplyingAt y).runningOn .mma ⟨0, 0⟩ = some y ∧
    atWork (multiplyingAt y) y ∧ y.kind = .mma ∧
    y.progress < mmaRows y ∧ 0 < mmaCols y ∧ (multiplyingAt y).unitOpen (tetherToken y) (mmaUnit y.progress 0) = false ∧
    Assoc.get? y.packets y.progress = some longRow ∧ (multiplyingAt y).rowMayEnter y y.progress 0 = true ∧
    (multiplyingAt y).block? y (mmaBblk y.ops.2.2 + 0) = some twoBlocks ∧
    ((kblocks (y.rowHdr 0).fmt (y.rowHdr 0).slices (y.rowHdr 0).k)[y.passed y.progress 0]?).isSome = true ∧
    blockOk y.proc (y.rowHdr 0) twoBlocks = true ∧
    (attemptSums (classSums (y.rowHdr 0).slices (cutRow y).2 (List.replicate ((cutRow y).2.length) [1])) []).isSome = true ∧
    (okBytes ((multiplyingAt y).engineRead y (mmaUnit y.progress 0) (cAddr y (y.rowHdr 0).row 0) (mmaCsize y.ops.2.2))).length = 4 ∧
    writesMemory (multiplyingAt y) ((multiplyingAt y).engineWrite y (mmaUnit y.progress 0) (cAddr y (y.rowHdr 0).row 0) (bytesOf 4 257)) = true := by
  unfold atWork; decide +kernel
/-- After the K-block the column is not done, and the row is done with and without another row to come. -/
theorem witness_EngineUnitResults_rowEnd :
    ({ rowOfTwo with work := [((0, 0), 1)] } : Tether).colDone 0 0 = false ∧ ({ lastBlock with work := [((0, 0), 2)] } : Tether).colDone 0 0 = true ∧
    mmaCols lastBlock = 1 ∧ mmaRows lastBlock ≤ 0 + 1 ∧ 0 + 1 < mmaRows rowBefore ∧ Assoc.get? rowBefore.packets (0 + 1) = none ∧
    endsAlone (multiplyingAt lastBlock) lastBlock := by
  refine ⟨by decide +kernel, by decide +kernel, by decide +kernel, by decide +kernel, by decide +kernel, by decide +kernel, of_quietEnd (by decide +kernel)⟩
theorem witness_EngineUnitResults_packet : (multiplyingAt mma0).runningOn .mma ⟨0, 0⟩ = some mma0 ∧ atWork (multiplyingAt mma0) mma0 ∧
    mma0.progress < mmaRows mma0 ∧ 0 < mmaCols mma0 ∧ Assoc.get? mma0.packets mma0.progress = none ∧ mma0.passed mma0.progress 0 = 0 ∧
    okBytes ((multiplyingAt mma0).readPacket mma0 mma0.progress (mmaUnit mma0.progress 0)) = longRow := by
  unfold atWork; decide +kernel
/-- The all-reduce of three members at its first step, over a port in mode 1: this member, the first, receives the chunk of four
bytes and adds its own. -/
def reducing : Tether := { collTether 0 3 with state := .running }
def inRing : State :=
  { matrix0.setPart 0 { matrix0.part 0 with ports := 4 } with
    tethers := [reducing], peerSets := [(3, (0xC000000200000001, 0))], ports := [(2, { Port.fresh with cfg := 3 })] }
theorem witness_EngineUnitResults_coll : atWork inRing reducing ∧ reducing.kind = .coll ∧ inRing.unitOpen (tetherToken reducing) reducing.progress = false ∧
    inRing.collLinked reducing = true ∧
    [1, 0, 0, 0].length = collExpects (collOp reducing.ops.2.2) (inRing.collRank reducing).1 (inRing.collRank reducing).2 (collRoot reducing.ops.2.2)
      (volume reducing.layout) (collSize reducing.ops.2.2) reducing.progress ∧
    (match inRing.collWork reducing [1, 0, 0, 0] with
      | .ok r => decide (r.1 = { inRing with mem := r.1.mem, homes := r.1.homes, badMem := r.1.badMem })
      | .error _ => false) = true ∧
    reducing.progress + 1 < collSteps (collOp reducing.ops.2.2) (inRing.collRank reducing).2 := by unfold atWork; decide +kernel
/-- The same at its fourth and last step. -/
def lastStep : Tether := { reducing with progress := 3 }
theorem witness_EngineUnitResults_collEnd : atWork { inRing with tethers := [lastStep] } lastStep ∧
    ({ inRing with tethers := [lastStep] } : State).collLinked lastStep = true ∧
    [1, 0, 0, 0].length = collExpects (collOp lastStep.ops.2.2) (inRing.collRank lastStep).1 (inRing.collRank lastStep).2 (collRoot lastStep.ops.2.2)
      (volume lastStep.layout) (collSize lastStep.ops.2.2) lastStep.progress ∧
    (match ({ inRing with tethers := [lastStep] } : State).collWork lastStep [1, 0, 0, 0] with
      | .ok r => decide (r.1 = { inRing with tethers := [lastStep], mem := r.1.mem, homes := r.1.homes, badMem := r.1.badMem })
      | .error _ => false) = true ∧
    collSteps (collOp lastStep.ops.2.2) (inRing.collRank lastStep).2 ≤ lastStep.progress + 1 ∧ endsAlone { inRing with tethers := [lastStep] } lastStep := by
  refine ⟨by unfold atWork; decide +kernel, by decide +kernel, by decide +kernel, by decide +kernel, by decide +kernel, of_quietEnd (by decide +kernel)⟩
/-- The own chunk of the first member, which it adds to what it receives at the first of the steps; the bytes of a chunk of two
elements. -/
theorem witness_EngineValueResults : inRing.collRank reducing = (0, 3) ∧ (0 < 3 ∧ 1 < 3 ∧ 0 = (1 + 2 + 0) % 3) ∧ reducing.progress = 0 ∧
    collOp reducing.ops.2.2 = 0 ∧ (okBytes (inRing.collOwn reducing 1 2)).length = 4 ∧ (okBytes (inRing.collOwn reducing 2 3)).length = 4 ∧
    (match inRing.collPut reducing 4 [1, 2, 3, 4] with | .ok _ => true | .error _ => false) = true ∧
    (collDtype (0 : Word) = 0 ∧ collRop (0 : Word) = 0 ∧ collSize (0 : Word) = 4) ∧
    ([[1, 2], [3, 4]] : List (List Int)).all (fun ds => ds.length = 2) = true ∧ (8258048 : Int).natAbs ≤ 8258048 := by decide +kernel
/-- A COPY from a peer, whose second burst comes first. -/
def farCopy : Tether := { longCopy with ops := (0x50000, 0x60000, 0x21) }
def farBurst : State :=
  let s := { matrix0 with tethers := [farCopy], ports := [(2, { Port.fresh with cfg := 2 })],
                          peers := [(0, 0x8000000000001000)], 
                          tlb := [⟨.core ⟨0, 0⟩, 0, 0, 0x50000, 0x10000, 0x50000, 0x8000000050000, 0, 0, 7, 7⟩,
                                  ⟨.core ⟨0, 0⟩, 0, 0, 0x60000, 0x10000, 0x60000, 0x60000, 0, 0, 7, 7⟩] }
  s.setPart 0 { s.part 0 with ports := 4 }
theorem witness_EngineUnitResults_port : atWork farBurst farCopy ∧ (Assoc.getD farBurst.ports 2 Port.fresh).cfg.getLsbD 1 = true ∧
    (farBurst.part farCopy.part).ports.getLsbD 2 = true ∧ (Assoc.getD farBurst.ports 2 Port.fresh).reseq.length < 256 ∧
    farCopy.progress < 128 * 1 ∧ 128 * 1 < copyLen farCopy ∧ (List.replicate 128 (7 : Byte)).length = min 128 (copyLen farCopy - 128 * 1) ∧
    Assoc.get? farCopy.work (0, 1) = none ∧ farBurst.ports.all (fun e => e.2.reseq.isEmpty) = true ∧ farBurst.burstRemote farCopy 1 = true := by
  unfold atWork; decide +kernel

/-- A thread that holds one store. -/
def heldStore : PendStore := ⟨[(0x20000, 7), (0x20001, 8)], 0, false, 1, 1, false, [], []⟩
def storing : State := { machine0 with thr := { machine0.thr with sq := [heldStore] } }
theorem witness_MemoryEventResults : storing.thread? thread0.key = some storing.thr ∧ storing.thr.sq[0]? = some heldStore ∧
    (∀ q ∈ storing.thr.sq.take 0, q.before heldStore = false) ∧ (∀ c ∈ heldStore.cells, (Place.device c.1).remote = false) ∧
    (∀ i < 2, storing.mapped (0x20000 + i) = true ∧ (Place.device (0x20000 + i)).remote = false) ∧
    (∀ i < 2, storing.mapped (2 ^ 51 + i) = true ∧ (Place.device (2 ^ 51 + i)).remote = true) ∧ storing.mapped (2 ^ 51 - 1) = false := by decide +kernel
/-- The translation of chapter 21, with nothing kept, for a TLB of each kind; an invalidation in progress, alone and with another
behind it; a granule of the line at 0x20000. -/
def walking : State := { walked0 with mem := pages0, tlb := [] }
def busyPart : State := machine0.setPart 2 { machine0.part 2 with invBusy := some (0x203, 0, 0), invNext := [(1, 2, 3)] }
theorem witness_MemoryEventResults_walk : (0x4C8A3F123456 : Word).toNat < 2 ^ 49 ∧ walking.tlb = [] ∧
    (∀ h ∈ [TlbHome.core ⟨0, 0⟩, .die 3],
      (match walkBoth walking.mem walking h 0 0 (0x4C8A3F123456 : Word).toNat with | .ok _ => true | .error _ => false) = true ∧
      (match walkBoth walking.mem walking h 0 0 0x1000 with | .ok _ => false | .error _ => true) = true) ∧
    (busyPart.part 2).invBusy = some (0x203, 0, 0) ∧ (∀ u ∈ busyPart.threads, u.live = true → u.key.part = 2 → u.sq = []) ∧
    busyPart.cores.all (fun e => e.2.run.isNone) = true ∧ busyPart.requests = [] ∧
    ((0x203 : Word).toNat % 4 ≠ 0 ∧ (0x200 : Word).toNat % 4 = 0) ∧
    (machine0.mapped (0x2000F / 8 * 8) = true ∧ (Place.device (0x2000F / 8 * 8)).remote = false ∧ machine0.badMem = [] ∧
      machine0.thread? thread0.key = some machine0.thr ∧ machine0.badCsa = []) ∧
    (0x20008 % 8 = 0 ∧ 0x20008 / 128 = 0x20000 / 128 ∧ homeOf 0x20008 = .lpddr 0 ∧ machine0.mapped 0x20008 = true) := by decide +kernel

/-- Requests of a thread and of its store, of the current incarnation and of an older one, and one that no port has carried. -/
def request (who : Requester) (write : Bool) (inc : BitVec 8) (port : Option Nat) : PeerReq :=
  ⟨6, who, 0, inc, port, write, 0x8000000000000, 2, [], 0x70000, some ⟨0, 0⟩, [(0x20000, 2)]⟩
/-- The thread's core, owned by its partition or not, and port 25, which the partition owns. -/
def asking (r : PeerReq) (owner : Option Nat) : State :=
  let s := storing.setCore ⟨0, 0⟩ { storing.core ⟨0, 0⟩ with banks := #v[owner, none, none, none] }
  { s.setPart 0 { s.part 0 with ports := 2 ^ 25 } with requests := [r] }
def fetchingByte : Requester := .thread thread0.key 0x1000 false 0
theorem witness_PeerResults :
    (∀ r ∈ [request fetchingByte false 0 (some 25), request (.store thread0.key 1) true 0 (some 25), request fetchingByte false 5 (some 25),
      request fetchingByte false 0 none], ∀ o ∈ [some 0, none],
      ((asking r o).requests.find? fun q => decide (q.id = 6)) = some r ∧ (asking r o).thread? thread0.key = some storing.thr ∧
      (r.inc = ((asking r o).part r.part).inc ∨ r.inc = 5) ∧ (asking r o).stillOwner r = o.isSome ∧ r.part < 16 ∧
      ((asking r o).part r.part).fifo.length < 256 ∧ ((asking r o).part r.part).fifoWait = []) ∧
    (∀ q ∈ (asking (request fetchingByte false 0 (some 25)) none).requests, q.id = 6 → q.port ≠ none) ∧
    storing.thr.awaits ⟨0x1000, false, 0, 0x8000000000000, 2, none⟩ = true ∧
    ((asking (request fetchingByte false 0 (some 25)) (some 0)).setPart 0 Partition.fresh).stillOwner (request fetchingByte false 0 (some 25)) = false := by
  decide +kernel
/-- A port of partition 3 with one inbound range; a request of each kind inside it, and a read outside. -/
def inboundReq (k : InboundKind) : InboundReq := ⟨k, 0x20000, 4, [1, 2, 3, 4]⟩
def listening : State :=
  let s := { machine0 with ports := [(2, { Port.fresh with cfg := 2 })] }
  s.setPart 3 { s.part 3 with ports := 4, inbound := (s.part 3).inbound.set 0 (0x10003, 0x20000) }
/-- A port in mode 1 carries a burst and no atomic; a disabled one carries nothing. -/
theorem witness_PeerResults_carried : carried { Port.fresh with cfg := 3 } (inboundReq .write) ∧ carried { Port.fresh with cfg := 2 } (inboundReq (.atomic 7 9)) ∧
    ¬carried { Port.fresh with cfg := 3 } (inboundReq (.atomic 7 9)) ∧ ¬carried { Port.fresh with cfg := 1 } (inboundReq .read) := by
  have e : ({ Port.fresh with cfg := 3 } : Port).cfg ≠ 2 ∧ ({ Port.fresh with cfg := 1 } : Port).cfg ≠ 2 ∧
      ({ Port.fresh with cfg := 1 } : Port).cfg ≠ 3 := by decide
  refine ⟨.inr ⟨rfl, by decide, fun _ _ h => (by cases h)⟩, .inl rfl, fun h => ?_, fun h => ?_⟩
  · rcases h with h | ⟨-, -, h⟩
    · exact e.1 h
    · exact h 7 9 rfl
  · rcases h with h | ⟨h, -⟩
    · exact e.2.1 h
    · exact e.2.2 h
theorem witness_PeerResults_inbound : ((List.range 16).find? fun n => (listening.part n).ports.getLsbD 2) = some 3 ∧
    (Assoc.getD listening.ports 2 Port.fresh).cfg = 2 ∧ listening.badMem = [] ∧
    (∀ k ∈ [.read, .write, .atomic 7 9], (0x10003, 0x20000) ∈ (listening.part 3).inbound.toList ∧ inboundOk (0x10003, 0x20000) (inboundReq k) = true ∧
      (inboundReq k).data.length = (inboundReq k).len ∧ (inboundReq k).dpa % 4 = 0) ∧
    ((listening.part 3).inbound.toList.all fun w => !inboundOk w ⟨.read, 0x90000, 4, []⟩) = true ∧
    ((List.range 16).find? fun n => ({ listening with ports := [] } : State).part n |>.ports.getLsbD 2) = some 3 ∧
    (∀ i < 4, listening.mapped (0x20000 + i) = true ∧ (Place.device (0x20000 + i)).remote = false) ∧
    ((inRing.tethers.find? fun z => decide (z.state = .running ∧ z.kind = .coll ∧ z.part = 0 ∧ z.proc = 0 ∧ collPset z.ops.2.2 = 3)) = some reducing ∧
      inRing.tetherAny? (tetherToken reducing) = some reducing ∧ reducing.launch = none ∧ (inRing.proc 0 0).live = true ∧
      reducing.cancelling = false ∧ reducing.fenced = false ∧ inRing.atBoundary reducing = true ∧
      ({ inRing with requests := [request (.tether (tetherToken reducing) 0) false 0 (some 2)] } : State).atBoundary reducing = false) := by
  decide +kernel

/-- Core 0.0 enabled with nothing found wrong; with lane group 3 confirmed once; with a column group to retire. -/
def confirmedCore : State := machine0.setCore ⟨0, 0⟩ { machine0.core ⟨0, 0⟩ with confirmed := [.laneGroup 3], retiring := [5] }
def idleCore : State := { confirmedCore with thr := { confirmedCore.thr with life := .ended } }
theorem witness_RepairResults : (machine0.core ⟨0, 0⟩).enabled = true ∧ (machine0.core ⟨0, 0⟩).tests (.laneGroup 3) = true ∧
    (machine0.core ⟨0, 0⟩).tests (.shared 24) = true ∧ (machine0.core ⟨0, 0⟩).tests (.columnNode 127) = true ∧
    (machine0.core ⟨0, 0⟩).confirmed.any (sameUnit (.laneGroup 3)) = false ∧ machine0.repairs.length < 256 ∧
    (confirmedCore.core ⟨0, 0⟩).confirmed.any (sameUnit (.laneGroup 3)) = true ∧ (confirmedCore.core ⟨0, 0⟩).tests (.laneGroup 3) = true ∧
    (idleCore.core ⟨0, 0⟩).retiring = [5] ∧ idleCore.arrayBusy ⟨0, 0⟩ = false ∧ idleCore.residents ⟨0, 0⟩ = [] := by decide +kernel

/-- Partition 2 with core 0.0, which it is to give back, and none of its threads there; with a FILLING channel and an entry of the
handler table that wait for its core, and on it. -/
def owning : State :=
  let s := machine0.setCore ⟨0, 0⟩ { machine0.core ⟨0, 0⟩ with banks := #v[some 0, some 2, none, none] }
  s.setPart 2 { s.part 2 with cores := (s.part 2).cores.set 0 1, releasing := [⟨0, 0⟩] }
def fillingChannel : Channel := ⟨.filling, 0x20000, 64, 0, 0x2000101, 2, 0⟩
def boundHandler : HandlerEntry := ⟨2, 0, 9, 5, 0x30040⟩
def savedAway : State :=
  owning.setPart 2 { owning.part 2 with savedChannels := [(⟨0, 0⟩, 4, fillingChannel)], savedHandlers := [(⟨0, 0⟩, 3, boundHandler)] }
def swapping : State :=
  let s := owning.setCore ⟨0, 0⟩ { owning.core ⟨0, 0⟩ with channels := [(4, fillingChannel)], handlers := [(3, boundHandler)] }
  { s with tlb := [⟨.core ⟨0, 0⟩, 2, 0, 0, 0x10000, 0, 0, 0, 0, 7, 7⟩] }
theorem witness_PartitionResults_saved : (savedAway.part 2).killBusy = false ∧ (savedAway.part 2).savedChannels = [(⟨0, 0⟩, 4, fillingChannel)] ∧
    (∀ m < 16, m ≠ 2 → (savedAway.part m).savedChannels = []) ∧ (savedAway.core ⟨0, 0⟩).filling 4 = false ∧
    (savedAway.part 2).savedHandlers = [(⟨0, 0⟩, 3, boundHandler)] ∧ Assoc.get? (savedAway.core ⟨0, 0⟩).handlers 3 = none ∧
    (∀ d ∈ savedAway.cores, ∀ q ∈ d.2.handlers, q.2.isFor 2 0 9 = false) ∧
    swapping.halted 2 = true ∧ swapping.fillingOf 2 = [(⟨0, 0⟩, 4, fillingChannel)] ∧ swapping.handlersOf 2 = [(⟨0, 0⟩, 3, boundHandler)] ∧
    (∀ u ∈ owning.threads, u.avoid = []) ∧ owning.coreOwed 2 ⟨0, 0⟩ = false := by decide +kernel
/-- The saved channel of a COPY of the partition whose place is FILLING for another one. -/
def savedCopy : Tether := { copyTether with part := 2, suspended := true }
def placeTaken : State :=
  let s := savedAway.setPart 2 { savedAway.part 2 with savedChannels := [(⟨0, 0⟩, 4, { fillingChannel with token := tetherToken savedCopy })] }
  { s.setCore ⟨0, 0⟩ { s.core ⟨0, 0⟩ with channels := [(4, { fillingChannel with part := 0 })] } with tethers := [savedCopy] }
theorem witness_PartitionResults_taken : (placeTaken.part 2).savedChannels = [(⟨0, 0⟩, 4, { fillingChannel with token := tetherToken savedCopy })] ∧
    (∀ m < 16, m ≠ 2 → (placeTaken.part m).savedChannels = []) ∧ (placeTaken.core ⟨0, 0⟩).filling 4 = true ∧
    placeTaken.tetherAny? (tetherToken savedCopy) = some savedCopy ∧ savedCopy.part = 2 ∧ (placeTaken.part 2).killBusy = false := by decide +kernel
theorem witness_PartitionResults_freed : (placeTaken.part 0).killBusy = false ∧ placeTaken.owed 0 ((placeTaken.part 0).inc + 1) = false ∧
    (placeTaken.part 2).swappedOut = false ∧ (∀ q < 16, q ≠ 0 → q ≠ 2 → (placeTaken.part q).savedChannels = []) ∧
    ∀ e ∈ (placeTaken.core ⟨0, 0⟩).channels, e.1 = 4 → e.2.part = 0 ∨ e.2.state ≠ .filling := by decide +kernel
def killed : State := machine0.setPart 2 { machine0.part 2 with killBusy := true, run := false }
theorem witness_PartitionResults :
    ((owning.core ⟨0, 0⟩).enabled = true ∧ (owning.core ⟨0, 0⟩).ownedBy 3 = false ∧
      ((List.range 4).find? fun j => decide (((owning.core ⟨0, 0⟩).banks[j]?.getD none) = none)) = some 2) ∧
    ((owning.part 2).ownsBit ⟨0, 0⟩ = true ∧ ⟨0, 1⟩ ∉ (owning.part 2).releasing) ∧
    (⟨0, 0⟩ ∈ (owning.part 2).releasing ∧ (∀ u ∈ owning.residents ⟨0, 0⟩, u.key.part ≠ 2) ∧
      ((List.range 4).find? fun j => decide (((owning.core ⟨0, 0⟩).banks[j]?.getD none) = some 2)) = some 1) ∧
    ((owning.part 2).killBusy = false ∧ owning.owed 2 ((owning.part 2).inc + 1) = false) ∧
    ((killed.part 2).killBusy = true ∧ (killed.part 2).killWait = false ∧ killed.requests = []) ∧ killed.halted 2 = true := by decide +kernel
theorem witness_PartitionResults_release : ((owning.setPart 2 { owning.part 2 with releasing := [] }).part 2).ownsBit ⟨0, 0⟩ = true := by decide +kernel
theorem witness_PowerResults : (105 < (106 : BitVec 8).toNat ∨ machine0.power.limit < (3201 : BitVec 16).toNat) ∧ (104 : BitVec 8).toNat < 105 ∧
    (3199 : BitVec 16).toNat < machine0.power.limit ∧ (∀ n < 16, (machine0.part n).killBusy = false) ∧ ({ machine0 with off := true } : State).off = true ∧
    machine0.off = false ∧ (machine0.cores.map Prod.fst).Nodup := by decide +kernel

/-- Image 3 with a good version in its other slot, before its activation and while partition 2 halts for it, no thread live; the
same with partition 5 made to run meanwhile. -/
def goodImage : FwImage := ⟨4, 9, true⟩
def updated (a : Option (Nat × List Nat)) : State :=
  { machine0 with thr := { thread0 with life := .ended },
                  firmware := { machine0.firmware with slots := Assoc.put machine0.firmware.slots (3, 1 - Assoc.getD machine0.firmware.active 3 0) goodImage,
                                                       activating := a } }
theorem witness_FirmwareResults : goodImage.signatureOk = true ∧ Assoc.getD machine0.firmware.fused 3 0 ≤ goodImage.version ∧
    (∀ a ∈ [none, some (3, [2])], (updated a).firmware.accepts 3 (1 - Assoc.getD (updated a).firmware.active 3 0) = true ∧
      (updated a).firmware.activating = a ∧
      Assoc.get? (updated a).firmware.slots (3, 1 - Assoc.getD (updated a).firmware.active 3 0) = some goodImage ∧
      ∀ n < 16, ((updated a).part n).run = false ∧ (updated a).halted n = true) ∧
    (((updated (some (3, [2]))).setPart 5 { machine0.part 5 with run := true }).part 5).run = true := by decide +kernel

/-- A launch record in the registers of partition 0; 64 that wait. -/
def issuingRecord : State :=
  let r : List Word := [0x30000, 0x102000000, 77, 0, 0, 0, 0, 0]
  launchState.setPart 0 { launchState.part 0 with lrec := Vector.ofFn fun i => r[i.val]?.getD 0 }
def fullFifo : State := { issuingRecord with tethers := (List.range 64).map fun i => { kernelTether .queued { launch1 with fromFifo := true } with index := i } }
theorem witness_QueueRegisterResults : issuingRecord.launchDepth 0 < 64 ∧ (recordOf (wordsToBytes (issuingRecord.part 0).lrec.toList)).ok = true ∧
    (issuingRecord.proc 0 (bitsAt (issuingRecord.part 0).lctl.toNat 0 6)).live = true ∧
    (match issuingRecord.fifoRecord 0 0 0 with | .ok _ => true | .error _ => false) = true ∧
    issuingRecord.tableRoom 0 (bitsAt (issuingRecord.part 0).lctl.toNat 6 2) = true ∧ issuingRecord.tethers = [] ∧ 64 ≤ fullFifo.launchDepth 0 := by
  decide +kernel
/-- A fault FIFO of two entries, a selected queue, and quotas below the limit. -/
def fifoed : State :=
  let s := machine0.setProc 1 5 { Process.fresh with live := true, root := 1 }
  s.setPart 1 { s.part 1 with fifo := [⟨2, 0, 0, 0⟩, ⟨1, launchToken, 0, 0⟩], qsel := 0x1405 }
theorem witness_QueueRegisterResults_registers : (fifoed.part 1).fifo = [⟨2, 0, 0, 0⟩, ⟨1, launchToken, 0, 0⟩] ∧
    (∃ e, e = (fifoed.part 1).selected ∧ (fifoed.proc 1 e.1).root.getLsbD 0 = true ∧
      fifoed.otherCaps 1 e.1 e.2 + 65536 ≤ 262144 ∧ Assoc.get? (fifoed.proc 1 e.1).queues e.2 = none) ∧
    (∀ d < 4, (((List.range 16).filter fun p => decide (p ≠ 1)).map fun p => (fifoed.part p).quotaOf d).foldl (· + ·) 0 +
      bitsAt (0x1000100010001000 : Word).toNat (16 * d) 13 ≤ 4096) ∧
    (fifoed.part 1).crMark.toNat % 8 = 0 ∧ (fifoed.part 1).crText.toNat % 65536 = 0 ∧ (fifoed.part 1).crLen.toNat % 65536 = 0 ∧
    (∀ u ∈ fifoed.threads, u.life = .ready ∨ u.life = .ended) := ⟨by decide +kernel, ⟨_, rfl, by decide +kernel⟩, by decide +kernel⟩

/-- The thread selected in TSEL0 and TSEL1 of its partition, in each life that a command finds it in. -/
def commanded (u : Thread) : State := { machine0 with thr := u }.setPart 0 { machine0.part 0 with tsel0 := launchToken, tsel1 := 0 }
def livesTold : List Thread := [thread0, { thread0 with life := .preempted, lanes := [] }, { thread0 with life := .preempted, held := true, lanes := [] },
  { thread0 with life := .halted, lanes := [] }]
/-- A halted thread whose entry waits for the fault FIFO. -/
def haltWaits : State :=
  let u := { thread0 with life := .halted, lanes := [] }
  (commanded u).setPart 0 { (commanded u).part 0 with fifoWait := [⟨fifoW0 2 0 (some 0) (some 0), launchToken, 13 * 2 ^ 24, 0x1000⟩] }
theorem witness_ThreadCommandResults_waits : haltWaits.thread? thread0.key = some haltWaits.thr ∧ haltWaits.thr.life = .halted ∧
    (haltWaits.part 0).tcmd = none ∧ (haltWaits.part 0).target 0 = thread0.key ∧ haltWaits.eventWaits haltWaits.thr = true ∧
    (∀ u ∈ livesTold, (commanded u).eventWaits u = false ∧ ∀ p ∈ u.sq, ∀ c ∈ p.cells, (Place.device c.1).remote = false) ∧
    (((commanded thread0).setPart 0 { (commanded thread0).part 0 with tcmd := some (thread0.key, 1) }).part 0).tcmd = some (thread0.key, 1) ∧
    thread0.resident = true := by decide +kernel
theorem witness_ThreadCommandResults : ∀ u ∈ livesTold, ((commanded u).part 0).tcmd = none ∧ ((commanded u).part 0).target 0 = thread0.key ∧
    (commanded u).thread? thread0.key = some u ∧ ((commanded u).threads.filter fun v => v.live && decide (v.key = thread0.key)) = [u] ∧
    (u.resident = true ∨ u.life = .preempted ∨ u.life = .halted) := by decide +kernel
/-- A halted handler thread that is selected, with room in the fault FIFO and with none. -/
def handlerThread : Thread := { thread0 with key := ⟨0, 0, 0, 9⟩, life := .halted, lanes := [] }
def selecting (n : Nat) : State :=
  { machine0 with thr := handlerThread }.setPart 0 { machine0.part 0 with tsel0 := 0, tsel1 := 9, fifo := List.replicate n ⟨1, launchToken, 0, 0⟩ }
theorem witness_ThreadCommandResults_handler : ∀ n ∈ [0, 256], ((selecting n).part 0).tcmd = none ∧ ((selecting n).part 0).target 0 = handlerThread.key ∧
    (selecting n).thread? handlerThread.key = some handlerThread ∧ (selecting n).eventWaits handlerThread = false ∧
    ((selecting n).part 0).fifo.length = n ∧ ((selecting n).part 0).fifoWait = [] ∧ handlerThread.key.launch = 0 ∧ handlerThread.sq = [] ∧
    ((selecting n).threads.filter fun v => v.live && decide (v.key = handlerThread.key)) = [handlerThread] := by decide +kernel
def noThread : State := { commanded { thread0 with life := .ended } with procs := [((0, 0), { Process.fresh with live := true, root := 1 })] }
def queuedKernel : State := { noThread with tethers := [{ kernelTether .queued launch1 with index := 5 }] }
theorem witness_ThreadCommandResults_none : noThread.thread? ((noThread.part 0).target 0) = none ∧ (noThread.proc 0 ((noThread.part 0).target 0).proc).live = true ∧
    (∀ u ∈ noThread.threads, u.live = false) ∧ noThread.tethers = [] ∧
    (queuedKernel.proc 0 0).live = true ∧ queuedKernel.tetherAny? (queuedKernel.part 0).tsel0 = some { kernelTether .queued launch1 with index := 5 } := by decide +kernel
theorem witness_RegisterResults : (∃ u, u ∈ livesTold ∧ u.resident = false ∧ (commanded u).thread? (((commanded u).part 0).target 0) = some u) ∧
    8 ≤ 0x19FF8 ∧ 0x19FF8 < 0x1A000 ∧ 0x19FF8 % 8 = 0 ∧ (0x10000000000004 : Word).toNat % 8 ≠ 0 ∧ 1000 ≤ (1000 : Word).toNat % 65536 ∧
    (∀ i < 8, machine0.mapped (0x20000 + i) = true ∧ (Place.device (0x20000 + i)).remote = false) ∧ machine0.badMem = [] ∧
    (3200 : Word).toNat % 65536 ≤ 3200 ∧ (13 : Word).toNat % 256 ≤ 13 ∧ (7 : Word).toNat % 256 ≤ 7 :=
  ⟨⟨{ thread0 with life := .preempted, lanes := [] }, by decide +kernel⟩, by decide +kernel⟩
theorem witness_ResidueWords : (-8388480 : Int) ≤ 8388479 := by decide

/-- A device that runs one READY thread, which can fetch `li x9, −1` at 0x1000; one whose next step is a power limit. -/
def fetching : State :=
  let s := withMem machine0 0x1000 (bytesOf 4 0x3120FFFF)
  { s.setCore ⟨0, 0⟩ { s.core ⟨0, 0⟩ with order := [thread0.key], banks := #v[some 0, none, none, none] } with turns := [⟨0, 0⟩] }
def turned : State := fetching.settle.turn.getD machine0
theorem witness_StepRunsDecodedInstruction : quiet fetching ∧ fetching.settle.turn = some turned ∧ turned.thr.migrated = false ∧ turned.thr.micro = none ∧
    (turned.thr.prefixRead = none ∧ turned.breaks = []) ∧ turned.thr.breakpoint = none ∧ fetches turned (turned.thr.pc + BitVec.ofNat 64 (4 * 0)) 0x3120FFFF ∧ reads 0x3120FFFF (.li 9 0xFFFF) = true := by
  refine ⟨by unfold quiet; decide +kernel, ?_, by decide +kernel, by decide +kernel, by decide +kernel, by decide +kernel, ⟨by decide +kernel, 0x1000, of_mayAccess (by decide +kernel),
    by decide +kernel, by decide +kernel⟩, by decide +kernel⟩
  have h : fetching.settle.turn.isSome = true := by decide +kernel
  unfold turned
  cases e : fetching.settle.turn with
  | none => rw [e] at h; cases h
  | some s => rfl
theorem witness_StepRunsDecodedInstruction_device : ({ machine0 with agenda := [.rpop, .add 1 2 3] } : State).off = false ∧
    machine0.firmware.recovery = false ∧ Instr.rpop.isEncoded = false ∧ (Instr.add 1 2 3).isEncoded = true := by decide +kernel
theorem witness_EncodeDecodeRoundTrip : (Instr.vmxcvt 30 29 true .mxint8 23).wf = true ∧ (Instr.vmxcvt 30 29 true .mxint8 23).isEncoded = true := by decide +kernel
theorem witness_StepKeepsInvariant : Statements.Inv State.reset ∧ (match step State.reset with | .next _ => true | _ => false) = true ∧ Statements.Inv fetching ∧
    (match step fetching with | .next t => decide (t.thr.x[9] = 0xFFFFFFFFFFFFFFFF) | _ => false) = true := by
  unfold Statements.Inv; decide +kernel
theorem witness_MemoryLaws : Memory.wf [(5, 1), (9, 2)] = true ∧ (65535 : Nat) < 256 ^ 2 := by decide

end Sys2Proof.Tests
end

section
/-! Memory reads what was last written: the bytes and the number read back after a store, and canonical memories as their
bytes (R5, R109, R258). -/

namespace Sys2Proof.Machine

/-! ### Reading a run of bytes -/

/-- A read is fixed by its single bytes. -/
theorem Memory.bytes_length_eq_of_byte (m : Memory) (bs : List Byte) (a : Nat)
    (h : ∀ (i : Nat) (hi : i < bs.length), m.byte (a + i) = bs[i]) : m.bytes a bs.length = bs := by
  induction bs generalizing a with
  | nil => rfl
  | cons b bs ih =>
    have head : m.byte a = b := h 0 (by simp)
    have tail : m.bytes (a + 1) bs.length = bs := ih (a + 1) fun i hi => by
      rw [Nat.add_right_comm]
      exact h (i + 1) (Nat.succ_lt_succ hi)
    rw [List.length_cons, Memory.bytes, head, tail]

theorem Memory.bytes_put (m : Memory) (a : Nat) (bs : List Byte) : (m.put a bs).bytes a bs.length = bs :=
  Memory.bytes_length_eq_of_byte _ bs a fun i hi => by
    rw [Memory.byte_put, if_pos ⟨Nat.le_add_right a i, Nat.add_lt_add_left hi a⟩, Nat.add_sub_cancel_left,
      List.getD_eq_getElem bs 0 hi]

/-- The frame of a store. -/
theorem Memory.byte_put_of_outside (m : Memory) (a : Nat) (bs : List Byte) (x : Nat) (h : x < a ∨ a + bs.length ≤ x) :
    (m.put a bs).byte x = m.byte x := by
  rw [Memory.byte_put, if_neg (by omega)]

/-! ### Reading a number (R5) -/

theorem natOfBytes_bytesOf (n v : Nat) : natOfBytes (bytesOf n v) = v % 256 ^ n := by
  induction n generalizing v with
  | zero => simp [bytesOf, natOfBytes, Nat.mod_one]
  | succ n ih =>
    rw [bytesOf, natOfBytes, ih, BitVec.toNat_ofNat, Nat.pow_succ' (m := 256), Nat.mod_mul]

theorem Memory.load_put_bytesOf (m : Memory) (a n v : Nat) : (m.put a (bytesOf n v)).load a n = v % 256 ^ n := by
  have read : (m.put a (bytesOf n v)).bytes a n = bytesOf n v := by
    simpa only [bytesOf_length] using Memory.bytes_put m a (bytesOf n v)
  rw [Memory.load, read, natOfBytes_bytesOf]

/-! ### Canonical memories as their bytes -/

theorem Memory.wf_cons (a : Nat) (b : Byte) (r : Memory) :
    Memory.wf ((a, b) :: r) = true ↔ b ≠ 0 ∧ (∀ c ∈ r, a < c.1) ∧ r.wf = true := by
  simp [Memory.wf, and_assoc]

theorem Memory.byte_cons_self (a : Nat) (b : Byte) (r : Memory) : Memory.byte ((a, b) :: r) a = b :=
  if_pos rfl

theorem Memory.byte_cons_of_ne (a : Nat) (b : Byte) (r : Memory) (x : Nat) (h : x ≠ a) :
    Memory.byte ((a, b) :: r) x = r.byte x :=
  if_neg h.symm

/-- Cells whose addresses lie above `a` give 0 up to `a`. -/
theorem Memory.byte_eq_zero_of_le (r : Memory) (a x : Nat) (h : ∀ c ∈ r, a < c.1) (hx : x ≤ a) : r.byte x = 0 :=
  Memory.byte_eq_zero r x fun c hc => (Nat.lt_of_le_of_lt hx (h c hc)).ne'

/-- The first cell of a canonical memory holds its lowest nonzero byte, so no memory that reads alike begins below it. -/
theorem Memory.head_le_of_byte_eq (a k : Nat) (b v : Byte) (r q : Memory) (hr : ∀ c ∈ r, a < c.1) (hv : v ≠ 0)
    (h : ∀ x, Memory.byte ((a, b) :: r) x = Memory.byte ((k, v) :: q) x) : a ≤ k := by
  by_contra hlt
  have hk := h k
  rw [Memory.byte_cons_self, Memory.byte_cons_of_ne a b r k (by omega),
    Memory.byte_eq_zero_of_le r a k hr (by omega)] at hk
  exact hv hk.symm

/-- Canonical memories are extensional: cell by cell from the lowest address, equal bytes force equal cells. -/
theorem Memory.eq_of_byte_eq (m n : Memory) (hm : m.wf = true) (hn : n.wf = true) (h : ∀ a, m.byte a = n.byte a) :
    m = n := by
  induction m generalizing n with
  | nil =>
    cases n with
    | nil => rfl
    | cons d q =>
      obtain ⟨hv, -, -⟩ := (Memory.wf_cons d.1 d.2 q).1 hn
      exact absurd ((h d.1).trans (Memory.byte_cons_self d.1 d.2 q)).symm hv
  | cons c r ih =>
    obtain ⟨a, b⟩ := c
    obtain ⟨hb, hr, hrwf⟩ := (Memory.wf_cons a b r).1 hm
    cases n with
    | nil => exact absurd ((Memory.byte_cons_self a b r).symm.trans (h a)) hb
    | cons d q =>
      obtain ⟨k, v⟩ := d
      obtain ⟨hv, hq, hqwf⟩ := (Memory.wf_cons k v q).1 hn
      have address : a = k := Nat.le_antisymm (Memory.head_le_of_byte_eq a k b v r q hr hv h)
        (Memory.head_le_of_byte_eq k a v b q r hq hb fun x => (h x).symm)
      subst address
      have value : b = v := by simpa only [Memory.byte_cons_self] using h a
      have rest : r = q := ih q hrwf hqwf fun x => by
        by_cases hx : x = a
        · rw [hx, Memory.byte_eq_zero_of_le r a a hr le_rfl, Memory.byte_eq_zero_of_le q a a hq le_rfl]
        · simpa only [Memory.byte_cons_of_ne a _ _ x hx] using h x
      rw [value, rest]

/-- Settles O60: a store's bytes read back through `byte_put`, its canonical form through `put_wf`; extensionality is the
induction over the cells in rising order. -/
theorem memoryLaws : Obligations.MemoryLaws := by
  unfold Obligations.MemoryLaws
  refine ⟨fun m a bs => ⟨?_, ?_, ?_⟩, Memory.eq_of_byte_eq, fun m a n v hv => ?_⟩
  · exact Memory.bytes_put m a bs
  · exact Memory.byte_put_of_outside m a bs
  · exact Memory.put_wf m a bs
  · rw [Memory.load_put_bytesOf, Nat.mod_eq_of_lt hv]

end Sys2Proof.Machine
end

section
/-! Residue words of integers in range: the four fields, the way back and the check (R33 to R36). -/

namespace Sys2Proof.Machine

/-- Each field is below its modulus. -/
def Rnw.reduced (r : Rnw) : Prop := r.c256 < 256 ∧ r.c255 < 255 ∧ r.c257 < 257 ∧ r.c127 < 127

theorem Rnw.ofInt_reduced (x : Int) : (Rnw.ofInt x).reduced := by
  unfold Rnw.reduced Rnw.ofInt
  dsimp only
  omega

theorem Rnw.word_lt (r : Rnw) (h : r.reduced) : r.word < 2 ^ 32 := by
  unfold Rnw.reduced at h
  unfold Rnw.word
  omega

/-- The fields of a word, as they were laid. -/
theorem Rnw.bitsAt_word (r : Rnw) (h : r.reduced) :
    bitsAt r.word 0 8 = r.c256 ∧ bitsAt r.word 8 8 = r.c255 ∧ bitsAt r.word 16 9 = r.c257 ∧ bitsAt r.word 25 7 = r.c127 := by
  unfold Rnw.reduced at h
  unfold bitsAt Rnw.word
  omega

theorem Rnw.ofWord_word (r : Rnw) (h : r.reduced) : Rnw.ofWord r.word = r := by
  obtain ⟨f256, f255, f257, f127⟩ := Rnw.bitsAt_word r h
  obtain ⟨-, h255, h257, h127⟩ := h
  rw [Rnw.ofWord, f256, f255, f257, f127, Nat.mod_eq_of_lt h255, Nat.mod_eq_of_lt h257, Nat.mod_eq_of_lt h127]

/-- The fields of `Rnw.ofInt` as integers. -/
theorem Rnw.ofInt_fields (x : Int) : ((Rnw.ofInt x).c256 : Int) = x % 256 ∧ ((Rnw.ofInt x).c255 : Int) = x % 255 ∧
    ((Rnw.ofInt x).c257 : Int) = x % 257 ∧ ((Rnw.ofInt x).c127 : Int) = x % 127 := by
  unfold Rnw.ofInt
  dsimp only
  omega

/-- The weighted sum of R36 over the residues of `x` is `x` modulo M: each weight is 1 for its own modulus and 0 for the others. -/
theorem Rnw.crt_ofInt (x : Int) (lo : -8388480 ≤ x) (hi : x ≤ 8388479) : (Rnw.ofInt x).crt = x := by
  obtain ⟨h256, h255, h257, -⟩ := Rnw.ofInt_fields x
  have sum : (((Rnw.ofInt x).c255 * 8421376 + (Rnw.ofInt x).c256 * 16711425 + (Rnw.ofInt x).c257 * 8421120) % 16776960 : Nat) =
      x % 16776960 := by
    push_cast
    rw [h256, h255, h257]
    omega
  unfold Rnw.crt
  dsimp only
  split <;> omega

theorem Rnw.consistent_ofInt (x : Int) (lo : -8388480 ≤ x) (hi : x ≤ 8388479) : (Rnw.ofInt x).consistent = true := by
  obtain ⟨-, -, -, h127⟩ := Rnw.ofInt_fields x
  rw [Rnw.consistent, Rnw.crt_ofInt x lo hi, h127, decide_eq_true rfl]

/-- Settles O54: the word's fields are those of `Rnw.ofInt`, whose `CRT` is the integer. -/
theorem residueWords : Obligations.ResidueWords := by
  unfold Obligations.ResidueWords
  intro x lo hi
  have reduced := Rnw.ofInt_reduced x
  obtain ⟨f256, f255, f257, f127⟩ := Rnw.bitsAt_word _ reduced
  obtain ⟨h256, h255, h257, h127⟩ := Rnw.ofInt_fields x
  rw [f256, f255, f257, f127, Rnw.ofWord_word _ reduced]
  exact ⟨Rnw.word_lt _ reduced, h256, h255, h257, h127, Rnw.crt_ofInt x lo hi, Rnw.consistent_ofInt x lo hi⟩

end Sys2Proof.Machine
end

section
/-! Rounding: an exact magnitude in units of a power of two, the magnitudes of codes, and `Round` of R20 to R23. -/

namespace Sys2Proof.Machine

open Sys2Proof.Statements

/-! ### Exact numbers -/

/-- The magnitude of an exact number. -/
noncomputable def Dy.magnitude (x : Dy) : ℝ := (x.m : ℝ) * 2 ^ x.e

theorem Dy.magnitude_nonneg (x : Dy) : 0 ≤ x.magnitude := by unfold Dy.magnitude; positivity

theorem Dy.magnitude_pos (x : Dy) (h : x.m ≠ 0) : 0 < x.magnitude := by
  have : 0 < (x.m : ℝ) := Nat.cast_pos.2 (Nat.pos_of_ne_zero h)
  unfold Dy.magnitude
  positivity

theorem numberOf_eq (x : Dy) : numberOf x = if x.neg then -x.magnitude else x.magnitude := by
  unfold numberOf Dy.magnitude
  split <;> ring

theorem abs_numberOf (x : Dy) : |numberOf x| = x.magnitude := by
  rw [numberOf_eq]
  split
  · rw [abs_neg, abs_of_nonneg x.magnitude_nonneg]
  · exact abs_of_nonneg x.magnitude_nonneg

theorem numberOf_neg_iff (x : Dy) (h : x.m ≠ 0) : numberOf x < 0 ↔ x.neg = true := by
  have pos := x.magnitude_pos h
  rw [numberOf_eq]
  split
  · next neg => exact iff_of_true (neg_lt_zero.2 pos) neg
  · next neg => exact iff_of_false pos.le.not_gt neg

/-- The power of two of the top bit. -/
def Dy.topBit (x : Dy) : Int := (Nat.log2 x.m : Int) + x.e

theorem Dy.magnitude_mem_binade (x : Dy) (h : x.m ≠ 0) :
    (2 : ℝ) ^ x.topBit ≤ x.magnitude ∧ x.magnitude < 2 ^ (x.topBit + 1) := by
  have low : (2 : ℝ) ^ Nat.log2 x.m ≤ x.m := by exact_mod_cast Nat.log2_self_le h
  have high : (x.m : ℝ) < 2 ^ (Nat.log2 x.m + 1) := by exact_mod_cast Nat.lt_log2_self
  rw [Dy.topBit, show (Nat.log2 x.m : Int) + x.e + 1 = ((Nat.log2 x.m + 1 : Nat) : Int) + x.e by push_cast; ring,
    zpow_add₀ two_ne_zero, zpow_add₀ two_ne_zero, zpow_natCast, zpow_natCast]
  exact ⟨by unfold Dy.magnitude; gcongr, by unfold Dy.magnitude; gcongr⟩

/-! ### Rounding to a multiple of a power of two (R20) -/

/-- The choice between two neighbours depends only on the distances to them, whatever their unit. -/
theorem goesUp_scale (mode : RMode) (neg odd : Bool) {lo hi v lo' hi' v' u : ℝ} (hu : 0 < u) (up : hi' - v' = (hi - v) * u)
    (down : v' - lo' = (v - lo) * u) : goesUp mode neg odd lo' hi' v' ↔ goesUp mode neg odd lo hi v := by
  cases mode <;> simp only [goesUp, up, down, mul_lt_mul_iff_left₀ hu, mul_le_mul_iff_left₀ hu, mul_left_inj' hu.ne']

theorem roundsUp_iff (mode : RMode) (neg : Bool) (n rem shift : Nat) :
    roundsUp mode neg n rem shift = true ↔ rem ≠ 0 ∧ goesUp mode neg (decide (n % 2 = 1)) 0 (2 ^ shift) rem := by
  have pos : 0 < 2 ^ shift := Nat.two_pow_pos shift
  have lt : (2 : ℝ) ^ shift - rem < rem - 0 ↔ 2 ^ shift < 2 * rem := by
    rw [sub_lt_iff_lt_add, sub_zero, ← two_mul]; exact_mod_cast Iff.rfl
  have le : (2 : ℝ) ^ shift - rem ≤ rem - 0 ↔ 2 ^ shift ≤ 2 * rem := by
    rw [sub_le_iff_le_add, sub_zero, ← two_mul]; exact_mod_cast Iff.rfl
  have eq : (2 : ℝ) ^ shift - rem = rem - 0 ↔ 2 * rem = 2 ^ shift := by
    rw [sub_eq_iff_eq_add, sub_zero, ← two_mul, eq_comm]; exact_mod_cast Iff.rfl
  cases mode <;> simp only [roundsUp, goesUp, lt, le, eq, Bool.or_eq_true, Bool.and_eq_true, decide_eq_true_eq, Bool.not_eq_true',
    Bool.false_eq_true, and_false]
  case rne => omega
  all_goals exact and_comm

/-- `r` is the magnitude `v` rounded to whole units `u`, of which `n` fit in it, and whether that is another number. -/
def RoundsIn (mode : RMode) (neg : Bool) (u v : ℝ) (n : Nat) (r : Nat × Bool) : Prop :=
  (n : ℝ) * u ≤ v ∧ v < ((n : ℝ) + 1) * u ∧ (r.2 = true ↔ (n : ℝ) * u ≠ v) ∧ (r.1 = n ∨ r.1 = n + 1) ∧
    (r.1 = n + 1 ↔ r.2 = true ∧ goesUp mode neg (decide (n % 2 = 1)) (n * u) (((n : ℝ) + 1) * u) v)

/-- A multiple of the unit stays. -/
theorem RoundsIn.exact (mode : RMode) (neg : Bool) (u : ℝ) (n : Nat) (hu : 0 < u) : RoundsIn mode neg u (n * u) n (n, false) :=
  ⟨le_rfl, mul_lt_mul_of_pos_right (lt_add_one _) hu, by simp, .inl rfl, by simp⟩

/-- `n` units and a part `rem / 2^shift` of one. -/
theorem RoundsIn.part (mode : RMode) (neg : Bool) (n rem shift : Nat) (w : ℝ) (hw : 0 < w) (hrem : rem < 2 ^ shift) :
    RoundsIn mode neg (2 ^ shift * w) (((2 ^ shift * n + rem : Nat) : ℝ) * w) n
      (if roundsUp mode neg n rem shift then n + 1 else n, decide (rem ≠ 0)) := by
  have below : (rem : ℝ) < 2 ^ shift := by exact_mod_cast hrem
  have value : (((2 ^ shift * n + rem : Nat) : ℝ) * w) = n * (2 ^ shift * w) + rem * w := by push_cast; ring
  have up : (n + 1) * (2 ^ shift * w) - (n * (2 ^ shift * w) + rem * w) = (2 ^ shift - (rem : ℝ)) * w := by ring
  have down : n * (2 ^ shift * w) + rem * w - n * (2 ^ shift * w) = ((rem : ℝ) - 0) * w := by ring
  rw [value]
  refine ⟨le_add_of_nonneg_right (by positivity), ?_, ?_, ?_, ?_⟩
  · rw [add_one_mul]
    exact add_lt_add_right (mul_lt_mul_of_pos_right below hw) _
  · simp [hw.ne']
  · dsimp only; split <;> simp
  · dsimp only
    rw [goesUp_scale mode neg _ hw up down, decide_eq_true_eq, ← roundsUp_iff]
    split <;> simp_all

theorem roundTo_roundsIn (mode : RMode) (neg : Bool) (m : Nat) (e q : Int) :
    ∃ n, RoundsIn mode neg (2 ^ q) ((m : ℝ) * 2 ^ e) n (roundTo mode neg m e q) := by
  unfold roundTo
  split
  · next le =>
    have value : (m : ℝ) * 2 ^ e = ((m * 2 ^ (e - q).toNat : Nat) : ℝ) * 2 ^ q := by
      rw [show e = ((e - q).toNat : Int) + q by omega, zpow_add₀ two_ne_zero, zpow_natCast]
      push_cast
      rw [show ((e - q).toNat + q - q : Int).toNat = (e - q).toNat by omega]
      ring
    rw [value]
    exact ⟨_, RoundsIn.exact mode neg _ _ (by positivity)⟩
  · next lt =>
    have unit : (2 : ℝ) ^ q = 2 ^ (q - e).toNat * 2 ^ e := by
      rw [← zpow_natCast, ← zpow_add₀ two_ne_zero]
      congr 1
      omega
    have part := RoundsIn.part mode neg (m / 2 ^ (q - e).toNat) (m % 2 ^ (q - e).toNat) (q - e).toNat (2 ^ e) (by positivity)
      (Nat.mod_lt _ (Nat.two_pow_pos _))
    rw [Nat.div_add_mod] at part
    rw [unit]
    exact ⟨_, part⟩

theorem Dy.roundTo_roundsIn (mode : RMode) (x : Dy) (q : Int) :
    ∃ n, RoundsIn mode x.neg (2 ^ q) x.magnitude n (roundTo mode x.neg x.m x.e q) :=
  Machine.roundTo_roundsIn mode x.neg x.m x.e q

/-! ### The magnitudes of codes (R13) -/

/-- Up to the next power of two, codes step by one unit: `n` units of the binade `j` above the subnormals. -/
theorem codeMagnitude_shift (f : Fmt) (j n : Nat) (low : j = 0 ∨ 2 ^ f.fbits ≤ n) (high : n ≤ 2 ^ (f.fbits + 1)) :
    codeMagnitude f (j * 2 ^ f.fbits + n) = n * 2 ^ ((j : Int) + (f.emin - f.fbits)) := by
  have normal (i r : Nat) (hr : r < 2 ^ f.fbits) : codeMagnitude f ((i + 1) * 2 ^ f.fbits + r) =
      ((2 ^ f.fbits + r : Nat) : ℝ) * 2 ^ ((i : Int) + (f.emin - f.fbits)) := by
    have quotient : ((i + 1) * 2 ^ f.fbits + r) / 2 ^ f.fbits = i + 1 := by
      rw [mul_comm, Nat.mul_add_div (Nat.two_pow_pos _), Nat.div_eq_of_lt hr, add_zero]
    have remainder : ((i + 1) * 2 ^ f.fbits + r) % 2 ^ f.fbits = r := by
      rw [mul_comm, Nat.mul_add_mod, Nat.mod_eq_of_lt hr]
    rw [codeMagnitude, if_neg (Nat.le_add_right_of_le (Nat.le_mul_of_pos_left _ i.succ_pos)).not_gt, quotient, remainder, Fmt.emin]
    congr 2
    push_cast
    ring
  rcases Nat.lt_or_ge n (2 ^ f.fbits) with small | large
  · obtain rfl : j = 0 := low.resolve_right (by omega)
    rw [zero_mul, zero_add, codeMagnitude, if_pos small, Nat.cast_zero, zero_add]
  · obtain ⟨r, rfl⟩ := Nat.exists_eq_add_of_le large
    rcases Nat.lt_or_ge r (2 ^ f.fbits) with inside | top
    · rw [← normal j r inside]
      congr 1
      ring
    · obtain rfl : r = 2 ^ f.fbits := by rw [pow_succ] at high; omega
      have next := normal (j + 1) 0 (Nat.two_pow_pos _)
      rw [show j * 2 ^ f.fbits + (2 ^ f.fbits + 2 ^ f.fbits) = (j + 1 + 1) * 2 ^ f.fbits + 0 by ring, next,
        show ((j + 1 : Nat) : Int) + (f.emin - f.fbits) = 1 + ((j : Int) + (f.emin - f.fbits)) by push_cast; ring,
        zpow_add₀ two_ne_zero, zpow_one]
      push_cast
      ring

theorem codeMagnitude_strictMono (f : Fmt) : StrictMono (codeMagnitude f) := by
  have step (j n : Nat) (low : j = 0 ∨ 2 ^ f.fbits ≤ n) (high : n < 2 ^ (f.fbits + 1)) :
      codeMagnitude f (j * 2 ^ f.fbits + n) < codeMagnitude f (j * 2 ^ f.fbits + n + 1) := by
    rw [add_assoc, codeMagnitude_shift f j n low high.le, codeMagnitude_shift f j (n + 1) (low.imp_right (by omega)) high]
    gcongr
    exact Nat.lt_succ_self n
  refine strictMono_nat_of_lt_succ fun c => ?_
  have parts := Nat.div_add_mod' c (2 ^ f.fbits)
  have small : c % 2 ^ f.fbits < 2 ^ f.fbits := Nat.mod_lt _ (Nat.two_pow_pos _)
  cases quotient : c / 2 ^ f.fbits with
  | zero =>
    have := step 0 (c % 2 ^ f.fbits) (.inl rfl) (by rw [pow_succ]; omega)
    rwa [← quotient, parts] at this
  | succ j =>
    have := step j (2 ^ f.fbits + c % 2 ^ f.fbits) (.inr (Nat.le_add_right _ _)) (by rw [pow_succ]; omega)
    rwa [← add_assoc, ← Nat.succ_mul, Nat.succ_eq_add_one, ← quotient, parts] at this

/-! ### Round (R21 to R23) -/

theorem Fmt.overflow_eq (f : Fmt) (mode : RMode) (neg : Bool) : f.overflow mode neg = overflowCode f mode neg := by
  unfold Fmt.overflow overflowCode
  cases f.hasInf <;> cases mode <;> cases neg <;> simp [Fmt.inf, Fmt.signed]

/-- The unit in the last place of a rounded number, as a power of two. -/
def Fmt.ulp (f : Fmt) (x : Dy) : Int := max (x.topBit - f.fbits) (f.emin - f.fbits)

/-- The binades between the subnormals and a rounded number. -/
def Fmt.binade (f : Fmt) (x : Dy) : Nat := (f.ulp x - (f.emin - f.fbits)).toNat

theorem Fmt.binade_add (f : Fmt) (x : Dy) : (f.binade x : Int) + (f.emin - f.fbits) = f.ulp x := by
  unfold Fmt.binade Fmt.ulp
  omega

/-- A magnitude has room in the fraction of its binade: between the binade's first code and the next one's. -/
theorem Fmt.units_bounds (f : Fmt) (x : Dy) (hx : x.m ≠ 0) (n : Nat) (low : (n : ℝ) * 2 ^ f.ulp x ≤ x.magnitude)
    (high : x.magnitude < ((n : ℝ) + 1) * 2 ^ f.ulp x) :
    n < 2 ^ (f.fbits + 1) ∧ (f.binade x = 0 ∨ 2 ^ f.fbits ≤ n) := by
  obtain ⟨bottom, top⟩ := x.magnitude_mem_binade hx
  have unit : (0 : ℝ) < 2 ^ f.ulp x := by positivity
  constructor
  · have above : (2 : ℝ) ^ (x.topBit + 1) ≤ 2 ^ (f.fbits + 1) * 2 ^ f.ulp x := by
      rw [← zpow_natCast, ← zpow_add₀ two_ne_zero]
      refine zpow_le_zpow_right₀ one_le_two ?_
      have := le_max_left (x.topBit - f.fbits) (f.emin - f.fbits)
      push_cast [Fmt.ulp]
      omega
    exact_mod_cast lt_of_mul_lt_mul_right ((low.trans_lt top).trans_le above) unit.le
  · refine or_iff_not_imp_left.2 fun nonzero => ?_
    have normal : x.topBit = f.fbits + f.ulp x := by unfold Fmt.binade Fmt.ulp at *; omega
    rw [normal, zpow_add₀ two_ne_zero, zpow_natCast] at bottom
    have : (2 : ℝ) ^ f.fbits < (n : ℝ) + 1 := lt_of_mul_lt_mul_right (bottom.trans_lt high) unit.le
    exact Nat.lt_succ_iff.1 (by exact_mod_cast this)

/-- In the binade below the smallest normal: with the precision of the format, only the step from the largest number of that binade
leaves it. -/
theorem Fmt.lastBinade_tiny_iff (f : Fmt) (mode : RMode) (x : Dy) (hx : x.m ≠ 0) (last : x.topBit = f.emin - 1) :
    (roundTo mode x.neg x.m x.e (x.topBit - f.fbits)).1 < 2 ^ (f.fbits + 1) ↔ isTiny f mode x.neg x.magnitude := by
  obtain ⟨-, top⟩ := x.magnitude_mem_binade hx
  obtain ⟨n, low, high, lost, near, up⟩ := x.roundTo_roundsIn mode (x.topBit - f.fbits)
  generalize roundTo mode x.neg x.m x.e (x.topBit - f.fbits) = r at *
  have unit : (0 : ℝ) < 2 ^ (x.topBit - f.fbits) := by positivity
  have smallest : (2 : ℝ) ^ f.emin = 2 ^ (f.fbits + 1) * 2 ^ (x.topBit - f.fbits) := by
    rw [← zpow_natCast, ← zpow_add₀ two_ne_zero]
    congr 1
    push_cast
    omega
  have largest : (2 : ℝ) ^ f.emin - 2 ^ (f.emin - f.fbits - 1) = (2 ^ (f.fbits + 1) - 1) * 2 ^ (x.topBit - f.fbits) := by
    rw [smallest, show f.emin - f.fbits - 1 = x.topBit - f.fbits by omega]
    ring
  rw [last, sub_add_cancel] at top
  have inside : n < 2 ^ (f.fbits + 1) := by
    exact_mod_cast lt_of_mul_lt_mul_right ((low.trans_lt top).trans_eq smallest) unit.le
  rcases Nat.lt_or_ge (n + 1) (2 ^ (f.fbits + 1)) with room | full
  · have fits : (n : ℝ) + 1 ≤ 2 ^ (f.fbits + 1) - 1 := by
      have : ((n + 1 + 1 : Nat) : ℝ) ≤ ((2 ^ (f.fbits + 1) : Nat) : ℝ) := Nat.cast_le.2 room
      push_cast at this
      linarith
    refine iff_of_true (by omega) ⟨top, .inl ?_⟩
    rw [largest]
    exact high.le.trans (mul_le_mul_of_nonneg_right fits unit.le)
  · have count : (n : ℝ) + 1 = 2 ^ (f.fbits + 1) := by exact_mod_cast le_antisymm inside full
    have odd : n % 2 = 1 := by rw [pow_succ] at inside full; omega
    rw [count, ← smallest, odd, show (n : ℝ) = 2 ^ (f.fbits + 1) - 1 by linarith, ← largest] at up
    rw [show (n : ℝ) = 2 ^ (f.fbits + 1) - 1 by linarith, ← largest] at low lost
    have notUp : r.1 < 2 ^ (f.fbits + 1) ↔ ¬r.1 = n + 1 := by omega
    have whole : x.magnitude ≤ 2 ^ f.emin - 2 ^ (f.emin - f.fbits - 1) ↔ ¬r.2 = true := by
      rw [lost, not_not]
      exact ⟨fun h => low.antisymm h, fun h => h.ge⟩
    rw [notUp, up, decide_eq_true rfl, isTiny, whole]
    simp only [top, true_and, not_and_or]

/-- Tininess as the model tests it (R23): below half of the smallest normal, or in the binade below that and not rounded up to it. -/
def Fmt.tiny (f : Fmt) (mode : RMode) (x : Dy) : Bool :=
  decide (x.topBit < f.emin - 1) ||
    (decide (x.topBit = f.emin - 1) && decide ((roundTo mode x.neg x.m x.e (x.topBit - f.fbits)).1 < 2 ^ (f.fbits + 1)))

theorem Fmt.tiny_iff (f : Fmt) (mode : RMode) (x : Dy) (hx : x.m ≠ 0) :
    f.tiny mode x = true ↔ isTiny f mode x.neg x.magnitude := by
  obtain ⟨bottom, top⟩ := x.magnitude_mem_binade hx
  simp only [Fmt.tiny, Bool.or_eq_true, Bool.and_eq_true, decide_eq_true_eq]
  rcases lt_trichotomy x.topBit (f.emin - 1) with below | last | above
  · have half : x.magnitude < 2 ^ (f.emin - 1) := top.trans_le (zpow_le_zpow_right₀ one_le_two (by omega))
    have whole : (2 : ℝ) ^ f.emin = 2 ^ (f.emin - 1) + 2 ^ (f.emin - 1) := by
      rw [zpow_sub_one₀ two_ne_zero]; ring
    have gap : (2 : ℝ) ^ (f.emin - f.fbits - 1) ≤ 2 ^ (f.emin - 1) := zpow_le_zpow_right₀ one_le_two (by omega)
    have pos : (0 : ℝ) < 2 ^ (f.emin - 1) := by positivity
    exact iff_of_true (.inl below) ⟨by linarith, .inl (by linarith)⟩
  · rw [← f.lastBinade_tiny_iff mode x hx last]
    omega
  · have : (2 : ℝ) ^ f.emin ≤ x.magnitude := (zpow_le_zpow_right₀ one_le_two (by omega)).trans bottom
    exact iff_of_false (by omega) fun h => absurd h.1 this.not_gt

/-- The magnitude's code rounded with the exponent range unbounded above, and whether that is another number (R21). -/
def Fmt.roundedCode (f : Fmt) (mode : RMode) (x : Dy) : Nat × Bool :=
  (f.binade x * 2 ^ f.fbits + (roundTo mode x.neg x.m x.e (f.ulp x)).1, (roundTo mode x.neg x.m x.e (f.ulp x)).2)

theorem Fmt.round_eq (f : Fmt) (mode : RMode) (x : Dy) (hx : x.m ≠ 0) : f.round mode x =
    if f.maxFinite < (f.roundedCode mode x).1 then (overflowCode f mode x.neg, Flags.of ||| Flags.nx)
    else (f.signed x.neg (f.roundedCode mode x).1, (if (f.roundedCode mode x).2 then Flags.nx else 0) |||
      (if (f.roundedCode mode x).2 && f.tiny mode x then Flags.uf else 0)) := by
  rw [← Fmt.overflow_eq, Fmt.round, if_neg hx]
  rfl

/-- R20 to R23, for every format whose codes have a fraction: the codes of a binade are its units of the last place, counted. -/
theorem Fmt.round_rounds (f : Fmt) (hf : 1 ≤ f.fbits) (mode : RMode) (x : Dy) (hx : x.m ≠ 0) :
    rounds f mode (numberOf x) (f.round mode x) := by
  obtain ⟨n, low, high, lost, near, up⟩ := x.roundTo_roundsIn mode (f.ulp x)
  obtain ⟨inside, normal⟩ := f.units_bounds x hx n low high
  have lo : codeMagnitude f (f.binade x * 2 ^ f.fbits + n) = n * 2 ^ f.ulp x := by
    rw [codeMagnitude_shift f _ n normal inside.le, f.binade_add]
  have hi : codeMagnitude f (f.binade x * 2 ^ f.fbits + n + 1) = ((n : ℝ) + 1) * 2 ^ f.ulp x := by
    rw [add_assoc, codeMagnitude_shift f _ (n + 1) (normal.imp_right (by omega)) inside, f.binade_add, Nat.cast_succ]
  have parity : (f.binade x * 2 ^ f.fbits + n) % 2 = n % 2 := by
    rw [← Nat.sub_add_cancel hf, pow_succ, ← mul_assoc, Nat.mul_add_mod']
  refine ⟨f.binade x * 2 ^ f.fbits + n, _, x.neg, _, f.tiny mode x, (numberOf_neg_iff x hx).symm, ?_, ?_, ?_, ?_, ?_, ?_,
    f.round_eq mode x hx⟩
  · rwa [abs_numberOf, lo]
  · rwa [abs_numberOf, hi]
  · rwa [abs_numberOf, lo]
  · rw [abs_numberOf, f.tiny_iff mode x hx]
  · exact near.imp (congrArg _) (congrArg (f.binade x * 2 ^ f.fbits + ·))
  · rw [abs_numberOf, lo, hi, parity]
    exact Nat.add_left_cancel_iff.trans up

/-! ### Codes round to themselves -/

/-- A finite code by its sign and its magnitude. -/
theorem Fmt.unpack_fin (f : Fmt) (c : Nat) (x : Dy) (hc : c < 2 ^ f.bits) (h : f.unpack c = .fin x) :
    c = f.signed x.neg (c % f.signBit) ∧ c % f.signBit ≤ f.maxFinite ∧ x.magnitude = codeMagnitude f (c % f.signBit) := by
  have sign : c = f.signed (c.testBit (f.ebits + f.fbits)) (c % f.signBit) := by
    have top : c / f.signBit < 2 := Nat.div_lt_of_lt_mul (by
      rwa [Fmt.signBit, ← pow_succ, Nat.add_comm (f.ebits + f.fbits), ← Nat.add_assoc])
    have parts := Nat.div_add_mod' c f.signBit
    rw [Nat.testBit_eq_decide_div_mod_eq, ← Fmt.signBit, Nat.mod_eq_of_lt top, Fmt.signed]
    rcases Nat.le_one_iff_eq_zero_or_eq_one.1 (Nat.lt_succ_iff.1 top) with zero | one
    · rw [zero, zero_mul, zero_add] at parts
      simpa [zero] using parts.symm
    · rw [one, one_mul, add_comm] at parts
      simpa [one] using parts.symm
  have field : bitsAt c f.fbits f.ebits = c % f.signBit / 2 ^ f.fbits := by
    rw [bitsAt, Fmt.signBit, pow_add, mul_comm, Nat.mod_mul_right_div_self]
  have fraction : c % 2 ^ f.fbits = c % f.signBit % 2 ^ f.fbits := by
    rw [Fmt.signBit, pow_add, Nat.mod_mul_left_mod]
  unfold Fmt.unpack at h
  rw [field, fraction] at h
  dsimp only at h
  split at h
  · split at h <;> cases h
  · next fits =>
    split at h <;> cases h <;> refine ⟨sign, not_lt.1 fits, ?_⟩
    · next subnormal =>
      have small : c % f.signBit < 2 ^ f.fbits := (Nat.div_eq_zero_iff_lt (Nat.two_pow_pos _)).1 subnormal
      rw [Dy.magnitude, codeMagnitude, if_pos small, Nat.mod_eq_of_lt small]
    · next normal =>
      have large : ¬c % f.signBit < 2 ^ f.fbits := mt (Nat.div_eq_zero_iff_lt (Nat.two_pow_pos _)).2 normal
      rw [Dy.magnitude, codeMagnitude, if_neg large, Nat.add_comm (2 ^ f.fbits)]

theorem Fmt.round_unpack (f : Fmt) (hf : 1 ≤ f.fbits) (mode : RMode) (c : Nat) (x : Dy) (hc : c < 2 ^ f.bits)
    (h : f.unpack c = .fin x) (hx : x.m ≠ 0) : f.round mode x = (c, 0) := by
  obtain ⟨code, fits, magnitude⟩ := f.unpack_fin c x hc h
  obtain ⟨n, k, neg, lost, tiny, sign, low, high, hlost, -, near, up, result⟩ := f.round_rounds hf mode x hx
  rw [abs_numberOf, magnitude] at low high hlost
  have here : n = c % f.signBit := le_antisymm ((codeMagnitude_strictMono f).le_iff_le.1 low)
    (Nat.lt_succ_iff.1 ((codeMagnitude_strictMono f).lt_iff_lt.1 high))
  obtain rfl : lost = false := by simpa [here] using hlost
  obtain rfl : k = n := near.resolve_right fun e => by simpa using up.1 e
  obtain rfl : neg = x.neg := Bool.eq_iff_iff.2 (sign.trans (numberOf_neg_iff x hx))
  rw [result, here, if_neg fits.not_gt, ← code]
  simp

/-- Settles O9: every format of R13 but E8M0 has a fraction. -/
theorem roundingResults : Obligations.RoundingResults := by
  unfold Obligations.RoundingResults
  intro f hf mode
  have fraction : ∀ f ∈ roundedFormats, 1 ≤ f.fbits := by decide
  exact ⟨fun c x => f.round_unpack (fraction f hf) mode c x, fun x => f.round_rounds (fraction f hf) mode x⟩

end Sys2Proof.Machine
end

section
/-! Exact sums, conversion to integers and alignment digits, against the numbers that they stand for (R20, R31, R38, R39). -/

namespace Sys2Proof.Machine

open Sys2Proof.Statements

/-! ### Exact numbers from integers, and their sums -/

/-- An integer of units with its sign apart; a zero may have either sign. -/
theorem numberOf_natAbs (neg : Bool) (i e : Int) (h : i ≠ 0 → (neg = true ↔ i < 0)) :
    numberOf ⟨neg, i.natAbs, e⟩ = (i : ℝ) * 2 ^ e := by
  have abs : ((i.natAbs : Nat) : ℝ) = |(i : ℝ)| := by rw [Nat.cast_natAbs, Int.cast_abs]
  rcases lt_trichotomy i 0 with below | rfl | above
  · have : neg = true := (h below.ne).2 below
    rw [numberOf_eq, if_pos this, Dy.magnitude, abs, abs_of_neg (Int.cast_lt_zero.2 below)]
    ring
  · simp [numberOf]
  · have : ¬neg = true := fun n => absurd ((h above.ne').1 n) above.not_gt
    rw [numberOf_eq, if_neg this, Dy.magnitude, abs, abs_of_pos (Int.cast_pos.2 above)]

theorem numberOf_ofInt (i : Int) : numberOf (Dy.ofInt i) = i := by
  rw [Dy.ofInt, numberOf_natAbs _ i 0 fun _ => decide_eq_true_iff, zpow_zero, mul_one]

/-- A number in units of a power of two not above its own. -/
theorem Dy.scaled_mul (x : Dy) (e : Int) (h : e ≤ x.e) : (x.scaled e : ℝ) * 2 ^ e = numberOf x := by
  have unit : (2 : ℝ) ^ x.e = 2 ^ (x.e - e).toNat * 2 ^ e := by
    rw [← zpow_natCast, ← zpow_add₀ two_ne_zero]
    congr 1
    omega
  unfold Dy.scaled numberOf
  rw [unit]
  cases x.neg <;> simp <;> ring

theorem numberOf_add (mode : RMode) (x y : Dy) : numberOf (x.add mode y) = numberOf x + numberOf y := by
  have sum : ((x.scaled (min x.e y.e) + y.scaled (min x.e y.e) : Int) : ℝ) * 2 ^ min x.e y.e = numberOf x + numberOf y := by
    rw [Int.cast_add, add_mul, Dy.scaled_mul x _ (min_le_left _ _), Dy.scaled_mul y _ (min_le_right _ _)]
  unfold Dy.add
  dsimp only
  split
  · next zero =>
    rw [zero, Int.cast_zero, zero_mul] at sum
    rw [← sum]
    split <;> simp [numberOf]
  · rw [numberOf_natAbs _ _ _ fun _ => decide_eq_true_iff, sum]

theorem Dy.m_ne_zero_of_numberOf (x : Dy) (h : numberOf x ≠ 0) : x.m ≠ 0 := fun zero => h (by simp [numberOf, zero])

theorem numberOf_scaled_exp (x : Dy) (k : Int) : numberOf { x with e := x.e + k } = numberOf x * 2 ^ k := by
  unfold numberOf
  dsimp only
  rw [zpow_add₀ two_ne_zero]
  ring

/-! ### Integers nearest to a number (R20, R38) -/

theorem Dy.toInt_roundsToInt (mode : RMode) (x : Dy) : roundsToInt mode (numberOf x) (x.toInt mode).1 (x.toInt mode).2 := by
  obtain ⟨n, low, high, lost, near, up⟩ := x.roundTo_roundsIn mode 0
  simp only [zpow_zero, mul_one] at low high lost up
  unfold Dy.toInt
  generalize roundTo mode x.neg x.m x.e 0 = r at *
  obtain ⟨k, b⟩ := r
  dsimp only at *
  have size : (if x.neg then -(k : Int) else k).natAbs = k := by split <;> simp
  rcases eq_or_ne x.m 0 with zero | nonzero
  · have size0 : x.magnitude = 0 := by simp [Dy.magnitude, zero]
    have value : numberOf x = 0 := by simp [numberOf, zero]
    obtain rfl : n = 0 := by
      rw [size0] at low
      exact_mod_cast le_antisymm low (Nat.cast_nonneg n)
    obtain rfl : b = false := by simpa [size0] using lost
    obtain rfl : k = 0 := near.resolve_right fun e => by simpa using up.1 e
    exact ⟨0, false, by simp [value]⟩
  · refine ⟨n, x.neg, (numberOf_neg_iff x nonzero).symm, ?_, ?_, ?_, ?_, ?_, ?_⟩ 
    · rwa [abs_numberOf]
    · rwa [abs_numberOf]
    · rwa [abs_numberOf]
    · have : (0 : ℝ) ≤ k * x.magnitude := mul_nonneg (Nat.cast_nonneg k) x.magnitude_nonneg
      rw [numberOf_eq]
      split <;> simpa using this
    · rwa [size]
    · rwa [size, abs_numberOf]

theorem truncates_of_roundsToInt {v : ℝ} {i : Int} {lost : Bool} (h : roundsToInt .rtz v i lost) : truncates v i := by
  obtain ⟨n, neg, -, low, high, -, sign, near, up⟩ := h
  have size : i.natAbs = n := near.resolve_right fun e => (up.1 e).2
  have abs : |(i : ℝ)| = n := by rw [← size, Nat.cast_natAbs, Int.cast_abs]
  exact ⟨abs.trans_le low, abs.symm ▸ high, sign⟩

/-! ### Alignment exponents and digits (R38, R39) -/

theorem FVal.top_fin (x : Dy) : (FVal.fin x).top = if x.m = 0 then none else some x.topBit := rfl

theorem FVal.top_eq_some_iff (v : FVal) (a : Int) : v.top = some a ↔ ∃ x, v = .fin x ∧ x.m ≠ 0 ∧ a = x.topBit := by
  cases v with
  | nan _ => simp [FVal.top]
  | inf _ => simp [FVal.top]
  | fin x =>
    rw [FVal.top_fin]
    split <;> simp_all [eq_comm]

theorem maxTop_eq_max? (vs : List FVal) : maxTop vs = (vs.filterMap FVal.top).max? := by
  induction vs with
  | nil => rfl
  | cons v vs ih =>
    rw [maxTop, ih, List.filterMap_cons]
    cases v.top <;> cases h : (vs.filterMap FVal.top).max? <;> simp [List.max?_cons, h]

/-- The largest top bit names the binade of the largest magnitude. -/
theorem isTop_of_maxTop (vs : List FVal) (e : Int) (h : maxTop vs = some e) : isTop vs e := by
  rw [maxTop_eq_max?, List.max?_eq_some_iff] at h
  obtain ⟨mem, max⟩ := h
  simp only [List.mem_filterMap, FVal.top_eq_some_iff] at mem max
  obtain ⟨_, hv, x, rfl, nonzero, rfl⟩ := mem
  refine ⟨⟨x, hv, ?_⟩, fun y hy => ?_⟩
  · rw [abs_numberOf]
    exact (x.magnitude_mem_binade nonzero).1
  · rcases eq_or_ne y.m 0 with zero | nonzero
    · rw [abs_numberOf, Dy.magnitude, zero, Nat.cast_zero, zero_mul]
      positivity
    · rw [abs_numberOf]
      exact (y.magnitude_mem_binade nonzero).2.trans_le
        (zpow_le_zpow_right₀ one_le_two (add_le_add_left (max _ ⟨_, hy, y, rfl, nonzero, rfl⟩) 1))

/-- Without a top bit every finite value is zero. -/
theorem zero_of_maxTop_none (vs : List FVal) (h : maxTop vs = none) (x : Dy) (hx : .fin x ∈ vs) : x.m = 0 := by
  rw [maxTop_eq_max?, List.max?_eq_none_iff, List.filterMap_eq_nil_iff] at h
  by_contra nonzero
  have := h _ hx
  rw [FVal.top_fin, if_neg nonzero] at this
  cases this

theorem alignTo_truncates (e : Int) (slices : Nat) (x : Dy) :
    truncates (numberOf x * 2 ^ (7 * (slices : Int) - 1 - e)) (alignTo e slices (.fin x)) := by
  rw [← numberOf_scaled_exp]
  exact truncates_of_roundsToInt (Dy.toInt_roundsToInt .rtz _)

theorem alignTo_natAbs_lt (e : Int) (slices : Nat) (x : Dy) (h : |numberOf x| < 2 ^ (e + 1)) :
    (alignTo e slices (.fin x)).natAbs < 128 ^ slices := by
  obtain ⟨bound, -, -⟩ := alignTo_truncates e slices x
  have unit : (0 : ℝ) < 2 ^ (7 * (slices : Int) - 1 - e) := by positivity
  have whole : (2 : ℝ) ^ (e + 1) * 2 ^ (7 * (slices : Int) - 1 - e) = 128 ^ slices := by
    rw [← zpow_add₀ two_ne_zero, show e + 1 + (7 * (slices : Int) - 1 - e) = ((7 * slices : Nat) : Int) by push_cast; ring,
      zpow_natCast, pow_mul]
    norm_num
  rw [abs_mul, abs_of_pos unit] at bound
  have below := (bound.trans_lt (mul_lt_mul_of_pos_right h unit)).trans_eq whole
  rw [← Int.cast_abs, ← Nat.cast_natAbs] at below
  exact_mod_cast below

theorem digit_eq (i : Int) (j : Nat) : digit i j = i.sign * (i.natAbs / 128 ^ j % 128 : Nat) := by
  unfold digit
  split
  · next neg => rw [Int.sign_eq_neg_one_of_neg neg, neg_one_mul]
  · rcases eq_or_ne i 0 with rfl | nonzero
    · simp
    · rw [Int.sign_eq_one_of_pos (by omega), one_mul]

/-- The digits below the place `slices` make up the number's rest there. -/
theorem sum_digits (i : Int) (slices : Nat) :
    ((List.range slices).map fun j => digit i j * 128 ^ j).sum = i.sign * (i.natAbs % 128 ^ slices : Nat) := by
  induction slices with
  | zero => simp [Nat.mod_one]
  | succ s ih =>
    rw [List.range_succ, List.map_append, List.sum_append, ih, Nat.mod_pow_succ, List.map_singleton, List.sum_singleton, digit_eq]
    push_cast
    ring

theorem digits_digitsOf (i : Int) (slices : Nat) (h : i.natAbs < 128 ^ slices) :
    digitsOf slices i ((List.range slices).map fun j => digit i j) := by
  refine ⟨by simp, ?_, ?_⟩
  · have same : ((List.range slices).map fun j => ((List.range slices).map fun j => digit i j).getD j 0 * 128 ^ j) =
        (List.range slices).map fun j => digit i j * 128 ^ j := by
      refine List.map_congr_left fun j hj => ?_
      simp [List.getD_eq_getElem?_getD, List.mem_range.1 hj]
    rw [same, sum_digits, Nat.mod_eq_of_lt h, Int.sign_mul_natAbs]
  · intro d hd
    obtain ⟨j, -, rfl⟩ := List.mem_map.1 hd
    rw [digit_eq, mul_right_comm, Int.sign_mul_self_eq_abs, Int.natAbs_mul, Int.natAbs_natCast]
    refine ⟨?_, by positivity⟩
    have small : i.natAbs / 128 ^ j % 128 < 128 := Nat.mod_lt _ (by decide)
    have unit : i.sign.natAbs ≤ 1 := by rw [Int.natAbs_sign]; split <;> omega
    exact Nat.mul_le_mul unit (Nat.le_of_lt_succ small)

end Sys2Proof.Machine
end

section
/-! K-blocks: the values of packed operands, their alignment and their digits (R12, R17, R18, R37 to R39, R283, R288). -/

namespace Sys2Proof.Machine

open Sys2Proof.Statements

/-- The number of a finite value. -/
noncomputable def FVal.number? : FVal → Option ℝ
  | .fin x => some (numberOf x)
  | _ => none

/-- The values that mark a block (R41). -/
theorem FVal.number?_eq_none_iff (v : FVal) : v.number? = none ↔ (match v with | .fin _ => false | _ => true) = true := by
  cases v <;> simp [FVal.number?]

theorem FVal.number?_eq_some_iff (v : FVal) (r : ℝ) : v.number? = some r ↔ ∃ x, v = .fin x ∧ numberOf x = r := by
  cases v <;> simp [FVal.number?]

theorem FVal.number?_scale (v : FVal) (k : Int) : (v.scale k).number? = v.number?.map (· * 2 ^ k) := by
  cases v with
  | fin x => exact congrArg some (numberOf_scaled_exp x k)
  | _ => rfl

/-- The value of element `k`, scales included (R18, R38). -/
def operandValue (f : Nat) (mxb : Bool) (scale n k : Nat) : FVal :=
  if packedScale f mxb n k = 255 ∨ scale = 255 then .nan false
  else (elemValue f (packedElem f mxb n k)).scale ((packedScale f mxb n k : Int) - 127 + ((scale : Int) - 127))

theorem srcBits_eq (f : Nat) (h : f ≤ 10) : srcBits f = operandBits f := by
  interval_cases f <;> rfl

theorem packedElem_eq (f : Nat) (h : f ≤ 10) (mxb : Bool) (n k : Nat) : packedElem f mxb n k = operandCode f mxb n k := by
  rw [packedElem, operandCode, srcBits_eq f h, operandBlock, bitsAt, bitsAt, mul_add_one]
  cases mxb <;> rfl

theorem operandScale_eq (f : Nat) (h : f ≤ 10) (mxb : Bool) (scale n k : Nat) : operandScale f mxb scale n k =
    if packedScale f mxb n k = 255 ∨ scale = 255 then none
    else some ((packedScale f mxb n k : Int) - 127 + ((scale : Int) - 127)) := by
  rw [operandScale, packedScale, srcBits_eq f h, bitsAt]
  rfl

/-- R12: an INT8 code read with -128 as -127. -/
theorem clamp8_sext (c : Nat) (h : c < 256) : clamp8 (sext 8 c) = if c = 128 then -127 else sext 8 c := by
  have code : sext 8 c = -128 ↔ c = 128 := by
    unfold sext
    split <;> omega
  simp only [clamp8, code]

theorem operandCode_lt (f : Nat) (mxb : Bool) (n k : Nat) : operandCode f mxb n k < 2 ^ operandBits f :=
  Nat.mod_lt _ (Nat.two_pow_pos _)

/-- A number times its scale, where both are there. -/
theorem scaled_number (e : Option Int) (v : FVal) :
    (match e, (match v with | .fin x => some (numberOf x) | _ => none) with
      | some e, some v => some (v * 2 ^ e)
      | _, _ => none) = e.bind fun e => v.number?.map (· * 2 ^ e) := by
  cases e <;> cases v <;> rfl

/-- An operand of a floating-point format: the value of its code times its scale. -/
theorem operand_float (f : Nat) (g : Fmt) (hg : srcFmt f = some g) (mxb : Bool) (scale n k : Nat) : operand f mxb scale n k =
    (operandScale f mxb scale n k).bind fun e => (g.unpack (operandCode f mxb n k)).number?.map (· * 2 ^ e) := by
  unfold srcFmt at hg
  split at hg <;> cases hg <;> exact scaled_number _ _

/-- An INT8 operand: multiples of 2^-6 (R12, R18). -/
theorem operand_int8 (mxb : Bool) (scale n k : Nat) : operand 0 mxb scale n k =
    (operandScale 0 mxb scale n k).map fun e => numberOf ⟨decide (clamp8 (sext 8 (operandCode 0 mxb n k)) < 0),
      (clamp8 (sext 8 (operandCode 0 mxb n k))).natAbs, -6⟩ * 2 ^ e := by
  rw [numberOf_natAbs _ _ _ fun _ => decide_eq_true_iff, clamp8_sext _ (operandCode_lt 0 mxb n k)]
  unfold operand
  cases operandScale 0 mxb scale n k <;> rfl

theorem srcFmt_isSome (f : Nat) (lo : 2 ≤ f) (hi : f ≤ 10) : (srcFmt f).isSome = true := by
  interval_cases f <;> rfl

theorem operand_eq (f : Nat) (h : f ≤ 10) (hf : f ≠ 1) (mxb : Bool) (scale n k : Nat) :
    operand f mxb scale n k = (operandValue f mxb scale n k).number? := by
  rw [operandValue, packedElem_eq f h, elemValue]
  cases hg : srcFmt f with
  | some g =>
    rw [operand_float f g hg, operandScale_eq f h]
    split
    · rfl
    · rw [FVal.number?_scale, Option.bind_some]
  | none =>
    obtain rfl : f = 0 := by
      by_contra nonzero
      have := srcFmt_isSome f (by omega) h
      rw [hg] at this
      cases this
    rw [operand_int8, operandScale_eq 0 h]
    split
    · rfl
    · rw [FVal.number?_scale, Option.map_some]
      rfl

/-! ### Cut blocks -/

theorem isPlain_iff (f : Nat) (mxb : Bool) : isPlain f mxb = true ↔ f = 1 ∨ f = 0 ∧ mxb = false := by
  cases mxb <;> simp [isPlain]

/-- The digits of plain elements are the elements (R288). -/
theorem cutBlock_plain (f : Nat) (hf : f ≤ 10) (mxb : Bool) (slices scale n lo len : Nat) (h : f = 1 ∨ f = 0 ∧ mxb = false) :
    (cutBlock f mxb slices scale n lo len).1 = ((scale : Int) - 121, decide (scale = 255)) ∧
      ∀ k < len, (cutBlock f mxb slices scale n lo len).2[k]? = some [if f = 1 then sext 4 (operandCode f mxb n (lo + k))
        else if operandCode f mxb n (lo + k) = 128 then -127 else sext 8 (operandCode f mxb n (lo + k))] := by
  unfold cutBlock
  rw [if_pos ((isPlain_iff f mxb).2 h)]
  refine ⟨rfl, fun k hk => ?_⟩
  obtain rfl | ⟨rfl, -⟩ := h
  · simp [hk, packedElem_eq 1 hf]
  · simp [hk, packedElem_eq 0 hf, clamp8_sext _ (operandCode_lt 0 mxb n _)]

/-- The values of elements `[lo, lo + len)`. -/
def blockValues (f : Nat) (mxb : Bool) (scale n lo len : Nat) : List FVal :=
  (List.range len).map fun k => operandValue f mxb scale n (lo + k)

theorem mem_blockValues (f : Nat) (mxb : Bool) (scale n lo len : Nat) (v : FVal) :
    v ∈ blockValues f mxb scale n lo len ↔ ∃ k < len, operandValue f mxb scale n (lo + k) = v := by
  simp [blockValues]

/-- The alignment exponent of a block (R38); any will do for a block of zeros. -/
def blockExponent (f : Nat) (mxb : Bool) (scale n lo len : Nat) : Int := (maxTop (blockValues f mxb scale n lo len)).getD 0

theorem cutBlock_aligned (f : Nat) (mxb : Bool) (slices scale n lo len : Nat) (h : isPlain f mxb = false) :
    (cutBlock f mxb slices scale n lo len).1.1 = blockExponent f mxb scale n lo len ∧
    ((cutBlock f mxb slices scale n lo len).1.2 = true ↔ ∃ k < len, (operandValue f mxb scale n (lo + k)).number? = none) ∧
    ∀ k < len, (cutBlock f mxb slices scale n lo len).2[k]? = some ((List.range slices).map fun j =>
      digit (alignTo (blockExponent f mxb scale n lo len) slices (operandValue f mxb scale n (lo + k))) j) := by
  have values : ((List.range len).map (lo + ·)).map (fun k => operandValue f mxb scale n k) = blockValues f mxb scale n lo len := by
    rw [List.map_map]
    rfl
  unfold cutBlock
  rw [if_neg (by simp [h])]
  refine ⟨?_, ?_, fun k hk => ?_⟩
  · rw [blockExponent, ← values]
    rfl
  · rw [List.any_eq_true]
    simp only [List.mem_map, List.mem_range]
    constructor
    · rintro ⟨_, ⟨_, ⟨k, hk, rfl⟩, rfl⟩, marked⟩
      exact ⟨k, hk, (FVal.number?_eq_none_iff _).2 marked⟩
    · rintro ⟨k, hk, marked⟩
      exact ⟨_, ⟨_, ⟨k, hk, rfl⟩, rfl⟩, (FVal.number?_eq_none_iff _).1 marked⟩
  · rw [blockExponent, ← values]
    simp only [List.getElem?_map, List.getElem?_range hk, Option.map_some]
    rfl

/-- An aligned block's finite values lie below the next power of two, one of them, if not all are zero, at or above the power of
the exponent (R38). -/
theorem blockExponent_isTop (f : Nat) (mxb : Bool) (scale n lo len : Nat) :
    (∀ k < len, ∀ v, (operandValue f mxb scale n (lo + k)).number? = some v →
      |v| < 2 ^ (blockExponent f mxb scale n lo len + 1)) ∧
    ((∃ k < len, ∃ v, (operandValue f mxb scale n (lo + k)).number? = some v ∧ v ≠ 0) →
      ∃ k < len, ∃ v, (operandValue f mxb scale n (lo + k)).number? = some v ∧
        2 ^ blockExponent f mxb scale n lo len ≤ |v|) := by
  simp only [FVal.number?_eq_some_iff]
  unfold blockExponent
  cases top : maxTop (blockValues f mxb scale n lo len) with
  | some e =>
    obtain ⟨⟨y, hy, low⟩, high⟩ := isTop_of_maxTop _ e top
    obtain ⟨j, hj, at_j⟩ := (mem_blockValues ..).1 hy
    refine ⟨?_, fun _ => ⟨j, hj, _, ⟨y, at_j, rfl⟩, low⟩⟩
    rintro k hk _ ⟨x, at_k, rfl⟩
    exact high x ((mem_blockValues ..).2 ⟨k, hk, at_k⟩)
  | none =>
    have zero (k : Nat) (hk : k < len) (x : Dy) (at_k : operandValue f mxb scale n (lo + k) = .fin x) : numberOf x = 0 := by
      simp [numberOf, zero_of_maxTop_none _ top x ((mem_blockValues ..).2 ⟨k, hk, at_k⟩)]
    constructor
    · rintro k hk _ ⟨x, at_k, rfl⟩
      rw [zero k hk x at_k, abs_zero]
      positivity
    · rintro ⟨k, hk, _, ⟨x, at_k, rfl⟩, nonzero⟩
      exact absurd (zero k hk x at_k) nonzero

/-- Each finite value is cut into the digits of its aligned integer (R38, R39). -/
theorem blockDigits (f : Nat) (mxb : Bool) (slices scale n lo len k : Nat) (hk : k < len) (v : ℝ)
    (hv : (operandValue f mxb scale n (lo + k)).number? = some v) : ∃ i,
    truncates (v * 2 ^ (7 * (slices : Int) - 1 - blockExponent f mxb scale n lo len)) i ∧
    digitsOf slices i ((List.range slices).map fun j =>
      digit (alignTo (blockExponent f mxb scale n lo len) slices (operandValue f mxb scale n (lo + k))) j) := by
  have bound := (blockExponent_isTop f mxb scale n lo len).1 k hk v hv
  obtain ⟨x, at_k, rfl⟩ := (FVal.number?_eq_some_iff _ _).1 hv
  rw [at_k]
  exact ⟨_, alignTo_truncates _ slices x, digits_digitsOf _ slices (alignTo_natAbs_lt _ slices x bound)⟩

/-- A block that is not plain: its marks, its exponent and its digits, in the numbers that its elements stand for. -/
theorem cutBlock_digits (f slices scale n lo len : Nat) (mxb : Bool) (cut : (Int × Bool) × List (List Int)) (hf : f ≤ 10)
    (hcut : cut = cutBlock f mxb slices scale n lo len) (ne1 : f ≠ 1) (mx : f = 0 → mxb = true) :
    (cut.1.2 = true ↔ ∃ k < len, operand f mxb scale n (lo + k) = none) ∧
    (∀ k < len, ∀ v, operand f mxb scale n (lo + k) = some v → |v| < 2 ^ (cut.1.1 + 1)) ∧
    ((∃ k < len, ∃ v, operand f mxb scale n (lo + k) = some v ∧ v ≠ 0) →
      ∃ k < len, ∃ v, operand f mxb scale n (lo + k) = some v ∧ 2 ^ cut.1.1 ≤ |v|) ∧
    ∀ k < len, ∀ v, operand f mxb scale n (lo + k) = some v → ∃ i ds, cut.2[k]? = some ds ∧
      truncates (v * 2 ^ (7 * (slices : Int) - 1 - cut.1.1)) i ∧ digitsOf slices i ds := by
  have aligned : isPlain f mxb = false := by
    rw [← Bool.not_eq_true, isPlain_iff]
    rintro (h | ⟨h, m⟩)
    · exact ne1 h
    · rw [mx h] at m
      cases m
  obtain ⟨exponent, marked, digits⟩ := cutBlock_aligned f mxb slices scale n lo len aligned
  obtain ⟨below, reached⟩ := blockExponent_isTop f mxb scale n lo len
  rw [hcut, exponent]
  simp only [operand_eq f hf ne1]
  refine ⟨marked, below, reached, fun k hk v hv => ?_⟩
  obtain ⟨i, aligns, cuts⟩ := blockDigits f mxb slices scale n lo len k hk v hv
  exact ⟨i, _, digits k hk, aligns, cuts⟩

end Sys2Proof.Machine
end

section
/-! Product sums: class sums as the coefficients of a product of polynomials in the radix 128, through the residue channels (R40). -/

namespace Sys2Proof.Machine

open Sys2Proof.Statements Polynomial

/-! ### Class sums (R40) -/

theorem sum_map_range_eq (n : Nat) (g : Nat → Int) : ((List.range n).map g).sum = ∑ w ∈ Finset.range n, g w := rfl

/-- The digits as the coefficients of a polynomial. -/
noncomputable def digitPoly (ds : List Int) : ℤ[X] := ∑ i ∈ Finset.range ds.length, C (ds.getD i 0) * X ^ i

theorem digitPoly_coeff (ds : List Int) (i : Nat) : (digitPoly ds).coeff i = ds.getD i 0 := by
  simp only [digitPoly, finsetSum_coeff, coeff_C_mul_X_pow, Finset.sum_ite_eq, Finset.mem_range]
  split
  · rfl
  · next out => rw [List.getD_eq_default _ _ (not_lt.1 out)]

theorem digitPoly_eval (ds : List Int) : (digitPoly ds).eval 128 = digitSum ds.length ds := by
  rw [digitPoly, eval_finsetSum, digitSum, sum_map_range_eq]
  simp

theorem digitPoly_natDegree_le (ds : List Int) : (digitPoly ds).natDegree ≤ ds.length - 1 := by
  refine natDegree_le_iff_coeff_eq_zero.2 fun i hi => ?_
  rw [digitPoly_coeff, List.getD_eq_default _ _ (by omega)]

/-- A class sum of one pair of digit lists is a coefficient of their product. -/
theorem classSum_eq_coeff (x y : List Int) (w : Nat) :
    ((List.range (w + 1)).map fun i => x.getD i 0 * y.getD (w - i) 0).sum = (digitPoly x * digitPoly y).coeff w := by
  rw [coeff_mul, Finset.Nat.sum_antidiagonal_eq_sum_range_succ fun i j => (digitPoly x).coeff i * (digitPoly y).coeff j, sum_map_range_eq]
  simp only [digitPoly_coeff]

/-- The coefficients of the product, weighed by the powers of 128, make up its value at 128. -/
theorem sum_coeffs_eq (slices : Nat) (x y : List Int) (hs : 1 ≤ slices) (hx : x.length = slices) (hy : y.length = slices) :
    ∑ w ∈ Finset.range (2 * slices - 1), (digitPoly x * digitPoly y).coeff w * 128 ^ w =
      digitSum slices x * digitSum slices y := by
  have degree : (digitPoly x * digitPoly y).natDegree < 2 * slices - 1 := by
    have := natDegree_mul_le (p := digitPoly x) (q := digitPoly y)
    have := digitPoly_natDegree_le x
    have := digitPoly_natDegree_le y
    omega
  rw [← eval_eq_sum_range' degree, eval_mul, digitPoly_eval, digitPoly_eval, hx, hy]

theorem wideSum_map_range (n : Nat) (g : Nat → Int) : wideSum ((List.range n).map g) = ∑ w ∈ Finset.range n, g w * 128 ^ w := by
  have weights : ((List.range n).map g).zipIdx.map (fun e => e.1 * 128 ^ e.2) = (List.range n).map fun w => g w * 128 ^ w :=
    List.ext_getElem (by simp) (by simp)
  rw [wideSum, ← List.sum_eq_foldl, weights, sum_map_range_eq]

theorem classSums_eq (slices : Nat) (a b : List (List Int)) : classSums slices a b =
    (List.range (2 * slices - 1)).map fun w => ((a.zip b).map fun e => (digitPoly e.1 * digitPoly e.2).coeff w).sum := by
  simp only [classSums, ← List.sum_eq_foldl, classSum_eq_coeff]

theorem wideSum_classSums (slices : Nat) (a b : List (List Int)) (hs : 1 ≤ slices) (hab : ∀ ds ∈ a ++ b, ds.length = slices) :
    wideSum (classSums slices a b) = ((a.zip b).map fun e => digitSum slices e.1 * digitSum slices e.2).sum := by
  have lengths : ∀ e ∈ a.zip b, e.1.length = slices ∧ e.2.length = slices := fun e he =>
    ⟨hab _ (List.mem_append_left _ (List.of_mem_zip he).1), hab _ (List.mem_append_right _ (List.of_mem_zip he).2)⟩
  rw [classSums_eq, wideSum_map_range]
  generalize a.zip b = l at lengths
  induction l with
  | nil => simp
  | cons e l ih =>
    obtain ⟨⟨hx, hy⟩, rest⟩ := List.forall_mem_cons.1 lengths
    simp only [List.map_cons, List.sum_cons, add_mul, Finset.sum_add_distrib]
    rw [sum_coeffs_eq slices e.1 e.2 hs hx hy, ih rest]

theorem productSum_number (mode : RMode) (slices : Nat) (ea eb : Int) (xs : List Int) :
    ∃ x, productSum mode slices (ea, false) (eb, false) xs = .fin x ∧
      numberOf x = (wideSum xs : ℝ) * 2 ^ (ea + eb - 14 * (slices : Int) + 2) := by
  refine ⟨_, rfl, numberOf_natAbs _ _ _ fun nonzero => ?_⟩
  simp [nonzero]

theorem productSum_marked (mode : RMode) (slices : Nat) (ea eb : Int × Bool) (xs : List Int) (h : ea.2 = true ∨ eb.2 = true) :
    productSum mode slices ea eb xs = .nan false := by
  rw [productSum, if_pos (Bool.or_eq_true_iff.2 h)]

/-! ### The residue channels (R36, R40) -/

theorem attemptSums_nil (xs : List Int) : attemptSums xs [] =
    if (xs.map Rnw.ofInt).all Rnw.consistent = true then some ((xs.map Rnw.ofInt).map Rnw.crt) else none := by
  have channels : (xs.zipIdx.map fun e => Rnw.ofInt e.1) = xs.map Rnw.ofInt := by
    conv_rhs => rw [← List.zipIdx_map_fst 0 xs, List.map_map]
    rfl
  rw [← channels]
  rfl

/-- Without an error on the way, the channels give back every sum in range. -/
theorem attemptSums_of_inRange (xs : List Int) (h : ∀ x ∈ xs, -8388480 ≤ x ∧ x ≤ 8388479) : attemptSums xs [] = some xs := by
  have consistent : (xs.map Rnw.ofInt).all Rnw.consistent = true := by
    rw [List.all_eq_true, List.forall_mem_map]
    exact fun x hx => Rnw.consistent_ofInt x (h x hx).1 (h x hx).2
  have back : (xs.map Rnw.ofInt).map Rnw.crt = xs := by
    rw [List.map_map, List.map_congr_left (g := id) fun x hx => by
      rw [Function.comp_apply, Rnw.crt_ofInt x (h x hx).1 (h x hx).2, id], List.map_id]
  rw [attemptSums_nil, if_pos consistent, back]

end Sys2Proof.Machine
end

section
/-! The epilogue of a K-block and the steps of collectives (R41, R290, R383). -/

namespace Sys2Proof.Machine

open Sys2Proof.Statements

/-! ### The epilogue (R41, R290) -/

theorem epilogue_float (cf : Nat) (f : Fmt) (h : cFmt cf = some f) (mode : RMode) (old : Option Nat) (p : FVal) :
    epilogue cf mode old p = if p.isNan then (f.qnan, Flags.nv)
      else (old.map fun c => f.addVal mode (f.unpack c) p).getD (f.roundVal mode p) := by
  unfold epilogue
  rw [h]
  cases old <;> rfl

/-- One rounding of C plus the product sum; a NaN gives the canonical NaN. -/
theorem epilogue_float_rounds (cf : Nat) (f : Fmt) (h : cFmt cf = some f) (hf : 1 ≤ f.fbits) (mode : RMode) (p : Dy) :
    (p.m ≠ 0 → rounds f mode (numberOf p) (epilogue cf mode none (.fin p))) ∧
    (∀ c x, f.unpack c = .fin x → numberOf x + numberOf p ≠ 0 →
      rounds f mode (numberOf x + numberOf p) (epilogue cf mode (some c) (.fin p))) ∧
    ∀ old, epilogue cf mode old (.nan false) = (f.qnan, Flags.nv) := by
  simp only [epilogue_float cf f h]
  refine ⟨f.round_rounds hf mode p, fun c x hc nonzero => ?_, fun old => rfl⟩
  rw [← numberOf_add mode] at nonzero ⊢
  rw [Option.map_some, hc]
  exact f.round_rounds hf mode _ (Dy.m_ne_zero_of_numberOf _ nonzero)

/-- The number that the epilogue rounds to an int32: the product sum, added to C where there is one. -/
def intAddend (mode : RMode) (old : Option Nat) (p : Dy) : Dy :=
  match old with
  | some c => (Dy.ofInt (sext 32 c)).add mode p
  | none => p

theorem epilogue_int (mode : RMode) (old : Option Nat) (p : Dy) : epilogue 0 mode old (.fin p) =
    (wrap 32 (toIntRange mode (-2147483648) 2147483647 (.fin (intAddend mode old p))).1,
      (toIntRange mode (-2147483648) 2147483647 (.fin (intAddend mode old p))).2) := by
  cases old <;> rfl

theorem toIntRange_fin (mode : RMode) (lo hi : Int) (x : Dy) : toIntRange mode lo hi (.fin x) =
    if (x.toInt mode).1 < lo then (lo, Flags.nv) else if hi < (x.toInt mode).1 then (hi, Flags.nv)
      else ((x.toInt mode).1, if (x.toInt mode).2 then Flags.nx else 0) := rfl

theorem epilogue_int_rounds (mode : RMode) (old : Option Nat) (p : Dy) :
    ∃ i lost, roundsToInt mode ((match old with | some c => (sext 32 c : ℝ) | none => 0) + numberOf p) i lost ∧
      epilogue 0 mode old (.fin p) = if i < -2 ^ 31 then (0x80000000, Flags.nv) else if 2 ^ 31 - 1 < i then (0x7FFFFFFF, Flags.nv)
        else ((i % 2 ^ 32).toNat, if lost then Flags.nx else 0) := by
  have value : numberOf (intAddend mode old p) = (match old with | some c => (sext 32 c : ℝ) | none => 0) + numberOf p := by
    cases old with
    | none => exact (zero_add _).symm
    | some c => exact (numberOf_add ..).trans (congrArg (· + _) (numberOf_ofInt _))
  refine ⟨_, _, value ▸ Dy.toInt_roundsToInt mode (intAddend mode old p), ?_⟩
  rw [epilogue_int, toIntRange_fin, show (-2 ^ 31 : Int) = -2147483648 by norm_num,
    show (2 ^ 31 - 1 : Int) = 2147483647 by norm_num]
  split
  · rfl
  · split <;> rfl

/-! ### One reduction (R11, R28, R383) -/

theorem collReduce_int (ctl : Word) (a b w : Nat) (h : (collDtype ctl, w) ∈ [(0, 32), (1, 64)]) :
    (collRop ctl = 0 → collReduce ctl a b = (((sext w a + sext w b) % 2 ^ w).toNat, 0)) ∧
    (collRop ctl = 1 → collReduce ctl a b = ((max (sext w a) (sext w b) % 2 ^ w).toNat, 0)) ∧
    (collRop ctl = 2 → collReduce ctl a b = ((min (sext w a) (sext w b) % 2 ^ w).toNat, 0)) := by
  simp only [List.mem_cons, Prod.mk.injEq, List.not_mem_nil, or_false] at h
  obtain ⟨dtype, rfl⟩ | ⟨dtype, rfl⟩ := h <;>
    refine ⟨fun op => ?_, fun op => ?_, fun op => ?_⟩ <;> rw [collReduce, dtype, op] <;> rfl

theorem collReduce_float (ctl : Word) (a b : Nat) (f : Fmt)
    (h : (collDtype ctl, f) ∈ [(2, Fmt.f32), (3, Fmt.f64), (4, Fmt.bf16), (5, Fmt.f16)]) :
    (collRop ctl = 0 → collReduce ctl a b = f.add (RMode.ofCode (collFrm ctl)) a b) ∧
    (collRop ctl = 1 → collReduce ctl a b = f.minmax true a b) ∧
    (collRop ctl = 2 → collReduce ctl a b = f.minmax false a b) := by
  simp only [List.mem_cons, Prod.mk.injEq, List.not_mem_nil, or_false] at h
  obtain ⟨dtype, rfl⟩ | ⟨dtype, rfl⟩ | ⟨dtype, rfl⟩ | ⟨dtype, rfl⟩ := h <;>
    refine ⟨fun op => ?_, fun op => ?_, fun op => ?_⟩ <;> rw [collReduce, dtype, op] <;> rfl

/-! ### Chunks, element by element (R383) -/

theorem collSize_pos (ctl : Word) : 0 < collSize ctl := by
  unfold collSize
  split <;> decide

/-- Element `i` of packed bytes. -/
def elementAt (e : Nat) (bs : List Byte) (i : Nat) : Nat := natOfBytes ((bs.drop (e * i)).take e)

theorem codesOf_eq (e n : Nat) (he : 0 < e) (bs : List Byte) (h : bs.length = e * n) :
    codesOf e bs = (List.range n).map (elementAt e bs) := by
  rw [codesOf, h, Nat.mul_div_cancel_left n he]
  rfl

theorem length_flatMap_bytesOf (e : Nat) (l : List Nat) : (l.flatMap (bytesOf e)).length = e * l.length := by
  induction l with
  | nil => rfl
  | cons v l ih => rw [List.flatMap_cons, List.length_append, bytesOf_length, ih, List.length_cons, mul_add_one, add_comm]

/-- Bytes of `e` each: those of element `i`. -/
theorem take_drop_flatMap_bytesOf (e : Nat) (l : List Nat) (i : Nat) (hi : i < l.length) :
    ((l.flatMap (bytesOf e)).drop (e * i)).take e = bytesOf e l[i] := by
  induction l generalizing i with
  | nil => cases hi
  | cons v l ih =>
    cases i with
    | zero => simp [bytesOf_length]
    | succ i =>
      rw [List.flatMap_cons, Nat.mul_succ, Nat.add_comm, ← List.drop_drop, List.drop_left' (bytesOf_length e v)]
      exact ih i (Nat.lt_of_succ_lt_succ hi)

/-- The reduced codes of two chunks of `n` elements. -/
def reducedCodes (ctl : Word) (a b : List Byte) (n : Nat) : List Nat :=
  (List.range n).map fun i => (collReduce ctl (elementAt (collSize ctl) a i) (elementAt (collSize ctl) b i)).1

section
variable {ctl : Word} {a b : List Byte} {n : Nat} (ha : a.length = collSize ctl * n) (hb : b.length = collSize ctl * n)
include ha hb

theorem reduceChunk_bytes : (reduceChunk ctl a b).1 = (reducedCodes ctl a b n).flatMap (bytesOf (collSize ctl)) := by
  unfold reduceChunk
  dsimp only
  rw [codesOf_eq _ n (collSize_pos ctl) a ha, codesOf_eq _ n (collSize_pos ctl) b hb, List.zip_map']
  simp only [reducedCodes, List.map_map, List.flatMap_map]
  rfl

theorem reduceChunk_length : (reduceChunk ctl a b).1.length = collSize ctl * n := by
  rw [reduceChunk_bytes ha hb, length_flatMap_bytesOf, reducedCodes, List.length_map, List.length_range]

theorem reduceChunk_element (i : Nat) (hi : i < n) : elementAt (collSize ctl) (reduceChunk ctl a b).1 i =
      (collReduce ctl (elementAt (collSize ctl) a i) (elementAt (collSize ctl) b i)).1 % 2 ^ (8 * collSize ctl) := by
  have inside : i < (reducedCodes ctl a b n).length := by simpa [reducedCodes] using hi
  rw [elementAt, reduceChunk_bytes ha hb, take_drop_flatMap_bytesOf _ _ _ inside, natOfBytes_bytesOf, pow_mul]
  simp [reducedCodes]

end

/-! ### Steps in the ring (R383) -/

/-- The member that another is `d` places after in a ring of `n`. -/
theorem ring_back (n j d r : Nat) (hj : j < n) (hd : d ≤ 2 * n) (h : r = (j + d) % n) : (r + 2 * n - d) % n = j := by
  rw [h, Nat.add_sub_assoc hd, Nat.mod_add_mod, Nat.add_assoc, Nat.add_sub_cancel' hd, Nat.add_mul_mod_self_right, Nat.mod_eq_of_lt hj]

theorem bind_ok_eq_map (o : Except EngineStop State) (out : List Byte × Flags) :
    (o >>= fun w => .ok (w, out)) = o.map fun w => (w, out) := by
  cases o <;> rfl

section
variable {s : State} {y : Tether} {data own : List Byte} {r n j : Nat} (rank : s.collRank y = (r, n))
include rank

theorem collWork_root (op : collOp y.ops.2.2 = 3) (root : r = collRoot y.ops.2.2) (hi : y.progress = 0)
    (hown : s.collOwn y 0 (volume y.layout) = .ok own) :
    s.collWork y data = (s.collPut y 0 own).map fun w => (w, own, 0) := by
  unfold State.collWork
  simp only [rank, op, if_pos root, if_pos hi, hown]
  rw [← bind_ok_eq_map]
  rfl

theorem collWork_pass_root (op : collOp y.ops.2.2 = 3) (root : r ≠ collRoot y.ops.2.2)
    (turn : r = (collRoot y.ops.2.2 + 1 + y.progress) % n) :
    s.collWork y data = (s.collPut y 0 data).map fun w => (w, data, 0) := by
  unfold State.collWork
  simp only [rank, op, root, if_false, if_pos turn.symm]
  rw [← bind_ok_eq_map]

variable (hj : j < n)
include hj

/-- In the last step of a reduction a member lays down the chunk to which it has added its own part. -/
theorem collWork_reduce (op : collOp y.ops.2.2 < 2) (hi : y.progress + 1 < n) (turn : r = (j + 2 + y.progress) % n)
    (hown : s.collOwn y (j * volume y.layout / n) ((j + 1) * volume y.layout / n) = .ok own)
    (first : y.progress = 0 → ∃ l,
      s.collOwn y ((r + n - 1) % n * volume y.layout / n) (((r + n - 1) % n + 1) * volume y.layout / n) = .ok l) :
    s.collWork y data = if y.progress + 2 = n then
        (s.collPut y (if collOp y.ops.2.2 = 0 then collSize y.ops.2.2 * (j * volume y.layout / n) else 0)
          (reduceChunk y.ops.2.2 data own).1).map fun w => (w, reduceChunk y.ops.2.2 data own)
      else .ok (s, reduceChunk y.ops.2.2 data own) := by
  have chunk : (r + 2 * n - 2 - y.progress) % n = j := by
    rw [Nat.sub_sub, ring_back n j (2 + y.progress) r hj (by omega) (by rw [turn, Nat.add_assoc])]
  have before : y.progress < n - 1 := by omega
  have last : y.progress = n - 2 ↔ y.progress + 2 = n := by omega
  unfold State.collWork
  simp only [rank, before, if_true, chunk, hown, last]
  split
  · omega
  · omega
  · split
    · next zero =>
      obtain ⟨l, hl⟩ := first zero
      rw [hl, ← bind_ok_eq_map]
      rfl
    · rw [← bind_ok_eq_map]
      rfl

/-- A reduced chunk that travels on is laid in its place. -/
theorem collWork_pass_reduced (op : collOp y.ops.2.2 = 0) (hi : n ≤ y.progress + 1) (hn : y.progress + 2 < 2 * n)
    (turn : r = (j + 1 + (y.progress - (n - 1))) % n) : s.collWork y data =
      (s.collPut y (collSize y.ops.2.2 * (j * volume y.layout / n)) data).map fun w => (w, data, 0) := by
  have chunk : (r + 2 * n - 1 - (y.progress - (n - 1))) % n = j := by
    rw [Nat.sub_sub, ring_back n j (1 + (y.progress - (n - 1))) r hj (by omega) (by rw [turn, Nat.add_assoc])]
  have after : ¬y.progress < n - 1 := by omega
  unfold State.collWork
  simp only [rank, op, after, if_false, chunk]
  rw [← bind_ok_eq_map]

theorem collWork_gather (op : collOp y.ops.2.2 = 2) (hi : y.progress ≠ 0) (hn : y.progress + 1 < n)
    (turn : r = (j + 1 + y.progress) % n) :
    s.collWork y data = (s.collPut y (collSize y.ops.2.2 * volume y.layout * j) data).map fun w => (w, data, 0) := by
  have chunk : (r + 2 * n - 1 - y.progress) % n = j := by
    rw [Nat.sub_sub, ring_back n j (1 + y.progress) r hj (by omega) (by rw [turn, Nat.add_assoc])]
  unfold State.collWork
  simp only [rank, op, hi, if_false, chunk]
  rw [← bind_ok_eq_map]
  rfl

/-- In its first step of an all-gather a member lays down its own part too. -/
theorem collWork_gather_first (op : collOp y.ops.2.2 = 2) (hi : y.progress = 0) (turn : r = (j + 1) % n)
    (hown : s.collOwn y 0 (volume y.layout) = .ok own) {u : State}
    (laid : s.collPut y (collSize y.ops.2.2 * volume y.layout * r) own = .ok u) :
    s.collWork y data = (u.collPut y (collSize y.ops.2.2 * volume y.layout * j) data).map fun w => (w, data, 0) := by
  have chunk : (r + 2 * n - 1) % n = j := ring_back n j 1 r hj (by omega) turn
  unfold State.collWork
  simp only [rank, op, hi, Nat.sub_zero, chunk, if_true, hown, bind, Except.bind, laid]
  rw [← bind_ok_eq_map]
  rfl

end

/-! ### What the engines compute -/

/-- Settles O4, clause by clause: the cut blocks, the product sums, the channels, the epilogue, one reduction, a chunk of them, and
a lemma for each kind of step in the ring. -/
theorem engineValueResults : Obligations.EngineValueResults := by
  unfold Obligations.EngineValueResults
  refine ⟨?_, ?_, productSum_marked, ?_, ?_, ?_, ?_, ?_⟩
  · intro f slices scale n lo len mxb cut hf _ _ hcut
    refine ⟨fun plain => ?_, cutBlock_digits f slices scale n lo len mxb cut hf hcut⟩
    rw [hcut]
    exact cutBlock_plain f hf mxb slices scale n lo len plain
  · intro mode slices ea eb das dbs hs _ lengths
    obtain ⟨x, sum, number⟩ := productSum_number mode slices ea eb (classSums slices das dbs)
    rw [wideSum_classSums slices das dbs hs lengths] at number
    exact ⟨x, sum, number⟩
  · exact fun xs h => attemptSums_of_inRange xs fun x hx => by have := h x hx; omega
  · intro mode p
    have formats : ∀ e ∈ [(1, Fmt.f32), (2, Fmt.f64), (3, Fmt.bf16), (4, Fmt.f16)],
        cFmt e.1 = some e.2 ∧ 1 ≤ e.2.fbits := by decide
    refine ⟨fun e he => ?_, fun old => by cases old <;> rfl, fun old => epilogue_int_rounds mode old p⟩
    exact epilogue_float_rounds e.1 e.2 (formats e he).1 (formats e he).2 mode p
  · intro ctl a b
    exact ⟨fun e he dtype => collReduce_int ctl a b e.2 (dtype ▸ he),
      fun e he dtype => collReduce_float ctl a b e.2 (dtype ▸ he)⟩
  · intro ctl a b n e he ha hb
    subst he
    exact ⟨reduceChunk_length ha hb, reduceChunk_element ha hb⟩
  · intro s y data own r n j i len e out rank hr hj hi hlen he hout
    subst hi hlen he hout
    refine ⟨fun op hi turn hown first => ?_, fun w op after hn turn laid => ?_, fun w op hi hn turn laid => ?_,
      fun u w op hi _ turn hown put laid => ?_, fun w op _ => ⟨fun root hi hown laid => ?_, fun root turn laid => ?_⟩⟩
    · rw [collWork_reduce rank hj op hi turn hown first]
      exact ⟨fun more => if_neg more.ne, fun last w laid => by rw [if_pos last, laid]; rfl⟩
    · rw [collWork_pass_reduced rank hj op after hn turn, laid]
      rfl
    · rw [collWork_gather rank hj op hi.ne' hn turn, laid]
      rfl
    · rw [collWork_gather_first rank hj op hi turn hown put, laid]
      rfl
    · rw [collWork_root rank op root hi hown, laid]
      rfl
    · rw [collWork_pass_root rank op root turn, laid]
      rfl

end Sys2Proof.Machine
end

section
/-! An instruction that has begun to perform passes the checks of R80 unmade (R235; log 16), and the invariant does not say which
instruction that may be. One that has begun as `claim` in user mode therefore claims the vector unit for a thread that is no handler
(R217). -/

namespace Sys2Proof.Machine

/-! ### Instructions that have begun to perform -/

theorem State.check_of_begun (s : State) (r : Req) (h : s.thr.begun.isSome = true) : s.check r = .ok () := if_pos h

/-- The thread that has the turn runs the instruction that has begun, whatever lies at its PC. -/
theorem runTurn_of_begun (s : State) (b : Begun) (i : Instr) (rest : List (BitVec 32)) (hm : s.thr.migrated = false)
    (hu : s.thr.micro = none) (hb : s.thr.begun = some b) (hd : decodeWords [b.word] = .ok (i, rest)) : runTurn s = exec i s := by
  have words : s.fetchWords = .ok (s, [b.word]) := by unfold State.fetchWords; rw [hu, hb]
  have fetched : s.fetch = .ok (s, i) := by
    unfold State.fetch
    simp only [words, bind, Except.bind, hb, Option.isSome_some, if_true, hd]
  unfold runTurn
  rw [hm, fetched]
  rfl

/-! ### A claim that has begun -/

theorem Thread.claim_claimed (t : Thread) : t.claim.claimed = true := rfl
theorem Thread.claim_supervisor (t : Thread) : t.claim.supervisor = t.supervisor := rfl

theorem State.drift_supervisor (s : State) : s.drift.thr.supervisor = s.thr.supervisor := by
  unfold State.drift; dsimp only; split <;> rfl

theorem State.saveErrors_thr (s : State) (x : Option Nat) (vec : Bool) (more : List Range) :
    (s.saveErrors x vec more).thr = s.thr := by
  unfold State.saveErrors; split <;> rfl

/-- A `claim` that has begun takes the vector unit in whichever mode its thread is. -/
theorem execClaim_of_begun (s : State) (hb : s.thr.begun.isSome = true) (hr : s.thr.vectorRoom = true) (hc : s.thr.claimed = false) :
    ∃ t, execClaim s = .next t ∧ t.thr.claimed = true ∧ t.thr.supervisor = s.thr.supervisor := by
  have room : s.window = .ok () := if_pos hr
  have unclaimed : (s.mapThr Thread.commitAll).thr.claimed = false := hc
  unfold execClaim systemOp issueHeld issue
  simp only [room, State.check_of_begun s _ hb, bind, Except.bind, conclude, unclaimed, Bool.false_eq_true, if_false]
  refine ⟨_, rfl, ?_, ?_⟩
  · simp [Thread.claim_claimed]
  · simp [Thread.claim_supervisor, State.saveErrors_thr, State.drift_supervisor]

/-! ### The state whose step breaks the invariant -/

/-- The reset machine with one READY thread in user mode, whose instruction at the PC has begun as `claim`. -/
def userClaims : State :=
  { State.reset with thr := { Thread.fresh with life := .ready, begun := some ⟨wordClaim, []⟩ } }

theorem userClaims_inv : Statements.Inv userClaims := by unfold Statements.Inv; decide +kernel

/-- Nothing settles, and the thread takes the turn. -/
theorem userClaims_turn : userClaims.settle.turn = some { userClaims with clock := 1, pulse := 1 } := by
  decide +kernel

theorem step_userClaims : step userClaims = execClaim { userClaims with clock := 1, pulse := 1 } := by
  have quiet : (if pulseMax ≤ userClaims.settle.pulse then userClaims.settle.device else none) = none := by decide +kernel
  have decoded : decodeWords [wordClaim] = .ok (.claim, []) := by decide +kernel
  calc step userClaims = runTurn { userClaims with clock := 1, pulse := 1 } := by
        change runOn userClaims = _
        unfold runOn
        simp only [quiet, userClaims_turn]
        rfl
    _ = execClaim { userClaims with clock := 1, pulse := 1 } := runTurn_of_begun _ _ .claim [] rfl rfl rfl decoded

/-- Refutes O58: from a state in which a thread in user mode has begun to perform `claim`, the step goes on and leaves that thread with
the vector unit claimed, though it is no handler. -/
theorem not_stepKeepsInvariant : ¬ Obligations.StepKeepsInvariant := by
  intro keeps
  obtain ⟨t, goes, claimed, supervisor⟩ := execClaim_of_begun { userClaims with clock := 1, pulse := 1 } rfl (by decide) rfl
  obtain ⟨_, threads⟩ := keeps userClaims t userClaims_inv (step_userClaims.trans goes)
  obtain ⟨_, _, _, _, handler⟩ := threads t.thr List.mem_cons_self
  exact absurd ((handler claimed).symm.trans supervisor) (by decide)

end Sys2Proof.Machine
end

section
/-! The rows of the vector tables as instructions of one shape: a row runs when its instruction is an element-wise operation, or one
that writes a predicate, on operands that are legal and declared (R80, R120, R121, R136). What VL above 0 and VL = 0 make of it then
follows once for all rows. -/

namespace Sys2Proof.Machine
open Sys2Proof.Statements

/-! ### Operands that are legal and declared (R80) -/

/-- A vector operand that is legal and declared. -/
def Thread.opOk (t : Thread) (o : VOp) : Prop := o.legal = true ∧ o.base + o.count ≤ t.hdr.vregs

/-- The operands of a vector instruction pass R80 steps 2 and 3. -/
def Thread.argsOk (t : Thread) (a : VArgs) : Prop := (t.vreq a).legal = true ∧ (t.vreq a).declared = true

theorem Thread.own_ok {t : Thread} {r : Reg} (h : t.groupOk r) : t.opOk (t.own r) := ⟨t.own_legal r h, t.own_declared r h⟩

theorem Thread.reading_ok {t : Thread} {o : VOp} (l : List Nat) (h : t.opOk o) : t.opOk (o.reading l) := h

theorem Thread.one_ok {t : Thread} {r : Nat} (h : r + 1 ≤ 32) (hd : r + 1 ≤ t.hdr.vregs) : t.opOk (one r) :=
  ⟨(one_legal r).2 h, hd⟩

theorem Thread.oneOf_ok {t : Thread} {r : Nat} (w : Nat) (l : List Nat) (h : r + 1 ≤ 32) (hd : r + 1 ≤ t.hdr.vregs) :
    t.opOk (oneOf r w l) :=
  ⟨(one_legal r).2 h, hd⟩

/-- The second operand of an instruction is legal and declared: a group is, and what is no register needs nothing (R128). -/
def VSrc.fits (b : VSrc) (t : Thread) : Prop := match b with | .vec r => t.groupOk r | _ => True

theorem VSrc.ops_ok {b : VSrc} {t : Thread} (h : b.fits t) : ∀ o ∈ b.ops t, t.opOk o := by
  cases b with
  | vec r => simpa [VSrc.ops] using Thread.own_ok h
  | x r => simp [VSrc.ops]
  | imm n => simp [VSrc.ops]
  | uimm n => simp [VSrc.ops]

theorem Thread.argsOk_of {t : Thread} {a : VArgs} (hl : a.legal = true) (hd : ∀ o ∈ a.dst, t.opOk o) (hs : ∀ o ∈ a.src, t.opOk o)
    (hpd : ∀ p ∈ a.pdst, t.predDestOk p) (hps : ∀ p ∈ a.psrc, t.predOk p) : t.argsOk a :=
  t.vreq_ok a hl (fun o ho => (List.mem_append.1 ho).elim (hd o) (hs o)) hpd hps

/-! ### Completion -/

/-- A completed vector instruction rests on what its effect makes of the thread it began with. -/
theorem State.vectorDone_congr {s t : State} {f g : Thread → Thread} (h : f s.thr = g s.thr) (hf : s.vectorDone t f) :
    s.vectorDone t g := by
  unfold State.vectorDone at hf ⊢
  rwa [← h]

/-- A vector instruction that changes its thread alone, and of it none of what the vector queue, the context save area and peers have. -/
theorem issueVector_mapThr (r : Req) (s : State) (f : Thread → Thread) (h : s.vectorFit r.caps) (hl : r.legal = true)
    (hd : r.declared = true) (hvq : (f s.thr).vq = s.thr.vq) (hcsa : (f s.thr).csa = s.thr.csa)
    (hsup : (f s.thr).supervisor = s.thr.supervisor) (hpd : (f s.thr).peerData = s.thr.peerData) :
    ∃ t, issueVector r s (fun s => .ok (s.mapThr f)) = .next t ∧ s.vectorDone t f :=
  ⟨_, issueVector_done r s _ _ h hl hd rfl rfl, s.vectorDone_of f hvq hcsa hsup hpd⟩

/-- The same of one that VL governs, with VL above 0. -/
theorem issueVl_mapThr (A : VArgs) (s : State) (f : Thread → Thread) (h : s.vectorFit A.caps) (hargs : s.thr.argsOk A)
    (hvl : s.thr.vl ≠ 0) (hvq : (f s.thr).vq = s.thr.vq) (hcsa : (f s.thr).csa = s.thr.csa)
    (hsup : (f s.thr).supervisor = s.thr.supervisor) (hpd : (f s.thr).peerData = s.thr.peerData) :
    ∃ t, issueVl A s (fun s => .ok (s.mapThr f)) = .next t ∧ s.vectorDone t f :=
  ⟨_, issueVl_done A s _ _ h hargs hvl rfl rfl, s.vectorDone_of f hvq hcsa hsup hpd⟩

theorem State.vectorDone_v {s t : State} {f : Thread → Thread} (h : s.vectorDone t f) : t.thr.v = (f s.thr).v :=
  Eq.trans (congrArg Thread.v h.2.2) rfl
theorem State.vectorDone_fcsr {s t : State} {f : Thread → Thread} (h : s.vectorDone t f) : t.thr.fcsr = (f s.thr).fcsr :=
  Eq.trans (congrArg Thread.fcsr h.2.2) rfl
theorem State.vectorDone_vlen {s t : State} {f : Thread → Thread} (h : s.vectorDone t f) : t.thr.vlen = (f s.thr).vlen :=
  Eq.trans (congrArg Thread.vlen h.2.2) rfl

/-- An effect on the vector registers and FCSR alone. -/
theorem State.vecDone_of {s t : State} {f : Thread → Thread} (h : s.vectorDone t f)
    (hf : f s.thr = { s.thr with v := (f s.thr).v, fcsr := (f s.thr).fcsr }) : s.vecDone t := by
  refine State.vectorDone_congr ?_ h
  rw [State.vectorDone_v h, State.vectorDone_fcsr h]
  exact hf

theorem Thread.putElems_eq (t : Thread) (base w : Nat) (f : Nat → Nat) (g : Nat) :
    t.putElems base w f g = { t with v := (t.putElems base w f g).v } := by
  induction g with
  | zero => rfl
  | succ g ih => rw [Thread.putElems, ih]

/-- Writing a destination group changes the vector registers alone. -/
theorem Thread.writeVec_eq (t : Thread) (r : Nat) (act : Nat → Bool) (res : Nat → Nat) :
    t.writeVec r act res = { t with v := (t.writeVec r act res).v } := t.putElems_eq _ _ _ _

/-- What an instruction that VL governs and that writes a destination group, and no flag, does with VL above 0 (R120). -/
theorem issueVl_writeVec (A : VArgs) (s : State) (d p : Reg) (f : Thread → Thread) (act : Nat → Bool) (res : Nat → Nat)
    (h : s.vectorFit A.caps) (hargs : s.thr.argsOk A) (hvl : s.thr.vl ≠ 0) (hok : s.thr.vectorOk) (hd : s.thr.groupOk d)
    (ha : ∀ i < s.thr.vl, act i = s.thr.pbit p i) (hf : f s.thr = s.thr.writeVec d.toNat act res) :
    ∃ t, issueVl A s (fun s => .ok (s.mapThr f)) = .next t ∧ s.vecDone t ∧ t.thr.fcsr = s.thr.fcsr ∧ s.thr.vecResult t.thr d p res := by
  obtain ⟨t, ht, hdone⟩ := issueVl_mapThr A s f h hargs hvl (by simp [hf]) (by simp [hf]) (by simp [hf]) (by simp [hf])
  refine ⟨t, ht, State.vecDone_of hdone ?_, (State.vectorDone_fcsr hdone).trans (by simp [hf]),
    Thread.writeVec_result s.thr t.thr d p act res hok hd ha ((State.vectorDone_v hdone).trans (by rw [hf])) ?_⟩
  · rw [hf]; conv_lhs => rw [Thread.writeVec_eq]
    simp
  · exact (State.vectorDone_vlen hdone).trans (by simp [hf])

/-! ### Rows of element-wise instructions -/

/-- The instruction of a row is an element-wise operation on legal, declared operands with the row's values at SEW. -/
def rowRuns (e : VRow) : Prop :=
  ∀ (s : State) (d a b p : Reg), s.thr.vectorOk → s.thr.groupOk d → s.thr.predOk p → e.ok s.thr d a b →
    ∃ (A : VArgs) (res : Thread → Nat → Nat × Flags),
      exec (e.make d a b p) s = elemOp A d p res s ∧ A.caps = [e.cap s.thr] ∧ s.thr.argsOk A ∧
      ∀ i < s.thr.vl, (res s.thr i).1 % 2 ^ s.thr.sew = (e.value s.thr d a b i).1 % 2 ^ s.thr.sew ∧
        (res s.thr i).2 = (e.value s.thr d a b i).2

/-- R120's elements rest on the low SEW bits of the results of the elements below VL. -/
theorem Thread.vecResult_congr {t u : Thread} {d p : Reg} {f g : Nat → Nat}
    (h : ∀ i < t.vl, f i % 2 ^ t.sew = g i % 2 ^ t.sew) (hf : t.vecResult u d p f) : t.vecResult u d p g := by
  refine ⟨fun i hi => (hf.1 i hi).trans ?_, hf.2⟩
  by_cases hl : i < t.vl
  · rw [if_pos hl, if_pos hl, h i hl]
  · rw [if_neg hl, if_neg hl]

theorem Thread.lt_of_mem_actives {t : Thread} {p : Reg} {i : Nat} (h : i ∈ t.actives p) : i < t.vl :=
  List.mem_range.1 (List.mem_of_mem_filter h)

/-- With VL above 0 a row that runs completes element by element. -/
theorem elementwise_of_runs {rows : List VRow} (h : ∀ e ∈ rows, rowRuns e) : elementwise rows := by
  intro e he s d a b p hfit hok hvl hd hp hrow
  obtain ⟨A, res, hexec, hcaps, hargs, hres⟩ := h e he s d a b p hok hd hp hrow
  obtain ⟨t, ht, hdone, helems, hflags⟩ := elemOp_ok A d p res s (hcaps ▸ hfit) hargs hvl hok hd
  refine ⟨t, hexec.trans ht, hdone, Thread.vecResult_congr (fun i hi => (hres i hi).1) helems, hflags.trans ?_⟩
  rw [List.map_congr_left fun i hi => (hres i (Thread.lt_of_mem_actives hi)).2]
  rfl

/-- What is left of a vector instruction with VL = 0: it goes on, and nothing else has changed (R121). -/
theorem issueVl_nothing (A : VArgs) (s : State) (body : State → Run State) (hfit : s.vectorFit A.caps) (hargs : s.thr.argsOk A)
    (hvl : s.thr.vl = 0) : ∃ t, issueVl A s body = .next t ∧ s.vectorDone t id :=
  ⟨_, issueVl_zero A s body hfit hargs hvl, s.vectorDone_of id rfl rfl rfl rfl⟩

theorem rowRuns.nothing {e : VRow} (h : rowRuns e) (s : State) (d a b p : Reg) (hfit : s.vectorFit [e.cap s.thr])
    (hok : s.thr.vectorOk) (hvl : s.thr.vl = 0) (hd : s.thr.groupOk d) (hp : s.thr.predOk p) (hrow : e.ok s.thr d a b) :
    ∃ t, exec (e.make d a b p) s = .next t ∧ s.vectorDone t id := by
  obtain ⟨A, res, hexec, hcaps, hargs, -⟩ := h s d a b p hok hd hp hrow
  rw [hexec]
  exact issueVl_nothing A s _ (hcaps ▸ hfit) hargs hvl

/-! ### Rows of instructions that write a predicate -/

/-- The instruction of a row writes a predicate from legal, declared operands, with the row's bits. -/
def predRowRuns (e : PRow) : Prop :=
  ∀ (s : State) (d a b p : Reg), s.thr.predDestOk d → s.thr.predOk p → e.ok s.thr a b →
    ∃ (A : VArgs) (res : Thread → Nat → Bool × Flags),
      exec (e.make d a b p) s = predOp A d p res s ∧ A.caps = [e.cap s.thr] ∧ s.thr.argsOk A ∧
      ∀ i < s.thr.vl, res s.thr i = e.value s.thr a b p i

/-- R136's bits rest on the results below VL. -/
theorem Thread.predResult_congr {t u : Thread} {d p : Reg} {f g : Nat → Bool} (h : ∀ i < t.vl, f i = g i)
    (hf : t.predResult u d p f) : t.predResult u d p g := by
  refine ⟨fun i hi => (hf.1 i hi).trans ?_, hf.2⟩
  by_cases hl : i < t.vl
  · rw [if_pos hl, if_pos hl, h i hl]
  · rw [if_neg hl, if_neg hl]

/-- With VL above 0 a row that runs writes its predicate. -/
theorem predRowRuns.done {e : PRow} (h : predRowRuns e) (s : State) (d a b p : Reg) (hfit : s.vectorFit [e.cap s.thr]) (hok : s.thr.vectorOk)
    (hvl : s.thr.vl ≠ 0) (hd : s.thr.predDestOk d) (hp : s.thr.predOk p) (hrow : e.ok s.thr a b) :
    ∃ t, exec (e.make d a b p) s = .next t ∧ s.predDone t ∧
      s.thr.predResult t.thr d p (fun i => (e.value s.thr a b p i).1) ∧
      t.thr.fcsr = s.thr.fcsr ||| (orFlags ((s.thr.actives p).map fun i => (e.value s.thr a b p i).2)).zeroExtend 8 := by
  obtain ⟨A, res, hexec, hcaps, hargs, hres⟩ := h s d a b p hd hp hrow
  obtain ⟨t, ht, hdone, hbits, hflags⟩ := predOp_ok A d p res s (hcaps ▸ hfit) hargs hvl hok hd
  refine ⟨t, hexec.trans ht, hdone, Thread.predResult_congr (fun i hi => congrArg Prod.fst (hres i hi)) hbits, hflags.trans ?_⟩
  rw [List.map_congr_left fun i hi => congrArg Prod.snd (hres i (Thread.lt_of_mem_actives hi))]
  rfl

theorem predRowRuns.nothing {e : PRow} (h : predRowRuns e) (s : State) (d a b p : Reg) (hfit : s.vectorFit [e.cap s.thr])
    (hvl : s.thr.vl = 0) (hd : s.thr.predDestOk d) (hp : s.thr.predOk p) (hrow : e.ok s.thr a b) :
    ∃ t, exec (e.make d a b p) s = .next t ∧ s.vectorDone t id := by
  obtain ⟨A, res, hexec, hcaps, hargs, -⟩ := h s d a b p hd hp hrow
  rw [hexec]
  exact issueVl_nothing A s _ (hcaps ▸ hfit) hargs hvl

end Sys2Proof.Machine
end

section
/-! Setting the vector length (R51, R125, R126). -/

namespace Sys2Proof.Machine
open Sys2Proof.Statements

/-- `vsetvli` and `vsetvl` with a legal VTYPE (R125). -/
theorem vsetOp_done (word : BitVec 32) (src : List Reg) (s : State) (d a : Reg) (vt : BitVec 16) (n : Nat) (h : s.vectorFit [3])
    (hvt : vtLegal vt = true) (hn : n = min (s.thr.avl d a vt) (vlmaxOf vt s.thr.vlen)) :
    ∃ t, vsetOp word src d a (vt.zeroExtend 64) s = .next t ∧ s.vectorDone t fun u =>
      { u with vtype := vt, vl := n, vlb := min u.vlb (vlmaxOf vt u.vlen) }.setX d (BitVec.ofNat 64 n) := by
  have small : (vt.zeroExtend 64).toNat < 2 ^ 16 := by
    rw [BitVec.toNat_setWidth_of_le (by omega)]; exact vt.isLt
  have back : (vt.zeroExtend 64).truncate 16 = vt := by
    simp
  have legal : (decide ((vt.zeroExtend 64).toNat < 2 ^ 16) && vtLegal ((vt.zeroExtend 64).truncate 16)) = true := by
    rw [back, hvt, decide_eq_true small]; rfl
  obtain ⟨t, ht, hdone⟩ := issueVector_mapThr
    { word := if (decide ((vt.zeroExtend 64).toNat < 2 ^ 16) && vtLegal ((vt.zeroExtend 64).truncate 16)) = true then tv word
        else vt.zeroExtend 64,
      legal := decide ((vt.zeroExtend 64).toNat < 2 ^ 16) && vtLegal ((vt.zeroExtend 64).truncate 16), caps := [3], reads := xs src } s
    (fun t => (t.vset ((vt.zeroExtend 64).truncate 16) (t.avl d a ((vt.zeroExtend 64).truncate 16))).setX d
      (BitVec.ofNat 64 (t.vset ((vt.zeroExtend 64).truncate 16) (t.avl d a ((vt.zeroExtend 64).truncate 16))).vl))
    h legal rfl (by simp [Thread.vset]) (by simp [Thread.vset]) (by simp [Thread.vset]) (by simp [Thread.vset])
  refine ⟨t, ht, State.vectorDone_congr ?_ hdone⟩
  rw [back, hn]
  rfl

/-- Settles O14: `vsetvli` and `vsetvl` are one operation on the VTYPE that they offer, and `vsetvlb` sets VLB alone. -/
theorem vectorSetResults : Obligations.VectorSetResults := by
  intro s d a b hfit
  refine ⟨fun vt hvt n hn => ⟨vsetOp_done _ _ s d a vt n hfit hvt hn, fun hb => ?_⟩, ?_⟩
  · obtain ⟨t, ht, hdone⟩ := vsetOp_done (wordVsetvl d a b) [a, b] s d a vt n hfit hvt hn
    rw [← hb] at ht
    exact ⟨t, ht, hdone⟩
  · exact issueVector_mapThr _ s _ hfit rfl rfl (by simp) (by simp) (by simp) (by simp)

end Sys2Proof.Machine
end

section
/-! Vector integer arithmetic, moves and merges, and vector floating point (R127 to R131). -/

namespace Sys2Proof.Machine
open Sys2Proof.Statements

/-! ### Numbers wrapped to a width (R10, R11) -/

theorem wrap_natCast (w n : Nat) : wrap w (n : Int) = n % 2 ^ w := by
  unfold wrap; norm_cast

theorem wrap_lt (w : Nat) (i : Int) : wrap w i < 2 ^ w := by
  unfold wrap
  have : (0 : Int) < (2 ^ w : Nat) := by positivity
  have h1 := Int.emod_nonneg i this.ne'
  have h2 := Int.emod_lt_of_pos i this
  omega

theorem wrap_mod (w : Nat) (i : Int) : wrap w i % 2 ^ w = wrap w i := Nat.mod_eq_of_lt (wrap_lt w i)

/-- A number read with its sign and wrapped again keeps its low bits. -/
theorem wrap_sext (w n : Nat) : wrap w (sext w n) = n % 2 ^ w := by
  have h : sext w n % (2 ^ w : Nat) = ((n % 2 ^ w : Nat) : Int) % (2 ^ w : Nat) := by
    unfold sext
    split
    · rfl
    · push_cast
      exact Int.sub_emod_right _ _
  unfold wrap
  rw [h]
  norm_cast
  exact Nat.mod_mod _ _

/-- Two's-complement subtraction (R127). -/
theorem vSub_mod (w a b : Nat) : vSub w a b % 2 ^ w = (a + (2 ^ w - b % 2 ^ w)) % 2 ^ w := by
  have hb : b % 2 ^ w ≤ 2 ^ w := (Nat.mod_lt b (Nat.two_pow_pos w)).le
  have key : ((a : Int) - b) = ((a + (2 ^ w - b % 2 ^ w) : Nat) : Int) + (2 ^ w : Nat) * (-(b / 2 ^ w : Nat) - 1) := by
    have hdiv : ((b % 2 ^ w : Nat) : Int) + (2 ^ w : Nat) * (b / 2 ^ w : Nat) = b := by exact_mod_cast Nat.mod_add_div b (2 ^ w)
    rw [Nat.cast_add, Nat.cast_sub hb, ← hdiv]
    simp only [Int.natCast_emod, Int.natCast_ediv]
    ring
  rw [vSub, wrap_mod, ← wrap_natCast]
  unfold wrap
  rw [key, Int.add_mul_emod_self_left]

/-- The lesser of two signed numbers, as one of them (R127). -/
theorem vMin_mod (w a b : Nat) : vMin w a b % 2 ^ w = wrap w (min (sext w a) (sext w b)) % 2 ^ w := by
  unfold vMin
  split
  · next h => rw [min_eq_left h, wrap_sext, Nat.mod_mod]
  · next h => rw [min_eq_right (le_of_not_ge h), wrap_sext, Nat.mod_mod]

theorem vMax_mod (w a b : Nat) : vMax w a b % 2 ^ w = wrap w (max (sext w a) (sext w b)) % 2 ^ w := by
  unfold vMax
  split
  · next h => rw [max_eq_left h, wrap_sext, Nat.mod_mod]
  · next h => rw [max_eq_right (le_of_not_ge h), wrap_sext, Nat.mod_mod]

/-! ### Shapes of instructions -/

/-- The operands of an instruction on a, b and, with `acc`, d. -/
theorem Thread.threeOk {t : Thread} {d a : Reg} {b : VSrc} (acc : Bool) (hd : t.groupOk d) (ha : t.groupOk a) (hb : b.fits t) :
    ∀ o ∈ t.own a :: b.ops t ++ (if acc then [t.own d] else []), t.opOk o := by
  intro o ho
  rcases List.mem_append.1 ho with h | h
  · rcases List.mem_cons.1 h with rfl | h
    · exact Thread.own_ok ha
    · exact VSrc.ops_ok hb o h
  · cases acc with
    | false => cases h
    | true => rw [List.mem_singleton.1 h]; exact Thread.own_ok hd

/-- A row whose instruction is an integer operation with the row's low SEW bits. -/
theorem rowRuns_of_vIntOp {e : VRow} {cap : Nat} (acc : Bool) (g : Nat → Nat → Nat → Nat → Nat) (src : Reg → VSrc)
    (hcap : e.cap = fun _ => cap)
    (hexec : ∀ d a b p s, ∃ w, exec (e.make d a b p) s = vIntOp w cap acc d a (src b) p g s)
    (hok : ∀ t d a b, e.ok t d a b → t.groupOk a ∧ (src b).fits t)
    (hval : ∀ t d a b i, g t.sew (elemAt t a i) ((src b).value t i) (elemAt t d i) % 2 ^ t.sew = (e.value t d a b i).1 % 2 ^ t.sew ∧
      0 = (e.value t d a b i).2) : rowRuns e := by
  intro s d a b p _ hd hp hrow
  obtain ⟨w, hw⟩ := hexec d a b p s
  obtain ⟨ha, hb⟩ := hok _ _ _ _ hrow
  refine ⟨_, _, hw, by rw [hcap], Thread.argsOk_of rfl (by simpa using Thread.own_ok hd) (Thread.threeOk acc hd ha hb) (by simp)
    (by simpa using hp), fun i _ => hval s.thr d a b i⟩

/-- The three forms of an integer instruction run (R127, R128). -/
theorem intRows_run {vv vx vi : Reg → Reg → Reg → Reg → Instr} {cap : Nat} {shift : Bool} {f : Nat → Nat → Nat → Nat → Nat}
    (acc : Bool) (g : Nat → Nat → Nat → Nat → Nat)
    (hvv : ∀ d a b p s, ∃ w, exec (vv d a b p) s = vIntOp w cap acc d a (.vec b) p g s := by intros; exact ⟨_, rfl⟩)
    (hvx : ∀ d a b p s, ∃ w, exec (vx d a b p) s = vIntOp w cap acc d a (.x b) p g s := by intros; exact ⟨_, rfl⟩)
    (hvi : ∀ d a b p s, ∃ w, exec (vi d a b p) s = vIntOp w cap acc d a (if shift then .uimm b else .imm b) p g s := by intros; exact ⟨_, rfl⟩)
    (hg : ∀ w a b d, g w a b d % 2 ^ w = f w a b d % 2 ^ w := by intros; rfl) : ∀ e ∈ intRows vv vx vi cap shift f, rowRuns e := by
  simp only [intRows, List.forall_mem_cons, List.not_mem_nil, false_imp_iff, implies_true, and_true]
  refine ⟨rowRuns_of_vIntOp acc g .vec rfl hvv (fun _ _ _ _ h => h) fun _ _ _ _ _ => ⟨hg _ _ _ _, rfl⟩,
    rowRuns_of_vIntOp acc g .x rfl hvx (fun _ _ _ _ h => ⟨h, trivial⟩) fun _ _ _ _ _ => ⟨hg _ _ _ _, rfl⟩,
    rowRuns_of_vIntOp acc g (fun b => if shift then .uimm b else .imm b) rfl hvi (fun _ _ _ _ h => ⟨h, ?_⟩) fun _ _ _ _ _ => ⟨?_, rfl⟩⟩
  · cases shift <;> trivial
  · cases shift <;> exact hg _ _ _ _

/-- A row whose instruction is a floating-point operation with the row's values. -/
theorem rowRuns_of_vFpOp {e : VRow} (acc : Bool) (f : Fmt → RMode → Nat → Nat → Nat → Nat × Flags) (src : Reg → VSrc)
    (hcap : e.cap = fpCapAt)
    (hexec : ∀ d a b p s, ∃ w, exec (e.make d a b p) s = vFpOp w acc d a (src b) p f s)
    (hok : ∀ t d a b, e.ok t d a b → t.sew ≠ 8 ∧ t.groupOk a ∧ (src b).fits t)
    (hval : ∀ t d a b i, e.value t d a b i = f t.fmt t.vfrm (elemAt t a i) ((src b).value t i) (elemAt t d i)) : rowRuns e := by
  intro s d a b p _ hd hp hrow
  obtain ⟨w, hw⟩ := hexec d a b p s
  obtain ⟨h8, ha, hb⟩ := hok _ _ _ _ hrow
  refine ⟨_, _, hw, by rw [hcap]; rfl, Thread.argsOk_of (decide_eq_true h8) (by simpa using Thread.own_ok hd)
    (Thread.threeOk acc hd ha hb) (by simp) (by simpa using hp), fun i _ => ?_⟩
  rw [hval]
  exact ⟨rfl, rfl⟩

/-- The two forms of a floating-point instruction run (R130). -/
theorem fpRows_run {vv vx : Reg → Reg → Reg → Reg → Instr} {f : Fmt → RMode → Nat → Nat → Nat → Nat × Flags} (acc : Bool)
    (hvv : ∀ d a b p s, ∃ w, exec (vv d a b p) s = vFpOp w acc d a (.vec b) p f s := by intros; exact ⟨_, rfl⟩)
    (hvx : ∀ d a b p s, ∃ w, exec (vx d a b p) s = vFpOp w acc d a (.x b) p f s := by intros; exact ⟨_, rfl⟩) : ∀ e ∈ fpRows vv vx f, rowRuns e := by
  simp only [fpRows, List.forall_mem_cons, List.not_mem_nil, false_imp_iff, implies_true, and_true]
  exact ⟨rowRuns_of_vFpOp acc f .vec rfl hvv (fun _ _ _ _ h => h) fun _ _ _ _ _ => rfl,
    rowRuns_of_vFpOp acc f .x rfl hvx (fun _ _ _ _ h => ⟨h.1, h.2, trivial⟩) fun _ _ _ _ _ => rfl⟩

/-- A function of one source runs (R131). -/
theorem fpUnary_runs {v : Reg → Reg → Reg → Instr} {f : Fmt → RMode → Nat → Nat × Flags}
    (hv : ∀ d a p s, ∃ w, exec (v d a p) s = vFp1Op w d a p f s := by intros; exact ⟨_, rfl⟩) : rowRuns (fpUnary v f) := by
  intro s d a b p _ hd hp ⟨h8, ha⟩
  obtain ⟨w, hw⟩ := hv d a p s
  exact ⟨_, _, hw, rfl, Thread.argsOk_of (decide_eq_true h8) (by simpa using Thread.own_ok hd) (by simpa using Thread.own_ok ha)
    (by simp) (by simpa using hp), fun i _ => ⟨rfl, rfl⟩⟩

/-! ### The tables -/

theorem rowsRun_append {l m : List VRow} (hl : ∀ e ∈ l, rowRuns e) (hm : ∀ e ∈ m, rowRuns e) : ∀ e ∈ l ++ m, rowRuns e :=
  List.forall_mem_append.2 ⟨hl, hm⟩

/-- Every integer instruction runs (R127): each family with the operation that its three forms share. -/
theorem vectorIntegerRows_run : ∀ e ∈ vectorIntegerRows, rowRuns e := by
  unfold vectorIntegerRows
  iterate 21 refine rowsRun_append ?_ ?_
  · exact intRows_run false (fun _ a b _ => a + b)
  · exact intRows_run false (fun w a b _ => vSub w a b) (hg := fun w a b _ => vSub_mod w a b)
  · exact intRows_run false (fun _ a b _ => a * b)
  · exact intRows_run false (fun w a b _ => vMulh w a b)
  · exact intRows_run false (fun w a b _ => vMulhu w a b)
  · exact intRows_run false (fun w a b _ => vDiv w a b)
  · exact intRows_run false (fun w a b _ => vDivu w a b)
  · exact intRows_run false (fun w a b _ => vRem w a b)
  · exact intRows_run false (fun _ a b _ => vRemu a b)
  · exact intRows_run false (fun _ a b _ => a &&& b)
  · exact intRows_run false (fun _ a b _ => a ||| b)
  · exact intRows_run false (fun _ a b _ => a ^^^ b)
  · exact intRows_run false (fun w a b _ => vShl w a b) (hg := fun w a b _ => by rw [vShl, Nat.shiftLeft_eq])
  · exact intRows_run false (fun w a b _ => vShr w a b) (hg := fun w a b _ => by rw [vShr, Nat.shiftRight_eq_div_pow])
  · exact intRows_run false (fun w a b _ => vSra w a b)
  · exact intRows_run false (fun w a b _ => vMin w a b) (hg := fun w a b _ => vMin_mod w a b)
  · exact intRows_run false (fun w a b _ => vMax w a b) (hg := fun w a b _ => vMax_mod w a b)
  · exact intRows_run false (fun _ a b _ => min a b)
  · exact intRows_run false (fun _ a b _ => max a b)
  · exact intRows_run true (fun _ a b d => d + a * b)
  · exact intRows_run false (fun w a b _ => satS w (sext w a + sext w b))
  · exact intRows_run false (fun w a b _ => satS w (sext w a - sext w b))

/-- A move of a source runs (R127). -/
theorem rowRuns_of_vMvOp {e : VRow} (src : Reg → VSrc) (hcap : e.cap = fun _ => 3)
    (hexec : ∀ d a b p s, ∃ w, exec (e.make d a b p) s = vMvOp w d (src b) p s)
    (hok : ∀ t d a b, e.ok t d a b → (src b).fits t)
    (hval : ∀ t d a b i, e.value t d a b i = ((src b).value t i, 0)) : rowRuns e := by
  intro s d a b p _ hd hp hrow
  obtain ⟨w, hw⟩ := hexec d a b p s
  refine ⟨_, _, hw, by rw [hcap], Thread.argsOk_of rfl (by simpa using Thread.own_ok hd) (VSrc.ops_ok (hok _ _ _ _ hrow)) (by simp)
    (by simpa using hp), fun i _ => ?_⟩
  rw [hval]
  exact ⟨rfl, rfl⟩

theorem vectorMoveRows_run : ∀ e ∈ vectorMoveRows, rowRuns e := by
  simp only [vectorMoveRows, List.forall_mem_cons, List.not_mem_nil, false_imp_iff, implies_true, and_true]
  exact ⟨rowRuns_of_vMvOp .vec rfl (fun _ _ _ _ _ => ⟨_, rfl⟩) (fun _ _ _ _ h => h) fun _ _ _ _ _ => rfl,
    rowRuns_of_vMvOp .x rfl (fun _ _ _ _ _ => ⟨_, rfl⟩) (fun _ _ _ _ _ => trivial) fun _ _ _ _ _ => rfl,
    rowRuns_of_vMvOp .imm rfl (fun _ _ _ _ _ => ⟨_, rfl⟩) (fun _ _ _ _ _ => trivial) fun _ _ _ _ _ => rfl⟩

/-- Every floating-point instruction runs (R130, R131); those that take their destination in read it too. -/
theorem vectorFloatRows_run : ∀ e ∈ vectorFloatRows, rowRuns e := by
  unfold vectorFloatRows
  iterate 13 refine rowsRun_append ?_ ?_
  iterate 6 exact fpRows_run false
  iterate 4 exact fpRows_run true
  iterate 3 exact fpRows_run false
  simp only [List.forall_mem_cons, List.not_mem_nil, false_imp_iff, implies_true, and_true]
  exact ⟨fpUnary_runs, fpUnary_runs, fpUnary_runs, fpUnary_runs⟩

/-! ### Merges (R129) -/

theorem vMergeArgs_ok (w : BitVec 32) {t : Thread} {d a p : Reg} {b : VSrc} (hd : t.groupOk d) (ha : t.groupOk a) (hb : b.fits t)
    (hp : t.predOk p) : t.argsOk
      { word := w, caps := [3], dst := [t.own d], psrc := [p], xsrc := b.xregs,
        src := (t.own a).reading ((List.range t.vl).filter fun i => !t.pbit p i) :: b.ops t } :=
  Thread.argsOk_of rfl (by simpa using Thread.own_ok hd)
    (List.forall_mem_cons.2 ⟨Thread.reading_ok _ (Thread.own_ok ha), VSrc.ops_ok hb⟩) (by simp) (by simpa using hp)

/-- What a merge answers with VL above 0: in every element below VL the operand that the predicate chooses. -/
theorem vMergeOp_done (w : BitVec 32) (s : State) (d a : Reg) (b : VSrc) (p : Reg) (hfit : s.vectorFit [3]) (hok : s.thr.vectorOk)
    (hvl : s.thr.vl ≠ 0) (hd : s.thr.groupOk d) (ha : s.thr.groupOk a) (hb : b.fits s.thr) (hp : s.thr.predOk p) :
    ∃ t, vMergeOp w d a b p s = .next t ∧ s.vecDone t ∧ t.thr.fcsr = s.thr.fcsr ∧
      s.thr.vecResult t.thr d 0 fun i => if s.thr.pbit p i then b.value s.thr i else elemAt s.thr a i :=
  issueVl_writeVec _ s d 0 _ (fun _ => true) _ hfit (vMergeArgs_ok w hd ha hb hp) hvl hok hd (fun _ _ => rfl) rfl

/-- Settles O15: the tables' instructions run, and each merge is one operation. -/
theorem vectorArithmeticResults : Obligations.VectorArithmeticResults := by
  refine ⟨elementwise_of_runs (rowsRun_append vectorIntegerRows_run vectorMoveRows_run), elementwise_of_runs vectorFloatRows_run, ?_⟩
  simp only [mergeTable, List.forall_mem_cons, List.not_mem_nil, false_imp_iff, implies_true, and_true]
  exact ⟨fun s d a b p hfit hok hvl hd ha hb hp => vMergeOp_done _ s d a (.vec b) p hfit hok hvl hd ha (hb trivial) hp,
    fun s d a b p hfit hok hvl hd ha _ hp => vMergeOp_done _ s d a (.x b) p hfit hok hvl hd ha trivial hp,
    fun s d a b p hfit hok hvl hd ha _ hp => vMergeOp_done _ s d a (.imm b) p hfit hok hvl hd ha trivial hp⟩

end Sys2Proof.Machine
end

section
/-! Vector conversions: between formats (R31, R132), extensions and narrowing (R134), and MX blocks (R18, R19, R133). -/

namespace Sys2Proof.Machine
open Sys2Proof.Statements

/-! ### Conversions element by element -/

/-- A row whose instruction converts from SEW2 with the row's values. -/
theorem rowRuns_of_vCvtOp {e : VRow} (legal : Thread → Reg → Bool) (res : Reg → Reg → Thread → Nat → Nat × Flags)
    (hcap : e.cap = fun _ => 8)
    (hexec : ∀ d a k p s, ∃ w, exec (e.make d a k p) s = vCvtOp w (legal s.thr k) d a p (res a k) s)
    (hok : ∀ t d a k, e.ok t d a k → legal t k = true ∧ t.secondOk a)
    (hval : ∀ t d a k i, e.ok t d a k → e.value t d a k i = res a k t i) : rowRuns e := by
  intro s d a k p _ hd hp hrow
  obtain ⟨w, hw⟩ := hexec d a k p s
  obtain ⟨hl, ha⟩ := hok _ _ _ _ hrow
  refine ⟨_, _, hw, by rw [hcap], Thread.argsOk_of hl (by simpa using Thread.own_ok hd) (List.forall_mem_singleton.2 ha) (by simp)
    (by simpa using hp), fun i _ => ?_⟩
  rw [hval _ _ _ _ _ hrow]
  exact ⟨rfl, rfl⟩

/-- R31: a conversion to an integer with a sign, and to one without. -/
theorem floatToInt_signed (f : Fmt) (mode : RMode) (w a : Nat) :
    floatToInt f mode true w a = toWhole w (-2 ^ (w - 1)) (2 ^ (w - 1) - 1) mode (f.unpack a) := by
  simp only [floatToInt, toWhole, wrap, if_true]
  push_cast
  rfl

theorem floatToInt_unsigned (f : Fmt) (mode : RMode) (w a : Nat) :
    floatToInt f mode false w a = toWhole w 0 (2 ^ w - 1) mode (f.unpack a) := by
  simp only [floatToInt, toWhole, wrap, Bool.false_eq_true, if_false]
  push_cast
  rfl

/-- Each code of `vfcvt` is legal at the pairs of widths of its table, with the table's value (R132). -/
theorem vfcvtTable_eq : ∀ e ∈ vfcvtTable, (∀ w v, e.2.1 w v → cvtLegal e.1.toNat w v = true) ∧
    ∀ t n, e.2.2 t n = cvtValue e.1.toNat t.fmt t.fmt2 t.sew t.sew2 t.vfrm n := by
  simp only [vfcvtTable, List.forall_mem_cons, List.not_mem_nil, false_imp_iff, implies_true, and_true]
  refine ⟨⟨?_, fun _ _ => rfl⟩, ⟨?_, fun _ _ => (floatToInt_signed _ _ _ _).symm⟩, ⟨?_, fun _ _ => (floatToInt_unsigned _ _ _ _).symm⟩,
    ⟨?_, fun _ _ => rfl⟩, ⟨?_, fun _ _ => rfl⟩, ⟨?_, fun _ _ => rfl⟩, ⟨?_, fun _ _ => rfl⟩, ⟨?_, fun _ _ => rfl⟩, ⟨?_, fun _ _ => rfl⟩,
    ⟨?_, fun _ _ => rfl⟩, ?_, fun _ _ => rfl⟩ <;>
  · intro w v h
    simp [cvtLegal, isFp] at h ⊢
    omega

/-- Every code of `vfcvt` runs. -/
theorem vfcvtRows_run : ∀ e ∈ vfcvtTable, rowRuns
    ⟨.vfcvt, fun t _ a k => k = e.1 ∧ e.2.1 t.sew t.sew2 ∧ t.secondOk a, fun _ => 8, fun t _ a _ i => e.2.2 t (elem2At t a i)⟩ := by
  intro e he
  obtain ⟨legal, value⟩ := vfcvtTable_eq e he
  exact rowRuns_of_vCvtOp (fun t k => cvtLegal k.toNat t.sew t.sew2)
    (fun a k t i => cvtValue k.toNat t.fmt t.fmt2 t.sew t.sew2 t.vfrm (t.elem a.toNat i t.sew2)) rfl (fun _ _ _ _ _ => ⟨_, rfl⟩)
    (fun _ _ _ _ ⟨hk, hp, ha⟩ => ⟨hk ▸ legal _ _ hp, ha⟩) (fun t _ a _ i ⟨hk, _⟩ => hk ▸ value t (elem2At t a i))

/-- The extensions and the narrowings run (R134). -/
theorem narrowRow_runs (c : Reg) (hc : c.toNat ≤ 3) (val : Nat → Nat → Nat → Nat × Flags)
    (hv : ∀ w w2 n, val w w2 n = (narrowValue c.toNat w w2 n, 0)) :
    rowRuns ⟨.vnarrow, fun t _ a k => t.sew < t.sew2 ∧ k = c ∧ t.secondOk a, fun _ => 8,
      fun t _ a _ i => val t.sew t.sew2 (elem2At t a i)⟩ :=
  rowRuns_of_vCvtOp (fun t k => decide (t.sew < t.sew2) && codeUpTo k 3)
    (fun a k t i => (narrowValue k.toNat t.sew t.sew2 (t.elem a.toNat i t.sew2), 0)) rfl (fun _ _ _ _ _ => ⟨_, rfl⟩)
    (fun _ _ _ _ ⟨hw, hk, ha⟩ => ⟨by simp [hw, hk, codeUpTo, hc], ha⟩) (fun t _ a _ i ⟨_, hk, _⟩ => hk ▸ hv t.sew t.sew2 (elem2At t a i))

/-- An MX format to SEW: the block scale is a byte of the register after the source (R133). -/
theorem fromMxRow_runs (f : MxFmt) : rowRuns
    ⟨fun d a _ p => .vmxcvt d a false f p, fun t _ a _ => t.sew ≠ 8 ∧ t.sew2 = 8 ∧ t.secondOk a ∧ a.toNat + 2 ≤ 32 ∧
      a.toNat + 2 ≤ t.hdr.vregs, fun _ => 8,
    fun t _ a _ i => t.fmt.roundVal t.vfrm (mxElement f (t.elem (a.toNat + 1) (i / 32) 8) (elem2At t a i))⟩ := by
  intro s d a b p _ hd hp ⟨h8, h2, ha, hlast, hdecl⟩
  refine ⟨_, _, rfl, rfl, Thread.argsOk_of (by simp [isFp, h8, h2]) (by simpa using Thread.own_ok hd)
    (List.forall_mem_cons.2 ⟨ha, List.forall_mem_singleton.2 (Thread.oneOf_ok _ _ hlast hdecl)⟩) (by simp) (by simpa using hp),
    fun i _ => ?_⟩
  simp only [elem2At, h2, and_self]

/-- Every conversion that writes SEW runs. -/
theorem vectorConversionRows_run : ∀ e ∈ vectorConversionRows, rowRuns e := by
  refine rowsRun_append (rowsRun_append ?_ ?_) ?_
  · simpa only [List.forall_mem_map] using vfcvtRows_run
  · simp only [List.forall_mem_cons, List.not_mem_nil, false_imp_iff, implies_true, and_true]
    refine ⟨rowRuns_of_vCvtOp (fun t _ => decide (t.sew2 < t.sew)) (fun a _ t i => (wrap t.sew (sext t.sew2 (t.elem a.toNat i t.sew2)), 0))
        rfl (fun _ _ _ _ _ => ⟨_, rfl⟩) (fun _ _ _ _ h => ⟨decide_eq_true h.1, h.2⟩) fun _ _ _ _ _ _ => rfl,
      rowRuns_of_vCvtOp (fun t _ => decide (t.sew2 < t.sew)) (fun a _ t i => (t.elem a.toNat i t.sew2, 0))
        rfl (fun _ _ _ _ _ => ⟨_, rfl⟩) (fun _ _ _ _ h => ⟨decide_eq_true h.1, h.2⟩) fun _ _ _ _ _ _ => rfl,
      narrowRow_runs 0 (by decide) (fun _ _ n => (n, 0)) fun _ _ _ => rfl,
      narrowRow_runs 1 (by decide) (fun w w2 n => (wrap w (clampInt (-(2 ^ (w - 1))) (2 ^ (w - 1) - 1) (sext w2 n)), 0)) fun _ _ _ => rfl,
      narrowRow_runs 2 (by decide) (fun w _ n => (min n (2 ^ w - 1), 0)) fun _ _ _ => rfl,
      narrowRow_runs 3 (by decide) (fun w w2 n => ((clampInt 0 (2 ^ w - 1) (sext w2 n)).toNat, 0)) fun _ _ _ => rfl⟩
  · simp only [List.forall_mem_map]
    exact fun f _ => fromMxRow_runs f

end Sys2Proof.Machine
end

section
/-! Conversion to MX blocks: the element codes and the scale byte of each block with an active element (R19, R133). -/

namespace Sys2Proof.Machine
open Sys2Proof.Statements

/-! ### Elements of registers that a write leaves alone, and of one register -/

/-- An element rests on the register that holds it. -/
theorem Thread.elem_congr_v {t u : Thread} {r i w : Nat} (hl : u.vlen = t.vlen)
    (hv : u.v[r + i * w / t.vlen]? = t.v[r + i * w / t.vlen]?) : u.elem r i w = t.elem r i w := by
  unfold Thread.elem
  rw [hl, hv]

theorem Thread.elem_lt (t : Thread) (r i w : Nat) : t.elem r i w < 2 ^ w := Nat.mod_lt _ (Nat.two_pow_pos w)

/-- Scale bytes are written as the elements of one register are. -/
theorem Thread.putScales_eq (t : Thread) (r : Nat) (has : Nat → Bool) (byte : Nat → Nat) :
    t.putScales r has byte = t.putElems r 8 (fun j => if has j then byte j else t.elem r j 8) 1 := by
  simp [Thread.putScales, Thread.putElems]

theorem Thread.putScales_v_outside (t : Thread) (r k : Nat) (has : Nat → Bool) (byte : Nat → Nat) (h : k ≠ r) :
    (t.putScales r has byte).v[k]? = t.v[k]? := by
  rw [Thread.putScales_eq]
  exact t.putElems_v_outside r 8 _ 1 k (by omega)

/-- A scale byte after scale bytes are written. -/
theorem Thread.elem_putScales (t : Thread) (r j : Nat) (has : Nat → Bool) (byte : Nat → Nat) (hok : t.vectorOk) (hr : r + 1 ≤ 32)
    (hj : j < t.vlen / 8) : (t.putScales r has byte).elem r j 8 = if has j then byte j % 2 ^ 8 else t.elem r j 8 := by
  rw [Thread.putScales_eq, t.elem_putElems r 8 _ 1 j (by omega) (by have := hok.1; omega) hok.2.2.1 hr (by omega)]
  split
  · rfl
  · exact Nat.mod_eq_of_lt (t.elem_lt r j 8)

/-- At SEW 8 a group is one register (R51). -/
theorem Thread.grp_of_sew8 {t : Thread} (hok : t.vectorOk) (h8 : t.sew = 8) : t.grp = 1 := by
  have hle : t.grp * 8 ≤ t.sew := by
    have := hok.2.2.2.1
    simp only [vtLegal, Bool.and_eq_true, decide_eq_true_eq] at this
    exact this.1.1
  have : 0 < t.grp := Nat.two_pow_pos _
  omega

/-! ### The scale of a block (R19) -/

/-- A block without active elements has no values. -/
theorem Thread.mxVals_nil {t : Thread} {a p : Reg} {j : Nat} (h : ∀ k < 32, t.active p (32 * j + k) = false) : t.mxVals a p j = [] := by
  unfold Thread.mxVals
  rw [List.map_eq_nil_iff, List.filter_eq_nil_iff]
  intro k hk
  simp [h k (List.mem_range.1 hk)]

/-- True of a block with an active element. -/
def Thread.hasActive (t : Thread) (p : Reg) (j : Nat) : Bool := (List.range 32).any fun k => t.active p (32 * j + k)

theorem Thread.hasActive_iff (t : Thread) (p : Reg) (j : Nat) : t.hasActive p j = true ↔ ∃ k < 32, t.active p (32 * j + k) = true := by
  simp [Thread.hasActive]

theorem Thread.hasActive_of_vals {t : Thread} {a p : Reg} {j : Nat} (h : t.mxVals a p j ≠ []) : t.hasActive p j = true := by
  rw [Thread.hasActive_iff]
  by_contra hn
  exact h (Thread.mxVals_nil fun k hk => Bool.eq_false_iff.2 fun ha => hn ⟨k, hk, ha⟩)

theorem mxScaleCode_nan (f : MxFmt) (vals : List FVal) (free : Nat) (h : vals.any FVal.isNan = true) : mxScaleCode f vals free = 255 :=
  if_pos h

/-- The scale code of a block with a finite nonzero value is its biased, clamped exponent. -/
theorem mxScaleCode_top (f : MxFmt) (vals : List FVal) (free : Nat) (m : Int) (h : vals.any FVal.isNan = false) (hm : maxTop vals = some m) :
    ((mxScaleCode f vals free % 2 ^ 8 : Nat) : Int) = clampInt (-127) 127 (m - mxEmax f) + 127 := by
  simp only [mxScaleCode, h, hm, mxScaleExp, Bool.false_eq_true, if_false]
  unfold clampInt
  split
  · rfl
  · split <;> omega

/-- The scale code of a block whose values are all zero or infinite. -/
theorem mxScaleCode_flat (f : MxFmt) (vals : List FVal) (free : Nat) (h : vals.any FVal.isNan = false) (hm : maxTop vals = none) :
    ((∀ n, FVal.inf n ∉ vals) → mxScaleCode f vals free = 0) ∧ ((∃ n, FVal.inf n ∈ vals) → mxScaleCode f vals free = free % 256) := by
  simp only [mxScaleCode, h, hm, Bool.false_eq_true, if_false]
  refine ⟨fun none => if_neg fun hany => ?_, fun ⟨n, hn⟩ => if_pos (List.any_eq_true.2 ⟨_, hn, rfl⟩)⟩
  obtain ⟨v, hv, hinf⟩ := List.any_eq_true.1 hany
  cases v with
  | nan s => cases hinf
  | inf n => exact none n hv
  | fin x => cases hinf

/-! ### The instruction -/

/-- What a body that VL governs answers when it leaves another machine `r` of the same thread, with an effect on that thread. -/
theorem issueVl_goes (A : VArgs) (s r : State) (f : Thread → Thread) (body : State → Run State) (h : s.vectorFit A.caps)
    (hargs : s.thr.argsOk A) (hvl : s.thr.vl ≠ 0) (hb : body s = .ok (r.mapThr f)) (hthr : r.thr = s.thr) (hreg : r.badReg = s.badReg)
    (hvq : (f s.thr).vq = s.thr.vq) (hcsa : (f s.thr).csa = s.thr.csa) (hsup : (f s.thr).supervisor = s.thr.supervisor)
    (hpd : (f s.thr).peerData = s.thr.peerData) : ∃ t, issueVl A s body = .next t ∧ r.vectorDone t f := by
  refine ⟨_, issueVl_done A s _ body h hargs hvl hb hreg, ?_⟩
  rw [← hthr] at hvq hcsa hsup hpd ⊢
  exact r.vectorDone_of f hvq hcsa hsup hpd

/-- The code of element `i` and its flags (R19). -/
def Thread.mxCodeAt (t : Thread) (f : MxFmt) (a p : Reg) (i : Nat) : Nat × Flags :=
  mxCode f t.vfrm (t.mxVals a p (i / 32)) (t.fmt2.unpack (elem2At t a i))

/-- The thread after `vmxcvt` towards MX, its free values numbered from `n` on. -/
def Thread.toMx (t : Thread) (f : MxFmt) (d a p : Reg) (n : Nat) : Thread :=
  ((t.writeVec d.toNat (t.pbit p) fun i => (t.mxCodeAt f a p i).1).putScales (d.toNat + 1) (t.hasActive p) fun j =>
    mxScaleCode f (t.mxVals a p j) (Config.freeWord (n + j)).toNat).raiseFlags (t.pbit p) fun i => (t.mxCodeAt f a p i).2

theorem Thread.toMx_eq (t : Thread) (f : MxFmt) (d a p : Reg) (n : Nat) :
    t.toMx f d a p n = { t with v := (t.toMx f d a p n).v, fcsr := (t.toMx f d a p n).fcsr } := by
  unfold Thread.toMx Thread.raiseFlags
  dsimp only
  rw [Thread.putScales, Thread.writeVec_eq]

/-- The flags of the active elements (R25). -/
theorem Thread.toMx_fcsr (t : Thread) (f : MxFmt) (d a p : Reg) (n : Nat) : (t.toMx f d a p n).fcsr =
    t.fcsr ||| (orFlags ((t.actives p).map fun i => (t.mxCodeAt f a p i).2)).zeroExtend 8 := by
  simp [Thread.toMx, Thread.raiseFlags, Thread.putScales, Thread.actives, fcsrRaise]

theorem Thread.elem_congr {t u : Thread} (hv : u.v = t.v) (hl : u.vlen = t.vlen) (r i w : Nat) : u.elem r i w = t.elem r i w :=
  Thread.elem_congr_v hl (by rw [hv])

section
variable {t : Thread} {f : MxFmt} {d a p : Reg} {n : Nat}

/-- The element codes, in the destination register (R120, R133). -/
theorem Thread.elem_toMx (hok : t.vectorOk) (h8 : t.sew = 8) (hd : t.groupOk d) {i : Nat} (hi : i < t.vlmax) :
    (t.toMx f d a p n).elem d.toNat i 8 =
      if i < t.vl then
        (if t.pbit p i then (t.mxCodeAt f a p i).1 % 2 ^ 8 else if t.vtype.getLsbD 14 then 0 else t.elem d.toNat i 8)
      else if t.vtype.getLsbD 13 then 0 else t.elem d.toNat i 8 := by
  have first : i * 8 / t.vlen = 0 := by
    rw [t.vlmax_eq hok.1, Thread.grp_of_sew8 hok h8, h8] at hi
    exact Nat.div_eq_of_lt (by omega)
  have elems := (Thread.writeVec_result t _ d p (t.pbit p) (fun i => (t.mxCodeAt f a p i).1) hok hd (fun _ _ => rfl) rfl
    (Thread.writeVec_vlen ..)).1 i hi
  rw [h8] at elems
  refine Eq.trans ?_ elems
  refine Thread.elem_congr_v rfl ?_
  rw [Thread.writeVec_vlen, first]
  exact Thread.putScales_v_outside _ _ _ _ _ (by omega)

/-- The scale bytes, in the register after it. -/
theorem Thread.elem_toMx_scale (hok : t.vectorOk) (h8 : t.sew = 8) (hlast : d.toNat + 2 ≤ 32) {j : Nat} (hj : j < t.vlen / 8) :
    (t.toMx f d a p n).elem (d.toNat + 1) j 8 =
      if t.hasActive p j then mxScaleCode f (t.mxVals a p j) (Config.freeWord (n + j)).toNat % 2 ^ 8 else t.elem (d.toNat + 1) j 8 := by
  have first : j * 8 / t.vlen = 0 := Nat.div_eq_of_lt (by omega)
  refine (Thread.elem_congr (by rfl) (by rfl) _ _ _).trans
    ((Thread.elem_putScales _ _ _ _ _ (by simpa [Thread.vectorOk, Thread.vlmax] using hok) (by omega) (by simpa using hj)).trans ?_)
  congr 1
  refine Thread.elem_congr_v (by simp) ?_
  rw [first]
  exact t.putElems_v_outside _ _ _ _ _ (by rw [Thread.grp_of_sew8 hok h8]; omega)

theorem Thread.toMx_v_outside (hok : t.vectorOk) (h8 : t.sew = 8) (r : Fin 32) (h : r.val ≠ d.toNat) (h1 : r.val ≠ d.toNat + 1) :
    (t.toMx f d a p n).v[r] = t.v[r] := by
  have scales : (t.toMx f d a p n).v[r.val]? = _ := Thread.putScales_v_outside _ _ _ _ _ h1
  have codes := t.putElems_v_outside d.toNat t.sew
    (fun i => t.newElem d.toNat t.sew i (t.pbit p i) (t.mxCodeAt f a p i).1) t.grp r.val (by rw [Thread.grp_of_sew8 hok h8]; omega)
  simpa using scales.trans codes

end

theorem toMxArgs_ok {t : Thread} {f : MxFmt} {d a p : Reg} (hd : t.groupOk d) (hp : t.predOk p) (h8 : t.sew = 8) (h2 : t.sew2 ≠ 8)
    (ha : t.secondOk a) (hlast : d.toNat + 2 ≤ 32) (hdecl : d.toNat + 2 ≤ t.hdr.vregs) : t.argsOk
      { word := wordVmxcvt d a true f p, legal := decide (t.sew = 8) && isFp t.sew2, caps := [8],
        dst := [t.own d, one (d.toNat + 1)], src := [t.second a], psrc := [p] } :=
  Thread.argsOk_of (by simp [isFp, h8, h2])
    (List.forall_mem_cons.2 ⟨Thread.own_ok hd, List.forall_mem_singleton.2 (Thread.one_ok hlast hdecl)⟩)
    (List.forall_mem_singleton.2 ha) (by simp) (by simpa using hp)

/-- What `vmxcvt` towards MX answers with VL above 0 (R133). -/
theorem execVmxcvt_toMx (f : MxFmt) (s : State) (d a p : Reg) (hfit : s.vectorFit [8]) (hvl : s.thr.vl ≠ 0) (hargs : s.thr.argsOk
      { word := wordVmxcvt d a true f p, legal := decide (s.thr.sew = 8) && isFp s.thr.sew2, caps := [8],
        dst := [s.thr.own d, one (d.toNat + 1)], src := [s.thr.second a], psrc := [p] }) :
    ∃ t, exec (.vmxcvt d a true f p) s = .next t ∧
      ({ s with freeCtr := t.freeCtr } : State).vectorDone t fun u => u.toMx f d a p s.freeCtr := by
  obtain ⟨t, ht, hdone⟩ := issueVl_goes _ s { s with freeCtr := s.freeCtr + 64 } (fun u => u.toMx f d a p s.freeCtr)
    (fun s => .ok { s with thr := s.thr.toMx f d a p s.freeCtr, freeCtr := s.freeCtr + 64 }) hfit hargs hvl rfl rfl rfl
    (by rw [Thread.toMx_eq]) (by rw [Thread.toMx_eq]) (by rw [Thread.toMx_eq]) (by rw [Thread.toMx_eq])
  refine ⟨t, ht, ?_⟩
  have hctr : t.freeCtr = s.freeCtr + 64 := congrArg State.freeCtr hdone.1
  rw [hctr]
  exact hdone

/-- Settles O16: the rows of conversions run, and `vmxcvt` towards MX writes the codes of its blocks and their scales. -/
theorem vectorConversionResults : Obligations.VectorConversionResults := by
  refine ⟨elementwise_of_runs vectorConversionRows_run, fun f s d a p hfit hok hvl hd hp h8 h2 ha hlast hdecl => ?_⟩
  obtain ⟨t, ht, hdone⟩ := execVmxcvt_toMx f s d a p hfit hvl (toMxArgs_ok hd hp h8 h2 ha hlast hdecl)
  have hv : t.thr.v = (s.thr.toMx f d a p s.freeCtr).v := State.vectorDone_v hdone
  have hlen : t.thr.vlen = (s.thr.toMx f d a p s.freeCtr).vlen := State.vectorDone_vlen hdone
  have scale {j : Nat} (hj : j < s.thr.vlen / 8) := (Thread.elem_congr hv hlen (d.toNat + 1) j 8).trans
    (Thread.elem_toMx_scale (f := f) (a := a) (p := p) (n := s.freeCtr) hok h8 hlast hj)
  refine ⟨t, ht, State.vecDone_of hdone (Thread.toMx_eq ..), (State.vectorDone_fcsr hdone).trans (Thread.toMx_fcsr ..), fun i hi => ?_, fun j hj => ⟨?_, ?_, ?_⟩,
    fun j hj hact hnan htop => ?_, fun r hr hr1 => ?_⟩
  · exact (Thread.elem_congr hv hlen _ _ _).trans (Thread.elem_toMx hok h8 hd hi)
  · intro none
    rw [scale hj, if_neg (by simpa [Thread.hasActive] using none)]
  · intro hnan
    rw [scale hj, if_pos (Thread.hasActive_of_vals (a := a) fun hnil => by simp [hnil] at hnan), mxScaleCode_nan f _ _ hnan]; rfl
  · intro m hnan htop
    rw [scale hj, if_pos (Thread.hasActive_of_vals (a := a) fun hnil => by simp [hnil, maxTop] at htop)]
    exact mxScaleCode_top f _ _ m hnan htop
  · have flat := mxScaleCode_flat f (s.thr.mxVals a p j) (Config.freeWord (s.freeCtr + j)).toNat hnan htop
    rw [scale hj, if_pos ((s.thr.hasActive_iff p j).2 hact)]
    exact ⟨fun h => by rw [flat.1 h]; rfl, fun h => by rw [flat.2 h]; exact Nat.mod_mod _ _⟩
  · rw [hv]
    exact Thread.toMx_v_outside hok h8 r hr hr1

end Sys2Proof.Machine
end

section
/-! Residue words, slices and mixed widths (R33 to R39, R142 to R146). -/

namespace Sys2Proof.Machine
open Sys2Proof.Statements

/-! ### Residue words (R33, R35) -/

/-- The four residues of a word (R35). -/
theorem Rnw.ofWord_eq (w : Nat) : ((Rnw.ofWord w).c256 : Int) = residueOf w 0 ∧ ((Rnw.ofWord w).c255 : Int) = residueOf w 1 ∧
    ((Rnw.ofWord w).c257 : Int) = residueOf w 2 ∧ ((Rnw.ofWord w).c127 : Int) = residueOf w 3 := by
  simp [Rnw.ofWord, residueOf, bitsAt]

/-- An operation channel by channel is one on each residue (R35). -/
theorem Rnw.word_map2_ofWord (f : Int → Int → Int) (a b : Nat) :
    (Rnw.map2 f (Rnw.ofWord a) (Rnw.ofWord b)).word = byResidue fun k => f (residueOf a k) (residueOf b k) := by
  obtain ⟨a0, a1, a2, a3⟩ := Rnw.ofWord_eq a
  obtain ⟨b0, b1, b2, b3⟩ := Rnw.ofWord_eq b
  simp only [Rnw.map2, Rnw.word, byResidue, a0, a1, a2, a3, b0, b1, b2, b3]

/-- `vrmacc` adds products that are reduced first (R142). -/
theorem Rnw.word_macc_ofWord (a b c : Nat) :
    (Rnw.map2 (· + ·) (Rnw.ofWord c) (Rnw.map2 (· * ·) (Rnw.ofWord a) (Rnw.ofWord b))).word =
      byResidue fun k => residueOf c k + residueOf a k * residueOf b k := by
  obtain ⟨a0, a1, a2, a3⟩ := Rnw.ofWord_eq a
  obtain ⟨b0, b1, b2, b3⟩ := Rnw.ofWord_eq b
  obtain ⟨c0, c1, c2, c3⟩ := Rnw.ofWord_eq c
  have reduced (x y m : Int) (hm : 0 < m) : (x + ((y % m).toNat : Int)) % m = (x + y) % m := by
    rw [Int.toNat_of_nonneg (Int.emod_nonneg y hm.ne'), Int.add_emod_emod]
  simp only [Rnw.map2, Rnw.word, byResidue, a0, a1, a2, a3, b0, b1, b2, b3, c0, c1, c2, c3]
  rw [reduced _ _ 256 (by omega), reduced _ _ 255 (by omega), reduced _ _ 257 (by omega), reduced _ _ 127 (by omega)]

/-- A row whose instruction works on residue words at SEW 32 (R142). -/
theorem rowRuns_of_rnwOp {e : VRow} (acc : Bool) (f : Rnw → Rnw → Rnw → Rnw) (hok : e.ok = threeAt32) (hcap : e.cap = fun _ => 9)
    (hexec : ∀ d a b p s, ∃ w, exec (e.make d a b p) s = rnwOp w acc d a b p f s)
    (hval : ∀ t d a b i, e.value t d a b i =
      ((f (Rnw.ofWord (elemAt t a i)) (Rnw.ofWord (elemAt t b i)) (Rnw.ofWord (elemAt t d i))).word, 0)) : rowRuns e := by
  intro s d a b p _ hd hp hrow
  obtain ⟨w, hw⟩ := hexec d a b p s
  rw [hok] at hrow
  obtain ⟨h32, ha, hb⟩ := hrow
  refine ⟨_, _, hw, by rw [hcap], Thread.argsOk_of (decide_eq_true h32) (by simpa using Thread.own_ok hd)
    (Thread.threeOk (b := .vec b) acc hd ha hb) (by simp) (by simpa using hp), fun i _ => ?_⟩
  simp only [hval, elemAt, h32, and_self]

/-! ### Mixed widths (R145, R146) -/

/-- The operands of an instruction on a, b at SEW2 and, with `acc`, d. -/
theorem Thread.wideOk {t : Thread} {d a b : Reg} (acc : Bool) (hd : t.groupOk d) (ha : t.groupOk a) (hb : t.secondOk b) :
    ∀ o ∈ [t.own a, t.second b] ++ (if acc then [t.own d] else []), t.opOk o := by
  intro o ho
  rcases List.mem_append.1 ho with h | h
  · exact (List.forall_mem_cons.2 ⟨Thread.own_ok ha, List.forall_mem_singleton.2 hb⟩) o h
  · cases acc with
    | false => cases h
    | true => rw [List.mem_singleton.1 h]; exact Thread.own_ok hd

/-- A row whose instruction takes its second operand at SEW2 with its sign (R145). -/
theorem rowRuns_of_vWideOp {e : VRow} {cap : Nat} (acc : Bool) (f : Int → Int → Int → Int)
    (hok : e.ok = fun t _ a b => t.sew2 ≤ t.sew ∧ t.groupOk a ∧ t.secondOk b) (hcap : e.cap = fun _ => cap)
    (hexec : ∀ d a b p s, ∃ w, exec (e.make d a b p) s = vWideOp w cap acc d a b p f s)
    (hval : ∀ t d a b i, e.value t d a b i =
      (wrap t.sew (f (elemAt t a i) (sext t.sew2 (elem2At t b i)) (elemAt t d i)), 0)) : rowRuns e := by
  intro s d a b p _ hd hp hrow
  obtain ⟨w, hw⟩ := hexec d a b p s
  rw [hok] at hrow
  obtain ⟨hle, ha, hb⟩ := hrow
  refine ⟨_, _, hw, by rw [hcap], Thread.argsOk_of (decide_eq_true hle) (by simpa using Thread.own_ok hd) (Thread.wideOk acc hd ha hb)
    (by simp) (by simpa using hp), fun i _ => ?_⟩
  rw [hval]
  exact ⟨rfl, rfl⟩

/-- The low byte of a number is all that its value as a signed byte rests on. -/
theorem sext_bitsAt (a k : Nat) : sext 8 (bitsAt a k 8) = sext 8 (a / 2 ^ k) := by
  unfold sext bitsAt
  rw [Nat.mod_mod]

theorem byteDot_eq (a b : Nat) : byteDot a b = sext 8 a * sext 8 b + sext 8 (a / 2 ^ 8) * sext 8 (b / 2 ^ 8) +
    sext 8 (a / 2 ^ 16) * sext 8 (b / 2 ^ 16) + sext 8 (a / 2 ^ 24) * sext 8 (b / 2 ^ 24) := by
  simp [byteDot, sext_bitsAt, List.range_succ]

/-! ### The table -/


theorem vectorResidueRows_run : ∀ e ∈ vectorResidueRows, rowRuns e := by
  simp only [vectorResidueRows, List.forall_mem_cons, List.not_mem_nil, false_imp_iff, implies_true, and_true]
  refine ⟨?vrenc, ?vradd, ?vrsub, ?vrmul, ?vrmacc, ?vrdec, ?vwadd, ?vwsub, ?vwmul, ?vwmacc, ?vwfmacc, ?vqdot, ?vunslice⟩
  case vrenc =>
    intro s d a b p _ hd hp ⟨h32, ha⟩
    exact ⟨_, _, rfl, rfl, Thread.argsOk_of (decide_eq_true h32) (by simpa using Thread.own_ok hd) (List.forall_mem_singleton.2 ha)
      (by simp) (by simpa using hp), fun i _ => ⟨rfl, rfl⟩⟩
  case vradd =>
    exact rowRuns_of_rnwOp false (fun x y _ => Rnw.map2 (· + ·) x y) rfl rfl (fun _ _ _ _ _ => ⟨_, rfl⟩)
      fun _ _ _ _ _ => by rw [Rnw.word_map2_ofWord]
  case vrsub =>
    exact rowRuns_of_rnwOp false (fun x y _ => Rnw.map2 (· - ·) x y) rfl rfl (fun _ _ _ _ _ => ⟨_, rfl⟩)
      fun _ _ _ _ _ => by rw [Rnw.word_map2_ofWord]
  case vrmul =>
    exact rowRuns_of_rnwOp false (fun x y _ => Rnw.map2 (· * ·) x y) rfl rfl (fun _ _ _ _ _ => ⟨_, rfl⟩)
      fun _ _ _ _ _ => by rw [Rnw.word_map2_ofWord]
  case vrmacc =>
    exact rowRuns_of_rnwOp true (fun x y z => Rnw.map2 (· + ·) z (Rnw.map2 (· * ·) x y)) rfl rfl (fun _ _ _ _ _ => ⟨_, rfl⟩)
      fun _ _ _ _ _ => by rw [Rnw.word_macc_ofWord]
  case vrdec =>
    intro s d a b p _ hd hp ⟨h32, ha⟩
    refine ⟨_, _, rfl, rfl, Thread.argsOk_of (decide_eq_true h32) (by simpa using Thread.own_ok hd) (by simpa using Thread.own_ok ha)
      (by simp) (by simpa using hp), fun i _ => ?_⟩
    simp only [elemAt, h32, and_self]
  case vwadd => exact rowRuns_of_vWideOp false (fun x y _ => x + y) rfl rfl (fun _ _ _ _ _ => ⟨_, rfl⟩) fun _ _ _ _ _ => rfl
  case vwsub => exact rowRuns_of_vWideOp false (fun x y _ => x - y) rfl rfl (fun _ _ _ _ _ => ⟨_, rfl⟩) fun _ _ _ _ _ => rfl
  case vwmul => exact rowRuns_of_vWideOp false (fun x y _ => x * y) rfl rfl (fun _ _ _ _ _ => ⟨_, rfl⟩) fun _ _ _ _ _ => rfl
  case vwmacc => exact rowRuns_of_vWideOp true (fun x y z => z + x * y) rfl rfl (fun _ _ _ _ _ => ⟨_, rfl⟩) fun _ _ _ _ _ => rfl
  case vwfmacc =>
    intro s d a b p _ hd hp ⟨h8, h28, hle, ha, hb⟩
    exact ⟨_, _, rfl, rfl, Thread.argsOk_of (by simp [isFp, h8, h28, hle]) (by simpa using Thread.own_ok hd)
      (Thread.wideOk true hd ha hb) (by simp) (by simpa using hp), fun i _ => ⟨rfl, rfl⟩⟩
  case vqdot =>
    intro s d a b p _ hd hp ⟨h32, h232, ha, hb⟩
    refine ⟨_, _, rfl, rfl, Thread.argsOk_of (decide_eq_true ⟨h32, h232⟩) (by simpa using Thread.own_ok hd)
      (Thread.threeOk (b := .vec b) true hd ha hb) (by simp) (by simpa using hp), fun i _ => ⟨?_, rfl⟩⟩
    simp only [elemAt, h32, byteDot_eq, add_assoc]
  case vunslice =>
    intro s d a b p _ hd hp ⟨h32, h8, ha⟩
    refine ⟨_, _, rfl, rfl, Thread.argsOk_of (decide_eq_true ⟨h32, h8⟩) (by simpa using Thread.own_ok hd)
      (List.forall_mem_cons.2 ⟨ha, List.forall_mem_singleton.2 (Thread.own_ok hd)⟩) (by simp) (by simpa using hp), fun i _ => ?_⟩
    simp only [elemAt, elem2At, h8, and_self]

/-! ### Slices (R144) -/

/-- The operands of `vslice` are legal: code 8 asks for a floating-point SEW, and a digit, of which there are at most eight, for SEW 8. -/
theorem vsliceArgs_ok {s : State} {d a k p : Reg} (hd : s.thr.groupOk d) (hp : s.thr.predOk p) (ha : s.thr.secondOk a)
    (h2 : s.thr.sew2 ≠ 8) (hk : k = 8 ∧ s.thr.sew ≠ 8 ∨ k.toNat < vtSlices s.thr.vtype ∧ s.thr.sew = 8) : s.thr.argsOk
      { word := wordVslice d a k p,
        legal := isFp s.thr.sew2 && (if k.toNat = 8 then isFp s.thr.sew else decide (k.toNat < vtSlices s.thr.vtype ∧ s.thr.sew = 8)),
        caps := [10], dst := [s.thr.own d], src := [s.thr.second a], psrc := [p] } := by
  refine Thread.argsOk_of ?_ (by simpa using Thread.own_ok hd) (List.forall_mem_singleton.2 ha) (by simp) (by simpa using hp)
  rcases hk with ⟨rfl, h8⟩ | ⟨hk, h8⟩
  · simp [isFp, h2, h8]
  · have : vtSlices s.thr.vtype ≤ 8 := Nat.succ_le_of_lt (Nat.mod_lt _ (by omega))
    rw [if_neg (by omega)]
    simp [isFp, h2, hk, h8]

/-- Settles O17: the rows of residue words and mixed widths run, and `vslice` is an element-wise operation too. -/
theorem vectorResidueResults : Obligations.VectorResidueResults :=
  ⟨elementwise_of_runs vectorResidueRows_run, fun s d _ _ p hfit hok hvl hd hp ha h2 hk =>
    elemOp_ok _ d p _ s hfit (vsliceArgs_ok hd hp ha h2 hk) hvl hok hd⟩

end Sys2Proof.Machine
end

section
/-! Comparisons and predicates (R135 to R137, R143). -/

namespace Sys2Proof.Machine
open Sys2Proof.Statements

/-! ### Comparisons (R135) -/

/-- A row whose instruction compares integers runs. -/
theorem predRowRuns_of_vCmpOp {e : PRow} (c : CmpCond × Bool) (hc : intCond c.1 c.2 = true) (src : Reg → VSrc) (hcap : e.cap = fun _ => 3)
    (hexec : ∀ d a b p s, ∃ w, exec (e.make d a b p) s = vCmpOp w d a (src b) p c.1 c.2 s)
    (hok : ∀ t a b, e.ok t a b → t.groupOk a ∧ (src b).fits t)
    (hval : ∀ t a b p i, e.value t a b p i = (conditionOn c.1 c.2 t.sew (elemAt t a i) ((src b).value t i), 0)) : predRowRuns e := by
  intro s d a b p hd hp hrow
  obtain ⟨w, hw⟩ := hexec d a b p s
  obtain ⟨ha, hb⟩ := hok _ _ _ hrow
  refine ⟨_, _, hw, by rw [hcap], Thread.argsOk_of hc (by simp) (List.forall_mem_cons.2 ⟨Thread.own_ok ha, VSrc.ops_ok hb⟩)
    (by simpa using hd) (by simpa using hp), fun i _ => ?_⟩
  rw [hval]
  rfl

/-- A row whose instruction compares floating-point numbers runs. -/
theorem predRowRuns_of_vFcmpOp {e : PRow} (c : CmpCond) (src : Reg → VSrc) (hcap : e.cap = fpCapAt)
    (hexec : ∀ d a b p s, ∃ w, exec (e.make d a b p) s = vFcmpOp w d a (src b) p c s)
    (hok : ∀ t a b, e.ok t a b → t.sew ≠ 8 ∧ t.groupOk a ∧ (src b).fits t)
    (hval : ∀ t a b p i, e.value t a b p i = fpCmp c t.fmt (elemAt t a i) ((src b).value t i)) : predRowRuns e := by
  intro s d a b p hd hp hrow
  obtain ⟨w, hw⟩ := hexec d a b p s
  obtain ⟨h8, ha, hb⟩ := hok _ _ _ hrow
  refine ⟨_, _, hw, by rw [hcap]; rfl, Thread.argsOk_of (decide_eq_true h8) (by simp)
    (List.forall_mem_cons.2 ⟨Thread.own_ok ha, VSrc.ops_ok hb⟩) (by simpa using hd) (by simpa using hp), fun i _ => ?_⟩
  rw [hval]
  rfl

theorem intCond_of_mem : ∀ c ∈ integerConditions, intCond c.1 c.2 = true := by decide

/-- Every comparison runs: each condition with a vector and with a scalar operand. -/
theorem compareRows_run : ∀ e ∈ compareRows, predRowRuns e := by
  refine List.forall_mem_append.2 ⟨List.forall_mem_flatMap.2 fun c hc => ?_, List.forall_mem_flatMap.2 fun c _ => ?_⟩
  · simp only [List.forall_mem_cons, List.not_mem_nil, false_imp_iff, implies_true, and_true]
    exact ⟨predRowRuns_of_vCmpOp c (intCond_of_mem c hc) .vec rfl (fun _ _ _ _ _ => ⟨_, rfl⟩) (fun _ _ _ h => h) fun _ _ _ _ _ => rfl,
      predRowRuns_of_vCmpOp c (intCond_of_mem c hc) .x rfl (fun _ _ _ _ _ => ⟨_, rfl⟩) (fun _ _ _ h => ⟨h, trivial⟩) fun _ _ _ _ _ => rfl⟩
  · simp only [List.forall_mem_cons, List.not_mem_nil, false_imp_iff, implies_true, and_true]
    exact ⟨predRowRuns_of_vFcmpOp c .vec rfl (fun _ _ _ _ _ => ⟨_, rfl⟩) (fun _ _ _ h => h) fun _ _ _ _ _ => rfl,
      predRowRuns_of_vFcmpOp c .x rfl (fun _ _ _ _ _ => ⟨_, rfl⟩) (fun _ _ _ h => ⟨h.1, h.2, trivial⟩) fun _ _ _ _ _ => rfl⟩

/-! ### The lowest active set bit (R137) -/

theorem Thread.mem_actives_iff (t : Thread) (p : Reg) (i : Nat) : i ∈ t.actives p ↔ i < t.vl ∧ t.pbit p i = true := by
  simp [Thread.actives]

/-- The active indices rise. -/
theorem Thread.actives_pairwise (t : Thread) (p : Reg) : (t.actives p).Pairwise (· < ·) :=
  List.Pairwise.sublist List.filter_sublist List.pairwise_lt_range

/-- The first set bit lies below VL, is set, and no active set bit lies below it. -/
theorem Thread.firstBit_some {t : Thread} {a p : Reg} {f : Nat} (h : t.firstBit a p = some f) :
    f ∈ t.actives p ∧ t.pbit a f = true ∧ ∀ j ∈ t.actives p, t.pbit a j = true → f ≤ j := by
  obtain ⟨hf, l, m, hlm, before⟩ := List.find?_eq_some_iff_append.1 h
  refine ⟨hlm ▸ List.mem_append_right l List.mem_cons_self, hf, fun j hj hset => ?_⟩
  have rising := t.actives_pairwise p
  rw [hlm] at hj rising
  rcases List.mem_append.1 hj with hj | hj
  · simpa [hset] using before j hj
  · rcases List.mem_cons.1 hj with rfl | hj
    · exact le_rfl
    · exact (List.rel_of_pairwise_cons (List.pairwise_append.1 rising).2.1 hj).le

theorem Thread.firstBit_none {t : Thread} {a p : Reg} (h : t.firstBit a p = none) (j : Nat) (hj : j ∈ t.actives p) : t.pbit a j = false :=
  Bool.eq_false_iff.2 (List.find?_eq_none.1 h j hj)

/-- Below VL, before the first set bit is before all of them. -/
theorem beforeFirst_eq (t : Thread) (a p : Reg) (i : Nat) (hi : i < t.vl) :
    decide (i < (t.firstBit a p).getD t.vl) = beforeFirst t a p i := by
  unfold beforeFirst
  rw [Bool.eq_iff_iff, decide_eq_true_iff, List.all_eq_true]
  cases h : t.firstBit a p with
  | none => simpa [hi] using fun j hj => Or.inl (Thread.firstBit_none h j hj)
  | some f =>
    obtain ⟨hf, hset, least⟩ := Thread.firstBit_some h
    refine ⟨fun hlt j hj => ?_, fun all => by simpa [hset] using all f hf⟩
    cases hb : t.pbit a j
    · rfl
    · simpa using lt_of_lt_of_le hlt (least j hj hb)

theorem upToFirst_eq (t : Thread) (a p : Reg) (i : Nat) (hi : i < t.vl) :
    decide (i ≤ (t.firstBit a p).getD t.vl) = upToFirst t a p i := by
  unfold upToFirst
  rw [Bool.eq_iff_iff, decide_eq_true_iff, List.all_eq_true]
  cases h : t.firstBit a p with
  | none => simpa [hi.le] using fun j hj => Or.inl (Thread.firstBit_none h j hj)
  | some f =>
    obtain ⟨hf, hset, least⟩ := Thread.firstBit_some h
    refine ⟨fun hle j hj => ?_, fun all => by simpa [hset] using all f hf⟩
    cases hb : t.pbit a j
    · rfl
    · simpa using le_trans hle (least j hj hb)

/-! ### Operations on predicates -/

/-- A row whose instruction takes predicates to a predicate runs. -/
theorem predRowRuns_of_pOp {e : PRow} (src : Reg → Reg → List Reg) (res : Reg → Reg → Reg → Thread → Nat → Bool)
    (hcap : e.cap = fun _ => 3)
    (hexec : ∀ d a b p s, ∃ w, exec (e.make d a b p) s = pOp w d (src a b) p (res a b p) s)
    (hok : ∀ t a b, e.ok t a b → ∀ q ∈ src a b, t.predOk q)
    (hval : ∀ t a b p, ∀ i < t.vl, e.value t a b p i = (res a b p t i, 0)) : predRowRuns e := by
  intro s d a b p hd hp hrow
  obtain ⟨w, hw⟩ := hexec d a b p s
  exact ⟨_, _, hw, by rw [hcap], Thread.argsOk_of rfl (by simp) (by simp) (by simpa using hd)
    (List.forall_mem_cons.2 ⟨hp, hok _ _ _ hrow⟩), fun i hi => (hval _ _ _ _ i hi).symm⟩

/-- Every operation on predicates runs, and `vrchk`. -/
theorem predicateRows_run : ∀ e ∈ predicateRows, predRowRuns e := by
  simp only [predicateRows, List.forall_mem_cons, List.not_mem_nil, false_imp_iff, implies_true, and_true]
  have two : ∀ t : Thread, ∀ a b, t.predOk a ∧ t.predOk b → ∀ q ∈ [a, b], t.predOk q := fun t a b h => by simpa using h
  have only : ∀ t : Thread, ∀ a, Reg → t.predOk a → ∀ q ∈ [a], t.predOk q := fun t a _ h => by simpa using h
  refine ⟨?pand, ?por, ?pxor, ?pnot, ?pset, ?pclr, ?pmsbf, ?pmsif, ?vrchk⟩
  case pand => exact predRowRuns_of_pOp (fun a b => [a, b]) _ rfl (fun _ _ _ _ _ => ⟨_, rfl⟩) two fun _ _ _ _ _ _ => rfl
  case por => exact predRowRuns_of_pOp (fun a b => [a, b]) _ rfl (fun _ _ _ _ _ => ⟨_, rfl⟩) two fun _ _ _ _ _ _ => rfl
  case pxor => exact predRowRuns_of_pOp (fun a b => [a, b]) _ rfl (fun _ _ _ _ _ => ⟨_, rfl⟩) two fun _ _ _ _ _ _ => rfl
  case pnot => exact predRowRuns_of_pOp (fun a _ => [a]) _ rfl (fun _ _ _ _ _ => ⟨_, rfl⟩) only fun _ _ _ _ _ _ => rfl
  case pset => exact predRowRuns_of_pOp (fun _ _ => []) _ rfl (fun _ _ _ _ _ => ⟨_, rfl⟩) (by simp) fun _ _ _ _ _ _ => rfl
  case pclr => exact predRowRuns_of_pOp (fun _ _ => []) _ rfl (fun _ _ _ _ _ => ⟨_, rfl⟩) (by simp) fun _ _ _ _ _ _ => rfl
  case pmsbf =>
    exact predRowRuns_of_pOp (fun a _ => [a]) _ rfl (fun _ _ _ _ _ => ⟨_, rfl⟩) only fun t a _ p i hi =>
      Prod.ext (beforeFirst_eq t a p i hi).symm rfl
  case pmsif =>
    exact predRowRuns_of_pOp (fun a _ => [a]) _ rfl (fun _ _ _ _ _ => ⟨_, rfl⟩) only fun t a _ p i hi =>
      Prod.ext (upToFirst_eq t a p i hi).symm rfl
  case vrchk =>
    intro s d a b p hd hp ⟨h32, ha⟩
    refine ⟨_, _, rfl, rfl, Thread.argsOk_of (decide_eq_true h32) (by simp) (by simpa using Thread.own_ok ha) (by simpa using hd)
      (by simpa using hp), fun i _ => ?_⟩
    simp only [elemAt, h32]

/-! ### From predicates to an x register -/

theorem Thread.active_iff (t : Thread) (p : Reg) (i : Nat) : t.active p i = true ↔ i ∈ t.actives p := by
  simp [Thread.active, Thread.mem_actives_iff]

/-- What `pfirst` writes: the first set bit, or all ones. -/
def Thread.firstWord (t : Thread) (a p : Reg) : Word :=
  match t.firstBit a p with | some f => BitVec.ofNat 64 f | none => BitVec.allOnes 64

theorem Thread.firstWord_of_clear {t : Thread} {a p : Reg} (h : ∀ i, t.active p i = true → t.pbit a i = false) :
    t.firstWord a p = BitVec.allOnes 64 := by
  have : t.firstBit a p = none := List.find?_eq_none.2 fun i hi => by simp [h i ((t.active_iff p i).2 hi)]
  rw [Thread.firstWord, this]

theorem Thread.firstWord_of_least {t : Thread} {a p : Reg} {i : Nat} (hi : t.active p i = true) (hset : t.pbit a i = true)
    (least : ∀ j < i, t.active p j = true → t.pbit a j = false) : t.firstWord a p = BitVec.ofNat 64 i := by
  cases h : t.firstBit a p with
  | none => simp [Thread.firstBit_none h i ((t.active_iff p i).1 hi)] at hset
  | some f =>
    obtain ⟨hf, hfset, lowest⟩ := Thread.firstBit_some h
    have hle : f ≤ i := lowest i ((t.active_iff p i).1 hi) hset
    have : f = i := hle.eq_of_not_lt fun hlt => by simp [least f hlt ((t.active_iff p f).2 hf)] at hfset
    rw [Thread.firstWord, h, this]

theorem pToXArgs_ok (w : BitVec 32) {t : Thread} {a p : Reg} (ha : t.predOk a) (hp : t.predOk p) :
    t.argsOk { word := w, caps := [3], psrc := [p, a] } :=
  Thread.argsOk_of rfl (by simp) (by simp) (by simp) (by simpa using ⟨hp, ha⟩)

/-- What an instruction from predicates to an x register answers with VL above 0. -/
theorem pToX_done (w : BitVec 32) (s : State) (d a p : Reg) (res : Thread → Word) (hfit : s.vectorFit [3]) (hvl : s.thr.vl ≠ 0)
    (ha : s.thr.predOk a) (hp : s.thr.predOk p) :
    ∃ t, pToX w d a p res s = .next t ∧ s.vectorDone t fun u => u.setX d (res s.thr) :=
  issueVl_goes _ s s (fun u => u.setX d (res s.thr)) _ hfit (pToXArgs_ok w ha hp) hvl rfl rfl rfl (by simp) (by simp) (by simp) (by simp)

/-- Settles O18: the rows of comparisons and predicates run; `pfirst` finds the first set bit, and `pcount` counts them. -/
theorem predicateResults : Obligations.PredicateResults := by
  refine ⟨fun e he s d a b p hfit hok hvl hd hp hrow => ?_, fun s d a p hfit hvl ha hp => ⟨?_, ?_⟩⟩
  · exact predRowRuns.done (List.forall_mem_append.2 ⟨compareRows_run, predicateRows_run⟩ e he) s d a b p hfit hok hvl hd hp hrow
  · obtain ⟨t, ht, hdone⟩ := pToX_done (wordPfirst d a p) s d a p (fun t => t.firstWord a p) hfit hvl ha hp
    exact ⟨t, _, ht, hdone, Thread.firstWord_of_clear, fun i hact hset least => Thread.firstWord_of_least hact hset least⟩
  · obtain ⟨t, ht, hdone⟩ := pToX_done (wordPcount d a p) s d a p (fun t => BitVec.ofNat 64 ((t.actives p).filter (t.pbit a)).length)
      hfit hvl ha hp
    refine ⟨t, ht, ?_⟩
    simpa [Thread.actives, List.filter_filter, Bool.and_comm] using hdone

end Sys2Proof.Machine
end

section
/-! Permutations (R139, R140). -/

namespace Sys2Proof.Machine
open Sys2Proof.Statements

/-! ### Element-wise permutations -/

theorem Thread.raiseFlags_none (t : Thread) (act : Nat → Bool) : t.raiseFlags act (fun _ => 0) = t := by
  rw [Thread.raiseFlags, orFlags_zero, fcsrRaise_zero]

/-- An instruction that moves elements into a destination group is an element-wise one that raises no flag. -/
theorem permOp_eq_elemOp (w : BitVec 32) (d : Reg) (src : List VOp) (p : Reg) (xsrc : List Reg) (res : Thread → Nat → Nat) (s : State) :
    permOp w d src p xsrc (fun t => t.writeVec d.toNat (t.pbit p) (res t)) s =
      elemOp { word := w, caps := [3], dst := [s.thr.own d], src := src, psrc := [p], xsrc := xsrc } d p (fun t i => (res t i, 0)) s := by
  simp only [permOp, elemOp, Thread.raiseFlags_none]

/-- A row whose instruction moves elements runs. -/
theorem rowRuns_of_permOp {e : VRow} (src : State → Reg → Reg → Reg → List VOp) (xsrc : Reg → List Reg)
    (res : Reg → Reg → Reg → Thread → Nat → Nat) (hcap : e.cap = fun _ => 3)
    (hexec : ∀ d a b p s, ∃ w, exec (e.make d a b p) s =
      permOp w d (src s a b p) p (xsrc b) (fun t => t.writeVec d.toNat (t.pbit p) (res d a b t)) s)
    (hok : ∀ (s : State) d a b p, e.ok s.thr d a b → ∀ o ∈ src s a b p, s.thr.opOk o)
    (hval : ∀ t d a b i, e.value t d a b i = (res d a b t i, 0)) : rowRuns e := by
  intro s d a b p _ hd hp hrow
  obtain ⟨w, hw⟩ := hexec d a b p s
  rw [permOp_eq_elemOp] at hw
  refine ⟨_, _, hw, by rw [hcap], Thread.argsOk_of rfl (by simpa using Thread.own_ok hd) (hok s d a b p hrow) (by simp)
    (by simpa using hp), fun i _ => ?_⟩
  rw [hval]
  exact ⟨rfl, rfl⟩

/-- The slides, `vrgather`, `vbcast` and `vid` run (R139). -/
theorem permuteRows_run : ∀ e ∈ permuteRows, rowRuns e := by
  simp only [permuteRows, List.forall_mem_cons, List.not_mem_nil, false_imp_iff, implies_true, and_true]
  have group : ∀ (s : State) (a : Reg) (l : List Nat), s.thr.groupOk a → ∀ o ∈ [(s.thr.own a).reading l], s.thr.opOk o :=
    fun s a l h => List.forall_mem_singleton.2 (Thread.reading_ok l (Thread.own_ok h))
  refine ⟨?vslideup, ?vslidedown, ?vrgather, ?vbcast, ?vid⟩
  case vslideup =>
    refine rowRuns_of_permOp (fun s a b p => [(s.thr.own a).reading ((s.thr.actives p).filterMap fun i =>
        if (s.xr b).toNat ≤ i then some (i - (s.xr b).toNat) else none)]) (fun b => [b])
      (fun d a b t i => if (t.xr b).toNat ≤ i then t.elem a.toNat (i - (t.xr b).toNat) t.sew else t.elem d.toNat i t.sew) rfl
      (fun _ _ _ _ _ => ⟨_, rfl⟩) (fun s _ a _ _ h => group s a _ h) fun _ _ _ _ _ => rfl
  case vslidedown =>
    exact rowRuns_of_permOp (fun s a b p => [(s.thr.own a).reading ((s.thr.actives p).map fun i => i + (s.xr b).toNat)]) (fun b => [b])
      (fun _ a b t i => t.elemOr0 a (i + (t.xr b).toNat)) rfl (fun _ _ _ _ _ => ⟨_, rfl⟩) (fun s _ a _ _ h => group s a _ h)
      fun _ _ _ _ _ => rfl
  case vrgather =>
    exact rowRuns_of_permOp (fun s a b p => [(s.thr.own a).reading ((s.thr.actives p).map fun i => s.thr.elem b.toNat i s.thr.sew),
        s.thr.own b]) (fun _ => []) (fun _ a b t i => t.elemOr0 a (t.elem b.toNat i t.sew)) rfl (fun _ _ _ _ _ => ⟨_, rfl⟩)
      (fun s _ a b _ h => List.forall_mem_cons.2 ⟨Thread.reading_ok _ (Thread.own_ok h.1), List.forall_mem_singleton.2 (Thread.own_ok h.2)⟩)
      fun _ _ _ _ _ => rfl
  case vbcast =>
    exact rowRuns_of_permOp (fun s a b p => [(s.thr.own a).reading ((s.thr.actives p).map fun _ => (s.xr b).toNat)]) (fun b => [b])
      (fun _ a b t _ => t.elemOr0 a (t.xr b).toNat) rfl (fun _ _ _ _ _ => ⟨_, rfl⟩) (fun s _ a _ _ h => group s a _ h) fun _ _ _ _ _ => rfl
  case vid =>
    exact rowRuns_of_permOp (fun _ _ _ _ => []) (fun _ => []) (fun _ _ _ _ i => i) rfl (fun _ _ _ _ _ => ⟨_, rfl⟩) (by simp)
      fun _ _ _ _ _ => rfl

/-! ### Selected elements (R140) -/

theorem range_filter_lt (n m : Nat) : (List.range n).filter (fun j => decide (j < m)) = List.range (min n m) := by
  induction n with
  | zero => simp
  | succ n ih =>
    rw [List.range_succ, List.filter_append, ih]
    by_cases h : n < m
    · rw [min_eq_left h.le, min_eq_left (Nat.succ_le_of_lt h), List.range_succ]
      simp [h]
    · rw [min_eq_right (by omega), min_eq_right (by omega)]
      simp [h]

/-- The selected elements below `i`, counted among the active ones or among the indices. -/
theorem Thread.rank_eq (t : Thread) (p : Reg) (i : Nat) : t.rank p i = rankAt t p i := by
  have active : (List.range i).filter (t.active p) = ((List.range i).filter fun j => decide (j < t.vl)).filter (t.pbit p) := by
    rw [List.filter_filter]
    exact List.filter_congr fun j _ => Bool.and_comm _ _
  have below : (t.actives p).filter (fun j => decide (j < i)) = ((List.range t.vl).filter fun j => decide (j < i)).filter (t.pbit p) := by
    rw [Thread.actives, List.filter_filter, List.filter_filter]
    exact List.filter_congr fun j _ => Bool.and_comm _ _
  rw [Thread.rank, rankAt, active, below, range_filter_lt, range_filter_lt, min_comm]

/-! ### Groups written whole -/

/-- The elements of a group written with `f` throughout, and the other registers. -/
theorem Thread.putElems_group (t u : Thread) (d : Reg) (f : Nat → Nat) (hok : t.vectorOk) (hd : t.groupOk d)
    (hu : u.v = (t.putElems d.toNat t.sew f t.grp).v) (hl : u.vlen = t.vlen) :
    (∀ i < t.vlmax, u.elem d.toNat i t.sew = f i % 2 ^ t.sew) ∧
      ∀ r : Fin 32, (r.val < d.toNat ∨ d.toNat + t.grp ≤ r.val) → u.v[r] = t.v[r] := by
  refine ⟨fun i hi => ?_, fun r hr => ?_⟩
  · rw [Thread.elem_congr (t := t.putElems d.toNat t.sew f t.grp) hu (by rw [hl, Thread.putElems_vlen]) d.toNat i t.sew]
    exact t.elem_putElems d.toNat t.sew f t.grp i t.sew_pos (t.sew_dvd hok.1) hok.2.2.1 hd.2.2 (by rw [← t.vlmax_eq hok.1]; exact hi)
  · have := t.putElems_v_outside d.toNat t.sew f t.grp r.val hr
    rw [hu]
    simpa using this

theorem elemAt_mod (t : Thread) (r : Reg) (i : Nat) : elemAt t r i % 2 ^ t.sew = elemAt t r i := Nat.mod_eq_of_lt (t.elem_lt _ _ _)

/-- Element `i` after `vcompress` (R140). -/
def Thread.packed (t : Thread) (d a p : Reg) (i : Nat) : Nat :=
  match (t.actives p)[i]? with
  | some j => elemAt t a j
  | none => if t.vtype.getLsbD 13 then 0 else elemAt t d i

theorem Thread.packed_mod (t : Thread) (d a p : Reg) (i : Nat) : t.packed d a p i % 2 ^ t.sew = t.packed d a p i := by
  unfold Thread.packed
  split
  · exact elemAt_mod t a _
  · split
    · exact Nat.zero_mod _
    · exact elemAt_mod t d i

theorem vcompressArgs_ok {t : Thread} {d a p : Reg} (hd : t.groupOk d) (ha : t.groupOk a) (hp : t.predOk p) :
    t.argsOk { word := wordVcompress d a p, caps := [3], dst := [t.own d], src := [t.own a], psrc := [p] } :=
  Thread.argsOk_of rfl (by simpa using Thread.own_ok hd) (by simpa using Thread.own_ok ha) (by simp) (by simpa using hp)

theorem vexpandArgs_ok {t : Thread} {d a p : Reg} (hd : t.groupOk d) (ha : t.groupOk a) (hp : t.predOk p) :
    t.argsOk { word := wordVexpand d a p, caps := [3], dst := [t.own d],
               src := [(t.own a).reading (List.range (t.actives p).length)], psrc := [p] } :=
  Thread.argsOk_of rfl (by simpa using Thread.own_ok hd) (by simpa using Thread.reading_ok _ (Thread.own_ok ha)) (by simp)
    (by simpa using hp)

theorem vextractArgs_ok {t : Thread} {d a b : Reg} (ha : t.groupOk a) :
    t.argsOk { word := wordVextract d a b, caps := [3], src := [(t.own a).reading [(t.xr b).toNat]], xsrc := [b], always := true } :=
  Thread.argsOk_of rfl (by simp) (by simpa using Thread.reading_ok _ (Thread.own_ok ha)) (by simp) (by simp)

theorem vinsertArgs_ok {t : Thread} {d a b : Reg} (hd : t.groupOk d) :
    t.argsOk { word := wordVinsert d a b, caps := [3], dst := [t.own d], xsrc := [a, b], always := true } :=
  Thread.argsOk_of rfl (by simpa using Thread.own_ok hd) (by simp) (by simp) (by simp)

theorem execVcompress_done (s : State) (d a p : Reg) (hfit : s.vectorFit [3]) (hok : s.thr.vectorOk) (hvl : s.thr.vl ≠ 0)
    (hd : s.thr.groupOk d) (ha : s.thr.groupOk a) (hp : s.thr.predOk p) :
    ∃ t, exec (.vcompress d a p) s = .next t ∧ s.vecDone t ∧ t.thr.fcsr = s.thr.fcsr ∧
      (∀ i < s.thr.vlmax, t.thr.elem d.toNat i s.thr.sew = s.thr.packed d a p i) ∧
      ∀ r : Fin 32, (r.val < d.toNat ∨ d.toNat + s.thr.grp ≤ r.val) → t.thr.v[r] = s.thr.v[r] := by
  obtain ⟨t, ht, hdone⟩ := issueVl_mapThr
    { word := wordVcompress d a p, caps := [3], dst := [s.thr.own d], src := [s.thr.own a], psrc := [p] } s
    (fun t => t.putElems d.toNat t.sew (t.packed d a p) t.grp) hfit
    (vcompressArgs_ok hd ha hp) hvl
    (by simp) (by simp) (by simp) (by simp)
  obtain ⟨elems, others⟩ := Thread.putElems_group s.thr t.thr d (s.thr.packed d a p) hok hd (State.vectorDone_v hdone)
    ((State.vectorDone_vlen hdone).trans (by simp))
  exact ⟨t, ht, State.vecDone_of hdone (by conv_lhs => rw [Thread.putElems_eq]
                                           simp), (State.vectorDone_fcsr hdone).trans (by simp),
    fun i hi => (elems i hi).trans (Thread.packed_mod ..), others⟩

/-- The thread after `vinsert` (R139). -/
def Thread.inserted (t : Thread) (d a b : Reg) : Thread :=
  if (t.xr b).toNat < t.vlmax then
    t.putElems d.toNat t.sew (fun i => if i = (t.xr b).toNat then (t.xr a).toNat else t.elem d.toNat i t.sew) t.grp
  else t

theorem Thread.inserted_eq (t : Thread) (d a b : Reg) : t.inserted d a b = { t with v := (t.inserted d a b).v } := by
  unfold Thread.inserted
  split
  · exact t.putElems_eq _ _ _ _
  · rfl

theorem Thread.inserted_fcsr (t : Thread) (d a b : Reg) : (t.inserted d a b).fcsr = t.fcsr := by
  rw [Thread.inserted_eq]

/-- `vinsert` replaces one element of its group; an index from VLMAX on names none. -/
theorem Thread.inserted_result (t u : Thread) (d a b : Reg) (hok : t.vectorOk) (hd : t.groupOk d)
    (hu : u.v = (t.inserted d a b).v) (hl : u.vlen = t.vlen) :
    (∀ i < t.vlmax, u.elem d.toNat i t.sew = if i = (t.xr b).toNat then (t.xr a).toNat % 2 ^ t.sew else elemAt t d i) ∧
      ∀ r : Fin 32, (r.val < d.toNat ∨ d.toNat + t.grp ≤ r.val) → u.v[r] = t.v[r] := by
  unfold Thread.inserted at hu
  split at hu
  · obtain ⟨elems, others⟩ := Thread.putElems_group t u d _ hok hd hu hl
    refine ⟨fun i hi => (elems i hi).trans ?_, others⟩
    split
    · rfl
    · exact elemAt_mod t d i
  · next h =>
    refine ⟨fun i hi => ?_, fun r _ => by rw [hu]⟩
    have other : i ≠ (t.xr b).toNat := fun he => h (he ▸ hi)
    rw [if_neg other]
    exact Thread.elem_congr hu hl _ _ _

/-- Settles O19: the element-wise permutations run, `vexpand` writes by rank, `vcompress` packs, and the two moves of one element act
whatever VL is. -/
theorem permutationResults : Obligations.PermutationResults := by
  refine ⟨elementwise_of_runs permuteRows_run, fun s d a p hfit hok hvl hd ha hp => ⟨?vexpand, ?vcompress⟩,
    fun s d a b hfit hok => ⟨fun ha => ?vextract, fun hd => ?vinsert⟩⟩
  case vexpand =>
    obtain ⟨t, ht, hdone, hfcsr, helems⟩ := issueVl_writeVec
      { word := wordVexpand d a p, caps := [3], dst := [s.thr.own d],
        src := [(s.thr.own a).reading (List.range (s.thr.actives p).length)], psrc := [p] } s d p
      (fun t => t.writeVec d.toNat (t.pbit p) fun i => t.elem a.toNat (t.rank p i) t.sew) (s.thr.pbit p)
      (fun i => s.thr.elem a.toNat (s.thr.rank p i) s.thr.sew) hfit (vexpandArgs_ok hd ha hp) hvl hok hd (fun _ _ => rfl) rfl
    exact ⟨t, ht, hdone, hfcsr, Thread.vecResult_congr (fun i _ => by rw [Thread.rank_eq]; rfl) helems⟩
  case vcompress => exact execVcompress_done s d a p hfit hok hvl hd ha hp
  case vextract =>
    obtain ⟨legal, declared⟩ := vextractArgs_ok (d := d) (b := b) ha
    exact issueVector_mapThr _ s (fun u => u.setX d (sextWord s.thr.sew (s.thr.elemOr0 a (s.xr b).toNat))) hfit legal declared
      (by simp) (by simp) (by simp) (by simp)
  case vinsert =>
    obtain ⟨legal, declared⟩ := vinsertArgs_ok (a := a) (b := b) hd
    obtain ⟨t, ht, hdone⟩ := issueVector_mapThr _ s (fun u => u.inserted d a b) hfit legal declared
      (by rw [Thread.inserted_eq]) (by rw [Thread.inserted_eq]) (by rw [Thread.inserted_eq]) (by rw [Thread.inserted_eq])
    refine ⟨t, ht, State.vecDone_of hdone ?_, (State.vectorDone_fcsr hdone).trans (Thread.inserted_fcsr ..),
      Thread.inserted_result s.thr t.thr d a b hok hd (State.vectorDone_v hdone)
        ((State.vectorDone_vlen hdone).trans (by rw [Thread.inserted_eq]))⟩
    rw [Thread.inserted_fcsr]
    exact Thread.inserted_eq ..

end Sys2Proof.Machine
end

section
/-! Reductions (R141): one element of one register, from the start value and the active elements. -/

namespace Sys2Proof.Machine
open Sys2Proof.Statements

/-! ### The shared operation -/

/-- The operands of a reduction: one register for the result, a group, one register for the start value. -/
theorem redArgs_ok {t : Thread} {d a b p : Reg} (w : BitVec 32) {legal : Bool} (cap : Nat) (hlegal : legal = true)
    (hd : d.toNat < t.hdr.vregs) (hb : b.toNat < t.hdr.vregs) (ha : t.groupOk a) (hp : t.predOk p) :
    t.argsOk { word := w, legal := legal, caps := [cap], dst := [one d.toNat], src := [t.own a, oneOf b.toNat t.sew [0]], psrc := [p] } :=
  Thread.argsOk_of hlegal (by simpa using Thread.one_ok d.isLt hd)
    (List.forall_mem_cons.2 ⟨Thread.own_ok ha, by simpa using Thread.oneOf_ok _ _ b.isLt hb⟩) (by simp) (by simpa using hp)

/-- What a reduction does to its thread. -/
def Thread.reduceTo (t : Thread) (d : Reg) (r : Nat × Flags) : Thread := { t.putReduced d r.1 with fcsr := fcsrRaise t.fcsr r.2 }

theorem Thread.reduceTo_eq (t : Thread) (d : Reg) (r : Nat × Flags) :
    t.reduceTo d r = { t with v := (t.reduceTo d r).v, fcsr := (t.reduceTo d r).fcsr } := by
  rw [Thread.reduceTo, Thread.putReduced, Thread.putElems_eq]

/-- The register that a reduction writes, and the others. -/
theorem Thread.reduceTo_reduced (t u : Thread) (d : Reg) (r : Nat × Flags) (hok : t.vectorOk) (hu : u.v = (t.reduceTo d r).v)
    (hl : u.vlen = t.vlen) : reduced t u d r.1 := by
  have elems : ∀ i < t.vlen / t.sew, u.elem d.toNat i t.sew =
      (if i = 0 then r.1 else if vtTz t.vtype then 0 else t.elem d.toNat i t.sew) % 2 ^ t.sew := fun i hi => by
    rw [Thread.elem_congr (t := t.putReduced d r.1) hu (by rw [hl, Thread.putReduced, Thread.putElems_vlen])]
    exact t.elem_putElems d.toNat t.sew _ 1 i t.sew_pos (t.sew_dvd hok.1) hok.2.2.1 d.isLt (by rwa [Nat.one_mul])
  have some : 0 < t.vlen / t.sew := Nat.div_pos (Nat.le_of_dvd (by have := hok.2.1; omega) (t.sew_dvd hok.1)) t.sew_pos
  refine ⟨elems 0 some, fun i hi hlt => ?_, fun r' hr => ?_⟩
  · rw [elems i hlt, if_neg hi.ne']
    by_cases h : t.vtype.getLsbD 13 = true
    · rw [vtTz, if_pos h, Nat.zero_mod]
    · rw [vtTz, if_neg h, Nat.mod_eq_of_lt (t.elem_lt _ _ _)]
  · have := t.putElems_v_outside d.toNat t.sew (fun i => if i = 0 then r.1 else if vtTz t.vtype then 0 else t.elem d.toNat i t.sew) 1
      r'.val (by omega)
    rw [hu]
    simpa [Thread.reduceTo, Thread.putReduced] using this

/-- A reduction with VL above 0 writes what its function makes of the start value and the active elements. -/
theorem redOp_done (w : BitVec 32) (legal : Bool) (cap : Nat) (d a b p : Reg) (f : Thread → Nat → List (Nat × Nat) → Nat × Flags)
    (s : State) (hfit : s.vectorFit [cap]) (hlegal : legal = true) (hok : s.thr.vectorOk) (hvl : s.thr.vl ≠ 0)
    (hd : d.toNat < s.thr.hdr.vregs) (hb : b.toNat < s.thr.hdr.vregs) (ha : s.thr.groupOk a) (hp : s.thr.predOk p) :
    ∃ t, redOp w legal cap d a b p f s = .next t ∧ s.vecDone t ∧
      t.thr.fcsr = s.thr.fcsr ||| (f s.thr (elemAt s.thr b 0) (s.thr.activeElems a p)).2.zeroExtend 8 ∧
      reduced s.thr t.thr d (f s.thr (elemAt s.thr b 0) (s.thr.activeElems a p)).1 := by
  obtain ⟨t, ht, hdone⟩ := issueVl_mapThr _ s
    (fun t => t.reduceTo d (f t (t.elem b.toNat 0 t.sew) (t.activeElems a p))) hfit (redArgs_ok w cap hlegal hd hb ha hp) hvl
    (by rw [Thread.reduceTo_eq]) (by rw [Thread.reduceTo_eq]) (by rw [Thread.reduceTo_eq]) (by rw [Thread.reduceTo_eq])
  refine ⟨t, Eq.trans ?_ ht, State.vecDone_of hdone (Thread.reduceTo_eq ..), State.vectorDone_fcsr hdone,
    Thread.reduceTo_reduced s.thr t.thr d _ hok (State.vectorDone_v hdone)
      ((State.vectorDone_vlen hdone).trans (by rw [Thread.reduceTo_eq]))⟩
  simp only [redOp, Thread.reduceTo, Thread.putReduced, Thread.putElems_fcsr]

/-! ### Folds over the active elements -/

theorem Thread.activeElems_snd (t : Thread) (a p : Reg) : (t.activeElems a p).map Prod.snd = Statements.activeElems t a p := by
  simp [Thread.activeElems, Statements.activeElems, elemAt]

/-- Two operations that agree on numbers of SEW bits, and stay among them, fold alike. -/
theorem foldl_eq_of_lt {w : Nat} {f g : Nat → Nat → Nat} (heq : ∀ x < 2 ^ w, ∀ y < 2 ^ w, f x y = g x y)
    (hlt : ∀ x < 2 ^ w, ∀ y < 2 ^ w, f x y < 2 ^ w) :
    ∀ (l : List Nat), (∀ y ∈ l, y < 2 ^ w) → ∀ x < 2 ^ w, l.foldl f x = l.foldl g x
  | [], _, _, _ => rfl
  | y :: l, hl, x, hx => by
    have hy := hl y (by simp)
    rw [List.foldl_cons, List.foldl_cons, ← heq x hx y hy]
    exact foldl_eq_of_lt heq hlt l (fun z hz => hl z (by simp [hz])) _ (hlt x hx y hy)

theorem vMax_lt {w x y : Nat} (hx : x < 2 ^ w) (hy : y < 2 ^ w) : vMax w x y < 2 ^ w := by
  unfold vMax; split <;> assumption

theorem vMin_lt {w x y : Nat} (hx : x < 2 ^ w) (hy : y < 2 ^ w) : vMin w x y < 2 ^ w := by
  unfold vMin; split <;> assumption

theorem vMax_eq {w x y : Nat} (hx : x < 2 ^ w) (hy : y < 2 ^ w) : vMax w x y = wrap w (max (sext w x) (sext w y)) := by
  rw [← wrap_mod, ← vMax_mod, Nat.mod_eq_of_lt (vMax_lt hx hy)]

theorem vMin_eq {w x y : Nat} (hx : x < 2 ^ w) (hy : y < 2 ^ w) : vMin w x y = wrap w (min (sext w x) (sext w y)) := by
  rw [← wrap_mod, ← vMin_mod, Nat.mod_eq_of_lt (vMin_lt hx hy)]

/-- A row of the integer reductions: its instruction folds an operation that folds as the row's does. -/
def intRedRuns (e : (Reg → Reg → Reg → Reg → Instr) × (Nat → Nat → Nat → Nat)) : Prop :=
  ∃ f : Nat → Nat → Nat → Nat, (∀ d a b p s, ∃ w, exec (e.1 d a b p) s = intRed w d a b p f s) ∧
    ∀ (w : Nat) (l : List Nat), (∀ y ∈ l, y < 2 ^ w) → ∀ x < 2 ^ w, l.foldl (f w) x = l.foldl (e.2 w) x

theorem integerReductions_run : ∀ e ∈ integerReductions, intRedRuns e := by
  simp only [integerReductions, List.forall_mem_cons, List.not_mem_nil, false_imp_iff, implies_true, and_true]
  refine ⟨?sum, ?max, ?min, ?and, ?or⟩
  case sum => exact ⟨fun _ x y => x + y, fun _ _ _ _ _ => ⟨_, rfl⟩, fun _ _ _ _ _ => rfl⟩
  case max => exact ⟨vMax, fun _ _ _ _ _ => ⟨_, rfl⟩, fun w => foldl_eq_of_lt (fun _ hx _ hy => vMax_eq hx hy) fun _ hx _ hy => vMax_lt hx hy⟩
  case min => exact ⟨vMin, fun _ _ _ _ _ => ⟨_, rfl⟩, fun w => foldl_eq_of_lt (fun _ hx _ hy => vMin_eq hx hy) fun _ hx _ hy => vMin_lt hx hy⟩
  case and => exact ⟨fun _ x y => x &&& y, fun _ _ _ _ _ => ⟨_, rfl⟩, fun _ _ _ _ _ => rfl⟩
  case or => exact ⟨fun _ x y => x ||| y, fun _ _ _ _ _ => ⟨_, rfl⟩, fun _ _ _ _ _ => rfl⟩

/-- A row of the ordered floating-point reductions: its instruction folds the row's operation. -/
def orderedRedRuns (e : (Reg → Reg → Reg → Reg → Instr) × (Fmt → RMode → Nat → Nat → Nat × Flags)) : Prop :=
  ∀ d a b p s, ∃ w, exec (e.1 d a b p) s =
    redOp w (decide (s.thr.sew ≠ 8)) 11 d a b p (fun t x l => foldFlags (e.2 t.fmt t.vfrm) x (l.map Prod.snd)) s

theorem orderedReductions_run : ∀ e ∈ orderedReductions, orderedRedRuns e := by
  simp only [orderedReductions, List.forall_mem_cons, List.not_mem_nil, false_imp_iff, implies_true, and_true]
  exact ⟨fun _ _ _ _ _ => ⟨_, rfl⟩, fun _ _ _ _ _ => ⟨_, rfl⟩, fun _ _ _ _ _ => ⟨_, rfl⟩⟩

/-- Settles O20: the three shapes of reductions fold the active elements from the start value. -/
theorem reductionResults : Obligations.ReductionResults := by
  intro s d a b p hok hvl hd hb ha hp
  refine ⟨fun hfit e he => ?integer, fun hfit hsew => ⟨fun e he => ?ordered, ?tree⟩⟩
  case integer =>
    obtain ⟨f, hexec, hfold⟩ := integerReductions_run e he
    obtain ⟨w, hw⟩ := hexec d a b p s
    obtain ⟨t, ht, hdone, hfcsr, hred⟩ := redOp_done w true 3 d a b p
      (fun t x l => (l.foldl (fun acc e => f t.sew acc e.2) x, 0)) s hfit rfl hok hvl hd hb ha hp
    refine ⟨t, hw.trans ht, hdone, hfcsr.trans (fcsrRaise_zero _), ?_⟩
    have bounded : ∀ y ∈ Statements.activeElems s.thr a p, y < 2 ^ s.thr.sew := by
      intro y hy
      obtain ⟨i, -, rfl⟩ := List.mem_map.1 hy
      exact s.thr.elem_lt _ _ _
    rw [← hfold s.thr.sew _ bounded (elemAt s.thr b 0) (s.thr.elem_lt _ _ _), ← Thread.activeElems_snd, List.foldl_map]
    exact hred
  case ordered =>
    obtain ⟨w, hw⟩ := orderedReductions_run e he d a b p s
    obtain ⟨t, ht, hdone, hfcsr, hred⟩ := redOp_done w (decide (s.thr.sew ≠ 8)) 11 d a b p
      (fun t x l => foldFlags (e.2 t.fmt t.vfrm) x (l.map Prod.snd)) s hfit (by simpa using hsew) hok hvl hd hb ha hp
    rw [Thread.activeElems_snd] at hfcsr hred
    exact ⟨t, _, hw.trans ht, hdone, rfl, hfcsr, hred⟩
  case tree =>
    obtain ⟨t, ht, hdone, hfcsr, hred⟩ := redOp_done (wordVfredsum d a b p) (decide (s.thr.sew ≠ 8)) 11 d a b p (fun t x _ =>
      match (redTree (t.fmt.add t.vfrm) (fun i => if t.active p i then some (t.elem a.toNat i t.sew) else none) 11 0).1 with
      | some v => ((t.fmt.add t.vfrm x v).1,
        (redTree (t.fmt.add t.vfrm) (fun i => if t.active p i then some (t.elem a.toNat i t.sew) else none) 11 0).2 |||
          (t.fmt.add t.vfrm x v).2)
      | none => (x, 0)) s hfit (by simpa using hsew) hok hvl hd hb ha hp
    refine ⟨t, ht, hdone, ?_⟩
    simp only [elemAt] at hfcsr hred ⊢
    cases h : redTree (s.thr.fmt.add s.thr.vfrm) (fun i => if s.thr.active p i then some (s.thr.elem a.toNat i s.thr.sew) else none) 11 0 with
    | mk v g =>
      rw [h] at hfcsr hred
      cases v with
      | some v => exact ⟨hred, hfcsr⟩
      | none => exact ⟨hred, hfcsr.trans (fcsrRaise_zero _)⟩

end Sys2Proof.Machine
end

section
/-! A vector load over a granule that holds an uncorrectable error and that two issued stores of the thread cover between them. Its data
can be read (R108, R390: the thread's stores cover the granule), but the element needs bytes of both stores, so both are performed first
(R261). Neither writes the whole granule, so the error stays; no store covers it any longer, and the load traps with DATA_ERR. -/

namespace Sys2Proof.Machine
open Sys2Proof.Statements Sys2Proof.Tests

/-- An issued store of 4 bytes. -/
def halfStore (a seq : Nat) : PendStore := ⟨(List.range 4).map fun i => (a + i, 7), 0, false, seq, 0, false, [], []⟩

/-- The two halves of the granule at x10 stored one after the other and not performed; the granule itself holds an error. -/
def spoiltHalves : State :=
  let s := withX (withVl machine0 0x000F 1) [(10, 0x20000)]
  { s with thr := { s.thr with sq := [halfStore 0x20000 1, halfStore 0x20004 2] }, badMem := [(0x20000, 0)] }

theorem spoiltHalves_ready : spoiltHalves.vectorFit [3] ∧ spoiltHalves.thr.vectorOk ∧ spoiltHalves.thr.vl ≠ 0 ∧ spoiltHalves.thr.groupOk 1 ∧
    spoiltHalves.thr.predOk 0 ∧ 8 * elemBytes .e64 ≤ spoiltHalves.thr.sew ∧ segmentOk spoiltHalves.thr 1 1 ∧ spoiltHalves.thr.atStart := by
  refine ⟨?_, ?_, ?_, ?_, ?_, ?_, ?_, atStart_of_empty (by decide +kernel)⟩
  · unfold State.vectorFit State.fit; decide +kernel
  · unfold Thread.vectorOk; decide +kernel
  · decide +kernel
  · unfold Thread.groupOk; decide +kernel
  · unfold Thread.predOk; decide +kernel
  · decide +kernel
  · unfold segmentOk; decide +kernel

theorem spoiltHalves_calm (rs : List Range) : spoiltHalves.calm rs := by
  refine .inr ?_
  unfold Thread.near Thread.orderly
  decide +kernel

/-- Field `f` of the one segment, and of it the element of a unit-stride load, may be read. -/
theorem spoiltHalves_loadable : ∀ i ∈ spoiltHalves.thr.actives 0, ∀ f < 2,
    spoiltHalves.loadable (fieldAddr spoiltHalves.thr 10 2 .e64 i f) 8 (.device (0x20000 + 8 * f)) := by
  have h : ∀ i ∈ spoiltHalves.thr.actives 0, ∀ f < 2,
      (mayAccess spoiltHalves .load (fieldAddr spoiltHalves.thr 10 2 .e64 i f) 8 (.device (0x20000 + 8 * f)) &&
        !spoiltHalves.badData spoiltHalves.thr (.device (0x20000 + 8 * f)) 8) = true := by decide +kernel
  exact fun i hi f hf => of_mayLoad (h i hi f hf)

theorem spoiltHalves_unit : ∀ i ∈ spoiltHalves.thr.actives 0,
    spoiltHalves.loadable (unitAddr spoiltHalves.thr 10 0 .e64 i) (elemBytes .e64) (.device 0x20000) := by
  have first : ∀ i ∈ spoiltHalves.thr.actives 0,
      unitAddr spoiltHalves.thr 10 0 .e64 i = fieldAddr spoiltHalves.thr 10 2 .e64 i 0 := by decide +kernel
  exact fun i hi => first i hi ▸ spoiltHalves_loadable i hi 0 (by decide)

/-- Both loads trap with DATA_ERR. -/
theorem spoiltHalves_traps : traps spoiltHalves (.vld 1 10 0 0 .e64) 8 0x1000 0x20000 = true ∧
    traps spoiltHalves (.vlseg 1 10 1 0 0 .e64) 8 0x1000 0x20000 = true := by
  refine ⟨?_, ?_⟩ <;> decide +kernel

/-- An instruction that traps is in the handler, where a completed vector instruction of user code is not. -/
theorem not_vectorDone_of_traps {s t u : State} {i : Instr} {c : Nat} {pc val : Word} {f : Thread → Thread}
    (htrap : traps s i c pc val = true) (ht : exec i s = .next t) (hf : (f u.thr).supervisor = false) : ¬ u.vectorDone t f := by
  intro hdone
  have hsup : t.thr.supervisor = (f u.thr).supervisor := Eq.trans (congrArg Thread.supervisor hdone.2.2) rfl
  simp only [traps, after, stateOf, ht, Bool.and_eq_true, decide_eq_true_eq] at htrap
  rw [hf, htrap.2.1] at hsup
  cases hsup

/-- Refutes O22: `vld` of a granule with an uncorrectable error that two issued stores cover between them traps with DATA_ERR, though the
data may be read: it performs the stores first, and neither clears the error. -/
theorem not_vectorLoadResults : ¬ Obligations.VectorLoadResults := by
  intro h
  obtain ⟨fits, ok, some, group, pred, width, -, start⟩ := spoiltHalves_ready
  obtain ⟨t, l, res, ht, ⟨hdone, -⟩, -⟩ := (h spoiltHalves 1 10 0 0 0 .e64 ok some group pred width start).1
    ⟨fun d a _ p c e => .vld d a p c e, 3, false, unitAddr⟩ (by simp [vectorLoadRows]) (fun _ => .device 0x20000) fits
    (fun hi => absurd hi Bool.false_ne_true) spoiltHalves_unit (spoiltHalves_calm _)
  exact not_vectorDone_of_traps spoiltHalves_traps.1 ht rfl hdone

/-- Refutes O24: so does `vlseg`, whose first field lies in that granule. -/
theorem not_segmentResults : ¬ Obligations.SegmentResults := by
  intro h
  obtain ⟨fits, ok, some, -, pred, width, segments, start⟩ := spoiltHalves_ready
  obtain ⟨t, l, res, ht, hdone, -⟩ := ((h spoiltHalves 1 10 0 0 fits ok some start).1 1 .e64 (fun _ f => .device (0x20000 + 8 * f))
    segments pred width).1 spoiltHalves_loadable (spoiltHalves_calm _)
  exact not_vectorDone_of_traps spoiltHalves_traps.2 ht rfl hdone

end Sys2Proof.Machine
end

section
/-! VL = 0 (R121): an instruction that VL governs has only to be legal and declared. -/

namespace Sys2Proof.Machine
open Sys2Proof.Statements

/-! ### Tables -/

theorem ewBits_eq (e : ElemWidth) : ewBits e = 8 * elemBytes e := by cases e <;> rfl

theorem ewBytes_eq (e : ElemWidth) : ewBytes e = elemBytes e := by cases e <;> rfl

theorem elementRows_run : ∀ e ∈ vectorIntegerRows ++ vectorMoveRows ++ vectorFloatRows ++ vectorConversionRows ++ vectorResidueRows ++
    permuteRows, rowRuns e :=
  rowsRun_append (rowsRun_append (rowsRun_append (rowsRun_append (rowsRun_append vectorIntegerRows_run vectorMoveRows_run)
    vectorFloatRows_run) vectorConversionRows_run) vectorResidueRows_run) permuteRows_run

theorem mergeTable_nothing {s : State} {d a b p : Reg} (hfit : s.vectorFit [3]) (hvl : s.thr.vl = 0) (hd : s.thr.groupOk d)
    (ha : s.thr.groupOk a) (hp : s.thr.predOk p) : ∀ e ∈ mergeTable, (e.2.1 = true → s.thr.groupOk b) →
      ∃ t, exec (e.1 d a b p) s = .next t ∧ s.vectorDone t id := by
  have merge : ∀ (w : BitVec 32) (x : VSrc), x.fits s.thr → ∃ t, vMergeOp w d a x p s = .next t ∧ s.vectorDone t id := fun w x hx =>
    issueVl_nothing _ s _ hfit (vMergeArgs_ok w hd ha hx hp) hvl
  simp only [mergeTable, List.forall_mem_cons, List.not_mem_nil, false_imp_iff, implies_true, and_true]
  exact ⟨fun hb => merge _ (.vec b) (hb trivial), fun _ => merge _ (.x b) trivial, fun _ => merge _ (.imm b) trivial⟩

theorem redOp_nothing (w : BitVec 32) {legal : Bool} {cap : Nat} {d a b p : Reg} (f : Thread → Nat → List (Nat × Nat) → Nat × Flags)
    {s : State} (hfit : s.vectorFit [cap]) (hlegal : legal = true) (hvl : s.thr.vl = 0) (hd : d.toNat < s.thr.hdr.vregs)
    (hb : b.toNat < s.thr.hdr.vregs) (ha : s.thr.groupOk a) (hp : s.thr.predOk p) :
    ∃ t, redOp w legal cap d a b p f s = .next t ∧ s.vectorDone t id :=
  issueVl_nothing _ s _ hfit (redArgs_ok w cap hlegal hd hb ha hp) hvl

/-! ### Memory -/

/-- A vector load of elements whose other operands are legal and declared. -/
theorem vLoadOp_nothing (w : BitVec 32) (cap : Nat) (d p a : Reg) (src : List VOp) (xsrc : List Reg) (c : BitVec 2) (e : ElemWidth)
    (off : Thread → Nat → Word) (s : State) (hfit : s.vectorFit [cap]) (hvl : s.thr.vl = 0) (hd : s.thr.groupOk d)
    (hsrc : ∀ o ∈ src, s.thr.opOk o) (hp : s.thr.predOk p) (hw : 8 * elemBytes e ≤ s.thr.sew) :
    ∃ t, vLoadOp { word := w, caps := [cap], dst := [s.thr.own d], src := src, psrc := [p], xsrc := xsrc } d p a c e off s = .next t ∧
      s.vectorDone t id :=
  issueVl_nothing _ s _ hfit (Thread.argsOk_of (decide_eq_true (ewBits_eq e ▸ hw)) (List.forall_mem_singleton.2 (Thread.own_ok hd)) hsrc
    (by simp) (List.forall_mem_singleton.2 hp)) hvl

/-- A vector store of elements whose operands are legal and declared. -/
theorem vStoreOp_nothing (w : BitVec 32) (cap : Nat) (v p a : Reg) (src : List VOp) (xsrc : List Reg) (c : BitVec 2) (e : ElemWidth)
    (distinct : Bool) (off : Thread → Nat → Word) (s : State) (hfit : s.vectorFit [cap]) (hvl : s.thr.vl = 0)
    (hsrc : ∀ o ∈ src, s.thr.opOk o) (hp : s.thr.predOk p) (hw : 8 * elemBytes e ≤ s.thr.sew) :
    ∃ t, vStoreOp { word := w, caps := [cap], src := src, psrc := [p], xsrc := xsrc } v p a c e distinct off s = .next t ∧
      s.vectorDone t id :=
  issueVl_nothing _ s _ hfit (Thread.argsOk_of (decide_eq_true (ewBits_eq e ▸ hw)) (by simp) hsrc (by simp)
    (List.forall_mem_singleton.2 hp)) hvl

/-- The rows of vector loads and stores (R149, R152). -/
theorem memoryRows_nothing {s : State} {d a b p : Reg} {c : BitVec 2} {e : ElemWidth} (hvl : s.thr.vl = 0) (hd : s.thr.groupOk d)
    (hp : s.thr.predOk p) (hw : 8 * elemBytes e ≤ s.thr.sew) : ∀ r ∈ vectorLoadRows ++ vectorStoreRows, s.vectorFit [r.cap] →
      (r.indexed = true → s.thr.secondOk b) → ∃ t, exec (r.make d a b p c e) s = .next t ∧ s.vectorDone t id := by
  have data : ∀ o ∈ [s.thr.own d], s.thr.opOk o := List.forall_mem_singleton.2 (Thread.own_ok hd)
  have indexed : s.thr.secondOk b → ∀ o ∈ [s.thr.own d, s.thr.second b], s.thr.opOk o := fun hb =>
    List.forall_mem_cons.2 ⟨Thread.own_ok hd, List.forall_mem_singleton.2 hb⟩
  refine List.forall_mem_append.2 ⟨?loads, ?stores⟩
  case loads =>
    simp only [vectorLoadRows, List.forall_mem_cons, List.not_mem_nil, false_imp_iff, implies_true, and_true]
    exact ⟨fun hfit _ => vLoadOp_nothing (wordVld d a p c e) 3 d p a [] [a] c e (fun _ => unitOff e) s
        hfit hvl hd (by simp) hp hw,
      fun hfit _ => vLoadOp_nothing (wordVlds d a b p c e) 24 d p a [] [a, b] c e (fun t => strideOff (t.xr b)) s
        hfit hvl hd (by simp) hp hw,
      fun hfit hb => vLoadOp_nothing (wordVldx d a b p c e) 24 d p a [s.thr.second b] [a] c e (fun t => indexOff t b) s
        hfit hvl hd (List.forall_mem_singleton.2 (hb trivial)) hp hw⟩
  case stores =>
    simp only [vectorStoreRows, List.forall_mem_cons, List.not_mem_nil, false_imp_iff, implies_true, and_true]
    exact ⟨fun hfit _ => vStoreOp_nothing (wordVst d a p c e) 3 d p a [s.thr.own d] [a] c e true (fun _ => unitOff e) s
        hfit hvl data hp hw,
      fun hfit _ => vStoreOp_nothing (wordVsts d a b p c e) 24 d p a [s.thr.own d] [a, b] c e false (fun t => strideOff (t.xr b)) s
        hfit hvl data hp hw,
      fun hfit hb => vStoreOp_nothing (wordVstx d a b p c e) 24 d p a [s.thr.own d, s.thr.second b] [a] c e false (fun t => indexOff t b) s
        hfit hvl (indexed (hb trivial)) hp hw⟩

theorem vldff_nothing {s : State} {d a p : Reg} {c : BitVec 2} {e : ElemWidth} (hfit : s.vectorFit [3]) (hvl : s.thr.vl = 0)
    (hd : s.thr.groupOk d) (hp : s.thr.predOk p) (hw : 8 * elemBytes e ≤ s.thr.sew) :
    ∃ t, exec (.vldff d a p c e) s = .next t ∧ s.vectorDone t id := by
  have args : s.thr.argsOk { word := wordVldff d a p c e, legal := decide (ewBits e ≤ s.thr.sew), caps := [3], dst := [s.thr.own d],
                             psrc := [p], xsrc := [a] } :=
    Thread.argsOk_of (decide_eq_true (ewBits_eq e ▸ hw)) (List.forall_mem_singleton.2 (Thread.own_ok hd)) (by simp) (by simp)
      (List.forall_mem_singleton.2 hp)
  show ∃ t, execVldff d a p c e s = .next t ∧ s.vectorDone t id
  exact issueVl_nothing _ s _ hfit args hvl

theorem vldq_nothing {s : State} {d q p : Reg} {e : ElemWidth} {x : StreamBind} (hfit : s.vectorFit [3]) (hvl : s.thr.vl = 0)
    (hd : s.thr.groupOk d) (hp : s.thr.predOk p) (hw : 8 * elemBytes e ≤ s.thr.sew) (huser : s.thr.supervisor = false)
    (hq : q.toNat < 8) (hx : Assoc.get? s.thr.binds q.toNat = some x) (hb : x.bytes = elemBytes e) :
    ∃ t, exec (.vldq d q p e) s = .next t ∧ s.vectorDone t id := by
  have args : s.thr.argsOk
      { word := wordVldq d q p e,
        legal := !s.thr.supervisor && isStream q &&
          (match s.thr.bind? q with | some b => decide (b.bytes = ewBytes e) | none => false) && decide (ewBits e ≤ s.thr.sew),
        caps := [3], dst := [s.thr.own d], psrc := [p] } := by
    refine Thread.argsOk_of ?_ (List.forall_mem_singleton.2 (Thread.own_ok hd)) (by simp) (by simp) (List.forall_mem_singleton.2 hp)
    simp [huser, isStream, hq, Thread.bind?, hx, hb, ewBytes_eq, ewBits_eq, hw]
  show ∃ t, execVldq d q p e s = .next t ∧ s.vectorDone t id
  exact issueVl_nothing _ s _ hfit args hvl

/-- The registers of the fields of a segment instruction are groups of the thread (R153). -/
theorem Thread.segRegs_ok {t : Thread} {d n : Reg} (h : segmentOk t d n) : ∀ o ∈ t.segRegs d n, t.opOk o := by
  obtain ⟨-, -, base, last, declared⟩ := h
  simp only [Thread.segRegs, segCount, List.forall_mem_map, List.mem_range]
  intro f hf
  have field : f * t.grp + t.grp ≤ (n.toNat + 1) * t.grp := by rw [← Nat.succ_mul]; exact Nat.mul_le_mul_right _ hf
  have legal : ({ t.own d with base := d.toNat + f * t.grp } : VOp).legal = true :=
    decide_eq_true ⟨by rw [show (t.own d).align = t.grp from rfl, Nat.add_mul_mod_self_right]; exact base,
      show d.toNat + f * t.grp + t.grp ≤ 32 by omega⟩
  exact ⟨legal, show d.toNat + f * t.grp + t.grp ≤ t.hdr.vregs by omega⟩

theorem vlseg_nothing {s : State} {d a n p : Reg} {c : BitVec 2} {e : ElemWidth} (hfit : s.vectorFit [3]) (hvl : s.thr.vl = 0)
    (hn : segmentOk s.thr d n) (hp : s.thr.predOk p) (hw : 8 * elemBytes e ≤ s.thr.sew) :
    (∃ t, exec (.vlseg d a n p c e) s = .next t ∧ s.vectorDone t id) ∧ ∃ t, exec (.vsseg d a n p c e) s = .next t ∧ s.vectorDone t id := by
  have legal : (isSegCount n && decide (ewBits e ≤ s.thr.sew)) = true := by
    obtain ⟨some, most, -⟩ := hn
    have count : 0 < n.toNat ∧ n.toNat < 8 := ⟨some, by omega⟩
    simp [isSegCount, count, ewBits_eq, hw]
  have load : s.thr.argsOk { word := wordVlseg d a n p c e, legal := isSegCount n && decide (ewBits e ≤ s.thr.sew), caps := [3],
                             dst := s.thr.segRegs d n, psrc := [p], xsrc := [a] } :=
    Thread.argsOk_of legal (Thread.segRegs_ok hn) (by simp) (by simp) (List.forall_mem_singleton.2 hp)
  have store : s.thr.argsOk { word := wordVsseg d a n p c e, legal := isSegCount n && decide (ewBits e ≤ s.thr.sew), caps := [3],
                              src := s.thr.segRegs d n, psrc := [p], xsrc := [a] } :=
    Thread.argsOk_of legal (by simp) (Thread.segRegs_ok hn) (by simp) (List.forall_mem_singleton.2 hp)
  refine ⟨?load, ?store⟩
  case load =>
    show ∃ t, execVlseg d a n p c e s = .next t ∧ s.vectorDone t id
    exact issueVl_nothing _ s _ hfit load hvl
  case store =>
    show ∃ t, execVsseg d a n p c e s = .next t ∧ s.vectorDone t id
    exact issueVl_nothing _ s _ hfit store hvl

theorem vlsegmx_nothing {s : State} {d a p : Reg} {f : MxFmt} {c : BitVec 2} (hfit : s.vectorFit [3]) (hok : s.thr.vectorOk)
    (hvl : s.thr.vl = 0) (hp : s.thr.predOk p) (h8 : s.thr.sew = 8) (hlast : d.toNat + 2 ≤ 32) (hdecl : d.toNat + 2 ≤ s.thr.hdr.vregs) :
    (∃ t, exec (.vlsegmx d a f p c) s = .next t ∧ s.vectorDone t id) ∧
      ∃ t, exec (.vssegmx d a f p c) s = .next t ∧ s.vectorDone t id := by
  have single := Thread.grp_of_sew8 hok h8
  have elems : s.thr.opOk (s.thr.own d) := Thread.own_ok ⟨by rw [single, Nat.mod_one], by omega, by omega⟩
  have legal : s.thr.mxLegal d = true := decide_eq_true ⟨h8, by rw [hvl], by omega⟩
  have load : s.thr.argsOk { word := wordVlsegmx d a f p c, legal := s.thr.mxLegal d, caps := [3],
                             dst := [s.thr.own d, one (d.toNat + 1)], psrc := [p], xsrc := [a] } :=
    Thread.argsOk_of legal (List.forall_mem_cons.2 ⟨elems, List.forall_mem_singleton.2 (Thread.one_ok hlast hdecl)⟩) (by simp) (by simp)
      (List.forall_mem_singleton.2 hp)
  have store : s.thr.argsOk
      { word := wordVssegmx d a f p c, legal := s.thr.mxLegal d, caps := [3], psrc := [p], xsrc := [a],
        src := [(s.thr.own d).reading ((s.thr.mxSegs p).flatMap fun j => (List.range 32).map fun k => 32 * j + k),
                oneOf (d.toNat + 1) 8 (s.thr.mxSegs p)] } :=
    Thread.argsOk_of legal (by simp) (List.forall_mem_cons.2 ⟨Thread.reading_ok _ elems,
      List.forall_mem_singleton.2 (Thread.oneOf_ok _ _ hlast hdecl)⟩) (by simp) (List.forall_mem_singleton.2 hp)
  refine ⟨?load, ?store⟩
  case load =>
    show ∃ t, execVlsegmx d a f p c s = .next t ∧ s.vectorDone t id
    exact issueVl_nothing _ s _ hfit load hvl
  case store =>
    show ∃ t, execVssegmx d a f p c s = .next t ∧ s.vectorDone t id
    exact issueVl_nothing _ s _ hfit store hvl

theorem pld_nothing {s : State} {d a : Reg} (hfit : s.vectorFit [3]) (hvl : s.thr.vl = 0) (hd : s.thr.predDestOk d) :
    ∃ t, exec (.pld d a) s = .next t ∧ s.vectorDone t id := by
  have args : s.thr.argsOk { word := wordPld d a, caps := [3], pdst := [d], xsrc := [a] } :=
    Thread.argsOk_of rfl (by simp) (by simp) (List.forall_mem_singleton.2 hd) (by simp)
  show ∃ t, execPld d a s = .next t ∧ s.vectorDone t id
  exact issueVl_nothing _ s _ hfit args hvl

theorem pst_nothing {s : State} {d a : Reg} (hfit : s.vectorFit [3]) (hvl : s.thr.vl = 0) (hd : s.thr.predOk d) :
    ∃ t, exec (.pst d a) s = .next t ∧ s.vectorDone t id := by
  have args : s.thr.argsOk { word := wordPst d a, caps := [3], psrc := [d], xsrc := [a] } :=
    Thread.argsOk_of rfl (by simp) (by simp) (by simp) (List.forall_mem_singleton.2 hd)
  show ∃ t, execPst d a s = .next t ∧ s.vectorDone t id
  exact issueVl_nothing _ s _ hfit args hvl

/-! ### Atomics and churn windows -/

theorem vamo_nothing {s : State} {d a b p : Reg} {o : VAmoOp} {u q l : Bool} (hfit : s.vectorFit [22]) (hvl : s.thr.vl = 0)
    (hw : 32 ≤ s.thr.sew) (hw2 : s.thr.sew2 = 64) (ha : s.thr.secondOk a) (hb : s.thr.groupOk b) (hp : s.thr.predOk p)
    (hu : u = true → o = .min ∨ o = .max) (hd : s.thr.groupOk d) : ∃ t, exec (.vamo d a b p o q l u) s = .next t ∧ s.vectorDone t id := by
  have legal : (atomUnsigned o u && s.thr.atomLegal) = true := by
    have width : s.thr.atomLegal = true := decide_eq_true ⟨hw, hw2⟩
    have sign : atomUnsigned o u = true := by
      cases u
      · cases o <;> rfl
      · obtain rfl | rfl := hu rfl <;> rfl
    rw [sign, width]; rfl
  have args : s.thr.argsOk { word := wordVamo d a b p o q l u, legal := atomUnsigned o u && s.thr.atomLegal, caps := [22],
                             dst := [s.thr.own d], src := [s.thr.second a, s.thr.own b], psrc := [p] } :=
    Thread.argsOk_of legal (List.forall_mem_singleton.2 (Thread.own_ok hd))
      (List.forall_mem_cons.2 ⟨ha, List.forall_mem_singleton.2 (Thread.own_ok hb)⟩) (by simp) (List.forall_mem_singleton.2 hp)
  show ∃ t, execVamo d a b p o q l u s = .next t ∧ s.vectorDone t id
  exact issueVl_nothing _ s _ hfit args hvl

theorem vwait_nothing {s : State} {a b p : Reg} {c : WaitCond} (hfit : s.vectorFit [22]) (hvl : s.thr.vl = 0)
    (hw : 32 ≤ s.thr.sew) (hw2 : s.thr.sew2 = 64) (ha : s.thr.secondOk a) (hb : s.thr.groupOk b) (hp : s.thr.predOk p) :
    ∃ t, exec (.vwait a b p c) s = .next t ∧ s.vectorDone t id := by
  have args : s.thr.argsOk { word := wordVwait a b p c, legal := s.thr.atomLegal, caps := [22],
                             src := [s.thr.second a, s.thr.own b], psrc := [p] } :=
    Thread.argsOk_of (decide_eq_true ⟨hw, hw2⟩) (by simp)
      (List.forall_mem_cons.2 ⟨ha, List.forall_mem_singleton.2 (Thread.own_ok hb)⟩) (by simp) (List.forall_mem_singleton.2 hp)
  show ∃ t, execVwait a b p c s = .next t ∧ s.vectorDone t id
  exact issueVl_nothing _ s _ hfit args hvl

theorem Thread.actives_of_vl_zero {t : Thread} (h : t.vl = 0) (p : Reg) : t.actives p = [] := by
  simp [Thread.actives, h]

/-- An update of the open window with VL = 0 folds nothing (R170). -/
theorem churnUpdate_nothing (w : BitVec 32) {op : ChOp} {a b p : Reg} {s : State} {x : ChurnWin} (hfit : s.vectorFit [23])
    (hvl : s.thr.vl = 0) (ha : s.thr.secondOk a) (hb : s.thr.groupOk b) (hp : s.thr.predOk p) (hx : s.thr.window = some x)
    (hop : x.op = op) (hbits : x.bits = s.thr.sew) : ∃ t, churnUpdate w op a b p s = .next t ∧ s.vectorDone t id := by
  have args : s.thr.argsOk { word := w, caps := [23], src := [s.thr.second a, s.thr.own b], psrc := [p] } :=
    Thread.argsOk_of rfl (by simp) (List.forall_mem_cons.2 ⟨ha, List.forall_mem_singleton.2 (Thread.own_ok hb)⟩) (by simp)
      (List.forall_mem_singleton.2 hp)
  unfold churnUpdate
  refine ⟨_, issueVector_done _ s s _ hfit args.1 args.2 ?_ rfl, s.vectorDone_of id rfl rfl rfl rfl⟩
  have same : ({ s.thr with window := some x, fcsr := fcsrRaise s.thr.fcsr 0 } : Thread) = s.thr := by rw [fcsrRaise_zero, ← hx]
  simp only [hx, Thread.actives_of_vl_zero hvl, List.find?_nil, Thread.updates]
  rw [decide_eq_true (⟨hop, hbits⟩ : x.op = op ∧ x.bits = s.thr.sew)]
  show Except.ok (s.mapThr fun t => { t with window := some x, fcsr := fcsrRaise t.fcsr 0 }) = Except.ok s
  rw [State.mapThr, same]

theorem churnTable_nothing {s : State} {a b p : Reg} (hfit : s.vectorFit [23]) (hvl : s.thr.vl = 0) (ha : s.thr.secondOk a)
    (hb : s.thr.groupOk b) (hp : s.thr.predOk p) : ∀ x ∈ churnTable, ∀ w, s.thr.window = some w → w.op = x.2 → w.bits = s.thr.sew →
      ∃ t, exec (x.1 a b p) s = .next t ∧ s.vectorDone t id := by
  simp only [churnTable, List.forall_mem_cons, List.not_mem_nil, false_imp_iff, implies_true, and_true]
  exact ⟨fun w hw ho hb' => churnUpdate_nothing (wordVchadd a b p) hfit hvl ha hb hp hw ho hb',
    fun w hw ho hb' => churnUpdate_nothing (wordVchmin a b p) hfit hvl ha hb hp hw ho hb',
    fun w hw ho hb' => churnUpdate_nothing (wordVchmax a b p) hfit hvl ha hb hp hw ho hb',
    fun w hw ho hb' => churnUpdate_nothing (wordVchfadd a b p) hfit hvl ha hb hp hw ho hb'⟩

/-! ### Micro-steps (R223) -/

theorem State.vectorFit.mono {s : State} {l m : List Nat} (h : s.vectorFit m) (hl : l ⊆ m) : s.vectorFit l :=
  ⟨⟨fun c hc => h.1.1 c (hl hc), h.1.2⟩, h.2⟩

/-- A micro-step before the last one leaves its temporary to the next and nothing else. -/
theorem microOp_step {A : VArgs} {steps : List (Nat × (Thread → List Nat → List Nat))} {fin : Thread → List Nat → Thread} {s : State}
    {cap : Nat} {f : Thread → List Nat → List Nat} (hstep : steps[s.thr.microStep]? = some (cap, f)) (hcap : cap ∈ [3, 4])
    (hfit : s.vectorFit [3, 4]) (hargs : s.thr.argsOk A) :
    microOp A steps fin s = .next (atMicro s ⟨A.word, s.thr.microStep + 1, f s.thr s.thr.microTemp⟩) := by
  have isOpen : s.thr.vectorOpen = true := by rcases hfit.2.2 with h | h <;> simp [Thread.vectorOpen, h]
  have room : s.thr.vectorRoom = true := decide_eq_true hfit.2.1
  have caps : (cap :: if s.thr.microStep = 0 then [3, 4] else []) ⊆ [3, 4] :=
    List.cons_subset.2 ⟨hcap, by split <;> simp⟩
  have legal : (s.thr.vreq { A with caps := cap :: if s.thr.microStep = 0 then [3, 4] else [] }).legal = true := hargs.1
  have passes := State.check_ok s
    { s.thr.vreq { A with caps := cap :: if s.thr.microStep = 0 then [3, 4] else [] } with
      legal := (s.thr.vreq { A with caps := cap :: if s.thr.microStep = 0 then [3, 4] else [] }).legal && s.thr.vectorOpen }
    (hfit.mono caps).1 (by rw [legal, isOpen]; rfl) hargs.2
  simp only [microOp, hstep, room, Bool.not_true, Bool.false_eq_true, if_false]
  rw [passes]
  rfl

/-- The last one is an instruction that VL governs. -/
theorem microOp_last {A : VArgs} {steps : List (Nat × (Thread → List Nat → List Nat))} {fin : Thread → List Nat → Thread} {s : State}
    {m : Micro} (hstep : steps[m.step]? = none) (hfit : s.vectorFit [3, 4]) (hargs : s.thr.argsOk A) (hvl : s.thr.vl = 0) :
    ∃ t, microOp A steps fin (atMicro s m) = .next t ∧ s.vectorDone t id := by
  obtain ⟨t, ht, hdone⟩ := issueVl_nothing { A with caps := [3] } (atMicro s m)
    (fun s => .ok (s.mapThr fun t => fin t t.microTemp)) (hfit.mono (by simp)) hargs hvl
  have last : steps[(atMicro s m).thr.microStep]? = none := hstep
  refine ⟨t, ?_, hdone⟩
  simp only [microOp, last]
  exact ht

theorem microOp_two {A : VArgs} {cap : Nat} {f : Thread → List Nat → List Nat} {fin : Thread → List Nat → Thread} {s : State}
    (hcap : cap ∈ [3, 4]) (hfit : s.vectorFit [3, 4]) (hargs : s.thr.argsOk A) (hvl : s.thr.vl = 0) (hm : s.thr.micro = none) :
    ∃ m t, microOp A [(cap, f)] fin s = .next (atMicro s m) ∧ microOp A [(cap, f)] fin (atMicro s m) = .next t ∧ s.vectorDone t id := by
  have start : s.thr.microStep = 0 := by rw [Thread.microStep, hm]
  have first := microOp_step (A := A) (steps := [(cap, f)]) (fin := fin) (f := f) (by rw [start]; rfl) hcap hfit hargs
  rw [start] at first
  obtain ⟨t, ht, hdone⟩ := microOp_last (steps := [(cap, f)]) (fin := fin) (m := ⟨A.word, 1, f s.thr s.thr.microTemp⟩) rfl hfit hargs hvl
  exact ⟨_, t, first, ht, hdone⟩

theorem microOp_three {A : VArgs} {cap cap' : Nat} {f g : Thread → List Nat → List Nat} {fin : Thread → List Nat → Thread} {s : State}
    (hcap : cap ∈ [3, 4]) (hcap' : cap' ∈ [3, 4]) (hfit : s.vectorFit [3, 4]) (hargs : s.thr.argsOk A) (hvl : s.thr.vl = 0)
    (hm : s.thr.micro = none) : ∃ m n t, microOp A [(cap, f), (cap', g)] fin s = .next (atMicro s m) ∧
      microOp A [(cap, f), (cap', g)] fin (atMicro s m) = .next (atMicro s n) ∧
      microOp A [(cap, f), (cap', g)] fin (atMicro s n) = .next t ∧ s.vectorDone t id := by
  have start : s.thr.microStep = 0 := by rw [Thread.microStep, hm]
  have first := microOp_step (A := A) (steps := [(cap, f), (cap', g)]) (fin := fin) (f := f) (by rw [start]; rfl) hcap hfit hargs
  rw [start] at first
  let m : Micro := ⟨A.word, 1, f s.thr s.thr.microTemp⟩
  have second := microOp_step (A := A) (steps := [(cap, f), (cap', g)]) (fin := fin) (f := g) (s := atMicro s m) rfl hcap' hfit hargs
  obtain ⟨t, ht, hdone⟩ := microOp_last (steps := [(cap, f), (cap', g)]) (fin := fin)
    (m := ⟨A.word, 2, g (atMicro s m).thr m.temp⟩) rfl hfit hargs hvl
  exact ⟨m, _, t, first, second, ht, hdone⟩

theorem dvdot_nothing {s : State} {d a b : Reg} (hfit : s.vectorFit [3, 4]) (hvl : s.thr.vl = 0) (hm : s.thr.micro = none)
    (ha : s.thr.groupOk a) (hb : s.thr.groupOk b) : ∃ m n t, exec (.dvdot d a b) s = .next (atMicro s m) ∧
      exec (.dvdot d a b) (atMicro s m) = .next (atMicro s n) ∧ exec (.dvdot d a b) (atMicro s n) = .next t ∧ s.vectorDone t id := by
  have args : s.thr.argsOk { word := wordDvdot d a b, caps := [], src := [s.thr.own a, s.thr.own b] } :=
    Thread.argsOk_of rfl (by simp) (List.forall_mem_cons.2 ⟨Thread.own_ok ha, List.forall_mem_singleton.2 (Thread.own_ok hb)⟩)
      (by simp) (by simp)
  show ∃ m n t, execDvdot d a b s = .next (atMicro s m) ∧ execDvdot d a b (atMicro s m) = .next (atMicro s n) ∧
    execDvdot d a b (atMicro s n) = .next t ∧ s.vectorDone t id
  unfold execDvdot
  exact microOp_three (cap := 4) (cap' := 3) (f := fun t _ => t.microProducts a b) (g := fun t l => t.microSum l) (by decide) (by decide)
    hfit args hvl hm

theorem dvsum_nothing {s : State} {d a : Reg} (hfit : s.vectorFit [3, 4]) (hvl : s.thr.vl = 0) (hm : s.thr.micro = none)
    (ha : s.thr.groupOk a) : ∃ m t, exec (.dvsum d a) s = .next (atMicro s m) ∧ exec (.dvsum d a) (atMicro s m) = .next t ∧
      s.vectorDone t id := by
  have args : s.thr.argsOk { word := wordDvsum d a, caps := [], src := [s.thr.own a] } :=
    Thread.argsOk_of rfl (by simp) (List.forall_mem_singleton.2 (Thread.own_ok ha)) (by simp) (by simp)
  show ∃ m t, execDvsum d a s = .next (atMicro s m) ∧ execDvsum d a (atMicro s m) = .next t ∧ s.vectorDone t id
  unfold execDvsum
  exact microOp_two (cap := 3) (f := fun t _ => t.microSum ((List.range t.vl).map fun i => t.elem a.toNat i t.sew)) (by decide)
    hfit args hvl hm

theorem dvperm_nothing {s : State} {d a b : Reg} (hfit : s.vectorFit [3, 4]) (hvl : s.thr.vl = 0) (hm : s.thr.micro = none)
    (ha : s.thr.groupOk a) (hb : s.thr.groupOk b) (hd : s.thr.groupOk d) : ∃ m t, exec (.dvperm d a b) s = .next (atMicro s m) ∧
      exec (.dvperm d a b) (atMicro s m) = .next t ∧ s.vectorDone t id := by
  have args : s.thr.argsOk
      { word := wordDvperm d a b, caps := [], dst := [s.thr.own d],
        src := [(s.thr.own a).reading ((List.range s.thr.vl).map fun i => s.thr.elem b.toNat i s.thr.sew), s.thr.own b] } :=
    Thread.argsOk_of rfl (List.forall_mem_singleton.2 (Thread.own_ok hd))
      (List.forall_mem_cons.2 ⟨Thread.reading_ok _ (Thread.own_ok ha), List.forall_mem_singleton.2 (Thread.own_ok hb)⟩)
      (by simp) (by simp)
  show ∃ m t, execDvperm d a b s = .next (atMicro s m) ∧ execDvperm d a b (atMicro s m) = .next t ∧ s.vectorDone t id
  unfold execDvperm
  exact microOp_two (cap := 3) (f := fun t _ => t.microGather a b) (by decide) hfit args hvl hm

/-- Settles O21: every instruction of these families passes the checks of R80, and with VL = 0 its body does not run. -/
theorem vlZeroExecutesNothing : Obligations.VlZeroExecutesNothing := by
  refine ⟨fun e he s d a b p hfit hok hvl hd hp hrow => (elementRows_run e he).nothing s d a b p hfit hok hvl hd hp hrow,
    fun e he s d a b p hfit _ hvl hd hp hrow =>
      (List.forall_mem_append.2 ⟨compareRows_run, predicateRows_run⟩ e he).nothing s d a b p hfit hvl hd hp hrow,
    fun s d a b p hfit hvl ha hp => ⟨fun hd => ⟨mergeTable_nothing hfit hvl hd ha hp, ?vcompress, ?vexpand⟩, ?integer⟩,
    fun s d a p hfit hvl ha hp => ⟨?pfirst, ?pcount⟩,
    fun f s d a p hfit hvl hd hp h8 h2 ha hlast hdecl => ?vmxcvt,
    fun s d a k p hfit hvl hd hp ha h2 hk => ?vslice,
    fun s d a b p hfit hvl h8 hd hb ha hp => ⟨?ordered, ?tree⟩,
    fun s d a b p c e hok hvl hp => ⟨fun hd hw => ⟨memoryRows_nothing hvl hd hp hw, fun hfit => ⟨vldff_nothing hfit hvl hd hp hw,
        fun q x => vldq_nothing hfit hvl hd hp hw, fun n hn => vlseg_nothing hfit hvl hn hp hw⟩⟩,
      fun hfit h8 hlast hdecl f => vlsegmx_nothing hfit hok hvl hp h8 hlast hdecl,
      fun hfit => ⟨pld_nothing hfit hvl, pst_nothing hfit hvl⟩,
      fun hfit hw hw2 ha hb => ⟨fun o u q l hu hd => vamo_nothing hfit hvl hw hw2 ha hb hp hu hd,
        fun w => vwait_nothing hfit hvl hw hw2 ha hb hp⟩,
      fun hfit ha hb => churnTable_nothing hfit hvl ha hb hp⟩,
    fun s d a b hfit hvl ha hm => ⟨dvdot_nothing hfit hvl hm ha, dvsum_nothing hfit hvl hm ha, dvperm_nothing hfit hvl hm ha⟩⟩
  case vcompress =>
    show ∃ t, execVcompress d a p s = .next t ∧ s.vectorDone t id
    unfold execVcompress permOp
    exact issueVl_nothing _ s _ hfit (vcompressArgs_ok hd ha hp) hvl
  case vexpand =>
    show ∃ t, execVexpand d a p s = .next t ∧ s.vectorDone t id
    unfold execVexpand permOp
    exact issueVl_nothing _ s _ hfit (vexpandArgs_ok hd ha hp) hvl
  case integer =>
    intro hd hb e he
    obtain ⟨f, hexec, -⟩ := integerReductions_run e he
    obtain ⟨w, hw⟩ := hexec d a b p s
    rw [hw]
    exact redOp_nothing w _ hfit rfl hvl hd hb ha hp
  case pfirst =>
    show ∃ t, execPfirst d a p s = .next t ∧ s.vectorDone t id
    unfold execPfirst pToX
    exact issueVl_nothing _ s _ hfit (pToXArgs_ok (wordPfirst d a p) ha hp) hvl
  case pcount =>
    show ∃ t, execPcount d a p s = .next t ∧ s.vectorDone t id
    unfold execPcount pToX
    exact issueVl_nothing _ s _ hfit (pToXArgs_ok (wordPcount d a p) ha hp) hvl
  case vmxcvt =>
    show ∃ t, execVmxcvt d a true f p s = .next t ∧ s.vectorDone t id
    unfold execVmxcvt
    exact issueVl_nothing _ s _ hfit (toMxArgs_ok hd hp h8 h2 ha hlast hdecl) hvl
  case vslice =>
    show ∃ t, execVslice d a k p s = .next t ∧ s.vectorDone t id
    unfold execVslice
    exact issueVl_nothing _ s _ hfit (vsliceArgs_ok hd hp ha h2 hk) hvl
  case ordered =>
    intro e he
    obtain ⟨w, hw⟩ := orderedReductions_run e he d a b p s
    rw [hw]
    exact redOp_nothing w _ hfit (by simpa using h8) hvl hd hb ha hp
  case tree =>
    show ∃ t, execVfredsum d a b p s = .next t ∧ s.vectorDone t id
    unfold execVfredsum redOp
    exact issueVl_nothing _ s _ hfit (redArgs_ok (wordVfredsum d a b p) 11 (decide_eq_true h8) hd hb ha hp) hvl

end Sys2Proof.Machine
end

section
/-! Vector stores (R147 to R149, R152): the checks of the elements, the choice among elements at one place, and what the thread sees
once they have been issued. -/

namespace Sys2Proof.Machine
open Sys2Proof.Statements

/-! ### What the thread sees of stores of several pieces -/

theorem foldl_putCells (units : List (List Host.Cell)) (m : Memory) :
    units.foldl (fun m u => m.putCells u) m = m.putCells units.flatten := by
  induction units generalizing m with
  | nil => rfl
  | cons u us ih => rw [List.foldl_cons, ih, List.flatten_cons, Memory.putCells_append]

/-- Units or one store of all their bytes: the thread sees the same. -/
theorem State.seen_issueUnits (s : State) (units : List (List (Place × Byte))) (c : BitVec 2) (v : Bool) (q : Place) :
    (s.issueUnits units c v).seen q = (s.issueStore units.flatten c v).seen q := by
  have view : (s.issueUnits units c v).thr.view s.mem = (s.issueStore units.flatten c v).thr.view s.mem := by
    rw [State.issueStore_view, List.filterMap_flatten]
    simp only [Thread.view, State.issueUnits, view_addStores, foldl_putCells]
  cases q with
  | device d => exact congrArg (fun m => Memory.byte m d) view
  | localStore d => simp only [State.seen, State.issueStore, State.issueUnits, List.flatten_singleton]
  | csa d => simp only [State.seen, State.issueStore, State.issueUnits, List.flatten_singleton]

theorem State.seen_issueStore_nil (s : State) (c : BitVec 2) (v : Bool) (q : Place) : (s.issueStore [] c v).seen q = s.seen q := by
  cases q with
  | device d => rw [State.seen, State.issueStore_view]; rfl
  | localStore d => rfl
  | csa d => rfl

/-- One store of two lists of bytes is the first and then the second. -/
theorem State.seen_issueStore_append (s : State) (a b : List (Place × Byte)) (c : BitVec 2) (v : Bool) (q : Place) :
    (s.issueStore (a ++ b) c v).seen q = ((s.issueStore a c v).issueStore b c v).seen q := by
  cases q with
  | device d =>
    simp only [State.seen, State.issueStore_view, List.filterMap_append, Memory.putCells_append]
    rfl
  | localStore d => simp only [State.seen, State.issueStore_thr_localStore, List.filterMap_append, Memory.putCells_append]
  | csa d =>
    simp only [State.seen, State.issueStore_thr_csa, State.issueStore_thr_vlen, List.filterMap_append, Memory.putCells_append]

/-- The byte at a place after pieces stored one after another. -/
def Place.afterPieces (vlen : Nat) (q : Place) (cs : List (Place × List Byte)) (b : Byte) : Byte :=
  cs.foldl (fun b c => q.newByte vlen c.1 c.2 b) b

theorem State.seen_issuePieces (s : State) (cs : List (Place × List Byte)) (c : BitVec 2) (v : Bool) (q : Place) :
    (s.issueStore (cs.flatMap fun e => placeCells e.1 0 e.2) c v).seen q = q.afterPieces s.thr.vlen cs (s.seen q) := by
  induction cs generalizing s with
  | nil => exact s.seen_issueStore_nil c v q
  | cons e cs ih =>
    rw [List.flatMap_cons, State.seen_issueStore_append, ih, State.seen_issueStore]
    rfl

theorem State.unitStores_flatten (s : State) (cs : List (Place × List Byte)) :
    (s.unitStores cs).flatten = cs.flatMap fun e => placeCells e.1 0 e.2 := by
  unfold State.unitStores
  split
  · exact List.flatten_singleton
  · rfl

theorem State.seen_issueUnitStores (s : State) (cs : List (Place × List Byte)) (c : BitVec 2) (v : Bool) (q : Place) :
    (s.issueUnits (s.unitStores cs) c v).seen q = q.afterPieces s.thr.vlen cs (s.seen q) := by
  rw [State.seen_issueUnits, State.unitStores_flatten, State.seen_issuePieces]

/-! ### Several pieces at one place -/

/-- True of a place with a byte in a piece. -/
def Place.inPiece (q : Place) (c : Place × List Byte) : Prop := ∃ i, q.above c.1 = some i ∧ i < c.2.length

theorem Place.newByte_inPiece {q : Place} {c : Place × List Byte} (h : q.inPiece c) (vlen : Nat) (b b' : Byte) :
    q.newByte vlen c.1 c.2 b = q.newByte vlen c.1 c.2 b' := by
  obtain ⟨i, hi, hlt⟩ := h
  simp [Place.newByte, hi, List.getElem?_eq_getElem hlt]

theorem Place.newByte_outside {q : Place} {c : Place × List Byte} (h : ¬ q.inPiece c) (vlen : Nat) (b : Byte) :
    q.newByte vlen c.1 c.2 b = b := by
  unfold Place.newByte
  split
  · next i hi =>
    rw [List.getElem?_eq_none (Nat.not_lt.1 fun hlt => h ⟨i, hi, hlt⟩)]
  · rfl

/-- A piece that writes a byte makes what was there before of no account. -/
theorem Place.afterPieces_inPiece {q : Place} {c : Place × List Byte} {cs : List (Place × List Byte)} (hc : c ∈ cs) (h : q.inPiece c)
    (vlen : Nat) (b b' : Byte) : q.afterPieces vlen cs b = q.afterPieces vlen cs b' := by
  induction cs generalizing b b' with
  | nil => cases hc
  | cons e cs ih =>
    simp only [Place.afterPieces, List.foldl_cons]
    rcases List.mem_cons.1 hc with rfl | hc
    · rw [Place.newByte_inPiece h]
    · exact ih hc _ _

/-- Of the pieces at one place the last. -/
def lastPieces : List (Place × List Byte) → List (Place × List Byte)
  | [] => []
  | c :: cs => if cs.any (fun e => decide (e.1 = c.1)) then lastPieces cs else c :: lastPieces cs

theorem lastPieces_subset (cs : List (Place × List Byte)) : ∀ c ∈ lastPieces cs, c ∈ cs := by
  induction cs with
  | nil => exact fun c hc => hc
  | cons e cs ih =>
    intro c hc
    rw [lastPieces] at hc
    split at hc
    · exact List.mem_cons_of_mem _ (ih c hc)
    · rcases List.mem_cons.1 hc with rfl | hc
      · exact List.mem_cons_self
      · exact List.mem_cons_of_mem _ (ih c hc)

theorem lastPieces_covers (cs : List (Place × List Byte)) : ∀ w ∈ cs, ∃ c ∈ lastPieces cs, c.1 = w.1 := by
  induction cs with
  | nil => exact fun w hw => absurd hw (List.not_mem_nil)
  | cons e cs ih =>
    intro w hw
    rw [lastPieces]
    rcases List.mem_cons.1 hw with rfl | hw
    · split
      · next h =>
        obtain ⟨x, hx, he⟩ := List.any_eq_true.1 h
        obtain ⟨c, hc, hcx⟩ := ih x hx
        exact ⟨c, hc, hcx.trans (of_decide_eq_true he)⟩
      · exact ⟨w, List.mem_cons_self, rfl⟩
    · obtain ⟨c, hc, hcw⟩ := ih w hw
      split
      · exact ⟨c, hc, hcw⟩
      · exact ⟨c, List.mem_cons_of_mem _ hc, hcw⟩

theorem lastPieces_nodup (cs : List (Place × List Byte)) : ((lastPieces cs).map Prod.fst).Nodup := by
  induction cs with
  | nil => exact List.nodup_nil
  | cons e cs ih =>
    rw [lastPieces]
    split
    · exact ih
    · next h =>
      rw [List.map_cons, List.nodup_cons]
      refine ⟨fun hmem => h ?_, ih⟩
      obtain ⟨c, hc, hce⟩ := List.mem_map.1 hmem
      exact List.any_eq_true.2 ⟨c, lastPieces_subset cs c hc, decide_eq_true hce⟩

/-- Among pieces of one length the last at each place gives every byte. -/
theorem Place.afterPieces_last (vlen n : Nat) (q : Place) (cs : List (Place × List Byte)) (hn : ∀ c ∈ cs, c.2.length = n) (b : Byte) :
    q.afterPieces vlen (lastPieces cs) b = q.afterPieces vlen cs b := by
  induction cs generalizing b with
  | nil => rfl
  | cons e cs ih =>
    have ih := ih fun c hc => hn c (List.mem_cons_of_mem _ hc)
    have step : q.afterPieces vlen (e :: cs) b = q.afterPieces vlen cs (q.newByte vlen e.1 e.2 b) := rfl
    rw [lastPieces, step]
    split
    · next h =>
      rw [ih b]
      by_cases hin : q.inPiece e
      · obtain ⟨c, hc, he⟩ := List.any_eq_true.1 h
        obtain ⟨i, hi, hlt⟩ := hin
        have again : q.inPiece c := ⟨i, by rw [of_decide_eq_true he, hi], by
          rw [hn c (List.mem_cons_of_mem _ hc), ← hn e List.mem_cons_self]; exact hlt⟩
        exact Place.afterPieces_inPiece hc again vlen b _
      · rw [Place.newByte_outside hin]
    · exact ih _

/-! ### A free choice among the pieces at one place (R152) -/

theorem State.choose_mem {α : Type} (s : State) (a : α) (l : List α) (d : α) : (s.choose (a :: l) d).1 ∈ a :: l := by
  unfold State.choose
  cases l with
  | nil => exact List.mem_cons_self
  | cons b l =>
    have hlt : Config.pick s.freeCtr % (a :: b :: l).length < (a :: b :: l).length := Nat.mod_lt _ (Nat.succ_pos _)
    show (a :: b :: l).getD _ d ∈ _
    rw [List.getD_eq_getElem _ _ hlt]
    exact List.getElem_mem hlt

theorem State.choose_state {α : Type} (s : State) (l : List α) (d : α) :
    ∃ n, (s.choose l d).2 = { s with freeCtr := n } := by
  unfold State.choose
  split
  · exact ⟨_, rfl⟩
  · exact ⟨_, rfl⟩
  · exact ⟨_, rfl⟩

/-- The pieces chosen: one of those at each place not met before. -/
theorem State.pickWrites_spec (s : State) (seen : List Place) (l : List (Place × List Byte)) :
    (∃ n, (s.pickWrites seen l).1 = { s with freeCtr := n }) ∧
    (∀ c ∈ (s.pickWrites seen l).2, c ∈ l ∧ c.1 ∉ seen) ∧
    (∀ w ∈ l, w.1 ∉ seen → ∃ c ∈ (s.pickWrites seen l).2, c.1 = w.1) ∧ ((s.pickWrites seen l).2.map Prod.fst).Nodup := by
  induction l generalizing s seen with
  | nil => exact ⟨⟨_, rfl⟩, fun c hc => absurd hc List.not_mem_nil, fun w hw => absurd hw List.not_mem_nil, List.nodup_nil⟩
  | cons e r ih =>
    obtain ⟨pl, bs⟩ := e
    rw [State.pickWrites]
    split
    · next h =>
      obtain ⟨state, only, all, nodup⟩ := ih s seen
      refine ⟨state, fun c hc => ⟨List.mem_cons_of_mem _ (only c hc).1, (only c hc).2⟩, fun w hw hnew => ?_, nodup⟩
      rcases List.mem_cons.1 hw with rfl | hw
      · exact absurd (List.contains_iff_mem.1 h) hnew
      · exact all w hw hnew
    · next h =>
      have new : pl ∉ seen := fun hm => h (List.contains_iff_mem.2 hm)
      have chosen := s.choose_mem bs ((r.filter fun e => decide (e.1 = pl)).map Prod.snd) bs
      obtain ⟨m, hm⟩ := s.choose_state (bs :: (r.filter fun e => decide (e.1 = pl)).map Prod.snd) bs
      generalize s.choose (bs :: (r.filter fun e => decide (e.1 = pl)).map Prod.snd) bs = x at chosen hm
      obtain ⟨v, s1⟩ := x
      obtain rfl : s1 = { s with freeCtr := m } := hm
      obtain ⟨⟨n, state⟩, only, all, nodup⟩ := ih { s with freeCtr := m } (pl :: seen)
      have member : (pl, v) ∈ (pl, bs) :: r := by
        rcases List.mem_cons.1 chosen with rfl | hv
        · exact List.mem_cons_self
        · obtain ⟨e, he, rfl⟩ := List.mem_map.1 hv
          obtain ⟨her, hep⟩ := List.mem_filter.1 he
          exact List.mem_cons_of_mem _ (by rw [← of_decide_eq_true hep]; exact her)
      refine ⟨⟨n, state⟩, fun c hc => ?_, fun w hw hnew => ?_, ?_⟩
      · rcases List.mem_cons.1 hc with rfl | hc
        · exact ⟨member, new⟩
        · exact ⟨List.mem_cons_of_mem _ (only c hc).1, fun hs => (only c hc).2 (List.mem_cons_of_mem _ hs)⟩
      · by_cases hpl : w.1 = pl
        · exact ⟨(pl, v), List.mem_cons_self, hpl.symm⟩
        · have hw : w ∈ r := (List.mem_cons.1 hw).resolve_left fun he => hpl (by rw [he])
          obtain ⟨c, hc, hcw⟩ := all w hw (by simp [hpl, hnew])
          exact ⟨c, List.mem_cons_of_mem _ hc, hcw⟩
      · rw [List.map_cons, List.nodup_cons]
        refine ⟨fun hmem => ?_, nodup⟩
        obtain ⟨c, hc, hcp⟩ := List.mem_map.1 hmem
        exact (only c hc).2 (by rw [hcp]; exact List.mem_cons_self)

/-! ### Stores issued -/

/-- A store that joins what the thread has issued changes no register, and errors in registers stay where no register holds any. -/
theorem State.issueUnits_fields (s : State) (units : List (List (Place × Byte))) (c : BitVec 2) (v : Bool)
    (hreg : ∀ e ∈ s.badReg, e.1 ≠ s.thr.key) : s.issueUnits units c v =
      { s with badCsa := (s.issueUnits units c v).badCsa
               thr := { s.thr with sq := (s.issueUnits units c v).thr.sq, stores := (s.issueUnits units c v).thr.stores,
                                   localStore := (s.issueUnits units c v).thr.localStore, csa := (s.issueUnits units c v).thr.csa } } := by
  have kept : clearLocal s.badReg s.thr.key (units.flatten.filterMap localCell) = s.badReg :=
    List.filter_eq_self.2 fun e he => by simp [hreg e he]
  simp only [State.issueUnits, kept]

/-- A state after stores: a free choice used up, and what the thread has issued. -/
def State.storesOf (s u : State) : Prop :=
  ∃ (n : Nat) (bad : List (ThreadKey × Nat)) (sq : List PendStore) (stores : Nat) (loc csa : Memory),
    u = { s with freeCtr := n, badCsa := bad, thr := { s.thr with sq := sq, stores := stores, localStore := loc, csa := csa } }

theorem State.storesOf.badReg {s u : State} (h : s.storesOf u) : u.badReg = s.badReg := by
  obtain ⟨n, bad, sq, stores, loc, csa, rfl⟩ := h
  rfl

theorem State.storesOf.supervisor {s u : State} (h : s.storesOf u) : u.thr.supervisor = s.thr.supervisor := by
  obtain ⟨n, bad, sq, stores, loc, csa, rfl⟩ := h
  rfl

/-- Pieces of one length stored by a vector store: one at each place is what the thread reads there then. -/
theorem State.storeUnits_spec (s : State) (c : BitVec 2) (distinct : Bool) (ws : List (Place × List Byte)) (n : Nat)
    (hn : ∀ w ∈ ws, w.2.length = n) (hreg : ∀ e ∈ s.badReg, e.1 ≠ s.thr.key) :
    s.storesOf (s.storeUnits c distinct ws) ∧
      ∃ cs : List (Place × List Byte), (∀ c ∈ cs, c ∈ ws) ∧ (∀ w ∈ ws, ∃ c ∈ cs, c.1 = w.1) ∧ (cs.map Prod.fst).Nodup ∧
        ∀ q, (s.storeUnits c distinct ws).seen q = q.afterPieces s.thr.vlen cs (s.seen q) := by
  unfold State.storeUnits
  split
  · next h =>
    rw [List.isEmpty_iff.1 h]
    exact ⟨⟨_, _, _, _, _, _, rfl⟩, [], by simp, by simp, List.nodup_nil, fun _ => rfl⟩
  · split
    · refine ⟨?_, lastPieces ws, lastPieces_subset ws, lastPieces_covers ws, lastPieces_nodup ws, fun q => ?_⟩
      · exact ⟨_, _, _, _, _, _, State.issueUnits_fields _ _ _ _ hreg⟩
      · rw [State.seen_issueUnitStores, Place.afterPieces_last _ n q ws hn]
    · obtain ⟨⟨m, state⟩, only, all, nodup⟩ := s.pickWrites_spec [] ws
      generalize s.pickWrites [] ws = x at state only all nodup
      obtain ⟨s1, l1⟩ := x
      obtain rfl : s1 = { s with freeCtr := m } := state
      refine ⟨?_, l1, fun c hc => (only c hc).1, fun w hw => all w hw List.not_mem_nil, nodup, fun q => ?_⟩
      · exact ⟨_, _, _, _, _, _, State.issueUnits_fields { s with freeCtr := m } _ _ _ hreg⟩
      · exact State.seen_issueUnitStores _ _ _ _ _

/-! ### The checks of the elements (R148) -/

theorem any_not_of_imp {l : List Nat} {bad near whole : Nat → Bool} (h : l.any (fun g => bad g && !near g) = false)
    (hw : ∀ g, bad g = true → near g = true → whole g = true) : l.any (fun g => bad g && !whole g) = false := by
  rw [List.any_eq_false] at h ⊢
  intro g hg
  have := h g hg
  cases hb : bad g with
  | false => simp
  | true => simp [hw g hb (by simpa [hb] using this)]

theorem granule_covered {f : Nat → Place} {cover : List Place} {o n g : Nat} (hf : ∀ i < n, f (o + i) ∈ cover) (hg : o ≤ g ∧ g + 8 ≤ o + n) :
    ((List.range 8).all fun i => cover.contains (f (g + i))) = true := by
  simp only [List.all_eq_true, List.mem_range, List.contains_iff_mem]
  intro i hi
  have := hf (g + i - o) (by omega)
  rwa [Nat.add_sub_cancel' (by omega)] at this

/-- Data that can be stored: what a unit writes of a granule with an error it writes whole, and so does the store. -/
theorem State.unitBad_of_badStore {s : State} {cover : List Place} {u : VUnit} {pl : Place} (hbad : s.badStore s.thr pl u.n = false)
    (hcover : (s.badMem.isEmpty && s.badReg.isEmpty && s.badCsa.isEmpty) = false → ∀ i < u.n, pl.plus i ∈ cover) :
    s.unitBad true cover u pl = false := by
  cases pl with
  | device d =>
    simp only [State.badStore, State.unitBad] at hbad ⊢
    cases hm : s.badMem.isEmpty with
    | true => simp
    | false =>
      rw [hm] at hbad
      exact any_not_of_imp hbad fun g _ hg => granule_covered (f := Place.device) (hcover (by simp [hm])) (of_decide_eq_true hg)
  | localStore o =>
    simp only [State.badStore, State.unitBad] at hbad ⊢
    refine any_not_of_imp hbad fun g hb hg => granule_covered (f := Place.localStore) (hcover ?_) (of_decide_eq_true hg)
    have some : s.badReg.isEmpty = false := by
      cases he : s.badReg with
      | nil => simp [Thread.badLocal, he] at hb
      | cons => rfl
    simp [some]
  | csa o =>
    simp only [State.badStore, State.unitBad] at hbad ⊢
    refine any_not_of_imp hbad fun g hb hg => granule_covered (f := Place.csa) (hcover ?_) (of_decide_eq_true hg)
    have some : s.badCsa.isEmpty = false := by
      cases he : s.badCsa with
      | nil => simp [State.badSaved, he] at hb
      | cons => rfl
    simp [some]

/-- Units whose data can be stored, with their places. -/
theorem State.checkUnits_store {s : State} {us : List VUnit} {pl : VUnit → Place}
    (hpl : ∀ u ∈ us, s.unitPlace .store u = .ok (pl u)) (hbad : ∀ u ∈ us, s.badStore s.thr (pl u) u.n = false) :
    s.checkUnits .store true us = .ok (us.map fun u => (u, pl u)) := by
  have places : (us.map fun u => (u, s.unitPlace .store u)) = us.map fun u => (u, .ok (pl u)) :=
    List.map_congr_left fun u hu => by rw [hpl u hu]
  unfold State.checkUnits
  rw [places]
  dsimp only
  generalize hcov : (if (true && !(s.badMem.isEmpty && s.badReg.isEmpty && s.badCsa.isEmpty)) = true then
    coveredBytes (us.map fun u => (u, (.ok (pl u) : Except AccessFault Place))) else []) = cover
  have good : ∀ u ∈ us, s.unitBad true cover u (pl u) = false := by
    intro u hu
    refine State.unitBad_of_badStore (hbad u hu) fun some i hi => ?_
    rw [← hcov, some]
    exact List.mem_flatMap.2 ⟨(u, .ok (pl u)), List.mem_map.2 ⟨u, hu, rfl⟩, List.mem_map.2 ⟨i, List.mem_range.2 hi, rfl⟩⟩
  clear hcov places hpl hbad
  induction us with
  | nil => rfl
  | cons u us ih =>
    have ih := ih fun v hv => good v (List.mem_cons_of_mem _ hv)
    rw [List.map_cons, List.foldr_cons, ih]
    simp only [good u List.mem_cons_self, Bool.false_eq_true, if_false, List.map_cons]

/-- No watermark stalls a byte of the ranges (R255). -/
theorem State.passWatermark_all {s : State} {rs : List Range} (h : ∀ r ∈ rs, inWindow r.base = true ∨ s.stalled s.thr r.base r.len = false) :
    s.passWatermark rs = .ok () := by
  unfold State.passWatermark
  rw [if_neg]
  simp only [List.any_eq_true, not_exists, not_and]
  intro r hr
  rcases h r hr with h | h <;> simp [h]

/-- Units that may be stored pass their checks. -/
theorem State.vunits_store {s : State} {us : List VUnit} {pl : VUnit → Place} (halign : ∀ u ∈ us, u.align = u.n)
    (h : ∀ u ∈ us, s.storable u.ea u.n (pl u)) : s.vunits .store true us = .ok (us.map fun u => (u, pl u)) := by
  have places : ∀ u ∈ us, s.unitPlace .store u = .ok (pl u) := fun u hu => by
    obtain ⟨⟨aligned, place, -, -⟩, -⟩ := h u hu
    rw [State.unitPlace, halign u hu, if_neg (not_not.2 aligned), place]
  have clear : s.passWatermark (us.map fun u => ⟨u.ea.toNat, u.n⟩) = .ok () :=
    State.passWatermark_all (List.forall_mem_map.2 fun u hu => (h u hu).1.2.2.2)
  rw [State.vunits, State.checkUnits_store places fun u hu => (h u hu).2]
  simp only [clear]
  rfl

/-! ### Completion -/

/-- What the thread reads once the instruction has retired: BPSKIP is apart (R373). -/
theorem State.seen_of_retired {s t : State} (hmem : t.mem = s.mem) (hthr : t.thr.sq = s.thr.sq ∧ t.thr.localStore = s.thr.localStore ∧
    t.thr.vlen = s.thr.vlen) (hcsa : s.thr.sameCsa t.thr) (q : Place) (hq : q.skip → s.thr.supervisor = true) : t.seen q = s.seen q := by
  refine State.seen_congr hmem hthr.1 hthr.2.1 hthr.2.2 q fun o ho => ?_
  by_cases hs : isSkip o
  · rw [hcsa.2 o hs, if_neg]
    rintro ⟨huser, -⟩
    rw [ho] at hq
    rw [hq hs] at huser
    cases huser
  · exact hcsa.1 o hs

/-- BPSKIP once cleared stays so. -/
theorem Thread.sameCsa_self {t u : Thread} (h : t.sameCsa u) (hsup : u.supervisor = t.supervisor) : u.sameCsa u := by
  refine ⟨fun _ _ => rfl, fun a ha => ?_⟩
  split
  · next hc =>
    have skip : isSkip 0x260 := by unfold isSkip; omega
    rw [h.2 a ha]
    have h0 := h.2 0x260 skip
    rw [h0] at hc
    split
    · rfl
    · next hn =>
      rw [if_neg hn] at hc
      exact absurd ⟨hsup ▸ hc.1, hc.2⟩ hn
  · rfl

/-- A vector store that has completed: its stores are issued, and the rest is as an instruction leaves it. -/
theorem storedOnly_of_retired {s u : State} (h : s.storesOf u) : storedOnly s
    ((u.mapThr fun t => { t with vq := t.vq ++ [(s.thr.pc, 0)] }).mapThr fun t => t.retire true (s.thr.pc + 4)) := by
  obtain ⟨n, bad, sq, stores, loc, csa, rfl⟩ := h
  refine ⟨rfl, ?_, ?_⟩
  · exact Thread.sameCsa_of rfl rfl (Thread.sameCsa_self
      (Thread.retire_sameCsa { s.thr with sq := sq, stores := stores, localStore := loc, csa := csa, vq := s.thr.vq ++ [(s.thr.pc, 0)] }
        true (s.thr.pc + 4)) rfl)
  · simp only [State.mapThr_thr, Thread.retire]
    rfl

theorem State.seen_retire (s : State) (vq : Thread → List (Word × Nat)) (pc : Word) (q : Place) (hq : q.skip → s.thr.supervisor = true) :
    ((s.mapThr fun t => { t with vq := vq t }).mapThr fun t => t.retire true pc).seen q = s.seen q :=
  State.seen_of_retired (s := s) (t := (s.mapThr fun t => { t with vq := vq t }).mapThr fun t => t.retire true pc) rfl ⟨rfl, rfl, rfl⟩
    (Thread.retire_sameCsa { s.thr with vq := vq s.thr } true pc) q hq

/-- An instruction that VL governs, and that stores pieces of one length and does nothing else. -/
theorem issueVl_storeUnits (A : VArgs) (s : State) (body : State → Run State) (c : BitVec 2) (distinct : Bool)
    (ws : List (Place × List Byte)) (n : Nat) (hn : ∀ w ∈ ws, w.2.length = n) (hfit : s.vectorFit A.caps) (hargs : s.thr.argsOk A)
    (hbody : (if s.thr.vl = 0 then .ok s else body s) = .ok (s.storeUnits c distinct ws)) :
    ∃ t, issueVl A s body = .next t ∧ storedOnly s t ∧ scattered s t ws := by
  obtain ⟨fields, cs, only, all, nodup, seen⟩ := s.storeUnits_spec c distinct ws n hn hfit.1.2
  exact ⟨_, issueVector_done _ s _ _ hfit hargs.1 hargs.2 hbody fields.badReg, storedOnly_of_retired fields,
    cs, only, all, nodup, fun q hq => (State.seen_retire _ _ _ q fun hs => fields.supervisor.trans (hq hs)).trans (seen q)⟩

/-- What a vector store of elements does (R147, R152): its active elements may be stored, and are. -/
theorem vStoreOp_done (w : BitVec 32) (cap : Nat) (v p a : Reg) (src : List VOp) (xsrc : List Reg) (c : BitVec 2) (e : ElemWidth)
    (distinct : Bool) (off : Thread → Nat → Word) (s : State) (pl : Nat → Place) (hfit : s.vectorFit [cap])
    (hsrc : ∀ o ∈ src, s.thr.opOk o) (hp : s.thr.predOk p) (hw : 8 * elemBytes e ≤ s.thr.sew)
    (hpl : ∀ i ∈ s.thr.actives p, s.storable (s.thr.xr a + off s.thr i) (elemBytes e) (pl i)) :
    ∃ t, vStoreOp { word := w, caps := [cap], src := src, psrc := [p], xsrc := xsrc } v p a c e distinct off s = .next t ∧
      storedOnly s t ∧ scattered s t ((s.thr.actives p).map fun i => (pl i, bytesOf (elemBytes e) (elemAt s.thr v i))) := by
  have units : s.vunits .store true (s.thr.elemUnits p a e (off s.thr)) =
      .ok ((s.thr.elemUnits p a e (off s.thr)).map fun u => (u, pl u.slot)) :=
    State.vunits_store (pl := fun u => pl u.slot) (List.forall_mem_map.2 fun _ _ => rfl)
      (List.forall_mem_map.2 fun i hi => ewBytes_eq e ▸ hpl i hi)
  refine issueVl_storeUnits _ s _ c distinct _ (elemBytes e) (List.forall_mem_map.2 fun i _ => bytesOf_length _ _) hfit
    (Thread.argsOk_of (decide_eq_true (ewBits_eq e ▸ hw)) (by simp) hsrc (by simp) (List.forall_mem_singleton.2 hp)) ?_
  split
  · next h => simp [Thread.actives_of_vl_zero h, State.storeUnits]
  · simp only [units, bind, Except.bind]
    rw [Thread.elemUnits, List.map_map, List.map_map, ← ewBytes_eq]
    rfl

/-- Settles O23: the three forms of vector stores are one operation, which takes them at its own addresses. -/
theorem vectorStoreResults : Obligations.VectorStoreResults := by
  intro s v a b p c e hok hv hp hw
  have data : ∀ o ∈ [s.thr.own v], s.thr.opOk o := List.forall_mem_singleton.2 (Thread.own_ok hv)
  simp only [vectorStoreRows, List.forall_mem_cons, List.not_mem_nil, false_imp_iff, implies_true, and_true]
  refine ⟨fun pl hfit _ h => ?unit, fun pl hfit _ h => ?strided, fun pl hfit hb h => ?indexed⟩
  case unit =>
    exact vStoreOp_done (wordVst v a p c e) 3 v p a [s.thr.own v] [a] c e true (fun _ => unitOff e) s pl hfit data hp hw
      fun i hi => by rw [unitOff, ewBytes_eq]; exact h i hi
  case strided =>
    exact vStoreOp_done (wordVsts v a b p c e) 24 v p a [s.thr.own v] [a, b] c e false (fun t => strideOff (t.xr b)) s pl hfit data hp hw h
  case indexed =>
    exact vStoreOp_done (wordVstx v a b p c e) 24 v p a [s.thr.own v, s.thr.second b] [a] c e false (fun t => indexOff t b) s pl hfit
      (List.forall_mem_cons.2 ⟨Thread.own_ok hv, List.forall_mem_singleton.2 (hb trivial)⟩) hp hw h

end Sys2Proof.Machine
end

section
/-! A `vamo` beside a request to a peer that is still open. The thread has begun nothing at its PC and no peer has answered there, yet a
request of an instruction at that PC that may change a peer's memory is not answered: `vamo` waits for that answer (R380) before it
performs an element, although all of its own elements lie in the device. -/

namespace Sys2Proof.Machine
open Sys2Proof.Statements Sys2Proof.Tests

/-- Two words at one place to be exchanged, while peer 0 owes the thread the answer to an atomic that it sent from its PC. -/
def owedAnswer : State :=
  { watched0 with requests := [⟨0, .thread watched0.thr.key watched0.thr.pc false 1, 0, 0, some 0, true, 0x8000000000000, 4, bytesOf 4 5,
      0x8000000000000, some ⟨0, 0⟩, []⟩] }

theorem owedAnswer_ready : owedAnswer.vectorFit [22] ∧ owedAnswer.thr.vectorOk ∧ owedAnswer.thr.secondOk 2 ∧ owedAnswer.thr.groupOk 4 ∧
    owedAnswer.thr.groupOk 1 ∧ owedAnswer.thr.predOk 0 := by
  unfold State.vectorFit State.fit Thread.vectorOk Thread.secondOk Thread.groupOk Thread.predOk
  and_intros <;> decide +kernel

theorem owedAnswer_accessible : ∀ i ∈ owedAnswer.thr.actives 0,
    owedAnswer.accessible .atomic (BitVec.ofNat 64 (elem2At owedAnswer.thr 2 i)) (owedAnswer.thr.sew / 8) (.device 0x30000) ∧
      owedAnswer.badData owedAnswer.thr (.device 0x30000) (owedAnswer.thr.sew / 8) = false := by
  have h : ∀ i ∈ owedAnswer.thr.actives 0,
      mayAccess owedAnswer .atomic (BitVec.ofNat 64 (elem2At owedAnswer.thr 2 i)) (owedAnswer.thr.sew / 8) (.device 0x30000) = true ∧
        owedAnswer.badData owedAnswer.thr (.device 0x30000) (owedAnswer.thr.sew / 8) = false := by decide +kernel
  exact fun i hi => ⟨of_mayAccess (h i hi).1, (h i hi).2⟩

theorem owedAnswer_parks : goes owedAnswer (.vamo 1 2 4 0 .swap false false false) = true ∧
    (after owedAnswer (.vamo 1 2 4 0 .swap false false false)).thr.life = .parked (.peer 0) := by decide +kernel

/-- Refutes O25: with the answer of a peer owed to an earlier request from its PC, `vamo` parks instead of performing its elements. -/
theorem not_vectorAtomicResults : ¬ Obligations.VectorAtomicResults := by
  intro holds
  obtain ⟨fits, ok, second, group, dest, pred⟩ := owedAnswer_ready
  obtain ⟨t, m, goes, -, -, -, done⟩ := (holds owedAnswer 1 2 4 0 (fun _ => .device 0x30000) fits ok (by decide +kernel)
    (by decide +kernel) (by decide +kernel) (atStart_of_empty (by decide +kernel)) (by decide +kernel) (by decide +kernel) second group pred
    fun _ o h => Place.noConfusion h).1 .swap false false false (fun h => absurd h Bool.false_ne_true) dest owedAnswer_accessible
  have ready : t.thr.life = .ready := Eq.trans (congrArg Thread.life done.2.2) rfl
  have parked := owedAnswer_parks.2
  simp only [after, stateOf, goes] at parked
  rw [ready] at parked
  cases parked

end Sys2Proof.Machine
end

section
/-! Scalar instructions that wait until every older vector instruction has committed (R236): the machine as their bodies find it, and what
they leave. -/

namespace Sys2Proof.Machine

/-- The machine with no vector instruction of the running thread uncommitted, and these event counts. -/
def State.committed (s : State) (e : Vector Word 8) : State := { s with thr := { s.thr with vq := [], evcnt := e } }

theorem State.committed_setX (s : State) (e : Vector Word 8) (d : Reg) (v : Word) :
    (s.committed e).setX d v = (s.setX d v).committed e := by
  unfold State.setX Thread.setX
  split <;> rfl

theorem State.committed_heldDone (u : State) (e : Vector Word 8) (pc : Word) :
    ((u.committed e).mapThr fun t => t.retire false pc).heldDone u pc :=
  ⟨rfl, Thread.sameCsa_of rfl rfl (Thread.retire_sameCsa (u.committed e).thr false pc)⟩

/-- A held instruction whose body has the effect `u`, whatever the event counts are. -/
theorem issueHeld_done (r : Req) (s u : State) (body : State → Run State) (hfit : s.scalarFit r.caps) (hl : r.legal = true)
    (hd : r.declared = true) (hb : ∀ e, body (s.committed e) = .ok (u.committed e)) (hr : u.badReg = s.badReg) :
    ∃ t, issueHeld r s body = .next t ∧ t.heldDone u (s.thr.pc + 4) :=
  ⟨_, issueHeld_ok r s _ body hfit hl hd (hb s.thr.commitAll.evcnt) hr, u.committed_heldDone _ _⟩

/-! ### What a completed instruction leaves of its effect -/

section
variable {t u : State} {pc : Word} (h : t.heldDone u pc)
include h

theorem State.heldDone.mem : t.mem = u.mem := Eq.trans (congrArg State.mem h.1) rfl
theorem State.heldDone.homes : t.homes = u.homes := Eq.trans (congrArg State.homes h.1) rfl
theorem State.heldDone.badMem : t.badMem = u.badMem := Eq.trans (congrArg State.badMem h.1) rfl
theorem State.heldDone.groups : t.groups = u.groups := Eq.trans (congrArg State.groups h.1) rfl
theorem State.heldDone.x : t.thr.x = u.thr.x := Eq.trans (congrArg (fun s => s.thr.x) h.1) rfl
theorem State.heldDone.sq : t.thr.sq = u.thr.sq := Eq.trans (congrArg (fun s => s.thr.sq) h.1) rfl
theorem State.heldDone.stores : t.thr.stores = u.thr.stores := Eq.trans (congrArg (fun s => s.thr.stores) h.1) rfl
theorem State.heldDone.localStore : t.thr.localStore = u.thr.localStore := Eq.trans (congrArg (fun s => s.thr.localStore) h.1) rfl
theorem State.heldDone.vlen : t.thr.vlen = u.thr.vlen := Eq.trans (congrArg (fun s => s.thr.vlen) h.1) rfl

theorem State.heldDone.xr (k : Reg) : t.xr k = u.xr k := by unfold State.xr Thread.xr; rw [h.x]

theorem State.heldDone.group (o : ThreadKey) (g : Nat) : t.group o g = u.group o g := by unfold State.group; rw [h.groups]

theorem State.heldDone.view : t.thr.view t.mem = u.thr.view u.mem := by unfold Thread.view; rw [h.sq, h.mem]

/-- What the thread reads; BPSKIP is apart (R373). -/
theorem State.heldDone.seen (q : Place) (hq : q.skip → u.thr.supervisor = true) : t.seen q = u.seen q :=
  State.seen_of_retired h.mem ⟨h.sq, h.localStore, h.vlen⟩ h.2 q hq

end

end Sys2Proof.Machine
end

section
/-! Data by key: what a key holds once another has been put or dropped. -/

namespace Sys2Proof.Machine

variable {κ ν : Type} [DecidableEq κ]

theorem Assoc.get?_cons (e : κ × ν) (l : Assoc κ ν) (k : κ) :
    Assoc.get? (e :: l) k = if e.1 = k then some e.2 else Assoc.get? l k := rfl

theorem Assoc.get?_put (l : Assoc κ ν) (k j : κ) (v : ν) :
    Assoc.get? (Assoc.put l k v) j = if j = k then some v else Assoc.get? l j := by
  induction l with
  | nil => simp [Assoc.put, Assoc.get?, eq_comm]
  | cons e l ih =>
    obtain ⟨i, w⟩ := e
    by_cases hk : i = k
    · subst hk
      simp only [Assoc.put, if_true, Assoc.get?_cons, eq_comm (a := i)]
      split <;> rfl
    · simp only [Assoc.put, if_neg hk, Assoc.get?_cons, ih]
      by_cases hj : i = j
      · rw [if_pos hj, if_neg fun h => hk (hj.trans h), if_pos hj]
      · rw [if_neg hj, if_neg hj]

theorem Assoc.getD_put (l : Assoc κ ν) (k j : κ) (v d : ν) :
    Assoc.getD (Assoc.put l k v) j d = if j = k then v else Assoc.getD l j d := by
  unfold Assoc.getD
  rw [Assoc.get?_put]
  split <;> rfl

/-- A key that is listed nowhere holds nothing, and the other way round. -/
theorem Assoc.get?_eq_none_iff (l : Assoc κ ν) (k : κ) : Assoc.get? l k = none ↔ ∀ e ∈ l, e.1 ≠ k := by
  induction l with
  | nil => simp [Assoc.get?]
  | cons e l ih => by_cases h : e.1 = k <;> simp [Assoc.get?_cons, h, ih]

theorem Assoc.drop_eq_self (l : Assoc κ ν) (k : κ) (h : Assoc.get? l k = none) : Assoc.drop l k = l :=
  List.filter_eq_self.2 fun e he => decide_eq_true ((Assoc.get?_eq_none_iff l k).1 h e he)

theorem Assoc.drop_put (l : Assoc κ ν) (k : κ) (v : ν) : Assoc.drop (Assoc.put l k v) k = Assoc.drop l k := by
  induction l with
  | nil => simp [Assoc.put, Assoc.drop]
  | cons e l ih =>
    obtain ⟨i, w⟩ := e
    by_cases h : i = k
    · simp [Assoc.put, Assoc.drop, h]
    · simpa [Assoc.put, Assoc.drop, h] using ih

/-- Data with the keys that a test rejects left out. -/
theorem Assoc.get?_filter (l : Assoc κ ν) (p : κ → Bool) (k : κ) :
    Assoc.get? (l.filter fun e => p e.1) k = if p k then Assoc.get? l k else none := by
  induction l with
  | nil => simp [Assoc.get?]
  | cons e l ih =>
    by_cases hk : e.1 = k
    · subst hk
      by_cases hp : p e.1 <;> simp [Assoc.get?_cons, hp, ih]
    · by_cases hp : p e.1 <;> simp [Assoc.get?_cons, hp, hk, ih]

/-- A value put where its key is listed stands where the old one stood: what rests on the keys alone stays. -/
theorem Assoc.map_put {β : Type} (l : Assoc κ ν) (k : κ) (v : ν) (f : κ → β) (h : (Assoc.get? l k).isSome = true) :
    (Assoc.put l k v).map (fun e => f e.1) = l.map fun e => f e.1 := by
  induction l with
  | nil => cases h
  | cons e l ih =>
    obtain ⟨i, w⟩ := e
    by_cases hk : i = k
    · simp [Assoc.put, hk]
    · rw [Assoc.get?_cons, if_neg hk] at h
      simp [Assoc.put, hk, ih h]

theorem Assoc.mem_of_get? {l : Assoc κ ν} {k : κ} {v : ν} (h : Assoc.get? l k = some v) : (k, v) ∈ l := by
  induction l with
  | nil => cases h
  | cons e l ih =>
    rw [Assoc.get?_cons] at h
    split at h
    · next hk =>
      obtain rfl := Option.some.inj h
      exact List.mem_cons.2 (.inl (Prod.ext hk.symm rfl))
    · exact List.mem_cons_of_mem _ (ih h)

theorem Assoc.mem_put_self (l : Assoc κ ν) (k : κ) (v : ν) : (k, v) ∈ Assoc.put l k v :=
  Assoc.mem_of_get? (by rw [Assoc.get?_put, if_pos rfl])

/-- Where keys are listed once, what is in the list after a value is put is that value or an entry of another key. -/
theorem Assoc.mem_put {l : Assoc κ ν} {k : κ} {v : ν} (hn : (l.map Prod.fst).Nodup) {e : κ × ν} (he : e ∈ Assoc.put l k v) :
    e = (k, v) ∨ e ∈ l ∧ e.1 ≠ k := by
  induction l with
  | nil => exact .inl (List.mem_singleton.1 he)
  | cons a l ih =>
    obtain ⟨i, w⟩ := a
    obtain ⟨fresh, hn⟩ := List.nodup_cons.1 hn
    by_cases hk : i = k
    · subst hk
      rw [Assoc.put, if_pos rfl] at he
      rcases List.mem_cons.1 he with rfl | he
      · exact .inl rfl
      · exact .inr ⟨List.mem_cons_of_mem _ he, fun h => fresh (List.mem_map.2 ⟨e, he, h⟩)⟩
    · rw [Assoc.put, if_neg hk] at he
      rcases List.mem_cons.1 he with rfl | he
      · exact .inr ⟨List.mem_cons_self, hk⟩
      · exact (ih hn he).imp_right fun h => ⟨List.mem_cons_of_mem _ h.1, h.2⟩

end Sys2Proof.Machine
end

section
/-! Groups and barriers (R161 to R163). -/

namespace Sys2Proof.Machine
open Sys2Proof.Statements

/-! ### Phases (R162) -/

theorem Group.n_eq_zero_iff (x : Group) : x.n = 0 ↔ ∀ e ∈ x.members, e.2 = false := by
  simp [Group.n, List.length_eq_zero_iff, List.filter_eq_nil_iff]

theorem Group.m_le_n_iff (x : Group) : x.m ≤ x.n ↔ ∀ e ∈ x.members, e.2 = true := by
  have le : x.n ≤ x.m := List.length_filter_le _ _
  exact ⟨fun h => List.length_filter_eq_length_iff.1 (le_antisymm le h), fun h => (List.length_filter_eq_length_iff.2 h).ge⟩

/-- A phase completes as R162 says. -/
theorem Group.settle_eq (x : Group) : x.settle = phaseRule x.members x.phase := by
  have some : 1 ≤ x.n ↔ ∃ e ∈ x.members, e.2 = true := by
    rw [Nat.one_le_iff_ne_zero, Ne, Group.n_eq_zero_iff]
    simp
  unfold Group.settle phaseRule
  simp only [some, Group.m_le_n_iff]

theorem Group.leave_eq (x : Group) (k : ThreadKey) : x.leave k =
    if (Assoc.get? x.members k).isSome then phaseRule (Assoc.drop x.members k) x.phase else x := by
  unfold Group.leave
  rw [Group.settle_eq]

/-- The last member to arrive completes the phase (R163). -/
theorem phaseRule_last (l : Assoc ThreadKey Bool) (k : ThreadKey) (ph : BitVec 32) (hk : (Assoc.get? l k).isSome = true)
    (others : ∀ e ∈ l, e.1 ≠ k → e.2 = true) (hn : (l.map Prod.fst).Nodup) :
    phaseRule (Assoc.put l k true) ph = ⟨l.map fun e => (e.1, false), ph + 1⟩ := by
  have all : ∀ e ∈ Assoc.put l k true, e.2 = true := fun e he =>
    (Assoc.mem_put hn he).elim (fun h => by rw [h]) fun h => others e h.1 h.2
  rw [phaseRule, if_pos ⟨⟨_, Assoc.mem_put_self l k true, rfl⟩, all⟩, Assoc.map_put l k true (fun i => (i, false)) hk]

/-! ### Groups of a launch -/

theorem State.group_setGroup (s : State) (o : ThreadKey) (g : Nat) (x : Group) (o' : ThreadKey) (g' : Nat) :
    (s.setGroup o g x).group o' g' = if o' = o ∧ g' = g then x else s.group o' g' := by
  simp only [State.group, State.setGroup, Assoc.getD_put, Prod.mk.injEq]

theorem State.groupId_ok (s : State) (a : Word) (h : a.toNat < s.thr.hdr.groups) : s.groupId a = .ok a.toNat := by
  simp [State.groupId, need, h, bind, Except.bind]

/-- An instruction that changes no group, and one that replaces one of the thread's launch. -/
theorem groups_kept {s t : State} {pc : Word} (h : t.heldDone s pc) (g : Nat) :
    t.heldDone { s with groups := t.groups } pc ∧ groupsWith s t g (groupAt s g) := by
  refine ⟨by rwa [h.groups], fun o k => ?_⟩
  rw [h.group]
  split
  · next same => rw [same.1, same.2]; rfl
  · rfl

theorem group_replaced {s t : State} {g : Nat} {x : Group} {pc : Word} (h : t.heldDone (s.setGroup s.thr.groupOwner g x) pc) :
    t.heldDone { s with groups := t.groups } pc ∧ groupsWith s t g x :=
  ⟨by rw [h.groups]; exact h, fun o k => (h.group o k).trans (s.group_setGroup _ _ _ _ _)⟩

/-- A drain with no store waiting. -/
theorem State.drain_empty (s : State) (h : s.thr.sq = []) : s.drain = .ok s :=
  s.drainWhere_none _ (by simp [h])

/-- A member whose flag is clear arrives (R162). -/
theorem State.arrive_clear (s : State) (g : Nat) (hsq : s.thr.sq = [])
    (hm : Assoc.get? (s.group s.thr.groupOwner g).members s.thr.key = some false) :
    s.arrive g = .ok (s.setGroup s.thr.groupOwner g
      (phaseRule (Assoc.put (s.group s.thr.groupOwner g).members s.thr.key true) (s.group s.thr.groupOwner g).phase),
        (s.group s.thr.groupOwner g).phase) := by
  simp [State.arrive, hm, s.drain_empty hsq, bind, Except.bind, Group.settle_eq]

theorem State.arrive_stranger (s : State) (g : Nat) (hm : Assoc.get? (s.group s.thr.groupOwner g).members s.thr.key = none) :
    s.arrive g = .ok (s, (s.group s.thr.groupOwner g).phase) := by
  simp [State.arrive, hm]

theorem Thread.awaited_some (t : Thread) (g : Nat) (ph : BitVec 32) (h : Assoc.get? t.awaiting t.here = some (g, ph)) :
    t.awaited g = some ph := by
  unfold Thread.awaited
  rw [h]
  exact if_pos rfl

theorem Thread.awaited_none (t : Thread) (g : Nat) (h : ∀ ph, Assoc.get? t.awaiting t.here ≠ some (g, ph)) : t.awaited g = none := by
  unfold Thread.awaited
  split
  · next g' ph held => exact if_neg fun (same : g' = g) => h ph (same ▸ held)
  · rfl

theorem State.awaitPhase_ok (s : State) (g : Nat) (ph : BitVec 32) (h : (s.group s.thr.groupOwner g).phase ≠ ph) :
    s.awaitPhase g ph = .ok s := if_neg h

/-! ### The instructions -/

theorem State.committed_groupId {s : State} {a : Reg} (hg : (s.xr a).toNat < s.thr.hdr.groups) (e : Vector Word 8) :
    (s.committed e).groupId ((s.committed e).xr a) = .ok (s.xr a).toNat :=
  State.groupId_ok _ _ hg

section
variable {s : State} {a : Reg} (hfit : s.scalarFit []) (hg : (s.xr a).toNat < s.thr.hdr.groups)
include hfit hg

theorem gjoin_done : ∃ t, exec (.gjoin a) s = .next t ∧ t.heldDone { s with groups := t.groups } (s.thr.pc + 4) ∧
    groupsWith s t (s.xr a).toNat (if (Assoc.get? (groupAt s (s.xr a).toNat).members s.thr.key).isSome then
      groupAt s (s.xr a).toNat else { groupAt s (s.xr a).toNat with
        members := Assoc.put (groupAt s (s.xr a).toNat).members s.thr.key false }) := by
  split
  · next member =>
    have done : ∃ t, execGjoin a s = .next t ∧ t.heldDone s (s.thr.pc + 4) := by
      refine issueHeld_done _ s _ _ hfit rfl rfl (fun e => ?_) rfl
      simp only [State.committed_groupId hg, bind, Except.bind]
      exact congrArg Except.ok (if_pos member)
    obtain ⟨t, ht, hdone⟩ := done
    exact ⟨t, ht, groups_kept hdone _⟩
  · next stranger =>
    have done : ∃ t, execGjoin a s = .next t ∧ t.heldDone (s.setGroup s.thr.groupOwner (s.xr a).toNat { groupAt s (s.xr a).toNat with
        members := Assoc.put (groupAt s (s.xr a).toNat).members s.thr.key false }) (s.thr.pc + 4) := by
      refine issueHeld_done _ s _ _ hfit rfl rfl (fun e => ?_) rfl
      simp only [State.committed_groupId hg, bind, Except.bind]
      exact congrArg Except.ok (if_neg stranger)
    obtain ⟨t, ht, hdone⟩ := done
    exact ⟨t, ht, group_replaced hdone⟩

theorem gleave_done : ∃ t, exec (.gleave a) s = .next t ∧ t.heldDone { s with groups := t.groups } (s.thr.pc + 4) ∧
    groupsWith s t (s.xr a).toNat (if (Assoc.get? (groupAt s (s.xr a).toNat).members s.thr.key).isSome then
      phaseRule (Assoc.drop (groupAt s (s.xr a).toNat).members s.thr.key) (groupAt s (s.xr a).toNat).phase
      else groupAt s (s.xr a).toNat) := by
  have done : ∃ t, execGleave a s = .next t ∧
      t.heldDone (s.setGroup s.thr.groupOwner (s.xr a).toNat ((groupAt s (s.xr a).toNat).leave s.thr.key)) (s.thr.pc + 4) := by
    refine issueHeld_done _ s _ _ hfit rfl rfl (fun e => ?_) rfl
    simp only [State.committed_groupId hg, bind, Except.bind]
    rfl
  obtain ⟨t, ht, hdone⟩ := done
  rw [← Group.leave_eq]
  exact ⟨t, ht, group_replaced hdone⟩

theorem garrive_done (d : Reg) (hsq : s.thr.sq = []) (hm : Assoc.get? (groupAt s (s.xr a).toNat).members s.thr.key ≠ some true) :
    ∃ t, exec (.garrive d a) s = .next t ∧
      t.heldDone { (s.setX d ((groupAt s (s.xr a).toNat).phase.zeroExtend 64)) with groups := t.groups } (s.thr.pc + 4) ∧
      groupsWith s t (s.xr a).toNat (if (Assoc.get? (groupAt s (s.xr a).toNat).members s.thr.key).isSome then
        phaseRule (Assoc.put (groupAt s (s.xr a).toNat).members s.thr.key true) (groupAt s (s.xr a).toNat).phase
        else groupAt s (s.xr a).toNat) := by
  cases member : Assoc.get? (groupAt s (s.xr a).toNat).members s.thr.key with
  | none =>
    have done : ∃ t, execGarrive d a s = .next t ∧
        t.heldDone (s.setX d ((groupAt s (s.xr a).toNat).phase.zeroExtend 64)) (s.thr.pc + 4) := by
      refine issueHeld_done _ s _ _ hfit rfl rfl (fun e => ?_) rfl
      have arrives : (s.committed e).arrive (s.xr a).toNat = _ := State.arrive_stranger _ _ member
      simp only [State.committed_groupId hg, arrives, bind, Except.bind]
      exact congrArg Except.ok (s.committed_setX e d _)
    obtain ⟨t, ht, hdone⟩ := done
    exact ⟨t, ht, by rwa [hdone.groups], fun o k => (hdone.group o k).trans (by split <;> simp_all [groupAt, State.group])⟩
  | some flag =>
    obtain rfl : flag = false := by simpa [member] using hm
    have done : ∃ t, execGarrive d a s = .next t ∧ t.heldDone ((s.setGroup s.thr.groupOwner (s.xr a).toNat
        (phaseRule (Assoc.put (groupAt s (s.xr a).toNat).members s.thr.key true) (groupAt s (s.xr a).toNat).phase)).setX d
          ((groupAt s (s.xr a).toNat).phase.zeroExtend 64)) (s.thr.pc + 4) := by
      refine issueHeld_done _ s _ _ hfit rfl rfl (fun e => ?_) rfl
      have arrives : (s.committed e).arrive (s.xr a).toNat = .ok ((s.setGroup s.thr.groupOwner (s.xr a).toNat
          (phaseRule (Assoc.put (groupAt s (s.xr a).toNat).members s.thr.key true) (groupAt s (s.xr a).toNat).phase)).committed e,
            (groupAt s (s.xr a).toNat).phase) := State.arrive_clear _ _ hsq member
      simp only [State.committed_groupId hg, arrives, bind, Except.bind]
      exact congrArg Except.ok (State.committed_setX _ e d _)
    obtain ⟨t, ht, hdone⟩ := done
    exact ⟨t, ht, by rw [hdone.groups]; exact hdone, fun o k => (hdone.group o k).trans (s.group_setGroup _ _ _ _ _)⟩

theorem gwait_done (b : Reg) (hph : (s.xr b).truncate 32 ≠ (groupAt s (s.xr a).toNat).phase) :
    ∃ t, exec (.gwait a b) s = .next t ∧ t.heldDone s (s.thr.pc + 4) := by
  show ∃ t, execGwait a b s = .next t ∧ _
  refine issueHeld_done _ s _ _ hfit rfl rfl (fun e => ?_) rfl
  simp only [State.committed_groupId hg, bind, Except.bind]
  exact State.awaitPhase_ok _ _ _ hph.symm

/-- A `gbar` that has arrived goes on once its phase is over. -/
theorem gbar_arrived_done (ph : BitVec 32) (ha : Assoc.get? s.thr.awaiting s.thr.here = some ((s.xr a).toNat, ph))
    (hph : (groupAt s (s.xr a).toNat).phase ≠ ph) : ∃ t, exec (.gbar a) s = .next t ∧
      t.heldDone { s with thr := { s.thr with awaiting := Assoc.drop s.thr.awaiting s.thr.here } } (s.thr.pc + 4) := by
  show ∃ t, execGbar a s = .next t ∧ _
  refine issueHeld_done _ s _ _ hfit rfl rfl (fun e => ?_) rfl
  have awaited : (s.committed e).thr.awaited (s.xr a).toNat = some ph := Thread.awaited_some _ _ _ ha
  have goesOn : (s.committed e).awaitPhase (s.xr a).toNat ph = .ok (s.committed e) := State.awaitPhase_ok _ _ _ hph
  simp only [State.committed_groupId hg, awaited, goesOn, bind, Except.bind]
  rfl

/-- The last member to arrive goes on at once: the phase that it awaits has been over since its arrival. -/
theorem gbar_last_done (hsq : s.thr.sq = []) (ha : ∀ ph, Assoc.get? s.thr.awaiting s.thr.here ≠ some ((s.xr a).toNat, ph))
    (hm : Assoc.get? (groupAt s (s.xr a).toNat).members s.thr.key = some false)
    (others : ∀ e ∈ (groupAt s (s.xr a).toNat).members, e.1 ≠ s.thr.key → e.2 = true)
    (hn : ((groupAt s (s.xr a).toNat).members.map Prod.fst).Nodup) : ∃ t, exec (.gbar a) s = .next t ∧
      t.heldDone { s with groups := t.groups, thr := { s.thr with awaiting := Assoc.drop s.thr.awaiting s.thr.here } } (s.thr.pc + 4) ∧
      groupsWith s t (s.xr a).toNat
        ⟨(groupAt s (s.xr a).toNat).members.map fun e => (e.1, false), (groupAt s (s.xr a).toNat).phase + 1⟩ := by
  let x : Group := ⟨(groupAt s (s.xr a).toNat).members.map fun e => (e.1, false), (groupAt s (s.xr a).toNat).phase + 1⟩
  have done : ∃ t, execGbar a s = .next t ∧ t.heldDone { (s.setGroup s.thr.groupOwner (s.xr a).toNat x) with
      thr := { s.thr with awaiting := Assoc.drop s.thr.awaiting s.thr.here } } (s.thr.pc + 4) := by
    refine issueHeld_done _ s _ _ hfit rfl rfl (fun e => ?_) rfl
    have awaited : (s.committed e).thr.awaited (s.xr a).toNat = none := Thread.awaited_none _ _ ha
    have arrives : (s.committed e).arrive (s.xr a).toNat =
        .ok ((s.setGroup s.thr.groupOwner (s.xr a).toNat x).committed e, (groupAt s (s.xr a).toNat).phase) := by
      rw [← show phaseRule _ _ = x from phaseRule_last _ _ _ (by rw [hm]; rfl) others hn]
      exact State.arrive_clear (s.committed e) _ hsq hm
    have replaced : ((s.setGroup s.thr.groupOwner (s.xr a).toNat x).group s.thr.groupOwner (s.xr a).toNat).phase ≠
        (groupAt s (s.xr a).toNat).phase := by
      rw [State.group_setGroup, if_pos ⟨rfl, rfl⟩]
      simp [x]
    simp only [State.committed_groupId hg, awaited, arrives, bind, Except.bind]
    rw [State.awaitPhase_ok]
    · exact congrArg (fun l => Except.ok (State.committed { (s.setGroup s.thr.groupOwner (s.xr a).toNat x) with
        thr := { s.thr with awaiting := l } } e)) (Assoc.drop_put s.thr.awaiting s.thr.here _)
    · exact replaced
  obtain ⟨t, ht, hdone⟩ := done
  exact ⟨t, ht, by rw [hdone.groups]; exact hdone, fun o k => (hdone.group o k).trans (s.group_setGroup _ _ _ _ _)⟩

end

/-- Settles O12, an instruction at a time: what each does to the group is `phaseRule` or one put or dropped member. -/
theorem groupResults : Obligations.GroupResults := by
  intro s d a b hfit hg hsq
  exact ⟨gjoin_done hfit hg, gleave_done hfit hg, garrive_done hfit hg d hsq, gwait_done hfit hg b, gbar_arrived_done hfit hg,
    gbar_last_done hfit hg hsq⟩

end Sys2Proof.Machine
end

section
/-! Hardware queues and the handler table (R164 to R166). -/

namespace Sys2Proof.Machine
open Sys2Proof.Statements

/-! ### Stamps (R165) -/

theorem State.stampDrained_iff (s : State) (e : QEntry) : s.stampDrained e = true ↔ stampDone s e := by
  have owed : (!s.requests.any fun r => match r.who with
      | .store k n => decide (k = e.producer ∧ n ≤ e.stamp)
      | _ => false) = true ↔ ∀ r ∈ s.requests, ∀ n, r.who = .store e.producer n → e.stamp < n := by
    simp only [Bool.not_eq_true', List.any_eq_false]
    refine forall₂_congr fun r _ => ?_
    cases r.who <;> simp
  have held : (match s.thread? e.producer with
      | some p => !p.sq.any fun x => decide (x.seq ≤ e.stamp)
      | none => true) = true ↔ ∀ u, s.thread? e.producer = some u → ∀ p ∈ u.sq, e.stamp < p.seq := by
    cases s.thread? e.producer <;> simp
  unfold State.stampDrained stampDone
  rw [Bool.and_eq_true, and_comm, and_comm (b := ∀ r ∈ s.requests, _)]
  exact and_congr owed held

/-- A stamp is drained in the same way by what leaves the stores and the requests. -/
theorem stampDone_of {s t : State} {e : QEntry} (h : stampDone s e) (ho : t.others = s.others) (hr : t.requests = s.requests)
    (hk : t.thr.key = s.thr.key) (hl : t.thr.life = s.thr.life) (hsq : t.thr.sq = s.thr.sq) : stampDone t e := by
  refine ⟨fun u hu => ?_, by rw [hr]; exact h.2⟩
  have first := h.1
  simp only [State.thread?, State.threads, List.find?_cons, Thread.live] at hu first
  rw [hk, hl, ho] at hu
  split at hu
  · next here =>
    rw [here] at first
    obtain rfl := Option.some.inj hu
    rw [hsq]
    exact first s.thr rfl
  · next away =>
    rw [away] at first
    exact first u hu

/-! ### The queue that a register names -/

theorem State.queueOf_ok (s : State) (a : Word) (q : HwQueue) (h : queueNamed s a q) : s.queueOf a = .ok (a.toNat, q) := by
  obtain ⟨hn, hq⟩ := h
  have held : Assoc.get? s.thrPr.queues a.toNat = some q := hq
  simp [State.queueOf, held, Nat.not_le.2 hn]

/-- A held entry whose stamp has drained is delivered, and stays with the thread no longer (R165). -/
theorem State.deliver_ok (s u : State) (d : Reg) (e : QEntry) (h : stampDone s e)
    (hu : { s with thr := { s.thr with popped := Assoc.drop s.thr.popped s.thr.here } } = u) :
    s.deliver d e = .ok (u.setX d e.value) := by
  subst hu
  simp only [State.deliver, (s.stampDrained_iff e).2 h, if_true]
  unfold State.setX Thread.setX State.mapThr
  split <;> rfl

section
variable {s : State} {a : Reg} {q : HwQueue} (hfit : s.scalarFit [])
include hfit

theorem qpush_done (b : Reg) (hq : queueNamed s (s.xr a) q) (room : q.entries.length < q.cap) :
    ∃ t, exec (.qpush a b) s = .next t ∧
      t.heldDone (queueWith s (s.xr a).toNat { q with entries := q.entries ++ [⟨s.xr b, s.thr.key, s.thr.stores⟩] })
        (s.thr.pc + 4) := by
  show ∃ t, execQpush a b s = .next t ∧ _
  refine issueHeld_done _ s _ _ hfit rfl rfl (fun e => ?_) rfl
  have named : (s.committed e).queueOf ((s.committed e).xr a) = .ok ((s.xr a).toNat, q) := State.queueOf_ok _ _ _ hq
  simp only [named, bind, Except.bind]
  exact if_neg (Nat.not_le.2 room)

/-- What `qpop` delivers leaves no entry with the thread. -/
theorem qpop_fresh_done (d : Reg) (e : QEntry) (es : List QEntry) (hq : queueNamed s (s.xr a) q) (he : q.entries = e :: es)
    (drained : stampDone s e) (none : Assoc.get? s.thr.popped s.thr.here = none) : ∃ t, exec (.qpop d a) s = .next t ∧
      t.heldDone ((queueWith s (s.xr a).toNat { q with entries := es }).setX d e.value) (s.thr.pc + 4) := by
  show ∃ t, execQpop d a s = .next t ∧ _
  refine issueHeld_done _ s _ _ hfit rfl rfl (fun ev => ?_) rfl
  have fresh : (s.committed ev).thr.heldEntry = .none := none
  have named : (s.committed ev).queueOf ((s.committed ev).xr a) = .ok ((s.xr a).toNat, q) := State.queueOf_ok _ _ _ hq
  have gone : Assoc.drop (Assoc.put s.thr.popped s.thr.here e) s.thr.here = s.thr.popped := by
    rw [Assoc.drop_put, Assoc.drop_eq_self _ _ none]
  simp only [fresh, named, he, bind, Except.bind]
  rw [← State.committed_setX]
  refine State.deliver_ok _ ((queueWith s (s.xr a).toNat { q with entries := es }).committed ev) d e ?_ ?_
  · exact stampDone_of drained rfl rfl rfl rfl rfl
  · exact congrArg (fun l => State.committed { (queueWith s (s.xr a).toNat { q with entries := es }) with
      thr := { s.thr with popped := l } } ev) gone

theorem qpop_held_done (d : Reg) (e : QEntry) (held : Assoc.get? s.thr.popped s.thr.here = some e) (drained : stampDone s e) :
    ∃ t, exec (.qpop d a) s = .next t ∧
      t.heldDone ({ s with thr := { s.thr with popped := Assoc.drop s.thr.popped s.thr.here } }.setX d e.value) (s.thr.pc + 4) := by
  show ∃ t, execQpop d a s = .next t ∧ _
  refine issueHeld_done _ s _ _ hfit rfl rfl (fun ev => ?_) rfl
  have kept : (s.committed ev).thr.heldEntry = some e := held
  simp only [kept]
  rw [← State.committed_setX]
  exact State.deliver_ok _ _ d e (stampDone_of drained rfl rfl rfl rfl rfl) rfl

theorem qtry_entry_done (d : Reg) (e : QEntry) (es : List QEntry) (hq : queueNamed s (s.xr a) q) (he : q.entries = e :: es)
    (drained : stampDone s e) (pair : 0 < d.toNat ∧ d.toNat < 31) : ∃ t, exec (.qtry d a) s = .next t ∧
      t.heldDone (((queueWith s (s.xr a).toNat { q with entries := es }).setX d 1).setX (d + 1) e.value) (s.thr.pc + 4) := by
  show ∃ t, execQtry d a s = .next t ∧ _
  refine issueHeld_done _ s _ _ hfit (decide_eq_true pair) rfl (fun ev => ?_) rfl
  have named : (s.committed ev).queueOf ((s.committed ev).xr a) = .ok ((s.xr a).toNat, q) := State.queueOf_ok _ _ _ hq
  have ready : (s.committed ev).stampDrained e = true :=
    (State.stampDrained_iff _ _).2 (stampDone_of drained rfl rfl rfl rfl rfl)
  simp only [named, he, ready, if_true, bind, Except.bind, ← State.committed_setX]
  rfl

theorem qtry_none_done (d : Reg) (hq : queueNamed s (s.xr a) q) (wait : ∀ e es, q.entries = e :: es → ¬stampDone s e)
    (pair : 0 < d.toNat ∧ d.toNat < 31) :
    ∃ t, exec (.qtry d a) s = .next t ∧ t.heldDone (s.setX d 0) (s.thr.pc + 4) := by
  show ∃ t, execQtry d a s = .next t ∧ _
  refine issueHeld_done _ s _ _ hfit (decide_eq_true pair) rfl (fun ev => ?_) rfl
  have named : (s.committed ev).queueOf ((s.committed ev).xr a) = .ok ((s.xr a).toNat, q) := State.queueOf_ok _ _ _ hq
  simp only [named, bind, Except.bind]
  cases he : q.entries with
  | nil => exact congrArg Except.ok (s.committed_setX ev d 0)
  | cons e es =>
    have waits : ¬ (s.committed ev).stampDrained e = true := fun h =>
      wait e es he (stampDone_of ((State.stampDrained_iff _ _).1 h) rfl rfl rfl rfl rfl)
    simp only [waits]
    exact congrArg Except.ok (s.committed_setX ev d 0)

end

/-! ### The handler table (R166) -/

/-- What `hreg` finds before it binds: a queue of the process, and a header that can be read. -/
structure headerNamed (s : State) (a b : Reg) (q : HwQueue) (ps : List (Place × Nat × Word)) : Prop where
  number : (s.xr a).toNat < 2 ^ 13
  queue : queueNamed s (BitVec.ofNat 64 ((s.xr a).toNat % 1024)) q
  aligned : (s.xr b).toNat % 8 = 0
  readable : placePieces (s.place .load) (pieces 65 (s.xr b) 64) = .ok ps

/-- What `hreg` does with a binding, by the entries that the core has (R166). -/
def State.bindHeader (s : State) (d : Reg) (h : HandlerEntry) : State :=
  match (s.core s.thr.core).handlers.find? fun e => sameQueue h e.2 with
  | some (i, _) => (s.setCore s.thr.core { s.core s.thr.core with
      handlers := Assoc.put (s.core s.thr.core).handlers i h }).setX d (BitVec.ofNat 64 i)
  | none =>
    match (List.range 32).find? fun i => (Assoc.get? (s.core s.thr.core).handlers i).isNone with
    | none => s.setX d (BitVec.allOnes 64)
    | some i => (boundAt s i h).setX d (BitVec.ofNat 64 i)

theorem State.bindHeader_found (s : State) (d : Reg) (h : HandlerEntry) {i : Nat} {e : HandlerEntry}
    (found : (s.core s.thr.core).handlers.find? (fun e => sameQueue h e.2) = some (i, e)) :
    s.bindHeader d h = (s.setCore s.thr.core { s.core s.thr.core with
      handlers := Assoc.put (s.core s.thr.core).handlers i h }).setX d (BitVec.ofNat 64 i) := by
  simp only [State.bindHeader, found]

section
variable (s : State) (d : Reg) (h : HandlerEntry) (unbound : (s.core s.thr.core).handlers.find? (fun e => sameQueue h e.2) = none)
include unbound

theorem State.bindHeader_full
    (full : (List.range 32).find? (fun i => (Assoc.get? (s.core s.thr.core).handlers i).isNone) = none) :
    s.bindHeader d h = s.setX d (BitVec.allOnes 64) := by
  simp only [State.bindHeader, unbound, full]

theorem State.bindHeader_free {i : Nat}
    (free : (List.range 32).find? (fun i => (Assoc.get? (s.core s.thr.core).handlers i).isNone) = some i) :
    s.bindHeader d h = (boundAt s i h).setX d (BitVec.ofNat 64 i) := by
  simp only [State.bindHeader, unbound, free]

end

theorem State.committed_bindHeader (s : State) (e : Vector Word 8) (d : Reg) (h : HandlerEntry) :
    (s.committed e).bindHeader d h = (s.bindHeader d h).committed e := by
  have sameCore : (s.committed e).core (s.committed e).thr.core = s.core s.thr.core := rfl
  unfold State.bindHeader
  rw [sameCore]
  split
  · exact State.committed_setX (s.setCore _ _) e d _
  · split
    · exact s.committed_setX e d _
    · exact State.committed_setX (boundAt s _ h) e d _

theorem State.bindHeader_badReg (s : State) (d : Reg) (h : HandlerEntry) : (s.bindHeader d h).badReg = s.badReg := by
  unfold State.bindHeader
  split
  · rfl
  · split <;> rfl

/-- The lowest free entry of a core's table. -/
theorem handlers_free (l : Assoc Nat HandlerEntry) (i : Nat) (hi : i < 32) (free : Assoc.get? l i = none)
    (below : ∀ j < i, (Assoc.get? l j).isSome) : (List.range 32).find? (fun i => (Assoc.get? l i).isNone) = some i := by
  rw [List.find?_range_eq_some]
  refine ⟨by simp [free], by simpa using hi, fun j hj => ?_⟩
  obtain ⟨v, hv⟩ := Option.isSome_iff_exists.1 (below j hj)
  simp [hv]

theorem handlers_full (l : Assoc Nat HandlerEntry) (full : ∀ i < 32, (Assoc.get? l i).isSome) :
    (List.range 32).find? (fun i => (Assoc.get? l i).isNone) = none := by
  rw [List.find?_eq_none]
  intro i hi
  obtain ⟨v, hv⟩ := Option.isSome_iff_exists.1 (full i (List.mem_range.1 hi))
  simp [hv]

section
variable {s : State} {a b : Reg} {q : HwQueue} {ps : List (Place × Nat × Word)} (hfit : s.scalarFit [])
include hfit

section
variable (h : headerNamed s a b q ps)
include h

theorem hreg_done (d : Reg) : ∃ t, exec (.hreg d a b) s = .next t ∧
    t.heldDone (s.bindHeader d (bindingOf s (s.xr a) (s.xr b))) (s.thr.pc + 4) := by
  obtain ⟨number, ⟨small, queue⟩, aligned, readable⟩ := h
  show ∃ t, execHreg d a b s = .next t ∧ _
  refine issueHeld_done _ s _ _ hfit rfl rfl (fun ev => ?_) (s.bindHeader_badReg _ _)
  have noPriority : (BitVec.ofNat 64 ((s.xr a).toNat % 1024)).toNat = (s.xr a).toNat % 1024 := by
    rw [BitVec.toNat_ofNat]
    omega
  rw [noPriority] at queue
  have xa : (s.committed ev).xr a = s.xr a := rfl
  have xb : (s.committed ev).xr b = s.xr b := rfl
  have inRange : need (s.committed ev) (decide ((s.xr a).toNat < 2 ^ 13)) .protect (s.xr a) = .ok () :=
    if_pos (decide_eq_true number)
  have created : need (s.committed ev) (Assoc.get? (s.committed ev).thrPr.queues ((s.xr a).toNat % 1024)).isSome .protect
      (s.xr a) = .ok () := by
    have held : Assoc.get? (s.committed ev).thrPr.queues ((s.xr a).toNat % 1024) = some q := queue
    simp [need, held]
  have whole : need (s.committed ev) (decide ((s.xr b).toNat % 8 = 0)) .align (s.xr b) = .ok () := by simp [need, aligned]
  have placed : placePieces ((s.committed ev).place .load) (pieces 65 (s.xr b) 64) = .ok ps := readable
  simp only [xa, xb, inRange, created, whole, placed, bind, Except.bind]
  rw [← State.committed_bindHeader]
  split
  · next found => exact congrArg Except.ok (State.bindHeader_found (s.committed ev) d (bindingOf s (s.xr a) (s.xr b)) found).symm
  · next unbound =>
    split
    · next full => exact congrArg Except.ok (State.bindHeader_full (s.committed ev) d (bindingOf s (s.xr a) (s.xr b)) unbound full).symm
    · next free => exact congrArg Except.ok (State.bindHeader_free (s.committed ev) d (bindingOf s (s.xr a) (s.xr b)) unbound free).symm

end

theorem hunreg_done (h : HandlerEntry) (hi : (s.xr a).toNat < 32)
    (held : Assoc.get? (s.core s.thr.core).handlers (s.xr a).toNat = some h) (part : h.part = s.thr.key.part)
    (proc : h.proc = s.thr.key.proc) : ∃ t, exec (.hunreg a) s = .next t ∧ t.heldDone (s.setCore s.thr.core
      { s.core s.thr.core with handlers := Assoc.drop (s.core s.thr.core).handlers (s.xr a).toNat }) (s.thr.pc + 4) := by
  show ∃ t, execHunreg a s = .next t ∧ _
  refine issueHeld_done _ s _ _ hfit rfl rfl (fun ev => ?_) rfl
  have inTable : need (s.committed ev) (decide ((s.xr a).toNat < 32)) .illegal (s.xr a) = .ok () := by simp [need, hi]
  have entry : Assoc.get? ((s.committed ev).core (s.committed ev).thr.core).handlers (s.xr a).toNat = some h := held
  have number : (s.committed ev).xr a = s.xr a := rfl
  simp only [number, inTable, entry, bind, Except.bind]
  exact congrArg Except.ok (if_pos ⟨part, proc⟩)

end

theorem handlers_unbound {l : Assoc Nat HandlerEntry} {h : HandlerEntry} (unbound : ∀ e ∈ l, sameQueue h e.2 = false) :
    l.find? (fun e => sameQueue h e.2) = none :=
  List.find?_eq_none.2 fun e he => by rw [unbound e he]; decide

/-- Settles O13, an instruction at a time: an entry is delivered when its stamp has drained, and `hreg` binds by what the core's
table holds. -/
theorem queueResults : Obligations.QueueResults := by
  intro s d a b q hfit
  refine ⟨fun hq room => qpush_done hfit b hq room,
    fun e es hq he drained => ⟨qpop_fresh_done hfit d e es hq he drained, qtry_entry_done hfit d e es hq he drained⟩,
    fun e held drained => qpop_held_done hfit d e held drained, fun hq wait pair => qtry_none_done hfit d hq wait pair, ?_,
    fun h hi held part proc => hunreg_done hfit h hi held part proc⟩
  intro ps number queue aligned readable
  obtain ⟨t, ht, done⟩ := hreg_done hfit ⟨number, queue, aligned, readable⟩ d
  refine ⟨fun i h found => ⟨t, ht, ?_⟩, fun unbound => ⟨fun i hi free below => ⟨t, ht, ?_⟩, fun full => ⟨t, ht, ?_⟩⟩⟩
  · rwa [State.bindHeader_found s d _ found] at done
  · rwa [State.bindHeader_free s d _ (handlers_unbound unbound) (handlers_free _ i hi free below)] at done
  · rwa [State.bindHeader_full s d _ (handlers_unbound unbound) (handlers_full _ full)] at done

end Sys2Proof.Machine
end

section
/-! Writes at once, of a thread that holds no store (R157): what it reads afterwards. -/

namespace Sys2Proof.Machine

theorem State.seen_setX (s : State) (d : Reg) (v : Word) (q : Place) : (s.setX d v).seen q = s.seen q :=
  State.seen_congr (s.setX_mem d v) (s.thr.setX_sq d v) (s.thr.setX_localStore d v) (s.thr.setX_vlen d v) q
    fun o _ => congrArg (Memory.byte · o) (s.thr.setX_csa d v)

theorem Place.newByte_nil (vlen : Nat) (q pl : Place) (b : Byte) : q.newByte vlen pl [] b = b := by
  unfold Place.newByte
  split <;> rfl

/-- Where no store waits, a write at once and a store as issued look alike to the thread. -/
theorem State.seen_writeNow (s : State) (pl q : Place) (bs : List Byte) (h : s.thr.sq = []) :
    (s.writeNow pl bs).seen q = q.newByte s.thr.vlen pl bs (s.seen q) := by
  rw [← State.seen_issueStore s pl q bs 0 false]
  have put (m : Memory) (o a : Nat) : (m.put o bs).byte a = (m.putCells (cellsAt o bs)).byte a := by
    rw [Memory.byte_put, Memory.byte_putCells_cellsAt]
  cases pl with
  | device d =>
    have dev := placeCells_filterMap deviceCell (.device d) 0 d bs fun _ _ => rfl
    have loc := placeCells_filterMap_none localCell (.device d) 0 bs fun _ _ => rfl
    have csa := placeCells_filterMap_none (csaCell s.thr.vlen) (.device d) 0 bs fun _ _ => rfl
    rw [Nat.add_zero] at dev
    cases q with
    | device a =>
      simp only [State.seen, State.issueStore_view, dev, State.issueStore_mem]
      simp only [State.writeNow, State.perform, State.mapThr, Thread.view, h, List.foldl_nil]
    | localStore a =>
      simp only [State.seen, State.issueStore_thr_localStore, loc]
      rfl
    | csa a =>
      simp only [State.seen, State.issueStore_thr_csa, csa]
      rfl
  | localStore d =>
    have dev := placeCells_filterMap_none deviceCell (.localStore d) 0 bs fun _ _ => rfl
    have loc := placeCells_filterMap localCell (.localStore d) 0 d bs fun _ _ => rfl
    have csa := placeCells_filterMap_none (csaCell s.thr.vlen) (.localStore d) 0 bs fun _ _ => rfl
    rw [Nat.add_zero] at loc
    cases q with
    | device a =>
      simp only [State.seen, State.issueStore_view, dev, State.issueStore_mem]
      rfl
    | localStore a =>
      simp only [State.seen, State.issueStore_thr_localStore, loc]
      exact put s.thr.localStore d a
    | csa a =>
      simp only [State.seen, State.issueStore_thr_csa, csa]
      rfl
  | csa d =>
    have dev := placeCells_filterMap_none deviceCell (.csa d) 0 bs fun _ _ => rfl
    have loc := placeCells_filterMap_none localCell (.csa d) 0 bs fun _ _ => rfl
    cases q with
    | device a =>
      simp only [State.seen, State.issueStore_view, dev, State.issueStore_mem]
      rfl
    | localStore a =>
      simp only [State.seen, State.issueStore_thr_localStore, loc]
      rfl
    | csa a =>
      simp only [State.seen, State.issueStore_thr_csa]
      rfl

/-- Errors of other threads' local stores stay. -/
theorem clearLocal_others (bad : List (ThreadKey × Nat × Nat × Nat)) (k : ThreadKey) (cells : List Host.Cell)
    (h : ∀ e ∈ bad, e.1 ≠ k) : clearLocal bad k cells = bad :=
  List.filter_eq_self.2 fun e he => by simp [h e he]

theorem clearSaved_nil (bad : List (ThreadKey × Nat)) (k : ThreadKey) : clearSaved bad k [] = bad :=
  List.filter_eq_self.2 fun e _ => by
    have empty : ((List.range 8).all fun i => ([] : List Nat).contains (e.2 + i)) = false := rfl
    rw [empty]
    simp

end Sys2Proof.Machine
end

section
/-! Scalar atomics with no store waiting (R73, R156, R157). -/

namespace Sys2Proof.Machine
open Sys2Proof.Statements

/-! ### One access (R156) -/

/-- The earlier stores of a thread that has none need no drain. -/
theorem State.drainWhere_empty (s : State) (h : s.thr.sq = []) (f : PendStore → Bool) : s.drainWhere f = .ok s :=
  s.drainWhere_none f (by simp [h])

/-- What an operation leaves: the location written where it writes. -/
def State.written (s : State) (pl : Place) (n : Nat) : Option Nat → State
  | some v => s.writeNow pl (bytesOf n v)
  | none => s

theorem State.atomicNear_ok (s : State) (rel : Bool) (op n : Nat) (pl : Place) (b cmp : Nat) (h : s.thr.sq = []) (hop : op ≠ 9) :
    s.atomicNear rel op n pl b cmp = .ok (s.written pl n (atomNew op n (s.number pl n) b cmp), s.number pl n) := by
  simp only [State.atomicNear, if_neg hop, s.drainWhere_empty h, ← State.number_eq, bind, Except.bind]
  cases atomNew op n (s.number pl n) b cmp <;> rfl

/-- A `strl` comes after no store where none waits: it is a store as issued. -/
theorem State.release_empty (s : State) (pl : Place) (bs : List Byte) (h : s.thr.sq = []) :
    s.release pl bs = s.issueStore (placeCells pl 0 bs) 0 false := by
  have after : (s.issueStore (placeCells pl 0 bs) 0 false).thr.sq.map (fun p =>
      if p.seq = (s.issueStore (placeCells pl 0 bs) 0 false).thr.stores then { p with after := s.thr.sq.map PendStore.name } else p) =
        (s.issueStore (placeCells pl 0 bs) 0 false).thr.sq := by
    refine (List.map_congr_left fun p hp => ?_).trans (List.map_id _)
    rw [State.issueStore_thr_sq, h] at hp
    obtain ⟨u, -, rfl⟩ := List.mem_map.1 hp
    rw [h]
    exact ite_self _
  exact congrArg (fun l => { (s.issueStore (placeCells pl 0 bs) 0 false) with
    thr := { (s.issueStore (placeCells pl 0 bs) 0 false).thr with sq := l } }) after

section
variable {s : State} {pl : Place} {op n : Nat} {ea : Word} (hb : s.thr.begun = none)
include hb

/-- An access that the checks of R108 let pass is performed at its place. -/
theorem State.atomic_ok (w : BitVec 32) (rel : Bool) (b cmp : Nat)
    (ha : s.accessible (if op = 8 then .atomicRead else .atomic) ea n pl)
    (bad : (if op = 9 then s.badStore s.thr pl n else s.badData s.thr pl n) = false) :
    s.atomic w rel op n ea b cmp = s.atomicNear rel op n pl b cmp := by
  obtain ⟨aligned, placed, near, free⟩ := ha
  have fresh : s.thr.begun? = none := by rw [Thread.begun?, hb]; rfl
  simp only [State.atomic, fresh, if_neg (not_not.2 aligned), placed, s.passWatermark_ok _ _ free, near, Bool.not_false,
    Bool.true_and, bad, need, if_true, bind, Except.bind]
  rfl

end

/-- The machine with what an atomic and its register may change as another has it. -/
def State.atomicFrame (s u : State) : State :=
  { s with mem := u.mem, homes := u.homes, badMem := u.badMem,
           thr := { s.thr with x := u.thr.x, localStore := u.thr.localStore, stores := u.thr.stores } }

theorem State.atomicFrame_setX {s u : State} (h : u = s.atomicFrame u) (d : Reg) (v : Word) :
    u.setX d v = s.atomicFrame (u.setX d v) := by
  rw [h]
  unfold State.setX Thread.setX
  split <;> rfl

theorem State.atomicFrame_heldDone {s t u : State} {pc : Word} (h : t.heldDone u pc) (hu : u = s.atomicFrame u) :
    t.heldDone (s.atomicFrame t) pc := by
  have same : s.atomicFrame t = s.atomicFrame u := by
    simp only [State.atomicFrame, h.mem, h.homes, h.badMem, h.x, h.localStore, h.stores]
  rw [same, ← hu]
  exact h

section
variable {s : State} {pl : Place} (hpl : userPlace pl) (hr : ∀ e ∈ s.badReg, e.1 ≠ s.thr.key)
include hpl hr

theorem State.writeNow_frame (bs : List Byte) : s.writeNow pl bs = s.atomicFrame (s.writeNow pl bs) := by
  cases pl with
  | device d => rfl
  | localStore o => simp only [State.writeNow, State.mapThr, State.atomicFrame, clearLocal_others _ _ _ hr]
  | csa o => exact absurd rfl (hpl o)

theorem State.written_frame (n : Nat) (new : Option Nat) : s.written pl n new = s.atomicFrame (s.written pl n new) := by
  cases new with
  | none => rfl
  | some v => exact State.writeNow_frame hpl hr _

end

/-! ### The instructions -/

theorem atomBytes_eq (z : AtomSize) : atomBytes z = AtomSize.bytes z := by
  cases z <;> rfl

/-- What an atomic writes rests on the low bits of its operands, and on the comparand in `amocas` alone (R156). -/
theorem atomicTable_eq {r : (Reg → Reg → Reg → Bool → Bool → AtomSize → Scope → Instr) × (Nat → Nat → Nat → Nat → Option Nat)}
    (hr : r ∈ atomicTable) : ∃ op < 8, ∀ (d a b : Reg) (q l : Bool) (z : AtomSize) (e : Scope) (s : State), ∃ w src cmp,
      exec (r.1 d a b q l z e) s = atomOp w true l src op z d (s.xr a) (s.xr b) cmp s ∧
        ∀ old, r.2 (8 * AtomSize.bytes z) old ((s.xr b).toNat % 2 ^ (8 * AtomSize.bytes z))
            ((s.xr d).toNat % 2 ^ (8 * AtomSize.bytes z)) =
          atomNew op (AtomSize.bytes z) old (zext (8 * AtomSize.bytes z) (s.xr b).toNat) (zext (8 * AtomSize.bytes z) cmp.toNat) := by
  obtain ⟨op, hop, rfl⟩ := List.mem_iff_getElem.1 hr
  refine ⟨op, hop, fun d a b q l z e s => ?_⟩
  have count : op < 8 := hop
  interval_cases op <;> exact ⟨_, _, _, rfl, fun _ => rfl⟩

theorem State.written_badReg {s : State} {pl : Place} (hpl : userPlace pl) (hr : ∀ e ∈ s.badReg, e.1 ≠ s.thr.key) (n : Nat)
    (new : Option Nat) : (s.written pl n new).badReg = s.badReg := by
  rw [State.written_frame hpl hr]
  rfl

theorem State.written_xr (s : State) (pl : Place) (n : Nat) (new : Option Nat) : (s.written pl n new).xr = s.xr := by
  cases new with
  | none => rfl
  | some v => cases pl <;> rfl

theorem State.committed_written (s : State) (e : Vector Word 8) (pl : Place) (n : Nat) (new : Option Nat) :
    (s.committed e).written pl n new = (s.written pl n new).committed e := by
  cases new with
  | none => rfl
  | some v => cases pl <;> rfl

theorem State.committed_number (s : State) (e : Vector Word 8) (pl : Place) (n : Nat) :
    (s.committed e).number pl n = s.number pl n := by
  rw [State.number_eq, State.number_eq]
  rfl

/-- What the location holds once an operation has been performed. -/
theorem State.written_stored {s t : State} {pl : Place} {n : Nat} {new : Option Nat} {d : Reg} {v pc : Word} (hsq : s.thr.sq = [])
    (h : t.heldDone ((s.written pl n new).setX d v) pc) : s.stored t pl ((new.map (bytesOf n)).getD []) := by
  intro q hq
  have mode : (s.written pl n new).thr.supervisor = s.thr.supervisor := by
    cases new with
    | none => rfl
    | some x => cases pl <;> rfl
  rw [h.seen q (by simpa [mode] using hq), State.seen_setX]
  cases new with
  | none => exact (Place.newByte_nil _ _ _ _).symm
  | some x => exact s.seen_writeNow pl q _ hsq

section
variable {s : State} {pl : Place} {ea : Word} (hfit : s.scalarFit [22]) (hsq : s.thr.sq = []) (hb : s.thr.begun = none)
  (hpl : userPlace pl)
include hfit hsq hb

include hpl in
/-- An operation other than `strl`. -/
theorem atomOp_done (w : BitVec 32) (rel : Bool) (src : List Reg) (op : Nat) (z : AtomSize) (d : Reg) (b cmp : Word) (hop : op ≠ 9)
    (hd : (Req.declared { word := tv w, caps := [22], reads := xs src }) = true)
    (ha : s.accessible (if op = 8 then .atomicRead else .atomic) ea (AtomSize.bytes z) pl)
    (bad : s.badData s.thr pl (AtomSize.bytes z) = false) :
    ∃ t, atomOp w true rel src op z d ea b cmp s = .next t ∧ t.heldDone
      ((s.written pl (AtomSize.bytes z) (atomNew op (AtomSize.bytes z) (s.number pl (AtomSize.bytes z))
        (zext (8 * AtomSize.bytes z) b.toNat) (zext (8 * AtomSize.bytes z) cmp.toNat))).setX d
        (extended (AtomSize.bytes z) true (s.number pl (AtomSize.bytes z)))) (s.thr.pc + 4) := by
  unfold atomOp
  refine issueHeld_done _ s _ _ hfit rfl hd (fun e => ?_) ((State.setX_badReg _ _ _).trans (State.written_badReg hpl hfit.1.2 _ _))
  have performed : (s.committed e).atomic w rel op (AtomSize.bytes z) ea (zext (8 * AtomSize.bytes z) b.toNat)
      (zext (8 * AtomSize.bytes z) cmp.toNat) = _ :=
    (State.atomic_ok (s := s.committed e) hb w rel _ _ ha (by rw [if_neg hop]; exact bad)).trans
      (State.atomicNear_ok (s.committed e) rel op (AtomSize.bytes z) pl _ _ hsq hop)
  simp only [performed, if_neg hop, State.committed_number, State.committed_written, State.committed_setX, bind, Except.bind]
  rfl

/-- `strl` is a store as issued. -/
theorem strl_done (a b : Reg) (z : AtomSize) (e : Scope) (ha : s.accessible .atomic (s.xr a) (AtomSize.bytes z) pl)
    (bad : s.badStore s.thr pl (AtomSize.bytes z) = false) : ∃ t, exec (.strl a b z e) s = .next t ∧
      t.heldDone (s.issueStore (placeCells pl 0 (bytesOf (AtomSize.bytes z) (zext (8 * AtomSize.bytes z) (s.xr b).toNat))) 0 false)
        (s.thr.pc + 4) := by
  show ∃ t, atomOp (wordStrl a b z e) true true [a, b] 9 z 0 (s.xr a) (s.xr b) 0 s = .next t ∧ _
  unfold atomOp
  refine issueHeld_done _ s _ _ hfit rfl rfl (fun ev => ?_) ?_
  · have performed : (s.committed ev).atomic (wordStrl a b z e) true 9 (AtomSize.bytes z) (s.xr a)
        (zext (8 * AtomSize.bytes z) (s.xr b).toNat) (zext (8 * AtomSize.bytes z) (0 : Word).toNat) = _ :=
      State.atomic_ok (s := s.committed ev) hb _ true _ _ ha bad
    simp only [performed, State.atomicNear, if_true, bind, Except.bind]
    exact congrArg Except.ok (State.release_empty (s.committed ev) pl _ hsq)
  · exact clearLocal_others _ _ _ hfit.1.2

end

theorem bytesOf_zext (n v : Nat) : bytesOf n (zext (8 * n) v) = bytesOf n v := by
  induction n generalizing v with
  | zero => rfl
  | succ n ih =>
    have split : 2 ^ (8 * (n + 1)) = 256 * 2 ^ (8 * n) := by rw [Nat.mul_succ, Nat.pow_add, Nat.mul_comm]
    have low : BitVec.ofNat 8 (v % (256 * 2 ^ (8 * n))) = BitVec.ofNat 8 v :=
      BitVec.eq_of_toNat_eq (by simp)
    have high : v % (256 * 2 ^ (8 * n)) / 256 = zext (8 * n) (v / 256) := Nat.mod_mul_right_div_self _ _ _
    rw [zext, split, bytesOf, bytesOf, low, high, ih]

theorem placeCells_filterMap_csaWhole {pl : Place} (hpl : userPlace pl) (i : Nat) (bs : List Byte) :
    (placeCells pl i bs).filterMap csaWhole = [] := by
  induction bs generalizing i with
  | nil => rfl
  | cons b bs ih =>
    have elsewhere : csaWhole (pl.plus i, b) = none := by
      cases pl with
      | csa o => exact absurd rfl (hpl o)
      | _ => rfl
    rw [placeCells, List.filterMap_cons, elsewhere, ih]

/-- A store as issued at a user place changes the stores and the local store of its thread alone. -/
theorem State.issueStore_frame {s : State} {pl : Place} (hpl : userPlace pl) (hr : ∀ e ∈ s.badReg, e.1 ≠ s.thr.key) (bs : List Byte) :
    s.issueStore (placeCells pl 0 bs) 0 false = { s with thr := { s.thr with
      sq := (s.issueStore (placeCells pl 0 bs) 0 false).thr.sq
      localStore := (s.issueStore (placeCells pl 0 bs) 0 false).thr.localStore
      stores := (s.issueStore (placeCells pl 0 bs) 0 false).thr.stores } } := by
  have saved : (placeCells pl 0 bs).filterMap csaWhole = [] := placeCells_filterMap_csaWhole hpl 0 bs
  have area : (placeCells pl 0 bs).filterMap (csaCell s.thr.vlen) = [] := placeCells_filterMap_none _ _ 0 bs fun k b => by
    cases pl with
    | csa o => exact absurd rfl (hpl o)
    | _ => rfl
  simp only [State.issueStore, State.issueUnits, List.flatten_cons, List.flatten_nil, List.append_nil, saved, area, clearSaved_nil,
    clearLocal_others _ _ _ hr]
  rfl

/-- Settles O10: with no store waiting an atomic reads its location, writes it at once, and `strl` is a store as issued. -/
theorem scalarAtomicResults : Obligations.ScalarAtomicResults := by
  intro s d a b z e pl hfit hsq hb hpl
  rw [atomBytes_eq]
  refine ⟨fun ha bad r hr q l => ?_, fun ha bad => ?_, fun ha bad => ?_⟩
  · obtain ⟨op, hop, row⟩ := atomicTable_eq hr
    obtain ⟨w, src, cmp, runs, writes⟩ := row d a b q l z e s
    rw [runs, writes]
    obtain ⟨t, ht, done⟩ := atomOp_done hfit hsq hb hpl w l src op z d (s.xr b) cmp (by omega) rfl
      (by rwa [if_neg (by omega)]) bad
    refine ⟨t, ht, fun k => ?_, ?_, State.atomicFrame_heldDone done (State.atomicFrame_setX (State.written_frame hpl hfit.1.2 _ _) _ _)⟩
    · rw [done.xr, State.xr_setX]
      split
      · rfl
      · exact congrFun (State.written_xr s pl _ _) k
    · have stored := State.written_stored hsq done
      split <;> next new => simpa [new] using stored
  · exact atomOp_done hfit hsq hb hpl _ false _ 8 z d 0 0 (by decide) rfl ha bad
  · obtain ⟨t, ht, done⟩ := strl_done hfit hsq hb a b z e ha bad
    rw [bytesOf_zext] at done
    refine ⟨t, ht, fun q hq => ?_, ?_⟩
    · rw [done.seen q hq, State.seen_issueStore]
    · have frame := done
      rw [State.issueStore_frame hpl hfit.1.2, ← done.sq, ← done.localStore, ← done.stores] at frame
      exact frame

end Sys2Proof.Machine
end

section
/-! The issued stores of a thread performed, where no peer holds a byte of them (R258 to R261). -/

namespace Sys2Proof.Machine
open Sys2Proof.Statements

/-! ### Bytes after several stores -/

theorem Memory.byte_putCells_congr (cs : List Host.Cell) {m n : Memory} {a : Nat} (h : m.byte a = n.byte a) :
    (m.putCells cs).byte a = (n.putCells cs).byte a := by
  induction cs generalizing m n with
  | nil => exact h
  | cons c cs ih => exact ih (by rw [Memory.byte_put, Memory.byte_put, h])

/-- Memory once stores have been performed, in order. -/
def Memory.putStores (m : Memory) (ps : List PendStore) : Memory := ps.foldl (fun m p => m.putCells p.cells) m

theorem Memory.byte_putStores_congr (ps : List PendStore) {m n : Memory} {a : Nat} (h : m.byte a = n.byte a) :
    (m.putStores ps).byte a = (n.putStores ps).byte a := by
  induction ps generalizing m n with
  | nil => exact h
  | cons p ps ih => exact ih (Memory.byte_putCells_congr p.cells h)

theorem Memory.byte_putStores_untouched (ps : List PendStore) (m : Memory) {a : Nat} (h : ∀ p ∈ ps, ∀ c ∈ p.cells, c.1 ≠ a) :
    (m.putStores ps).byte a = m.byte a := by
  induction ps generalizing m with
  | nil => rfl
  | cons p ps ih =>
    obtain ⟨first, rest⟩ := List.forall_mem_cons.1 h
    exact (ih _ rest).trans (Memory.byte_putCells_of_not_mem _ _ _ first)

/-- True of two stores that share no byte. -/
def PendStore.apart (p q : PendStore) : Prop := ∀ c ∈ p.cells, ∀ d ∈ q.cells, c.1 ≠ d.1

/-- A store and others that share no byte with it may change places. -/
theorem Memory.byte_putStores_comm (p : PendStore) (ps : List PendStore) (m : Memory) (a : Nat) (h : ∀ q ∈ ps, p.apart q) :
    ((m.putStores ps).putCells p.cells).byte a = ((m.putCells p.cells).putStores ps).byte a := by
  by_cases touched : ∃ c ∈ p.cells, c.1 = a
  · obtain ⟨c, hc, rfl⟩ := touched
    have untouched (n : Memory) : (n.putStores ps).byte c.1 = n.byte c.1 :=
      Memory.byte_putStores_untouched ps n fun q hq d hd => (h q hq c hc d hd).symm
    rw [untouched, Memory.byte_putCells_congr p.cells (untouched m)]
  · have untouched (n : Memory) : (n.putCells p.cells).byte a = n.byte a :=
      Memory.byte_putCells_of_not_mem _ _ _ fun c hc ha => touched ⟨c, hc, ha⟩
    rw [untouched, Memory.byte_putStores_congr ps (untouched m)]

/-! ### Marked stores -/

/-- The stores that a list marks, in their order, and the others. -/
def marked (l : List (PendStore × Bool)) : List PendStore := (l.filter Prod.snd).map Prod.fst
def unmarked (l : List (PendStore × Bool)) : List PendStore := (l.filter fun e => !e.2).map Prod.fst

@[simp] theorem marked_cons_true (p : PendStore) (l : List (PendStore × Bool)) : marked ((p, true) :: l) = p :: marked l := rfl
@[simp] theorem marked_cons_false (p : PendStore) (l : List (PendStore × Bool)) : marked ((p, false) :: l) = marked l := rfl
@[simp] theorem unmarked_cons_true (p : PendStore) (l : List (PendStore × Bool)) : unmarked ((p, true) :: l) = unmarked l := rfl
@[simp] theorem unmarked_cons_false (p : PendStore) (l : List (PendStore × Bool)) : unmarked ((p, false) :: l) = p :: unmarked l := rfl

theorem mem_marked_iff {l : List (PendStore × Bool)} {p : PendStore} : p ∈ marked l ↔ (p, true) ∈ l := by
  simp [marked]

theorem mem_unmarked_iff {l : List (PendStore × Bool)} {p : PendStore} : p ∈ unmarked l ↔ (p, false) ∈ l := by
  simp [unmarked]

/-- No store that is left comes before a marked one (R259). -/
def MarksClosed : List (PendStore × Bool) → Prop :=
  List.Pairwise fun x y => x.2 = false → y.2 = true → x.1.before y.1 = false

/-- Marked stores first and then the others: memory is what it is with all in their order, where a store that is left shares no byte
with a later marked one. -/
theorem Memory.byte_putStores_marked (l : List (PendStore × Bool)) (m : Memory) (a : Nat)
    (h : l.Pairwise fun x y => x.2 = false → y.2 = true → x.1.apart y.1) :
    ((m.putStores (marked l)).putStores (unmarked l)).byte a = (m.putStores (l.map Prod.fst)).byte a := by
  induction l generalizing m with
  | nil => rfl
  | cons e l ih =>
    obtain ⟨p, b⟩ := e
    obtain ⟨first, rest⟩ := List.pairwise_cons.1 h
    cases b with
    | true => exact ih _ rest
    | false =>
      refine Eq.trans ?_ (ih _ rest)
      exact Memory.byte_putStores_congr (unmarked l)
        (Memory.byte_putStores_comm p _ m a fun q hq => first (q, true) (mem_marked_iff.1 hq) rfl rfl)

/-! ### Performing -/

/-- Stores performed, in order. -/
def State.performAll (s : State) (ps : List PendStore) : State := ps.foldl (fun u p => u.perform p.cells) s

theorem State.performAll_eq (s : State) (ps : List PendStore) : s.performAll ps =
    { s with mem := s.mem.putStores ps, homes := (s.performAll ps).homes, badMem := (s.performAll ps).badMem } := by
  induction ps generalizing s with
  | nil => rfl
  | cons p ps ih => exact ih (s.perform p.cells)

/-- A store clears errors at most (R108). -/
theorem State.perform_badMem (s : State) (cells : List Host.Cell) (g : Nat) :
    Assoc.get? (s.perform cells).badMem g = Assoc.get? s.badMem g ∨ Assoc.get? (s.perform cells).badMem g = none := by
  have cleared := Assoc.get?_filter s.badMem (fun g => !((List.range 8).all fun i => cells.any fun c => decide (c.1 = g + i))) g
  unfold State.perform
  dsimp only
  split
  · exact .inr rfl
  · rw [show Assoc.get? (clearBad s.badMem cells) g = _ from cleared]
    split
    · exact .inl rfl
    · exact .inr rfl

theorem State.performAll_badMem (s : State) (ps : List PendStore) (g : Nat) :
    Assoc.get? (s.performAll ps).badMem g = Assoc.get? s.badMem g ∨ Assoc.get? (s.performAll ps).badMem g = none := by
  induction ps generalizing s with
  | nil => exact .inl rfl
  | cons p ps ih =>
    rcases ih (s.perform p.cells) with h | h
    · exact (s.perform_badMem p.cells g).imp h.trans h.trans
    · exact .inr h

/-- The marked stores of a thread are performed, in their order, where no peer holds a byte of them. -/
theorem State.drainMarked_near (s : State) (t : Thread) (kept : List PendStore) (l : List (PendStore × Bool)) (closed : MarksClosed l)
    (free : ∀ q ∈ kept, ∀ y ∈ l, y.2 = true → q.before y.1 = false)
    (near : ∀ x ∈ l, ∀ c ∈ x.1.cells, (Place.device c.1).remote = false) :
    s.drainMarked t kept l = (s.performAll (marked l), kept ++ unmarked l) := by
  induction l generalizing s kept with
  | nil => simp [State.drainMarked, State.performAll, marked, unmarked]
  | cons e l ih =>
    obtain ⟨p, b⟩ := e
    obtain ⟨first, rest⟩ := List.pairwise_cons.1 closed
    obtain ⟨here, nearRest⟩ := List.forall_mem_cons.1 near
    have later : ∀ q ∈ kept, ∀ y ∈ l, y.2 = true → q.before y.1 = false := fun q hq y hy => free q hq y (List.mem_cons_of_mem _ hy)
    cases b with
    | false =>
      rw [State.drainMarked, if_pos (by simp), ih _ _ rest _ nearRest]
      · simp
      · intro q hq
        rcases List.mem_append.1 hq with hq | hq
        · exact later q hq
        · rw [List.mem_singleton.1 hq]
          exact fun y hy => first y hy rfl
    | true =>
      have none : kept.any (fun q => q.before p) = false :=
        List.any_eq_false.2 fun q hq => by simp [free q hq _ List.mem_cons_self rfl]
      have held : (remoteCells p.cells).1 = [] := by
        rw [remoteCells, List.partition_eq_filter_filter]
        exact List.filter_eq_nil_iff.2 fun c hc => by simp [here c hc]
      rw [State.drainMarked, none]
      simp only [held, Bool.not_true, Bool.or_self, Bool.false_eq_true, if_false, List.isEmpty_nil, if_true]
      exact ih _ _ rest later nearRest

/-! ### The stores that a test asks for (R259) -/

theorem map_fst_neededStores (f : PendStore → Bool) (l : List PendStore) : (neededStores f l).map Prod.fst = l := by
  induction l with
  | nil => rfl
  | cons p l ih => exact congrArg (p :: ·) ih

theorem neededStores_closed (f : PendStore → Bool) (l : List PendStore) : MarksClosed (neededStores f l) := by
  induction l with
  | nil => exact .nil
  | cons p l ih =>
    refine List.pairwise_cons.2 ⟨fun y hy left wanted => ?_, ih⟩
    obtain ⟨-, none⟩ := Bool.or_eq_false_iff.1 left
    simpa [wanted] using List.any_eq_false.1 none y hy

theorem neededStores_wanted (f : PendStore → Bool) (l : List PendStore) : ∀ x ∈ neededStores f l, f x.1 = true → x.2 = true := by
  induction l with
  | nil => exact fun x hx => absurd hx List.not_mem_nil
  | cons p l ih => exact List.forall_mem_cons.2 ⟨fun h => by simp [h], ih⟩

/-- A marked store is asked for, or comes before a marked one. -/
theorem neededStores_why (f : PendStore → Bool) (l : List PendStore) : ∀ x ∈ neededStores f l, x.2 = true →
    f x.1 = true ∨ ∃ y ∈ neededStores f l, y.2 = true ∧ x.1.before y.1 = true := by
  induction l with
  | nil => exact fun x hx => absurd hx List.not_mem_nil
  | cons p l ih =>
    refine List.forall_mem_cons.2 ⟨fun h => ?_, fun x hx wanted => (ih x hx wanted).imp_right ?_⟩
    · refine (Bool.or_eq_true_iff.1 h).imp_right fun some => ?_
      obtain ⟨y, hy, both⟩ := List.any_eq_true.1 some
      exact ⟨y, List.mem_cons_of_mem _ hy, by simpa using both⟩
    · exact fun ⟨y, hy, both⟩ => ⟨y, List.mem_cons_of_mem _ hy, both⟩

theorem neededStores_none (f : PendStore → Bool) (l : List PendStore) (h : ∀ p ∈ l, f p = false) :
    neededStores f l = l.map fun p => (p, false) := by
  induction l with
  | nil => rfl
  | cons p l ih =>
    obtain ⟨first, rest⟩ := List.forall_mem_cons.1 h
    simp [neededStores, ih rest, first]

/-! ### A drain -/

/-- The machine once the issued stores that `l` marks have been performed, with what becomes of homes and errors. -/
def State.drained (s : State) (l : List (PendStore × Bool)) : State :=
  (s.performAll (marked l)).mapThr fun t => { t with sq := unmarked l }

theorem State.drained_eq (s : State) (l : List (PendStore × Bool)) :
    s.drained l = { s.afterStores l with homes := (s.drained l).homes, badMem := (s.drained l).badMem } := by
  rw [State.drained, State.performAll_eq]
  rfl

theorem State.performAll_committed (s : State) (e : Vector Word 8) (ps : List PendStore) :
    (s.committed e).performAll ps = (s.performAll ps).committed e := by
  induction ps generalizing s with
  | nil => rfl
  | cons p ps ih => exact ih (s.perform p.cells)

theorem State.committed_drained (s : State) (e : Vector Word 8) (l : List (PendStore × Bool)) :
    (s.committed e).drained l = (s.drained l).committed e := by
  rw [State.drained, State.performAll_committed]
  rfl

theorem State.drained_none (s : State) {f : PendStore → Bool} (h : ∀ p ∈ s.thr.sq, f p = false) :
    s.drained (neededStores f s.thr.sq) = s := by
  have none : marked (s.thr.sq.map fun p => (p, false)) = [] := by simp [marked, List.filter_map]
  have all : unmarked (s.thr.sq.map fun p => (p, false)) = s.thr.sq := by simp [unmarked, List.filter_map, Function.comp_def]
  rw [neededStores_none f _ h, State.drained, none, all]
  rfl

/-- Where no peer holds a byte of a thread's stores, a drain performs those that are asked for with what comes before them. -/
theorem State.drainWhere_near (s : State) (f : PendStore → Bool) (near : s.thr.near) :
    s.drainWhere f = .ok (s.drained (neededStores f s.thr.sq)) := by
  unfold State.drainWhere
  cases some : s.thr.sq.any f with
  | false =>
    rw [s.drained_none fun p hp => by simpa using List.any_eq_false.1 some p hp]
    rfl
  | true =>
    have drains := s.drainMarked_near s.thr [] (neededStores f s.thr.sq) (neededStores_closed f _) (by simp) fun x hx =>
      near x.1 (by rw [← map_fst_neededStores f s.thr.sq]; exact List.mem_map_of_mem hx)
    have done : (unmarked (neededStores f s.thr.sq)).any f = false :=
      List.any_eq_false.2 fun p hp wanted => by simpa using neededStores_wanted f _ _ (mem_unmarked_iff.1 hp) wanted
    simp only [Bool.not_true, Bool.false_eq_true, if_false, drains, List.nil_append, done]
    rfl

/-- In compatible classes stores without an edge share no byte (R259). -/
theorem PendStore.apart_of_not_before {p q : PendStore} (h : p.before q = false) (alike : compatible p.cls q.cls = true) : p.apart q := by
  simp only [PendStore.before, alike, Bool.true_and, Bool.or_eq_false_iff, List.any_eq_false] at h
  obtain ⟨⟨-, noByte⟩, -⟩ := h
  exact fun c hc d hd same => noByte c hc (List.any_eq_true.2 ⟨d, hd, decide_eq_true same⟩)

/-- Where no store hides a byte of another in an incompatible class, the thread sees what it saw. -/
theorem State.view_afterStores (s : State) (l : List (PendStore × Bool)) (hl : l.map Prod.fst = s.thr.sq) (closed : MarksClosed l)
    (orderly : s.thr.orderly) (a : Nat) :
    ((s.afterStores l).thr.view (s.afterStores l).mem).byte a = (s.thr.view s.mem).byte a := by
  have inQueue {x : PendStore × Bool} (hx : x ∈ l) : x.1 ∈ s.thr.sq := hl ▸ List.mem_map_of_mem hx
  have apart : l.Pairwise fun x y => x.2 = false → y.2 = true → x.1.apart y.1 := by
    refine closed.imp_of_mem fun {x y} hx hy before left wanted => ?_
    rcases orderly x.1 (inQueue hx) y.1 (inQueue hy) with alike | apart
    · exact PendStore.apart_of_not_before (before left wanted) alike
    · exact apart
  have bytes := Memory.byte_putStores_marked l s.mem a apart
  rw [hl] at bytes
  exact bytes

end Sys2Proof.Machine
end

section
/-! Fences (R160). -/

namespace Sys2Proof.Machine
open Sys2Proof.Statements

/-- A fence performs the stores that it asks for. -/
theorem fence_done {s : State} (k : FenceKind) (e : Scope) (f : PendStore → Bool) (hfit : s.scalarFit []) (near : s.thr.near)
    (hk : ∀ u : State, u.fenceWait k = u.drainWhere f) : ∃ t, exec (.fence k e) s = .next t ∧
      t.heldDone (s.drained (neededStores f s.thr.sq)) (s.thr.pc + 4) := by
  show ∃ t, execFence k e s = .next t ∧ _
  refine issueHeld_done _ s _ _ hfit rfl rfl (fun ev => ?_) (by rw [State.drained_eq]; rfl)
  exact (hk _).trans ((State.drainWhere_near (s.committed ev) f near).trans (congrArg Except.ok (s.committed_drained ev _)))

theorem neededStores_all (l : List PendStore) : neededStores (fun _ => true) l = l.map fun p => (p, true) := by
  induction l with
  | nil => rfl
  | cons p l ih => simp [neededStores, ih]

/-- Settles O11: an acquire fence performs what reads took in with what comes before it, any other fence all stores. -/
theorem fenceResults : Obligations.FenceResults := by
  intro s e hfit near
  refine ⟨?_, fun k hk => ?_⟩
  · obtain ⟨t, ht, done⟩ := fence_done .acq e PendStore.read hfit near fun _ => rfl
    have names := map_fst_neededStores PendStore.read s.thr.sq
    have mem : t.mem = (s.afterStores (neededStores PendStore.read s.thr.sq)).mem := by rw [done.mem, State.drained_eq]
    refine ⟨t, _, ht, names, mem, neededStores_wanted _ _, neededStores_why _ _, fun orderly a => ?_, ?_⟩
    · rw [done.view, State.drained_eq]
      exact s.view_afterStores _ names (neededStores_closed _ _) orderly a
    · rw [done.homes, done.badMem, ← State.drained_eq]
      exact done
  · obtain ⟨t, ht, done⟩ := fence_done k e (fun _ => true) hfit near fun _ => by
      cases k with
      | acq => exact absurd rfl hk
      | _ => rfl
    have all : s.drained (neededStores (fun _ => true) s.thr.sq) = { s.performAll s.thr.sq with thr := { s.thr with sq := [] } } := by
      have every : marked (s.thr.sq.map fun p => (p, true)) = s.thr.sq := by simp [marked, List.filter_map, Function.comp_def]
      have rest : unmarked (s.thr.sq.map fun p => (p, true)) = [] := by simp [unmarked, List.filter_map]
      rw [neededStores_all, State.drained, every, rest, State.performAll_eq]
      rfl
    rw [all] at done
    refine ⟨t, ht, fun a => by rw [done.mem, State.performAll_eq]; rfl, ?_⟩
    rw [done.mem, done.homes, done.badMem]
    rw [State.performAll_eq] at done ⊢
    exact done

end Sys2Proof.Machine
end

section
/-! Stream registers (R173 to R175). -/

namespace Sys2Proof.Machine
open Sys2Proof.Statements

/-! ### A read of class 0 that waits for no peer (R256, R261) -/

theorem compatible_zero (c : BitVec 2) : compatible c 0 = true := by simp [compatible]

/-- Class 0 is compatible with every class, so a read in it misses no store. -/
theorem PendStore.visible_zero (rs : List Range) (p : PendStore) : p.visible 0 rs = true := by
  rw [PendStore.visible, compatible_zero, Bool.true_or]

theorem State.seesAll_zero (s : State) (k : Nat) (rs : List Range) : s.seesAll 0 k rs = true := by
  rw [State.seesAll, s.split_false 0 rs fun p _ => p.visible_zero rs]
  rfl

/-- The stores that a read of class 0 waits for. -/
def State.awaited (s : State) (rs : List Range) : List (PendStore × Bool) := neededStores (s.thr.joined 0 true rs) s.thr.sq

theorem State.number_congr {s t : State} (h : ∀ q, t.seen q = s.seen q) (pl : Place) (n : Nat) : t.number pl n = s.number pl n := by
  induction n generalizing pl with
  | zero => rfl
  | succ n ih => rw [State.number, State.number, h, ih]

section
variable {s : State} {rs : List Range} (calm : s.calm rs)
include calm

/-- A read of class 0 that waits for no peer performs the stores whose bytes it joins, and the thread sees what it saw. -/
theorem State.drainWhere_calm : s.drainWhere (s.thr.joined 0 true rs) = .ok (s.drained (s.awaited rs)) := by
  rcases calm with away | ⟨near, -⟩
  · have none : ∀ p ∈ s.thr.sq, s.thr.joined 0 true rs p = false := fun p hp => by simp [Thread.joined, away p hp]
    rw [s.drainWhere_none _ none, State.awaited, s.drained_none none]
  · exact s.drainWhere_near _ near

theorem State.awaited_marks : s.marks (s.awaited rs) := by
  refine ⟨map_fst_neededStores _ _, ?_⟩
  rcases calm with away | ⟨-, orderly⟩
  · have none : ∀ p ∈ s.thr.sq, s.thr.joined 0 true rs p = false := fun p hp => by simp [Thread.joined, away p hp]
    have same := s.drained_none none
    rw [State.drained_eq] at same
    intro a
    have bytes := congrArg (fun u : State => (u.thr.view u.mem).byte a) same
    exact bytes
  · exact s.view_afterStores _ (map_fst_neededStores _ _) (neededStores_closed _ _) orderly

theorem State.seen_drained (q : Place) : (s.drained (s.awaited rs)).seen q = s.seen q := by
  rw [State.drained_eq]
  cases q with
  | device a => exact (State.awaited_marks calm).2 a
  | localStore o => rfl
  | csa o => rfl

end

/-- A read of class 0 that waits for no peer answers what the thread sees. -/
theorem State.readClass_calm {s : State} {ea : Word} {n : Nat} {pl : Place} (ld : s.loadable ea n pl) (calm : s.calm (pl.range n)) :
    ∃ bs, s.readClass 0 ea n = .ok (bs, (s.drained (s.awaited (pl.range n))).mapThr fun t => t.noteRead 0 true (pl.range n)) ∧
      natOfBytes bs = s.number pl n := by
  have read := s.readClass_ok _ 0 ea n pl ld (by rw [State.seesAll_zero]; exact State.drainWhere_calm calm)
  rw [State.seesAll_zero, s.split_false 0 _ fun p _ => p.visible_zero _] at read
  refine ⟨_, read, ?_⟩
  rw [← State.number_eq]
  exact State.number_congr (State.seen_drained calm) pl n

theorem bare_noteReads (cls : BitVec 2) (all : Bool) (rs : List Range) (seen ps : List PendStore) :
    bare (noteReads cls all rs seen ps) = bare ps := by
  induction ps generalizing seen with
  | nil => rfl
  | cons p ps ih =>
    unfold noteReads
    dsimp only
    split
    · exact congrArg (_ :: ·) (ih _)
    · exact congrArg (_ :: ·) (ih _)

/-! ### The instructions -/

section
variable {s : State} {q : Reg} (hfit : s.scalarFit [17]) (user : s.thr.supervisor = false) (hq : q.toNat < 8)
include user hq

theorem stream_legal : (isStream q && !s.thr.supervisor) = true := by simp [isStream, user, hq]

include hfit

theorem qbind_done (a b : Reg) (y : Tether) (hy : s.myTether? (s.xr a) = some y) (kind : y.kind = .copy)
    (window : toWindow y = true → y.issuer = s.thr.key) (size : (s.xr b).toNat < 4) (base : y.ops.2.1.toNat % 2 ^ (s.xr b).toNat = 0)
    (len : copyEsz y.ops.2.2 * volume y.layout % 2 ^ (s.xr b).toNat = 0) : ∃ t, exec (.qbind q a b) s = .next t ∧
      t.heldDone { s with thr := { s.thr with
        binds := Assoc.put s.thr.binds q.toNat
          ⟨s.xr a, y.ops.2.1.toNat, copyEsz y.ops.2.2 * volume y.layout, 2 ^ (s.xr b).toNat, 0, none⟩ } } (s.thr.pc + 4) := by
  show ∃ t, execQbind q a b s = .next t ∧ _
  unfold execQbind streamOp
  refine issueHeld_done _ s _ _ hfit (stream_legal user hq) rfl (fun e => ?_) rfl
  have xa : (s.committed e).xr a = s.xr a := rfl
  have xb : (s.committed e).xr b = s.xr b := rfl
  have known : (s.committed e).myTether? (s.xr a) = some y := hy
  have key : (s.committed e).thr.key = s.thr.key := rfl
  have own : (!toWindow y || decide (y.issuer = s.thr.key)) = true := by
    cases w : toWindow y with
    | false => rfl
    | true => simpa using window w
  simp only [xa, xb, known, key, own, size, kind, base, len, need, decide_true, Bool.and_self, and_self, if_true, bind, Except.bind]
  rfl

theorem qunbind_done : ∃ t, exec (.qunbind q) s = .next t ∧
    t.heldDone { s with thr := { s.thr with binds := Assoc.drop s.thr.binds q.toNat } } (s.thr.pc + 4) := by
  show ∃ t, execQunbind q s = .next t ∧ _
  unfold execQunbind streamOp
  exact issueHeld_done _ s _ _ hfit (stream_legal user hq) rfl (fun e => rfl) rfl

section
variable {x : StreamBind} (hx : Assoc.get? s.thr.binds q.toNat = some x)
include hx

theorem qavail_done (d : Reg) : ∃ t, exec (.qavail d q) s = .next t ∧ t.heldDone (s.setX d (BitVec.ofNat 64
    ((s.arrived x).1 / x.bytes - x.pos + if (s.arrived x).2 = true ∨ x.pos * x.bytes = x.len then 2 ^ 63 else 0))) (s.thr.pc + 4) := by
  show ∃ t, execQavail d q s = .next t ∧ _
  unfold execQavail streamOp
  refine issueHeld_done _ s _ _ hfit (stream_legal user hq) rfl (fun e => ?_) rfl
  have bound : (s.committed e).thr.bind? q = some x := hx
  have arrived : (s.committed e).arrived x = s.arrived x := rfl
  simp only [bound, arrived, Bool.or_eq_true, decide_eq_true_eq]
  exact congrArg Except.ok (s.committed_setX e d _)

/-- What `qget` leaves: the joined stores performed, the read noted, the position moved on. -/
def State.gotten (s : State) (d q : Reg) (x : StreamBind) (rs : List Range) (v : Word) : State :=
  ((((s.drained (s.awaited rs)).mapThr fun t => t.noteRead 0 true rs).setX d v).mapThr fun t => t.advance q x 1)

theorem qget_done (d : Reg) (pl : Place) (has : streamHas s q x 1) (ld : s.loadable (streamAddr x 0) x.bytes pl)
    (calm : s.calm (pl.range x.bytes)) : ∃ t, exec (.qget d q) s = .next t ∧
      t.heldDone (s.gotten d q x (pl.range x.bytes) (extended x.bytes true (s.number pl x.bytes))) (s.thr.pc + 4) := by
  obtain ⟨-, -, inside, here⟩ := has
  show ∃ t, execQget d q s = .next t ∧ _
  unfold execQget streamOp
  refine issueHeld_done _ s _ _ hfit (stream_legal user hq) rfl (fun e => ?_) ?_
  · have bound : (s.committed e).thr.bind? q = some x := hx
    have ready : (s.committed e).streamReady q x 1 = .ok () := by
      have arrived : (s.committed e).arrived x = s.arrived x := rfl
      simp only [State.streamReady, arrived, if_neg (Nat.not_lt.2 inside), if_pos here]
    obtain ⟨bs, read, value⟩ := State.readClass_calm (s := s.committed e) ld calm
    have read' : (s.committed e).readClass 0 (x.addr 0) x.bytes = _ := read
    have number : (s.committed e).number pl x.bytes = s.number pl x.bytes := State.number_congr (s := s) (t := s.committed e) (fun _ => rfl) pl _
    simp only [bound, ready, read', value, number, bind, Except.bind]
    show Except.ok (((((s.committed e).drained (s.awaited (pl.range x.bytes))).mapThr _).setX d _).mapThr _) = _
    rw [State.committed_drained]
    exact congrArg (fun u : State => Except.ok (u.mapThr fun t => t.advance q x 1))
      (State.committed_setX ((s.drained (s.awaited (pl.range x.bytes))).mapThr fun t => t.noteRead 0 true (pl.range x.bytes)) e d _)
  · show (s.drained _).badReg = s.badReg
    rw [State.drained_eq]
    rfl

end

end

/-- The machine with what a read may change of memory and of the running thread's stores. -/
def State.readFrame (s : State) (m : Memory) (h : Assoc Nat (List Byte)) (bad : Assoc Nat Nat) (sq : List PendStore) : State :=
  { s with mem := m, homes := h, badMem := bad, thr := { s.thr with sq := sq } }

theorem State.drained_readFrame (s : State) (l : List (PendStore × Bool)) :
    s.drained l = s.readFrame (s.afterStores l).mem (s.drained l).homes (s.drained l).badMem (unmarked l) :=
  s.drained_eq l

theorem Thread.setX_advance (t : Thread) (d q : Reg) (x : StreamBind) (v : Word) :
    (t.setX d v).advance q x 1 = ({ t with binds := streamAfter t q x 1 } : Thread).setX d v := by
  unfold Thread.setX
  split <;> rfl

theorem State.gotten_eq (s : State) (d q : Reg) (x : StreamBind) (rs : List Range) (v : Word) : s.gotten d q x rs v =
    ({ s with
      mem := (s.afterStores (s.awaited rs)).mem
      homes := (s.drained (s.awaited rs)).homes
      badMem := (s.drained (s.awaited rs)).badMem
      thr := { s.thr with
        sq := noteReads 0 true rs [] (unmarked (s.awaited rs))
        binds := streamAfter s.thr q x 1 } } : State).setX d v := by
  unfold State.gotten
  conv_lhs => rw [State.drained_readFrame]
  simp only [State.readFrame, State.mapThr, State.setX, Thread.setX_advance]
  rfl

section
variable {s t : State} {d q : Reg} {x : StreamBind} {rs : List Range} {v pc : Word} (h : t.heldDone (s.gotten d q x rs v) pc)
include h

theorem gotten_mem : t.mem = (s.afterStores (s.awaited rs)).mem := by
  rw [h.mem, show (s.gotten d q x rs v).mem = (s.drained (s.awaited rs)).mem from rfl, State.drained_eq]
theorem gotten_homes : t.homes = (s.drained (s.awaited rs)).homes := h.homes
theorem gotten_badMem : t.badMem = (s.drained (s.awaited rs)).badMem := h.badMem
theorem gotten_sq : t.thr.sq = noteReads 0 true rs [] (unmarked (s.awaited rs)) := by
  rw [h.sq]
  simp only [State.gotten, State.mapThr, Thread.advance, State.setX_thr, Thread.setX_sq, Thread.noteRead_sq]
  rfl

end

/-- What a `qget` takes in (R261). -/
theorem State.gotten_tookIn {s t : State} {d q : Reg} {x : StreamBind} {rs : List Range} {v pc : Word} (calm : s.calm rs)
    (h : t.heldDone (s.gotten d q x rs v) pc) : tookIn s t (s.awaited rs) := by
  refine ⟨State.awaited_marks calm, ?_, ?_, fun g => ?_⟩
  · exact gotten_mem h
  · rw [gotten_sq h, bare_noteReads]
    rfl
  · rw [gotten_badMem h]
    exact s.performAll_badMem (marked (s.awaited rs)) g

/-- Settles O27, an instruction at a time: `qget` is a read of class 0, which misses no store of the thread. -/
theorem streamResults : Obligations.StreamResults := by
  intro s d a b q hfit user hq
  refine ⟨fun y hy kind window size base len => qbind_done hfit user hq a b y hy kind window size base len,
    qunbind_done hfit user hq, fun x hx => ⟨fun pl has ld calm => ?_, qavail_done hfit user hq hx d⟩⟩
  obtain ⟨t, ht, done⟩ := qget_done hfit user hq hx d pl has ld calm
  refine ⟨t, _, ht, State.gotten_tookIn calm done, ?_⟩
  have frame := done
  rw [State.gotten_eq, ← gotten_mem done, ← gotten_homes done, ← gotten_badMem done, ← gotten_sq done] at frame
  exact frame

end Sys2Proof.Machine
end

section
/-! The copies of a churn window (R169, R170). -/

namespace Sys2Proof.Machine
open Sys2Proof.Statements

/-! ### One operation (R169) -/

theorem Thread.sew_wide {t : Thread} (h : 32 ≤ t.sew) : t.sew = 32 ∨ t.sew = 64 := by
  unfold Thread.sew vtSew at h ⊢
  have code : t.vtype.toNat % 4 < 4 := Nat.mod_lt _ (by decide)
  interval_cases t.vtype.toNat % 4 <;> simp_all

theorem churnOp_eq (o : ChOp) (mode : RMode) {w : Nat} (hw : w = 32 ∨ w = 64) (x y : Nat) :
    churnOp o (churnFmt w) mode w x y = churnResult o mode w x y := by
  cases o with
  | fadd => rcases hw with rfl | rfl <;> rfl
  | _ => rfl

/-- A format whose codes of infinities and NaNs lie among the codes of its width. -/
def Fmt.fits (f : Fmt) : Prop := f.maxFinite + 1 < f.signBit ∧ f.qnan < 2 * f.signBit

theorem Fmt.signed_lt {f : Fmt} (neg : Bool) {mag : Nat} (h : mag < f.signBit) : f.signed neg mag < 2 * f.signBit := by
  unfold Fmt.signed
  split <;> omega

section
variable {f : Fmt} (hf : f.fits)
include hf

theorem Fmt.overflow_lt (mode : RMode) (neg : Bool) : f.overflow mode neg < 2 * f.signBit := by
  obtain ⟨inf, -⟩ := hf
  have largest (n : Bool) : f.signed n f.maxFinite < 2 * f.signBit := Fmt.signed_lt n (by omega)
  have infinite (n : Bool) : f.inf n < 2 * f.signBit := Fmt.signed_lt n inf
  unfold Fmt.overflow
  split
  · split
    · exact infinite _
    · exact infinite _
    · exact largest _
    · exact infinite _
    · omega
    · exact largest _
    · exact infinite _
  · exact largest _

theorem Fmt.round_lt (mode : RMode) (x : Dy) : (f.round mode x).1 < 2 * f.signBit := by
  have overflow := Fmt.overflow_lt hf mode x.neg
  obtain ⟨inf, -⟩ := hf
  unfold Fmt.round
  split
  · exact Fmt.signed_lt _ (by omega)
  · dsimp only
    split
    · exact overflow
    · next finite => exact Fmt.signed_lt _ (by omega)

/-- A sum is a code of its format. -/
theorem Fmt.add_lt (mode : RMode) (a b : Nat) : (f.add mode a b).1 < 2 * f.signBit := by
  have infinite (n : Bool) : f.inf n < 2 * f.signBit := Fmt.signed_lt n hf.1
  unfold Fmt.add Fmt.addVal
  split
  · exact hf.2
  · exact hf.2
  · exact hf.2
  · split
    · exact infinite _
    · exact hf.2
  · exact infinite _
  · exact infinite _
  · exact Fmt.round_lt hf mode _

end

/-- What an operation makes of doublewords is one. -/
theorem churnResult_lt (o : ChOp) (mode : RMode) {w : Nat} (hw : w = 32 ∨ w = 64) {x y : Nat} (hx : x < 2 ^ 64) (hy : y < 2 ^ 64) :
    (churnResult o mode w x y).1 < 2 ^ 64 := by
  cases o with
  | add =>
    have bound : 2 ^ w ≤ 2 ^ 64 := Nat.pow_le_pow_right (by decide) (by omega)
    exact (Nat.mod_lt _ (Nat.two_pow_pos w)).trans_le bound
  | min =>
    dsimp only [churnResult]
    split
    · exact hx
    · exact hy
  | max =>
    dsimp only [churnResult]
    split
    · exact hx
    · exact hy
  | fadd =>
    rcases hw with rfl | rfl
    · exact (Fmt.add_lt (f := Fmt.f32) ⟨by decide, by decide⟩ mode x y).trans (by decide)
    · exact (Fmt.add_lt (f := Fmt.f64) ⟨by decide, by decide⟩ mode x y).trans_le (by decide)

/-! ### The copies by their keys -/

theorem get?_putCopy (l : Assoc (Nat × Nat) Word) (k j : Nat × Nat) (v : Word) :
    Assoc.get? (putCopy l k v) j = if j = k then some v else Assoc.get? l j := by
  induction l with
  | nil => simp only [putCopy, Assoc.get?_cons, eq_comm (a := k)]
  | cons e l ih =>
    obtain ⟨i, w⟩ := e
    rw [putCopy]
    split
    · next same =>
      subst same
      simp only [Assoc.get?_cons, eq_comm (a := i)]
      split <;> rfl
    · next other =>
      split
      · simp only [Assoc.get?_cons, eq_comm (a := k)]
      · simp only [Assoc.get?_cons, ih]
        by_cases hj : i = j
        · rw [if_pos hj, if_neg fun h => other (hj.trans h), if_pos hj]
        · rw [if_neg hj, if_neg hj]

theorem mem_putCopy {l : Assoc (Nat × Nat) Word} {k : Nat × Nat} {v : Word} {e : (Nat × Nat) × Word} (he : e ∈ putCopy l k v) :
    e = (k, v) ∨ e ∈ l := by
  induction l with
  | nil => exact .inl (List.mem_singleton.1 he)
  | cons a l ih =>
    obtain ⟨i, w⟩ := a
    rw [putCopy] at he
    split at he
    · exact (List.mem_cons.1 he).imp_right (List.mem_cons_of_mem _)
    · split at he
      · exact List.mem_cons.1 he
      · rcases List.mem_cons.1 he with rfl | he
        · exact .inr List.mem_cons_self
        · exact (ih he).imp_right (List.mem_cons_of_mem _)

/-- Copies stay in the order of rising lane and index. -/
theorem inLaneOrder_putCopy {l : Assoc (Nat × Nat) Word} (k : Nat × Nat) (v : Word) (h : inLaneOrder l) : inLaneOrder (putCopy l k v) := by
  induction l with
  | nil => exact List.pairwise_singleton _ _
  | cons a l ih =>
    obtain ⟨i, w⟩ := a
    obtain ⟨first, rest⟩ := List.pairwise_cons.1 h
    rw [putCopy]
    split
    · next same => exact List.pairwise_cons.2 ⟨fun e he => same ▸ first e he, rest⟩
    · next other =>
      split
      · next before =>
        refine List.pairwise_cons.2 ⟨fun e he => ?_, h⟩
        rcases List.mem_cons.1 he with rfl | he
        · exact before
        · have later := first e he
          dsimp only at later ⊢
          omega
      · next after =>
        refine List.pairwise_cons.2 ⟨fun e he => ?_, ih rest⟩
        rcases mem_putCopy he with rfl | he
        · have apart : i.1 ≠ k.1 ∨ i.2 ≠ k.2 := by
            by_contra same
            rw [not_or, not_not, not_not] at same
            exact other (Prod.ext same.1 same.2)
          dsimp only
          omega
        · exact first e he

/-! ### Updates (R170) -/

/-- A copy after one value. -/
def copyStep (o : ChOp) (mode : RMode) (w : Nat) : Option Nat → Nat → Nat × Flags
  | none, v => (v, 0)
  | some x, v => churnResult o mode w x v

theorem copyAfter_cons (o : ChOp) (mode : RMode) (w : Nat) (c : Option Nat) (v : Nat) (r : List Nat) :
    copyAfter o mode w c (v :: r) = ((copyAfter o mode w (some (copyStep o mode w c v).1) r).1,
      (copyStep o mode w c v).2 ||| (copyAfter o mode w (some (copyStep o mode w c v).1) r).2) := by
  cases c with
  | none => exact Prod.ext rfl BitVec.zero_or.symm
  | some x => rfl

/-- One update puts the copy that its value makes. -/
theorem ChurnWin.update_eq (c : ChurnWin) (mode : RMode) (hw : c.bits = 32 ∨ c.bits = 64) (lane e v : Nat) :
    c.update mode lane e v =
      ({ c with copies := putCopy c.copies (lane, e) (BitVec.ofNat 64 (copyStep c.op mode c.bits (copyIn c (lane, e)) v).1) },
        (copyStep c.op mode c.bits (copyIn c (lane, e)) v).2) := by
  unfold ChurnWin.update copyIn
  cases Assoc.get? c.copies (lane, e) with
  | none => rfl
  | some x => simp only [churnOp_eq _ _ hw, Option.map_some, copyStep]

theorem copyIn_put (c : ChurnWin) (mode : RMode) (hw : c.bits = 32 ∨ c.bits = 64) (j k : Nat × Nat) {v : Nat} (hv : v < 2 ^ 64) :
    copyIn { c with copies := putCopy c.copies j (BitVec.ofNat 64 (copyStep c.op mode c.bits (copyIn c j) v).1) } k =
      if k = j then some (copyStep c.op mode c.bits (copyIn c j) v).1 else copyIn c k := by
  have fits : (copyStep c.op mode c.bits (copyIn c j) v).1 < 2 ^ 64 := by
    unfold copyIn
    cases Assoc.get? c.copies j with
    | none => exact hv
    | some x => exact churnResult_lt _ _ hw x.isLt hv
  rw [copyIn, get?_putCopy]
  split
  · rw [Option.map_some, BitVec.toNat_ofNat, Nat.mod_eq_of_lt fits]
  · rfl

/-! ### Flags of several operations -/

theorem orFlags_cons (f : Flags) (l : List Flags) : orFlags (f :: l) = f ||| orFlags l := by
  have general (a b : Flags) (l : List Flags) : l.foldl (· ||| ·) (a ||| b) = a ||| l.foldl (· ||| ·) b := by
    induction l generalizing b with
    | nil => rfl
    | cons g l ih => rw [List.foldl_cons, List.foldl_cons, BitVec.or_assoc, ih]
  exact (congrArg (fun b => l.foldl (· ||| ·) b) (BitVec.or_comm 0 f)).trans (general f 0 l)

theorem getLsbD_orFlags (l : List Flags) (n : Nat) : (orFlags l).getLsbD n = true ↔ ∃ f ∈ l, f.getLsbD n = true := by
  induction l with
  | nil => simp [orFlags]
  | cons f l ih => simp [orFlags_cons, ih]

end Sys2Proof.Machine
end

section
/-! The updates of a churn window (R170): each copy takes the values of the elements with its key, in rising index. -/

namespace Sys2Proof.Machine
open Sys2Proof.Statements

/-- The values that some elements give to a copy. -/
def valuesFor (t : Thread) (a b : Reg) (k : Nat × Nat) (l : List Nat) : List Nat :=
  (l.filter fun i => decide (copyKey t a i = k)).map fun i => elemAt t b i

/-- What some elements make of a copy. -/
def ChurnWin.copyResult (c : ChurnWin) (t : Thread) (a b : Reg) (l : List Nat) (k : Nat × Nat) : Option Nat × Flags :=
  copyAfter c.op t.vfrm c.bits (copyIn c k) (valuesFor t a b k l)

/-- The value and the flags that an element makes of the copy of its key, and the window with it. -/
def ChurnWin.step (c : ChurnWin) (t : Thread) (a b : Reg) (i : Nat) : Nat × Flags :=
  copyStep c.op t.vfrm c.bits (copyIn c (copyKey t a i)) (elemAt t b i)
def ChurnWin.stepped (c : ChurnWin) (t : Thread) (a b : Reg) (i : Nat) : ChurnWin :=
  { c with copies := putCopy c.copies (copyKey t a i) (BitVec.ofNat 64 (c.step t a b i).1) }

theorem valuesFor_cons (t : Thread) (a b : Reg) (k : Nat × Nat) (i : Nat) (l : List Nat) : valuesFor t a b k (i :: l) =
    if k = copyKey t a i then elemAt t b i :: valuesFor t a b k l else valuesFor t a b k l := by
  by_cases same : k = copyKey t a i
  · simp [valuesFor, same]
  · simp [valuesFor, same, Ne.symm same]

section
variable (t : Thread) (a b : Reg)

theorem Thread.updates_cons (c : ChurnWin) (hw : c.bits = 32 ∨ c.bits = 64) (i : Nat) (l : List Nat) :
    t.updates a b (i :: l) c = ((t.updates a b l (c.stepped t a b i)).1, (c.step t a b i).2 ||| (t.updates a b l (c.stepped t a b i)).2) := by
  have first : c.update t.vfrm (i % t.lanesCount) (t.elem a.toNat i t.sew2) (t.elem b.toNat i t.sew) =
      (c.stepped t a b i, (c.step t a b i).2) := c.update_eq t.vfrm hw _ _ _
  simp only [Thread.updates, first]

theorem ChurnWin.copyIn_stepped (c : ChurnWin) (hw : c.bits = 32 ∨ c.bits = 64) (hs : t.sew ≤ 64) (i : Nat) (k : Nat × Nat) :
    copyIn (c.stepped t a b i) k = if k = copyKey t a i then some (c.step t a b i).1 else copyIn c k :=
  copyIn_put c t.vfrm hw (copyKey t a i) k ((t.elem_lt _ _ _).trans_le (Nat.pow_le_pow_right (by decide) hs))

/-- The first element takes part in the copy of its key alone. -/
theorem ChurnWin.copyResult_cons (c : ChurnWin) (hw : c.bits = 32 ∨ c.bits = 64) (hs : t.sew ≤ 64) (i : Nat) (l : List Nat) (k : Nat × Nat) :
    c.copyResult t a b (i :: l) k = (((c.stepped t a b i).copyResult t a b l k).1,
      if k = copyKey t a i then (c.step t a b i).2 ||| ((c.stepped t a b i).copyResult t a b l k).2
      else ((c.stepped t a b i).copyResult t a b l k).2) := by
  unfold ChurnWin.copyResult
  rw [c.copyIn_stepped t a b hw hs]
  by_cases same : k = copyKey t a i
  · rw [valuesFor_cons, if_pos same, if_pos same, if_pos same, copyAfter_cons, same]
    rfl
  · rw [valuesFor_cons, if_neg same, if_neg same, if_neg same]
    rfl

/-- A copy that no element updates raises nothing. -/
theorem ChurnWin.copyResult_flags (c : ChurnWin) (l : List Nat) (k : Nat × Nat) {n : Nat}
    (h : (c.copyResult t a b l k).2.getLsbD n = true) : ∃ i ∈ l, copyKey t a i = k := by
  by_contra none
  have empty : valuesFor t a b k l = [] := by
    rw [valuesFor, List.filter_eq_nil_iff.2 fun i hi same => none ⟨i, hi, of_decide_eq_true same⟩, List.map_nil]
  rw [ChurnWin.copyResult, empty] at h
  cases hc : copyIn c k <;> simp [hc, copyAfter] at h

theorem Thread.updates_window (l : List Nat) (c : ChurnWin) (hw : c.bits = 32 ∨ c.bits = 64) :
    (t.updates a b l c).1 = { c with copies := (t.updates a b l c).1.copies } := by
  induction l generalizing c with
  | nil => rfl
  | cons i l ih =>
    rw [t.updates_cons a b c hw]
    exact (ih (c.stepped t a b i) hw).trans rfl

theorem Thread.updates_order (l : List Nat) (c : ChurnWin) (hw : c.bits = 32 ∨ c.bits = 64) (h : inLaneOrder c.copies) :
    inLaneOrder (t.updates a b l c).1.copies := by
  induction l generalizing c with
  | nil => exact h
  | cons i l ih =>
    rw [t.updates_cons a b c hw]
    exact ih _ hw (inLaneOrder_putCopy _ _ h)

theorem Thread.updates_copyIn (hs : t.sew ≤ 64) (l : List Nat) (c : ChurnWin) (hw : c.bits = 32 ∨ c.bits = 64) (k : Nat × Nat) :
    copyIn (t.updates a b l c).1 k = (c.copyResult t a b l k).1 := by
  induction l generalizing c with
  | nil => cases hc : copyIn c k <;> simp [Thread.updates, ChurnWin.copyResult, valuesFor, hc, copyAfter]
  | cons i l ih =>
    rw [t.updates_cons a b c hw, c.copyResult_cons t a b hw hs]
    exact ih _ hw

/-- A flag is raised where the copy of some element's key raises it. -/
theorem Thread.updates_flag (hs : t.sew ≤ 64) (l : List Nat) (c : ChurnWin) (hw : c.bits = 32 ∨ c.bits = 64) (n : Nat) :
    (t.updates a b l c).2.getLsbD n = true ↔ ∃ i ∈ l, (c.copyResult t a b l (copyKey t a i)).2.getLsbD n = true := by
  induction l generalizing c with
  | nil => simp [Thread.updates]
  | cons i l ih =>
    rw [t.updates_cons a b c hw, BitVec.getLsbD_or, Bool.or_eq_true, ih (c.stepped t a b i) hw]
    have later (j : Nat) : (c.copyResult t a b (i :: l) (copyKey t a j)).2.getLsbD n = true ↔
        ((c.stepped t a b i).copyResult t a b l (copyKey t a j)).2.getLsbD n = true ∨
          copyKey t a j = copyKey t a i ∧ (c.step t a b i).2.getLsbD n = true := by
      rw [c.copyResult_cons t a b hw hs]
      dsimp only
      split
      · next same => simp [same, or_comm]
      · next other => simp [other]
    constructor
    · rintro (flag | ⟨j, hj, flag⟩)
      · exact ⟨i, List.mem_cons_self, (later i).2 (.inr ⟨rfl, flag⟩)⟩
      · exact ⟨j, List.mem_cons_of_mem _ hj, (later j).2 (.inl flag)⟩
    · rintro ⟨j, -, flag⟩
      rcases (later j).1 flag with flag | ⟨-, flag⟩
      · obtain ⟨m, hm, same⟩ := (c.stepped t a b i).copyResult_flags t a b l _ flag
        exact .inr ⟨m, hm, same ▸ flag⟩
      · exact .inl flag

/-- The flags of the updates are those of the copies that they make. -/
theorem Thread.updates_flags (hs : t.sew ≤ 64) (l : List Nat) (c : ChurnWin) (hw : c.bits = 32 ∨ c.bits = 64) :
    (t.updates a b l c).2 = orFlags (l.map fun i => (c.copyResult t a b l (copyKey t a i)).2) := by
  refine BitVec.eq_of_getLsbD_eq fun n _ => ?_
  rw [Bool.eq_iff_iff, t.updates_flag a b hs l c hw, getLsbD_orFlags]
  simp

end

/-- The thread with the window and the flags of some updates. -/
def Thread.withUpdates (u : Thread) (r : ChurnWin × Flags) : Thread := { u with window := some r.1, fcsr := fcsrRaise u.fcsr r.2 }

/-- A vector instruction whose body changes its thread alone, and of that what a completion leaves. -/
theorem issueVector_map (r : Req) (s : State) (body : State → Run State) (f : Thread → Thread) (h : s.vectorFit r.caps)
    (hl : r.legal = true) (hd : r.declared = true) (hb : body s = .ok (s.mapThr f)) (hvq : (f s.thr).vq = s.thr.vq)
    (hcsa : (f s.thr).csa = s.thr.csa) (hsup : (f s.thr).supervisor = s.thr.supervisor) (hpd : (f s.thr).peerData = s.thr.peerData) :
    ∃ t, issueVector r s body = .next t ∧ s.vectorDone t f :=
  ⟨_, issueVector_done r s _ _ h hl hd hb rfl, s.vectorDone_of f hvq hcsa hsup hpd⟩

/-- An update of the open operation. -/
theorem churnUpdate_done (w : BitVec 32) {a b p : Reg} {s : State} {c : ChurnWin} (hfit : s.vectorFit [23])
    (ha : s.thr.secondOk a) (hb : s.thr.groupOk b) (hp : s.thr.predOk p) (hc : s.thr.window = some c) (hbits : c.bits = s.thr.sew)
    (inside : ∀ i ∈ s.thr.actives p, elem2At s.thr a i < c.n) : ∃ t, churnUpdate w c.op a b p s = .next t ∧
      s.vectorDone t fun u => u.withUpdates (s.thr.updates a b (s.thr.actives p) c) := by
  have args : s.thr.argsOk { word := w, caps := [23], src := [s.thr.second a, s.thr.own b], psrc := [p] } :=
    Thread.argsOk_of rfl (by simp) (List.forall_mem_cons.2 ⟨ha, List.forall_mem_singleton.2 (Thread.own_ok hb)⟩) (by simp)
      (List.forall_mem_singleton.2 hp)
  have found : (s.thr.actives p).find? (fun i => decide (c.n ≤ s.thr.elem a.toNat i s.thr.sew2)) = none :=
    List.find?_eq_none.2 fun i hi outside => Nat.not_le.2 (inside i hi) (of_decide_eq_true outside)
  unfold churnUpdate
  refine issueVector_map _ s _ _ hfit args.1 args.2 ?_ rfl rfl rfl rfl
  simp only [hc, found, need, hbits, decide_true, and_self, if_true, bind, Except.bind]
  rfl

end Sys2Proof.Machine
end

section
/-! Churn windows (R169 to R172): opening, dropping, updates, and the folds of `churn`. -/

namespace Sys2Proof.Machine
open Sys2Proof.Statements

/-! ### Opening, updates, dropping -/

theorem chwin_done {s : State} (o : ChOp) (a b : Reg) (hfit : s.vectorFit [23]) (hsew : 32 ≤ s.thr.sew) (closed : s.thr.window = none)
    (aligned : (s.xr a).toNat % (s.thr.sew / 8) = 0) (some : (s.xr b).toNat ≠ 0)
    (fits : s.thr.vlen / 128 * (s.xr b).toNat * (s.thr.sew / 8) ≤ s.thr.hdr.churnb)
    (table : (s.xr a).toNat + (s.xr b).toNat * (s.thr.sew / 8) ≤ localBase ∨ 2 ^ 49 ≤ (s.xr a).toNat) :
    ∃ t, exec (.chwin o a b) s = .next t ∧ s.vectorDone t fun u =>
      { u with window := Option.some ⟨o, u.sew, s.xr a, (s.xr b).toNat, [], 0, []⟩ } := by
  show ∃ t, execChwin o a b s = .next t ∧ _
  have xa : s.thr.xr a = s.xr a := rfl
  have xb : s.thr.xr b = s.xr b := rfl
  have room : s.thr.lanesCount * (s.xr b).toNat * (s.thr.sew / 8) ≤ s.thr.hdr.churnb := fits
  have below : ¬((s.xr a).toNat < 2 ^ 49 ∧ localBase < (s.xr a).toNat + (s.xr b).toNat * (s.thr.sew / 8)) := by omega
  unfold execChwin
  refine issueVector_map _ s _ _ hfit (decide_eq_true hsew) rfl ?_ rfl rfl rfl rfl
  simp only [need, closed, xa, xb, aligned, Ne, some, room, below, bind, Except.bind]
  rfl

theorem chdrop_done {s : State} (hfit : s.vectorFit [23]) :
    ∃ t, exec .chdrop s = .next t ∧ s.vectorDone t fun u => { u with window := none } :=
  issueVector_mapThr { word := tv wordChdrop, caps := [23] } s (fun u => { u with window := none }) hfit rfl rfl rfl rfl rfl rfl

theorem churn_closed_done {s : State} (hfit : s.vectorFit [23]) (closed : s.thr.window = none) :
    ∃ t, exec .churn s = .next t ∧ s.vectorDone t id := by
  show ∃ t, execChurn s = .next t ∧ _
  unfold execChurn
  refine issueVector_map _ s _ id hfit rfl rfl ?_ rfl rfl rfl rfl
  simp only [State.fold, closed]
  rfl

/-- An update instruction (R170). -/
theorem churnTable_done {s : State} {a b p : Reg} {c : ChurnWin} (hfit : s.vectorFit [23]) (ha : s.thr.secondOk a) (hb : s.thr.groupOk b)
    (hp : s.thr.predOk p) (hc : s.thr.window = some c) (hbits : c.bits = s.thr.sew)
    (inside : ∀ i ∈ s.thr.actives p, elem2At s.thr a i < c.n) : ∀ e ∈ churnTable, c.op = e.2 →
      ∃ t, exec (e.1 a b p) s = .next t ∧ s.vectorDone t fun u => u.withUpdates (s.thr.updates a b (s.thr.actives p) c) := by
  have done (w : BitVec 32) (o : ChOp) (ho : c.op = o) := ho ▸ churnUpdate_done w hfit ha hb hp hc hbits inside
  simp only [churnTable, List.forall_mem_cons, List.not_mem_nil, false_imp_iff, implies_true, and_true]
  exact ⟨done (wordVchadd a b p) .add, done (wordVchmin a b p) .min, done (wordVchmax a b p) .max, done (wordVchfadd a b p) .fadd⟩

/-! ### Places of the table elements -/

theorem mem_putRising {x y : Nat} {l : List Nat} : y ∈ putRising x l ↔ y = x ∨ y ∈ l := by
  induction l with
  | nil => simp [putRising]
  | cons z l ih =>
    rw [putRising]
    split
    · exact List.mem_cons
    · split
      · next same => simp [same]
      · rw [List.mem_cons, ih, List.mem_cons]
        exact or_left_comm

/-- The table elements that copies touch. -/
theorem ChurnWin.mem_touched (l : Assoc (Nat × Nat) Word) (e : Nat) :
    e ∈ l.foldr (fun x acc => putRising x.1.2 acc) [] ↔ ∃ x ∈ l, x.1.2 = e := by
  induction l with
  | nil => simp
  | cons y l ih => simp [mem_putRising, ih, eq_comm]

theorem State.placeUnits_ok (s : State) (acc : Access) (pl : Nat → Place) (us : List VUnit)
    (h : ∀ u ∈ us, s.unitPlace acc u = .ok (pl u.slot)) : s.placeUnits acc us = .ok (us.map fun u => (u.slot, pl u.slot)) := by
  induction us with
  | nil => rfl
  | cons u us ih =>
    obtain ⟨first, rest⟩ := List.forall_mem_cons.1 h
    simp only [State.placeUnits, first, ih rest, List.map_cons]

theorem Assoc.getD_map_of_mem {β : Type} (l : List β) (key : β → Nat) (pl : Nat → Place) (d : Place) {e : Nat}
    (h : ∃ u ∈ l, key u = e) : Assoc.getD (l.map fun u => (key u, pl (key u))) e d = pl e := by
  induction l with
  | nil => simp at h
  | cons u l ih =>
    unfold Assoc.getD at ih ⊢
    rw [List.map_cons, Assoc.get?_cons]
    split
    · next here => rw [← here]; rfl
    · next away =>
      refine ih ?_
      obtain ⟨v, hv, same⟩ := h
      rcases List.mem_cons.1 hv with rfl | hv
      · exact absurd same away
      · exact ⟨v, hv, same⟩

/-! ### Folds (R171) -/

/-- The machine with what folds may change of it as another has it. -/
def State.foldFrame (s u : State) : State :=
  { s with mem := u.mem, homes := u.homes, thr := { s.thr with
      window := u.thr.window, localStore := u.thr.localStore, stores := u.thr.stores } }

theorem State.foldFrame_trans {s u v : State} (hu : u = s.foldFrame u) (hv : v = u.foldFrame v) : v = s.foldFrame v := by
  rw [hu] at hv
  exact hv

/-- Where folds find and leave their machine: nothing waits, no break is asked for, no error is near. -/
structure foldable (s : State) : Prop where
  held : s.thr.sq = []
  sound : s.badMem = []
  whole : s.breaks = []
  fit : ∀ e ∈ s.badReg, e.1 ≠ s.thr.key

theorem foldable.of_frame {s u : State} (h : foldable s) (hu : u = s.foldFrame u) : foldable u := by
  rw [hu]
  exact ⟨h.held, h.sound, h.whole, h.fit⟩

theorem State.writeNow_foldFrame {s : State} (h : foldable s) {pl : Place} (hpl : userPlace pl) (bs : List Byte) :
    s.writeNow pl bs = s.foldFrame (s.writeNow pl bs) := by
  cases pl with
  | device d =>
    have sound : (s.writeNow (.device d) bs).badMem = s.badMem := by
      simp [State.writeNow, State.perform, State.mapThr, h.sound]
    exact congrArg (fun b => { s.foldFrame (s.writeNow (.device d) bs) with badMem := b }) sound
  | localStore o => simp only [State.writeNow, State.mapThr, State.foldFrame, clearLocal_others _ _ _ h.fit]
  | csa o => exact absurd rfl (hpl o)

theorem State.numberIn_seen (s : State) (pl : Place) (n : Nat) : numberIn s.seen pl n = natOfBytes (s.bytesAt pl n) := by
  rw [← State.number_eq]
  induction n generalizing pl with
  | zero => rfl
  | succ n ih => rw [numberIn, State.number, ih]

/-- Where no break is asked for, folds go on as they begin, what is left of the window being noted. -/
theorem State.foldCopies_resumed {s : State} (h : s.breaks = []) (places : Assoc Nat Place) (c : ChurnWin) (x : (Nat × Nat) × Word)
    (r : Assoc (Nat × Nat) Word) : s.foldCopies places false c (x :: r) =
      (s.mapThr fun t => { t with window := some c }).foldCopies places true c (x :: r) := by
  have goesOn : (s.mapThr fun t => { t with window := some c }).breakHere = .ok (s.mapThr fun t => { t with window := some c }) :=
    State.breakHere_none _ h
  obtain ⟨⟨l, e⟩, v⟩ := x
  rw [State.foldCopies, State.foldCopies]
  simp only [goesOn, Bool.false_eq_true, if_false, if_true, bind, Except.bind]

/-- One fold at a place in the device or in the local store. -/
theorem State.foldCopies_cons {s : State} {places : Assoc Nat Place} {c : ChurnWin} {k : Nat × Nat} {v : Word}
    {r : Assoc (Nat × Nat) Word} (h : foldable s) (hw : c.bits = 32 ∨ c.bits = 64) (hc : c.told = []) {pl : Place} (hpl : userPlace pl)
    (near : pl.remote = false) (place : Assoc.getD places k.2 (.device 0) = pl) {x : Nat × Flags}
    (hx : x = churnResult c.op s.thr.vfrm c.bits (numberIn s.seen pl (c.bits / 8)) v.toNat) :
    s.foldCopies places true c ((k, v) :: r) =
      (s.writeNow pl (bytesOf (c.bits / 8) x.1)).foldCopies places false (c.folded x.2 []) r := by
  have none (d : Nat) : (granules d (c.bits / 8)).find? (fun g => (Assoc.get? s.badMem g).isSome || c.told.contains g) = none :=
    List.find?_eq_none.2 fun g _ => by simp [h.sound, hc, Assoc.get?]
  rw [← churnOp_eq _ _ hw, State.numberIn_seen] at hx
  rw [State.foldCopies]
  simp only [place, if_true, bind, Except.bind]
  cases pl with
  | device d => simp only [near, none d, hx]
  | localStore o => simp only [hx]
  | csa o => exact absurd rfl (hpl o)

/-- The same of any fold, by what the thread then sees. -/
theorem State.foldCopies_step {s : State} {places : Assoc Nat Place} {c : ChurnWin} {k : Nat × Nat} {v : Word}
    {r : Assoc (Nat × Nat) Word} (first : Bool) (h : foldable s) (hw : c.bits = 32 ∨ c.bits = 64) (hc : c.told = []) {pl : Place}
    (hpl : userPlace pl) (near : pl.remote = false) (place : Assoc.getD places k.2 (.device 0) = pl) {x : Nat × Flags}
    (hx : x = churnResult c.op s.thr.vfrm c.bits (numberIn s.seen pl (c.bits / 8)) v.toNat) :
    ∃ u : State, s.foldCopies places first c ((k, v) :: r) = u.foldCopies places false (c.folded x.2 []) r ∧ u = s.foldFrame u ∧
      u.seen = fun q => q.newByte s.thr.vlen pl (bytesOf (c.bits / 8) x.1) (s.seen q) := by
  cases first with
  | true =>
    exact ⟨_, State.foldCopies_cons h hw hc hpl near place hx, State.writeNow_foldFrame h hpl _,
      funext fun q => s.seen_writeNow _ q _ h.held⟩
  | false =>
    have noted : foldable (s.mapThr fun t => { t with window := some c }) := ⟨h.held, h.sound, h.whole, h.fit⟩
    have same : (s.mapThr fun t => { t with window := some c }).seen = s.seen := funext fun q => by cases q <;> rfl
    rw [← same] at hx
    rw [State.foldCopies_resumed h.whole, ← same]
    exact ⟨_, State.foldCopies_cons noted hw hc hpl near place hx, State.foldFrame_trans rfl (State.writeNow_foldFrame noted hpl _),
      funext fun q => State.seen_writeNow _ _ q _ h.held⟩

/-- Folds one after another. -/
theorem State.foldCopies_ok (places : Assoc Nat Place) (pl : Nat → Place) (r : Assoc (Nat × Nat) Word) (s : State) (c : ChurnWin)
    (first : Bool) (h : foldable s) (hw : c.bits = 32 ∨ c.bits = 64) (hc : c.told = [])
    (hr : ∀ x ∈ r, userPlace (pl x.1.2) ∧ (pl x.1.2).remote = false ∧ Assoc.getD places x.1.2 (.device 0) = pl x.1.2) :
    ∃ u d, s.foldCopies places first c r = .ok (u, d) ∧ u = s.foldFrame u ∧
      u.seen = (foldedInto s.thr.vlen c.op s.thr.vfrm c.bits pl r s.seen).1 ∧
      d.flags = c.flags ||| (foldedInto s.thr.vlen c.op s.thr.vfrm c.bits pl r s.seen).2 := by
  induction r generalizing s c first with
  | nil => exact ⟨s, c, by rw [State.foldCopies], rfl, rfl, BitVec.or_zero.symm⟩
  | cons x r ih =>
    obtain ⟨k, v⟩ := x
    obtain ⟨⟨hpl, near, place⟩, rest⟩ := List.forall_mem_cons.1 hr
    obtain ⟨u, runs, frame, seen⟩ := State.foldCopies_step first h hw hc hpl near place (x := _) rfl
    obtain ⟨w, d, goesOn, wframe, wseen, flags⟩ :=
      ih u (c.folded (churnResult c.op s.thr.vfrm c.bits (numberIn s.seen (pl k.2) (c.bits / 8)) v.toNat).2 []) false
        (h.of_frame frame) hw hc rest
    have vlen : u.thr.vlen = s.thr.vlen := by rw [frame]; rfl
    have mode : u.thr.vfrm = s.thr.vfrm := by rw [frame]; rfl
    rw [seen, vlen, mode] at wseen flags
    exact ⟨w, d, runs.trans goesOn, State.foldFrame_trans frame wframe, wseen, flags.trans (BitVec.or_assoc _ _ _)⟩

/-! ### `churn` (R171) -/

/-- The machine with the window closed and the flags of its folds raised, once they have left memory and the local store as another
machine has them. -/
def State.churned (s u : State) (g : Flags) : State :=
  { s with mem := u.mem, homes := u.homes, thr := { s.thr with
      window := none, fcsr := fcsrRaise s.thr.fcsr g, localStore := u.thr.localStore, stores := u.thr.stores } }

theorem State.churned_of_frame {s u : State} {w : BitVec 32} {l : Assoc Nat Place} (fresh : s.thr.begun = none)
    (frame : u = (s.mapThr fun t => t.begin w l).foldFrame u) (g : Flags) :
    (u.mapThr fun t => { t with window := none, begun := none, fcsr := fcsrRaise t.fcsr g }) = s.churned u g := by
  have closed : (u.mapThr fun t => { t with window := none, begun := none, fcsr := fcsrRaise t.fcsr g }) =
      { s.churned u g with thr := { (s.churned u g).thr with begun := none } } := by
    conv_lhs => rw [frame]
    rfl
  rw [closed, ← fresh]
  rfl

/-- The units of the touched table elements are at their places, and no watermark stalls them. -/
theorem ChurnWin.units_placed {s : State} {c : ChurnWin} {pl : Nat → Place} (hpl : ∀ x ∈ c.copies, s.accessible .store
    (c.base + BitVec.ofNat 64 (x.1.2 * (c.bits / 8))) (c.bits / 8) (pl x.1.2)) :
    s.placeUnits .store c.units = .ok (c.units.map fun u => (u.slot, pl u.slot)) ∧
      s.passWatermark (c.units.map fun u => ⟨u.ea.toNat, u.n⟩) = .ok () := by
  have each : ∀ u ∈ c.units, s.accessible .store u.ea u.n (pl u.slot) ∧ u.align = u.n := by
    intro u hu
    obtain ⟨e, he, rfl⟩ := List.mem_map.1 hu
    obtain ⟨x, hx, rfl⟩ := (ChurnWin.mem_touched c.copies e).1 he
    exact ⟨hpl x hx, rfl⟩
  constructor
  · refine s.placeUnits_ok .store pl _ fun u hu => ?_
    obtain ⟨⟨aligned, placed, -, -⟩, same⟩ := each u hu
    rw [State.unitPlace, same, if_neg (not_not.2 aligned), placed]
  · refine State.passWatermark_all (List.forall_mem_map.2 fun u hu => ?_)
    obtain ⟨⟨-, -, -, free⟩, -⟩ := each u hu
    exact free

/-- An open window is folded and closed. -/
theorem State.fold_ok {s : State} {c : ChurnWin} {pl : Nat → Place} (w : BitVec 32) (h : foldable s) (hc : s.thr.window = some c)
    (hw : c.bits = 32 ∨ c.bits = 64) (fresh : s.thr.begun = none) (told : c.told = []) (hpl : ∀ x ∈ c.copies, userPlace (pl x.1.2) ∧
      s.accessible .store (c.base + BitVec.ofNat 64 (x.1.2 * (c.bits / 8))) (c.bits / 8) (pl x.1.2)) :
    ∃ u g, s.fold w = .ok (s.churned u (c.flags ||| g)) ∧ u.thr.sq = s.thr.sq ∧ u.thr.csa = s.thr.csa ∧ u.thr.vlen = s.thr.vlen ∧
      (u.seen, g) = foldedInto s.thr.vlen c.op s.thr.vfrm c.bits pl c.copies s.seen := by
  obtain ⟨placed, passed⟩ := ChurnWin.units_placed fun x hx => (hpl x hx).2
  let s1 : State := s.mapThr fun t => t.begin w (c.units.map fun u => (u.slot, pl u.slot))
  have begun : foldable s1 := ⟨h.held, h.sound, h.whole, h.fit⟩
  have at_ : ∀ x ∈ c.copies, Assoc.getD (c.units.map fun u => (u.slot, pl u.slot)) x.1.2 (.device 0) = pl x.1.2 := fun x hx =>
    Assoc.getD_map_of_mem c.units VUnit.slot pl _
      ⟨_, List.mem_map_of_mem ((ChurnWin.mem_touched c.copies x.1.2).2 ⟨x, hx, rfl⟩), rfl⟩
  obtain ⟨u, d, runs, frame, seen, flags⟩ := State.foldCopies_ok _ pl c.copies s1 c true begun hw told fun x hx =>
    ⟨(hpl x hx).1, (hpl x hx).2.2.2.1, at_ x hx⟩
  have same : s1.seen = s.seen := funext fun q => by cases q <;> rfl
  have none : s.thr.begun? = none := by rw [Thread.begun?, fresh]; rfl
  rw [same] at seen flags
  refine ⟨u, _, ?_, by rw [frame]; rfl, by rw [frame]; rfl, by rw [frame]; rfl, Prod.ext seen rfl⟩
  have runs' : (s.mapThr fun t => t.begin w (c.units.map fun u => (u.slot, pl u.slot))).foldCopies _ true c c.copies = _ := runs
  simp only [State.fold, hc, none, placed, passed, s.drain_empty h.held, runs', flags, bind, Except.bind]
  exact congrArg Except.ok (State.churned_of_frame fresh frame _)

theorem churn_done {s : State} {c : ChurnWin} {pl : Nat → Place} (hfit : s.vectorFit [23]) (hc : s.thr.window = some c)
    (hw : c.bits = 32 ∨ c.bits = 64) (hsq : s.thr.sq = []) (sound : s.badMem = []) (whole : s.breaks = []) (start : s.thr.atStart)
    (told : c.told = []) (hpl : ∀ x ∈ c.copies, userPlace (pl x.1.2) ∧
      s.accessible .store (c.base + BitVec.ofNat 64 (x.1.2 * (c.bits / 8))) (c.bits / 8) (pl x.1.2)) :
    ∃ t m, exec .churn s = .next t ∧ m = foldedInto s.thr.vlen c.op s.thr.vfrm c.bits pl c.copies s.seen ∧
      (∀ x, userPlace x → t.seen x = m.1 x) ∧ t.thr.fcsr = s.thr.fcsr ||| (c.flags ||| m.2).zeroExtend 8 ∧
      ({ s with mem := t.mem, homes := t.homes, thr := { s.thr with
        window := none, fcsr := t.thr.fcsr, localStore := t.thr.localStore, stores := t.thr.stores } } : State).vectorDone t id := by
  obtain ⟨u, g, folds, sq, csa, vlen, result⟩ := State.fold_ok wordChurn ⟨hsq, sound, whole, hfit.1.2⟩ hc hw start.1 told hpl
  show ∃ t m, execChurn s = .next t ∧ _
  unfold execChurn
  refine ⟨_, _, issueVector_done _ s (s.churned u (c.flags ||| g)) _ hfit rfl rfl folds rfl, result, fun x hx => ?_, rfl,
    State.vectorDone_of (s.churned u (c.flags ||| g)) id rfl rfl rfl rfl⟩
  have noSkip : ¬x.skip := by
    cases x with
    | csa o => exact absurd rfl (hx o)
    | _ => exact not_false
  refine (State.seen_retire (s.churned u (c.flags ||| g)) _ _ x fun skip => absurd skip noSkip).trans ?_
  exact State.seen_congr (s := u) (t := s.churned u (c.flags ||| g)) rfl sq.symm rfl vlen.symm x fun o _ => by rw [csa]; rfl

/-- Settles O26: updates and folds go one after another, each as its own instruction of R169. -/
theorem churnResults : Obligations.ChurnResults := by
  intro s a b p hfit hsew
  refine ⟨fun o closed aligned some fits table => chwin_done o a b hfit hsew closed aligned some fits table, ?_, chdrop_done hfit,
    churn_closed_done hfit, fun c pl hc hw hsq sound whole start told hpl => churn_done hfit hc hw hsq sound whole start told hpl⟩
  intro e he c _ _ ha hb hp hc hop hbits inside
  have wide : c.bits = 32 ∨ c.bits = 64 := hbits ▸ Thread.sew_wide hsew
  have narrow : s.thr.sew ≤ 64 := by omega
  obtain ⟨t, ht, done⟩ := churnTable_done hfit ha hb hp hc hbits inside e he hop
  have fcsr : t.thr.fcsr = fcsrRaise s.thr.fcsr (s.thr.updates a b (s.thr.actives p) c).2 := State.vectorDone_fcsr done
  refine ⟨t, (s.thr.updates a b (s.thr.actives p) c).1, ht, State.vectorDone_congr ?_ done, s.thr.updates_window a b _ c wide,
    s.thr.updates_order a b _ c wide, s.thr.updates_copyIn a b narrow _ c wide, ?_⟩
  · rw [fcsr]
    rfl
  · rw [fcsr, s.thr.updates_flags a b narrow _ c wide]
    rfl

end Sys2Proof.Machine
end

section
/-! One thread or one tether changed: what names find afterwards. -/

namespace Sys2Proof.Machine
open Sys2Proof.Statements

/-! ### Threads -/

/-- A change of a thread that leaves its name and its life alone. -/
def Thread.sameName (f : Thread → Thread) : Prop := ∀ u, (f u).key = u.key ∧ (f u).life = u.life

section
variable {f : Thread → Thread} (hf : Thread.sameName f)
include hf

theorem Thread.sameName_named (u : Thread) (j : ThreadKey) : ((f u).live && decide ((f u).key = j)) = (u.live && decide (u.key = j)) := by
  obtain ⟨key, life⟩ := hf u
  rw [Thread.live, Thread.live, key, life]

theorem State.thread?_mapThread (s : State) (k j : ThreadKey) :
    (s.mapThread k f).thread? j = if j = k then (s.thread? k).map f else s.thread? j := by
  have mapped (u : Thread) : ((if u.live && decide (u.key = k) then f u else u).live &&
      decide ((if u.live && decide (u.key = k) then f u else u).key = j)) = (u.live && decide (u.key = j)) := by
    split
    · exact Thread.sameName_named hf u j
    · rfl
  have namedOther (h : j ≠ k) {u : Thread} (hu : (u.live && decide (u.key = j)) = true) : (u.live && decide (u.key = k)) = false := by
    have key : u.key = j := of_decide_eq_true (Bool.and_eq_true_iff.1 hu).2
    simp [key, h]
  unfold State.mapThread
  by_cases same : j = k
  · subst same
    rw [if_pos rfl]
    split
    · next here => simp only [State.thread?, State.threads, List.find?_cons, Thread.sameName_named hf, here, Option.map_some]
    · next away =>
      simp only [State.thread?, State.threads, List.find?_cons, Bool.eq_false_iff.2 away, List.find?_map, Function.comp_def, mapped]
      cases found : s.others.find? fun u => u.live && decide (u.key = j) with
      | none => rfl
      | some u => rw [Option.map_some, Option.map_some, if_pos (List.find?_some found)]
  · rw [if_neg same]
    split
    · next here =>
      have elsewhere : (s.thr.live && decide (s.thr.key = j)) = false :=
        Bool.eq_false_iff.2 fun h => by simp [namedOther same h] at here
      simp only [State.thread?, State.threads, List.find?_cons, Thread.sameName_named hf, elsewhere]
    · simp only [State.thread?, State.threads, List.find?_cons, List.find?_map, Function.comp_def, mapped]
      split
      · rfl
      · cases found : s.others.find? fun u => u.live && decide (u.key = j) with
        | none => rfl
        | some u => rw [Option.map_some, if_neg (Bool.eq_false_iff.1 (namedOther same
            (List.find?_some (p := fun u : Thread => u.live && decide (u.key = j)) found)))]

/-- A change of one thread is that alone. -/
theorem oneThread_mapThread {s : State} {k : ThreadKey} {u : Thread} (h : s.thread? k = some u) :
    oneThread s (s.mapThread k f) k (f u) := by
  refine ⟨?_, ?_, fun j hj => ?_⟩
  · unfold State.mapThread
    split <;> rfl
  · rw [State.thread?_mapThread hf, if_pos rfl, h]
    rfl
  · rw [State.thread?_mapThread hf, if_neg hj]

end

theorem oneThread_refl {s : State} {k : ThreadKey} {u : Thread} (h : s.thread? k = some u) : oneThread s s k u :=
  ⟨rfl, h, fun _ _ => rfl⟩

theorem oneThread_trans {s t w : State} {k : ThreadKey} {u v : Thread} (h : oneThread s t k u) (h' : oneThread t w k v) :
    oneThread s w k v := by
  obtain ⟨frame, -, rest⟩ := h
  obtain ⟨frame', found, rest'⟩ := h'
  refine ⟨?_, found, fun j hj => (rest' j hj).trans (rest j hj)⟩
  rw [frame] at frame'
  exact frame'

/-! ### Tethers -/

theorem State.tetherAny?_token {s : State} {tok : Word} {z : Tether} (h : s.tetherAny? tok = some z) : tetherToken z = tok :=
  of_decide_eq_true (List.find?_some (p := fun z => decide (tetherToken z = tok)) h)

/-- A change of the tethers of a token that leaves the token. -/
theorem State.tetherAny?_mapTether (s : State) (tok o : Word) (f : Tether → Tether) (hf : ∀ z, tetherToken z = tok → tetherToken (f z) = tok) :
    (s.mapTether tok f).tetherAny? o = (s.tetherAny? o).map fun z => if tetherToken z = tok then f z else z := by
  have named : (fun z => decide (tetherToken z = o)) ∘ (fun z => if tetherToken z = tok then f z else z) =
      fun z => decide (tetherToken z = o) := by
    funext z
    by_cases same : tetherToken z = tok
    · rw [Function.comp_apply, if_pos same, hf z same, same]
    · rw [Function.comp_apply, if_neg same]
  exact List.find?_map.trans (congrArg (fun p => (s.tethers.find? p).map fun z => if tetherToken z = tok then f z else z) named)

/-- What leaves threads, memory and processes alone, and of the tether of a token what names it, its state and its cause. -/
structure quietFor (tok : Word) (s u : State) : Prop where
  thr : u.thr = s.thr
  others : u.others = s.others
  mem : u.mem = s.mem
  procs : u.procs = s.procs
  tether : ∀ z, s.tetherAny? tok = some z → ∃ z', u.tetherAny? tok = some z' ∧ z'.state = z.state ∧ z'.cause = z.cause ∧
    z'.part = z.part ∧ z'.proc = z.proc

theorem quietFor.refl (tok : Word) (s : State) : quietFor tok s s := ⟨rfl, rfl, rfl, rfl, fun z hz => ⟨z, hz, rfl, rfl, rfl, rfl⟩⟩

theorem quietFor.trans {tok : Word} {s u v : State} (h : quietFor tok s u) (h' : quietFor tok u v) : quietFor tok s v := by
  refine ⟨h'.thr.trans h.thr, h'.others.trans h.others, h'.mem.trans h.mem, h'.procs.trans h.procs, fun z hz => ?_⟩
  obtain ⟨y, hy, state, cause, part, proc⟩ := h.tether z hz
  obtain ⟨x, hx, state', cause', part', proc'⟩ := h'.tether y hy
  exact ⟨x, hx, state'.trans state, cause'.trans cause, part'.trans part, proc'.trans proc⟩

/-- A change of what `quietFor` does not speak of. -/
theorem quietFor.of_eq {tok : Word} {s u : State} (thr : u.thr = s.thr) (others : u.others = s.others) (mem : u.mem = s.mem)
    (procs : u.procs = s.procs) (tethers : u.tethers = s.tethers) : quietFor tok s u :=
  ⟨thr, others, mem, procs, fun z hz => ⟨z, by rw [State.tetherAny?, tethers]; exact hz, rfl, rfl, rfl, rfl⟩⟩

theorem quietFor_mapTether_other {tok o : Word} (s : State) (f : Tether → Tether) (hf : ∀ z, tetherToken z = o → tetherToken (f z) = o)
    (h : o ≠ tok) : quietFor tok s (s.mapTether o f) := by
  refine ⟨rfl, rfl, rfl, rfl, fun z hz => ⟨z, ?_, rfl, rfl, rfl, rfl⟩⟩
  have token : tetherToken z = tok := State.tetherAny?_token hz
  rw [s.tetherAny?_mapTether _ _ f hf, hz, Option.map_some, if_neg (by rw [token]; exact h.symm)]

/-- To be suspended or not is none of the tether's name, state and cause. -/
theorem quietFor_suspend {tok : Word} (s : State) (o : Word) (b : Tether → Bool) :
    quietFor tok s (s.mapTether o fun z => { z with suspended := b z }) := by
  refine ⟨rfl, rfl, rfl, rfl, fun z hz => ⟨if tetherToken z = o then { z with suspended := b z } else z, ?_, ?_⟩⟩
  · rw [s.tetherAny?_mapTether _ _ (fun z => { z with suspended := b z }) fun _ h => h, hz]
    rfl
  · split <;> exact ⟨rfl, rfl, rfl, rfl⟩

/-! ### What the end of a tether brings with it (R193, R252, R274, R381) -/

section
variable (tok : Word)

theorem returnChannels_quiet (part : Nat) (l : List (CoreId × Nat × Channel)) (s : State) : quietFor tok s (s.returnChannels part l) := by
  induction l generalizing s with
  | nil => exact .refl tok s
  | cons e l ih =>
    obtain ⟨c, n, x⟩ := e
    rw [State.returnChannels]
    split
    · exact ih s
    · refine quietFor.trans ?_ (ih _)
      refine quietFor.trans ?_ (quietFor_suspend _ x.token fun z => z.suspended && !(s.part part).run)
      exact .of_eq rfl rfl rfl rfl rfl

theorem returnAll_quiet (s : State) : quietFor tok s s.returnAll := by
  have each (l : List Nat) (u : State) : quietFor tok u
      (l.foldl (fun u p => if (u.part p).swappedOut then u else u.returnChannels p (u.part p).savedChannels) u) := by
    induction l generalizing u with
    | nil => exact .refl tok u
    | cons p l ih =>
      refine quietFor.trans ?_ (ih _)
      dsimp only
      split
      · exact .refl tok u
      · exact returnChannels_quiet tok p _ u
  exact each _ s

theorem putChannel_quiet (s : State) (c : CoreId) (n : Nat) (x : Channel) : quietFor tok s (s.putChannel c n x) :=
  .of_eq rfl rfl rfl rfl rfl

theorem keepChannel_quiet (s : State) (t : Tether) : quietFor tok s (s.keepChannel t) := by
  unfold State.keepChannel
  split
  · have dropped : quietFor tok s (s.dropSavedChannel t.part (tetherToken t)) := by
      unfold State.dropSavedChannel
      dsimp only
      split
      · exact .of_eq rfl rfl rfl rfl rfl
      · exact .refl tok s
    dsimp only
    split
    · split
      · exact (dropped.trans (putChannel_quiet tok _ _ _ _)).trans (returnAll_quiet tok _)
      · exact dropped
    · exact dropped
  · exact .refl tok s

theorem kernelEnd_quiet (s : State) (t : Tether) : quietFor tok s (s.kernelEnd t) := by
  unfold State.kernelEnd
  split
  · split
    · exact .of_eq rfl rfl rfl rfl rfl
    · exact .refl tok s
  · exact .refl tok s

/-- The end of a tether is quiet for another one, and for one that has ended before. -/
theorem finishOne_quiet {s : State} {z : Tether} (hz : s.tetherAny? tok = some z) (final : tetherFinal z = true) (o : Word) (st : TState)
    (c : TCause) : quietFor tok s (s.finishOne o st c) := by
  unfold State.finishOne
  split
  · exact .refl tok s
  · next t found =>
    split
    · exact .refl tok s
    · next going =>
      have other : o ≠ tok := by
        rintro rfl
        exact going (Option.some.inj (found.symm.trans hz) ▸ final)
      have token : tetherToken t = o := State.tetherAny?_token found
      refine (((keepChannel_quiet tok s t).trans ?_).trans (quietFor_mapTether_other _ _ (fun _ _ => ?_) other)).trans (kernelEnd_quiet tok _ _)
      · exact .of_eq rfl rfl rfl rfl rfl
      · exact token

theorem settlePreds_quiet (n : Nat) {s : State} {z : Tether} (hz : s.tetherAny? tok = some z) (final : tetherFinal z = true) :
    quietFor tok s (s.settlePreds n) := by
  induction n generalizing s z with
  | zero => exact .refl tok s
  | succ n ih =>
    rw [State.settlePreds]
    split
    · next t broken =>
      have one := finishOne_quiet tok hz final (tetherToken t) .cancelled .pred
      obtain ⟨y, hy, state, -, -, -⟩ := one.tether z hz
      exact one.trans (ih hy (by rw [tetherFinal, state]; exact final))
    · exact .refl tok s

end

/-- A tether that ends. -/
def Tether.ending (y : Tether) (st : TState) (c : TCause) : Tether :=
  { y with state := st, cause := c, cancelling := false, suspended := false, rowEnded := false, work := [], packets := [], peerData := [] }

theorem Tether.ending_token (y : Tether) (st : TState) (c : TCause) : tetherToken (y.ending st c) = tetherToken y := rfl

/-- A tether that is no COPY and no launch ends in its entry. -/
theorem State.finishOne_eq {s : State} {tok : Word} {y : Tether} (hy : s.tetherAny? tok = some y) (going : tetherFinal y = false)
    (kind : y.kind ≠ .copy) (launch : y.launch = none) (st : TState) (c : TCause) :
    s.finishOne tok st c = (s.dropBursts tok).mapTether tok fun _ => y.ending st c := by
  have notCopy : ¬(y.kind = .copy ∧ toWindow y = false ∧ y.state = .running) := fun h => kind h.1
  simp only [State.finishOne, hy, going, Bool.false_eq_true, if_false, State.keepChannel, if_neg notCopy, State.kernelEnd, launch,
    Tether.ending]

theorem State.finishOne_tether {s : State} {tok : Word} {y : Tether} (hy : s.tetherAny? tok = some y) (going : tetherFinal y = false)
    (kind : y.kind ≠ .copy) (launch : y.launch = none) (st : TState) (c : TCause) :
    (s.finishOne tok st c).tetherAny? tok = some (y.ending st c) := by
  have token := State.tetherAny?_token hy
  have held : (s.dropBursts tok).tetherAny? tok = some y := hy
  rw [State.finishOne_eq hy going kind launch, State.tetherAny?_mapTether _ _ _ _ fun _ _ => (y.ending_token st c).trans token, held,
    Option.map_some, if_pos token]

/-- A final tether of a live process stays where it is (R279). -/
theorem State.reap_live {s : State} {tok : Word} {z : Tether} (hz : s.tetherAny? tok = some z) (live : (s.proc z.part z.proc).live = true) :
    s.reap tok = s := by
  simp [State.reap, hz, live]

/-- A collective of a live process ends with a state and a cause, and threads and memory stay. -/
theorem State.finish_ends {s : State} {tok : Word} {y : Tether} (hy : s.tetherAny? tok = some y) (going : tetherFinal y = false)
    (kind : y.kind = .coll) (launch : y.launch = none) (live : (s.proc y.part y.proc).live = true) {st : TState} (c : TCause)
    (final : ∀ z : Tether, z.state = st → tetherFinal z = true) :
    ∃ z, (s.finish tok st c).tetherAny? tok = some z ∧ z.state = st ∧ z.cause = c ∧
      (s.finish tok st c).thr = s.thr ∧ (s.finish tok st c).others = s.others ∧ (s.finish tok st c).mem = s.mem := by
  have notCopy : y.kind ≠ .copy := by simp [kind]
  have ended := State.finishOne_tether hy going notCopy launch st c
  have settled := settlePreds_quiet tok (s.finishOne tok st c).tethers.length ended (final _ rfl)
  obtain ⟨z, hz, state, cause, part, proc⟩ := settled.tether _ ended
  have same := State.finishOne_eq hy going notCopy launch st c
  have procs : ((s.finishOne tok st c).settlePreds (s.finishOne tok st c).tethers.length).procs = s.procs := by
    rw [settled.procs, same]
    rfl
  have stays : s.finish tok st c = (s.finishOne tok st c).settlePreds (s.finishOne tok st c).tethers.length :=
    State.reap_live hz (by rw [State.proc, procs, part, proc]; exact live)
  rw [stays]
  refine ⟨z, hz, state, cause, ?_, ?_, ?_⟩
  · rw [settled.thr, same]
    rfl
  · rw [settled.others, same]
    rfl
  · rw [settled.mem, same]
    rfl

end Sys2Proof.Machine
end

section
/-! Peers and ports (R368, R378 to R380, R383, R404, R405). -/

namespace Sys2Proof.Machine
open Sys2Proof.Statements

/-! ### Answers (R368, R380) -/

/-- The machine without the requests of an identifier. -/
def State.taken (s : State) (id : Nat) : State := { s with requests := s.requests.filter fun q => decide (q.id ≠ id) }

section
variable {s : State} {id : Nat} {r : PeerReq} (found : (s.requests.find? fun q => decide (q.id = id)) = some r)
include found

/-- A request of another incarnation, or of one that has lost what carries it, is only taken away. -/
theorem State.takeReply_stale (h : r.inc ≠ (s.part r.part).inc ∨ s.stillOwner r = false) (f : State → PeerReq → State) :
    s.takeReply id f = s.taken id := by
  have stale : ¬(r.inc = (s.part r.part).inc ∧ s.stillOwner r = true) := by
    rintro ⟨inc, owner⟩
    exact h.elim (· inc) fun lost => by simp [lost] at owner
  simp only [State.takeReply, found, if_neg stale]
  rfl

theorem State.takeReply_live (inc : r.inc = (s.part r.part).inc) (owner : s.stillOwner r = true) (f : State → PeerReq → State) :
    s.takeReply id f = f (s.taken id) r := by
  simp only [State.takeReply, found, if_pos (⟨inc, owner⟩ : r.inc = (s.part r.part).inc ∧ s.stillOwner r = true)]
  rfl

/-- An answer that no port brings changes nothing. -/
theorem peerAck_unlinked (h : s.linked r = false) (bs : List Byte) : exec (.peerAck id bs) s = .next s := by
  have some : (s.requests.any fun q => decide (q.id = id) && !s.linked q) = true :=
    List.any_eq_true.2 ⟨r, List.mem_of_find?_eq_some found, by simpa [h] using List.find?_some found⟩
  show execPeerAck id bs s = _
  rw [execPeerAck, if_pos some]

end

theorem peerAck_linked {s : State} {id : Nat} (h : ∀ q ∈ s.requests, q.id = id → s.linked q = true) (bs : List Byte) :
    exec (.peerAck id bs) s =
      .next (s.takeReply id fun s r => if bs.length = r.returns then s.peerAnswers r bs else s.peerFails r) := by
  have none : (s.requests.any fun q => decide (q.id = id) && !s.linked q) = false :=
    List.any_eq_false.2 fun q hq => by
      by_cases same : q.id = id
      · simp [h q hq same]
      · simp [same]
  show execPeerAck id bs s = _
  rw [execPeerAck, none]
  rfl

/-! ### Answers to a thread -/

/-- The thread with answers of peers, if its instruction awaits them. -/
def Thread.hearing (u : Thread) (a : PeerAnswer) (l : List PeerAnswer) : Thread :=
  if u.awaits a then { u with peerData := u.peerData ++ l } else u

theorem Thread.hearing_sameName (a : PeerAnswer) (l : List PeerAnswer) : Thread.sameName fun u => u.hearing a l := by
  intro u
  unfold Thread.hearing
  dsimp only
  split <;> exact ⟨rfl, rfl⟩

theorem noteAnswer_one {s : State} {k : ThreadKey} {u : Thread} (h : s.thread? k = some u) (a : PeerAnswer) :
    oneThread s (s.noteAnswer k a) k (u.hearing a [a]) :=
  oneThread_mapThread (Thread.hearing_sameName a [a]) h

theorem State.mapThread_mem (s : State) (k : ThreadKey) (f : Thread → Thread) : (s.mapThread k f).mem = s.mem := by
  unfold State.mapThread
  split <;> rfl

/-- Who awaits an answer rests on its PC and its mode. -/
theorem Thread.hearing_congr (u : Thread) {a b : PeerAnswer} (pc : b.pc = a.pc) (mode : b.supervisor = a.supervisor) (l : List PeerAnswer) :
    u.hearing b l = u.hearing a l := by
  unfold Thread.hearing Thread.awaits
  rw [pc, mode]

theorem noteAnswer_like {s : State} {k : ThreadKey} {u : Thread} {a b : PeerAnswer} (h : s.thread? k = some u) (pc : b.pc = a.pc)
    (mode : b.supervisor = a.supervisor) : oneThread s (s.noteAnswer k b) k (u.hearing a [b]) := by
  rw [← u.hearing_congr pc mode]
  exact noteAnswer_one h b

/-- Two lots of answers to one instruction are one. -/
theorem Thread.hearing_hearing (u : Thread) (a : PeerAnswer) (l m : List PeerAnswer) :
    (u.hearing a l).hearing a m = u.hearing a (l ++ m) := by
  unfold Thread.hearing
  by_cases h : u.awaits a = true
  · have still : ({ u with peerData := u.peerData ++ l } : Thread).awaits a = true := h
    rw [if_pos h, if_pos h, if_pos still, List.append_assoc]
  · rw [if_neg h, if_neg h, if_neg h]

/-- What the device holds of a segment joins a peer's answer. -/
theorem noteNear_one {k : ThreadKey} {a : PeerAnswer} (near : List (Nat × Nat)) {s : State} {u : Thread} (h : s.thread? k = some u) :
    oneThread s (s.noteNear k a.pc a.supervisor near) k
      (u.hearing a (near.map fun d => ⟨a.pc, a.supervisor, 0, d.1, d.2, some (s.mem.bytes d.1 d.2)⟩)) := by
  induction near generalizing s u with
  | nil =>
    have same : u.hearing a [] = u := by simp [Thread.hearing]
    rw [List.map_nil, same]
    exact oneThread_refl h
  | cons d near ih =>
    have first := noteAnswer_like (a := a) (b := ⟨a.pc, a.supervisor, 0, d.1, d.2, some (s.mem.bytes d.1 d.2)⟩) h rfl rfl
    have rest := ih first.2.1
    rw [Thread.hearing_hearing, State.noteAnswer, State.mapThread_mem] at rest
    exact oneThread_trans first rest

/-- A request of a thread that fails, and one that succeeds. -/
theorem peerFails_thread {s : State} {r : PeerReq} {k : ThreadKey} {pc : Word} {sup : Bool} {slot : Nat} {u : Thread}
    (who : r.who = .thread k pc sup slot) (h : s.thread? k = some u) :
    oneThread s (s.peerFails r) k (answered s u ⟨pc, sup, slot, r.dpa, r.len, none⟩ []) := by
  rw [State.peerFails, who]
  exact noteAnswer_one h _

theorem peerAnswers_thread {s : State} {r : PeerReq} {k : ThreadKey} {pc : Word} {sup : Bool} {slot : Nat} {u : Thread} (bs : List Byte)
    (who : r.who = .thread k pc sup slot) (h : s.thread? k = some u) :
    oneThread s (s.peerAnswers r bs) k (answered s u ⟨pc, sup, slot, r.dpa, r.len, some bs⟩ r.near) := by
  have first := noteAnswer_one h ⟨pc, sup, slot, r.dpa, r.len, some bs⟩
  have rest := noteNear_one (a := ⟨pc, sup, slot, r.dpa, r.len, some bs⟩) r.near first.2.1
  rw [Thread.hearing_hearing, State.noteAnswer, State.mapThread_mem] at rest
  rw [State.peerAnswers, who]
  exact oneThread_trans first rest

/-! ### Answers to a store -/

/-- A peer's answer takes its bytes off the store, and the store's other bytes are performed with the last of them. -/
theorem storeAnswered_one {s : State} {k : ThreadKey} {seq : Nat} {r : PeerReq} {u : Thread} (h : s.thread? k = some u) :
    oneThread (s.performAll ((afterAnswer u seq r).filter (PendStore.acked seq))) (s.storeAnswered k seq r.dpa r.len) k
      { u with sq := (afterAnswer u seq r).filter fun p => !p.acked seq } := by
  have found : (s.performAll ((afterAnswer u seq r).filter (PendStore.acked seq))).thread? k = some u := by
    rw [State.performAll_eq]
    exact h
  rw [State.storeAnswered, h]
  exact oneThread_mapThread (f := fun u' => { u' with sq := (afterAnswer u seq r).filter fun p => !p.acked seq })
    (fun _ => ⟨rfl, rfl⟩) found

/-- The same, with what it leaves of memory. -/
theorem storeAnswered_memory {s : State} {k : ThreadKey} {seq : Nat} {r : PeerReq} {u : Thread} (h : s.thread? k = some u) :
    oneThread { s with mem := (s.storeAnswered k seq r.dpa r.len).mem, homes := (s.storeAnswered k seq r.dpa r.len).homes,
                       badMem := (s.storeAnswered k seq r.dpa r.len).badMem } (s.storeAnswered k seq r.dpa r.len) k
        { u with sq := (afterAnswer u seq r).filter fun p => !p.acked seq } ∧
      (s.storeAnswered k seq r.dpa r.len).mem =
        ((afterAnswer u seq r).filter (PendStore.acked seq)).foldl (fun m p => m.putCells p.cells) s.mem := by
  have one := storeAnswered_one (seq := seq) (r := r) h
  rw [State.performAll_eq] at one
  have mem := congrArg State.mem one.1
  have homes := congrArg State.homes one.1
  have badMem := congrArg State.badMem one.1
  refine ⟨?_, mem⟩
  rw [mem, homes, badMem]
  exact one

/-- A change of the partitions' registers besides. -/
theorem oneThread_parts {s t w : State} {k : ThreadKey} {u : Thread} (h : oneThread s t k u) (hw : w = { t with parts := w.parts }) :
    oneThread { s with parts := w.parts } w k u := by
  have frame := congrArg (fun u : State => { u with parts := w.parts }) h.1
  rw [hw]
  exact ⟨frame, h.2⟩

/-! ### Requests at a port (R379) -/

theorem Port.carries_iff (p : Port) (q : InboundReq) : p.carries q = true ↔ carried p q := by
  unfold Port.carries carried
  cases q.kind <;> simp

theorem byte_perform_laid (s : State) (d : Nat) (bs : List Byte) (a : Nat) : (s.perform (cellsAt d bs)).mem.byte a = laid s.mem d bs a := by
  rw [State.perform_mem, Memory.byte_putCells_cellsAt, laid]
  by_cases h : d ≤ a
  · rw [if_pos h]
    by_cases inside : a - d < bs.length
    · rw [if_pos (by omega), List.getD_eq_getElem?_getD, List.getElem?_eq_getElem inside]
      rfl
    · rw [if_neg (by omega), List.getElem?_eq_none (Nat.not_lt.1 inside)]
      rfl
  · rw [if_neg (by omega), if_neg h]
    rfl

/-- Where memory holds no error a write changes bytes and their homes alone. -/
theorem State.perform_sound {s : State} (h : s.badMem = []) (cells : List Host.Cell) :
    s.perform cells = { s with mem := (s.perform cells).mem, homes := (s.perform cells).homes } := by
  have bad : (s.perform cells).badMem = s.badMem := by simp [State.perform, h]
  exact congrArg (fun b => { s.perform cells with badMem := b }) bad

section
variable {s : State} {port p : Nat} {q : InboundReq}

theorem inbound_uncarried (h : ¬carried (Assoc.getD s.ports port Port.fresh) q) : exec (.inboundPeerRequest port q) s = .next s := by
  have refused : (Assoc.getD s.ports port Port.fresh).carries q = false := Bool.eq_false_iff.2 fun c => h ((Port.carries_iff _ _).1 c)
  show execInboundPeerRequest port q s = _
  rw [execInboundPeerRequest, refused]
  rfl

variable (owner : ((List.range 16).find? fun n => (s.part n).ports.getLsbD port) = some p)
  (carries : carried (Assoc.getD s.ports port Port.fresh) q)

include carries in
theorem inbound_carried : exec (.inboundPeerRequest port q) s = .next (match s.inbound port q with
    | some (s1, bs) => { s1 with completion := some (port, some bs) }
    | none => { s with completion := some (port, none) }) := by
  show execInboundPeerRequest port q s = _
  rw [execInboundPeerRequest, (Port.carries_iff _ _).2 carries]
  rfl

include owner

include carries in
/-- A request outside every range gets an error completion. -/
theorem inbound_outside (out : ∀ w ∈ (s.part p).inbound.toList, inboundOk w q = false) :
    exec (.inboundPeerRequest port q) s = .next { s with completion := some (port, none) } := by
  have any : (s.part p).inbound.toList.any (fun w => inboundOk w q) = false := List.any_eq_false.2 fun w hw => by simp [out w hw]
  have refused : s.inbound port q = none := by simp only [State.inbound, owner, any, Bool.and_false, Bool.false_and, Bool.false_eq_true, if_false]
  rw [inbound_carried carries, refused]

/-- One inside a range is served where the device holds each of its bytes. -/
theorem inbound_inside (len : 1 ≤ q.len) (len' : q.len ≤ 256) (inside : ∃ w ∈ (s.part p).inbound.toList, inboundOk w q = true)
    (here : ∀ i < q.len, s.mapped (q.dpa + i) = true ∧ (Place.device (q.dpa + i)).remote = false) :
    s.inbound port q = s.serveInbound q := by
  have any : (s.part p).inbound.toList.any (fun w => inboundOk w q) = true := List.any_eq_true.2 inside
  have all : (List.range q.len).all (fun i => s.mapped (q.dpa + i) && !(Place.device (q.dpa + i)).remote) = true :=
    List.all_eq_true.2 fun i hi => by simp [here i (List.mem_range.1 hi)]
  have size : decide (1 ≤ q.len ∧ q.len ≤ 256) = true := decide_eq_true ⟨len, len'⟩
  simp only [State.inbound, owner, any, all, size, Bool.and_self, if_true]

section
variable (len : 1 ≤ q.len) (len' : q.len ≤ 256) (inside : ∃ w ∈ (s.part p).inbound.toList, inboundOk w q = true) (sound : s.badMem = [])
  (here : ∀ i < q.len, s.mapped (q.dpa + i) = true ∧ (Place.device (q.dpa + i)).remote = false)
include len len' inside sound here carries

theorem inbound_read (kind : q.kind = .read) : exec (.inboundPeerRequest port q) s =
    .next { s with completion := some (port, some (s.mem.bytes q.dpa q.len)) } := by
  have served : s.serveInbound q = some (s, s.mem.bytes q.dpa q.len) := by simp [State.serveInbound, kind, State.badData, sound]
  rw [inbound_carried carries, inbound_inside owner len len' inside here, served]

theorem inbound_write (kind : q.kind = .write) (data : q.data.length = q.len) : ∃ t, exec (.inboundPeerRequest port q) s = .next t ∧
    t = { s with mem := t.mem, homes := t.homes, completion := some (port, some []) } ∧ ∀ a, t.mem.byte a = laid s.mem q.dpa q.data a := by
  have served : s.serveInbound q = some (s.perform (cellsAt q.dpa q.data), []) := by
    simp [State.serveInbound, kind, data, State.badStore, sound]
  rw [inbound_carried carries, inbound_inside owner len len' inside here, served]
  refine ⟨_, rfl, ?_, byte_perform_laid s q.dpa q.data⟩
  exact congrArg (fun u : State => { u with completion := some (port, some []) }) (State.perform_sound sound (cellsAt q.dpa q.data))

theorem inbound_atomic {op cmp : Nat} (kind : q.kind = .atomic op cmp) (size : q.len = 4 ∨ q.len = 8) (aligned : q.dpa % q.len = 0)
    (data : q.data.length = q.len) (known : op ≤ 7) : ∃ t, exec (.inboundPeerRequest port q) s = .next t ∧
      t = { s with mem := t.mem, homes := t.homes, completion := some (port, some (bytesOf q.len (s.mem.load q.dpa q.len))) } ∧
      ∀ a, t.mem.byte a = match atomNew op q.len (s.mem.load q.dpa q.len) (natOfBytes q.data) (zext (8 * q.len) cmp) with
        | some new => laid s.mem q.dpa (bytesOf q.len new) a
        | none => s.mem.byte a := by
  have legal : ¬((q.len ≠ 4 ∧ q.len ≠ 8) ∨ q.dpa % q.len ≠ 0 ∨ q.data.length ≠ q.len ∨ 7 < op ∨
      s.badData Thread.fresh (.device q.dpa) q.len = true) := by
    simp only [State.badData, sound, aligned, data]
    simp
    omega
  rw [inbound_carried carries, inbound_inside owner len len' inside here]
  cases result : atomNew op q.len (s.mem.load q.dpa q.len) (natOfBytes q.data) (zext (8 * q.len) cmp) with
  | none =>
    have served : s.serveInbound q = some (s, bytesOf q.len (s.mem.load q.dpa q.len)) := by
      simp only [State.serveInbound, kind, if_neg legal, result]
    rw [served]
    exact ⟨_, rfl, rfl, fun _ => rfl⟩
  | some new =>
    have served : s.serveInbound q = some (s.perform (cellsAt q.dpa (bytesOf q.len new)), bytesOf q.len (s.mem.load q.dpa q.len)) := by
      simp only [State.serveInbound, kind, if_neg legal, result]
    rw [served]
    refine ⟨_, rfl, ?_, byte_perform_laid s q.dpa _⟩
    exact congrArg (fun u : State => { u with completion := some (port, some (bytesOf q.len (s.mem.load q.dpa q.len))) })
      (State.perform_sound sound (cellsAt q.dpa (bytesOf q.len new)))

end

end

/-! ### Retrains and retries (R404, R405) -/

/-- A counter of a port counts the event that it has selected. -/
theorem Port.count_eq (p : Port) (code : Nat) (sel : Word) (h : sel.toNat = code) (i : Fin 4) :
    (p.count code).cnt[i] = if p.sel[i] = sel then p.cnt[i] + 1 else p.cnt[i] := by
  have same : p.sel[i].toNat = code ↔ p.sel[i] = sel := by rw [← h, BitVec.toNat_inj]
  simp only [Port.count, Fin.getElem_fin, Vector.getElem_zipWith]
  exact if_congr same rfl rfl

theorem linkRetrain_done (s : State) (port : Nat) (h : port < 48) : ∃ t q, exec (.linkRetrain port) s = .next t ∧
    t = { s with ports := Assoc.put s.ports port q, lifetime := { s.lifetime with
      retrains := Assoc.put s.lifetime.retrains port (min (2 ^ 32 - 1) (Assoc.getD s.lifetime.retrains port 0 + 1)) } } ∧
    q = { Assoc.getD s.ports port Port.fresh with cnt := q.cnt } ∧
    ∀ i : Fin 4, q.cnt[i] = if (Assoc.getD s.ports port Port.fresh).sel[i] = 5 then (Assoc.getD s.ports port Port.fresh).cnt[i] + 1
      else (Assoc.getD s.ports port Port.fresh).cnt[i] := by
  refine ⟨_, (Assoc.getD s.ports port Port.fresh).count 5, ?_, rfl, rfl, Port.count_eq _ 5 5 rfl⟩
  show execLinkRetrain port s = _
  simp only [execLinkRetrain, if_pos h]
  rfl

theorem linkLevelRetry_done (s : State) (port : Nat) (h : port < 48) : ∃ t q, exec (.linkLevelRetry port) s = .next t ∧
    t = { s with ports := Assoc.put s.ports port q } ∧ q = { Assoc.getD s.ports port Port.fresh with cnt := q.cnt } ∧
    ∀ i : Fin 4, q.cnt[i] = if (Assoc.getD s.ports port Port.fresh).sel[i] = 3 then (Assoc.getD s.ports port Port.fresh).cnt[i] + 1
      else (Assoc.getD s.ports port Port.fresh).cnt[i] := by
  refine ⟨_, (Assoc.getD s.ports port Port.fresh).count 3, ?_, rfl, rfl, Port.count_eq _ 3 3 rfl⟩
  show execLinkLevelRetry port s = _
  simp only [execLinkLevelRetry, if_pos h]
  rfl

/-! ### Members of a collective (R274, R383) -/

/-- A collective with a member that has cancelled. -/
def Tether.peerCancelled (y : Tether) : Tether := { y with byPeer := y.byPeer || !y.cancelling, cancelling := true }

theorem Tether.peerCancelled_token (y : Tether) : tetherToken y.peerCancelled = tetherToken y := rfl

/-- A cancel of a member ends the collective at its boundary, and is pending until then. -/
theorem settleBoundary_peerCancelled {s : State} {tok : Word} {y : Tether} (hy : s.tetherAny? tok = some y) (running : y.state = .running)
    (kind : y.kind = .coll) (launch : y.launch = none) (live : (s.proc y.part y.proc).live = true) (cancelling : y.cancelling = false)
    (fenced : y.fenced = false) : ∃ z, ((s.mapTether tok Tether.peerCancelled).settleBoundary tok).tetherAny? tok = some z ∧
      ((s.mapTether tok Tether.peerCancelled).settleBoundary tok).thr = s.thr ∧
      ((s.mapTether tok Tether.peerCancelled).settleBoundary tok).others = s.others ∧
      ((s.mapTether tok Tether.peerCancelled).settleBoundary tok).mem = s.mem ∧
      if (y.suspended || s.atBoundary y) = true then z.state = .cancelled ∧ z.cause = .peer
      else z = { y with byPeer := true, cancelling := true } := by
  have pending : y.peerCancelled = { y with byPeer := true, cancelling := true } := by simp [Tether.peerCancelled, cancelling]
  have token := State.tetherAny?_token hy
  have held : (s.mapTether tok Tether.peerCancelled).tetherAny? tok = some y.peerCancelled := by
    rw [State.tetherAny?_mapTether _ _ _ _ fun z h => (z.peerCancelled_token).trans h, hy, Option.map_some, if_pos token]
  have notKernel : y.peerCancelled.kind ≠ .kernel := fun h => by rw [Tether.peerCancelled, kind] at h; cases h
  have notFenced : y.peerCancelled.fenced = false := fenced
  have stands : y.peerCancelled.state = .running := running
  have byPeer : y.peerCancelled.byPeer = true := by rw [pending]
  have cancels : y.peerCancelled.cancelling = true := rfl
  have boundary : (y.peerCancelled.suspended || (s.mapTether tok Tether.peerCancelled).atBoundary y.peerCancelled) =
      (y.suspended || s.atBoundary y) := rfl
  by_cases there : (y.suspended || s.atBoundary y) = true
  · have ends : (s.mapTether tok Tether.peerCancelled).settleBoundary tok =
        (s.mapTether tok Tether.peerCancelled).finish tok .cancelled .peer := by
      simp [State.settleBoundary, held, boundary, there, stands, notKernel, notFenced, byPeer, cancels]
    rw [ends]
    obtain ⟨z, hz, state, cause, thr, others, mem⟩ := State.finish_ends held (by rw [tetherFinal, stands]) kind launch live .peer
      (st := .cancelled) fun z h => by rw [tetherFinal, h]
    exact ⟨z, hz, thr, others, mem, by rw [if_pos there]; exact ⟨state, cause⟩⟩
  · have waits : (s.mapTether tok Tether.peerCancelled).settleBoundary tok = s.mapTether tok Tether.peerCancelled := by
      simp [State.settleBoundary, held, boundary, there]
    rw [waits]
    exact ⟨_, held, rfl, rfl, rfl, by rw [if_neg there]; exact pending⟩

theorem peerMemberFailure_done {s : State} {part pr : Nat} {m : PeerMember} {y : Tether}
    (found : (s.tethers.find? fun z => decide (z.state = .running ∧ z.kind = .coll ∧ z.part = part ∧ z.proc = pr ∧
      collPset z.ops.2.2 = m.pset)) = some y) (hy : s.tetherAny? (tetherToken y) = some y) (launch : y.launch = none)
    (live : (s.proc part pr).live = true) (cancelling : y.cancelling = false) (fenced : y.fenced = false) :
    ∃ t z, exec (.peerMemberFailure part pr m) s = .next t ∧ t.tetherAny? (tetherToken y) = some z ∧
      t.thr = s.thr ∧ t.others = s.others ∧ t.mem = s.mem ∧
      ((z.state = .faulted ∧ z.cause = .peer) ∨
        (m.cancelled = true ∧ if (y.suspended || s.atBoundary y) = true then z.state = .cancelled ∧ z.cause = .peer
          else z = { y with byPeer := true, cancelling := true })) := by
  obtain ⟨running, kind, hpart, hproc, -⟩ := of_decide_eq_true (List.find?_some (p := fun z : Tether => decide (z.state = .running ∧
    z.kind = .coll ∧ z.part = part ∧ z.proc = pr ∧ collPset z.ops.2.2 = m.pset)) found)
  subst hpart hproc
  have going : tetherFinal y = false := by rw [tetherFinal, running]
  have faults {u : State} (hu : u.tetherAny? (tetherToken y) = some y) (procs : u.procs = s.procs) (thr : u.thr = s.thr)
      (others : u.others = s.others) (mem : u.mem = s.mem) : ∃ z, (u.finish (tetherToken y) .faulted .peer).tetherAny? (tetherToken y) = some z ∧
        (u.finish (tetherToken y) .faulted .peer).thr = s.thr ∧ (u.finish (tetherToken y) .faulted .peer).others = s.others ∧
        (u.finish (tetherToken y) .faulted .peer).mem = s.mem ∧ z.state = .faulted ∧ z.cause = .peer := by
    obtain ⟨z, hz, state, cause, thr', others', mem'⟩ := State.finish_ends hu going kind launch (by rw [State.proc, procs]; exact live) .peer
      (st := .faulted) fun z h => by rw [tetherFinal, h]
    exact ⟨z, hz, thr'.trans thr, others'.trans others, mem'.trans mem, state, cause⟩
  show ∃ t z, execPeerMemberFailure y.part y.proc m s = .next t ∧ _
  cases cancelled : m.cancelled with
  | false =>
    obtain ⟨z, hz, thr, others, mem, ended⟩ := faults hy rfl rfl rfl rfl
    refine ⟨_, z, ?_, hz, thr, others, mem, .inl ended⟩
    simp only [execPeerMemberFailure, found, cancelled, Bool.false_eq_true, if_false, if_true]
  | true =>
    let u : State := { s with freeCtr := s.freeCtr + 1 }
    have chosen : s.choose [true, false] true = ([true, false].getD (Config.pick s.freeCtr % 2) true, u) := rfl
    cases free : [true, false].getD (Config.pick s.freeCtr % 2) true with
    | true =>
      obtain ⟨z, hz, thr, others, mem, ended⟩ := faults (u := u) hy rfl rfl rfl rfl
      refine ⟨_, z, ?_, hz, thr, others, mem, .inl ended⟩
      simp only [execPeerMemberFailure, found, cancelled, chosen, free, if_true]
    | false =>
      obtain ⟨z, hz, thr, others, mem, ended⟩ :=
        settleBoundary_peerCancelled (s := u) hy running kind launch live cancelling fenced
      refine ⟨_, z, ?_, hz, thr, others, mem, .inr ⟨rfl, ended⟩⟩
      simp only [execPeerMemberFailure, found, cancelled, chosen, free, Bool.false_eq_true, if_false, if_true]
      rfl

/-- A store's failure is a MACHINE_CHECK entry of its partition with the window address (R380). -/
theorem peerWriteFails_parts {s : State} {r : PeerReq} {k : ThreadKey} {seq : Nat} (who : r.who = .store k seq) (part : r.part < 16)
    (room : (s.part r.part).fifo.length < 256) (first : (s.part r.part).fifoWait = []) :
    (s.peerWriteFails r).parts = (s.setPart r.part { s.part r.part with fifo := (s.part r.part).fifo ++
      [⟨fifoW0 3 (r.port.getD 0 / 12) (some k.proc) none, 0, BitVec.ofNat 64 r.dpa, 14⟩] }).parts := by
  have mine : r.part ≠ controlPart := by rw [controlPart]; omega
  simp only [State.peerWriteFails, who, if_neg mine, State.report, room, first, List.isEmpty_nil, decide_true, Bool.and_self, if_true]

/-- Settles O46: each event takes away, serves, counts or ends what it names, and leaves the rest. -/
theorem peerResults : Obligations.PeerResults := by
  refine ⟨fun s id r bs found => ⟨fun lost => peerAck_unlinked found lost bs, fun stale => ⟨fun linked => ?_, ?_⟩, fun inc owner =>
    ⟨fun k pc sup slot u who hu => ⟨fun linked => ?_, ?_⟩, fun k seq u who hu write => ⟨fun linked => ?_, ?_⟩⟩⟩, ?_, ?_, ?_⟩
  · rw [peerAck_linked linked, State.takeReply_stale found stale]
    rfl
  · exact congrArg Host.Outcome.next (State.takeReply_stale found stale _)
  · rw [peerAck_linked linked, State.takeReply_live found inc owner]
    refine ⟨_, rfl, ?_⟩
    have returns : r.returns = r.len := by rw [PeerReq.returns, who]
    rw [returns]
    split
    · exact peerAnswers_thread (s := s.taken id) bs who hu
    · exact peerFails_thread (s := s.taken id) who hu
  · exact ⟨_, congrArg Host.Outcome.next (State.takeReply_live found inc owner _), peerFails_thread (s := s.taken id) who hu⟩
  · rw [peerAck_linked linked, State.takeReply_live found inc owner]
    have returns : r.returns = 0 := by rw [PeerReq.returns, who, write]; rfl
    have answers : (s.taken id).peerAnswers r [] = (s.taken id).storeAnswered k seq r.dpa r.len := by rw [State.peerAnswers, who]
    have one := storeAnswered_memory (s := s.taken id) (seq := seq) (r := r) hu
    refine ⟨_, rfl, ?_⟩
    rw [if_pos (by rw [returns]; rfl), answers]
    exact one
  · have one := storeAnswered_memory (s := s.taken id) (seq := seq) (r := r) hu
    have fails : (s.taken id).peerFails r = ((s.taken id).storeAnswered k seq r.dpa r.len).peerWriteFails r := by rw [State.peerFails, who]
    have same : ((s.taken id).storeAnswered k seq r.dpa r.len).parts = s.parts := (congrArg State.parts one.1.1).trans rfl
    refine ⟨_, congrArg Host.Outcome.next ((State.takeReply_live found inc owner _).trans fails), oneThread_parts one.1 rfl, one.2,
      fun part room first => ?_⟩
    have part' : ((s.taken id).storeAnswered k seq r.dpa r.len).part r.part = s.part r.part := by rw [State.part, same]; rfl
    rw [peerWriteFails_parts who part (by rw [part']; exact room) (by rw [part']; exact first), part']
    rw [State.setPart, State.setPart, same]
  · exact fun s port p q owner => ⟨inbound_uncarried, fun carries => ⟨inbound_outside owner carries,
      fun len len' inside sound here => ⟨inbound_read owner carries len len' inside sound here,
        inbound_write owner carries len len' inside sound here,
        fun op cmp kind size aligned data known => inbound_atomic owner carries len len' inside sound here kind size aligned data known⟩⟩⟩
  · rintro s port _ h rfl
    exact ⟨linkRetrain_done s port h, linkLevelRetry_done s port h⟩
  · exact fun s part pr m y found hy launch live cancelling fenced => peerMemberFailure_done found hy launch live cancelling fenced

end Sys2Proof.Machine
end

section
/-! A tile load over a granule that holds an uncorrectable error and that two issued stores of the thread cover between them: `spoiltHalves`
with a tile of one 64-bit element (R180, R261). The data can be read, but `tld` needs bytes of both stores and performs them first; neither
clears the error, and no store covers it any longer. -/

namespace Sys2Proof.Machine
open Sys2Proof.Statements Sys2Proof.Tests

/-- Tile 1 configured as one row of one 64-bit element, and at the row's address the granule that `spoiltHalves` has. -/
def spoiltTile : State :=
  { spoiltHalves with thr := { spoiltHalves.thr with cls := 1, tshape := spoiltHalves.thr.tshape.set 1 0x8C40 } }

theorem spoiltTile_ready : spoiltTile.vectorFit [12] ∧ spoiltTile.thr.vectorOk ∧ spoiltTile.thr.vl ≠ 0 ∧ spoiltTile.thr.predOk 0 ∧
    tileOk spoiltTile.thr 1 ∧ spoiltTile.thr.atStart := by
  refine ⟨?_, ?_, ?_, ?_, ?_, atStart_of_empty (by decide +kernel)⟩
  · unfold State.vectorFit State.fit; decide +kernel
  · unfold Thread.vectorOk; decide +kernel
  · decide +kernel
  · unfold Thread.predOk; decide +kernel
  · unfold tileOk tileNamed; decide +kernel

theorem spoiltTile_calm (rs : List Range) : spoiltTile.calm rs := by
  refine .inr ?_
  unfold Thread.near Thread.orderly
  decide +kernel

/-- The one element of the one row may be read. -/
theorem spoiltTile_loadable (r c : Nat) (hr : tileRow spoiltTile.thr 1 0 r) (hc : c < spoiltTile.thr.tileC 1) :
    spoiltTile.loadable (tileAddr spoiltTile.thr 1 10 0 r c) (spoiltTile.thr.tileT 1 / 8) (.device 0x20000) := by
  have size : spoiltTile.thr.tileRows 1 = 1 ∧ spoiltTile.thr.tileC 1 = 1 := by decide +kernel
  obtain ⟨-, row⟩ := hr
  rw [size.1, Nat.lt_one_iff] at row
  rw [size.2, Nat.lt_one_iff] at hc
  subst row hc
  exact of_mayLoad (by decide +kernel)

theorem spoiltTile_traps : traps spoiltTile (.tld 1 10 0 0) 8 0x1000 0x20000 = true := by decide +kernel

/-- Refutes O28: so does `tld`, one of whose elements lies in that granule. -/
theorem not_tileResults : ¬ Obligations.TileResults := by
  intro h
  obtain ⟨fits, ok, some, pred, tile, start⟩ := spoiltTile_ready
  obtain ⟨-, -, -, loads, -⟩ := h spoiltTile 1 10 0 0 fits ok
  obtain ⟨t, l, w, ht, hdone, -⟩ := (loads some pred).1 (fun _ _ => .device 0x20000) tile spoiltTile_loadable start (spoiltTile_calm _)
  exact not_vectorDone_of_traps spoiltTile_traps ht rfl hdone

end Sys2Proof.Machine
end

section
/-! Issues of tethers (R184 to R188): what the checks of the four kinds let pass, the entry that a tether takes, and what an issue leaves. -/

namespace Sys2Proof.Machine
open Sys2Proof.Statements

/-! ### The checks of the four kinds (R185 to R188) -/

theorem firstMisaligned_eq_none {n : Nat} {l : List Int} (h : ∀ i ∈ l, i % n = 0) : firstMisaligned n l = none := by
  induction l with
  | nil => rfl
  | cons i l ih =>
    rw [firstMisaligned, if_neg (not_not.2 (h i List.mem_cons_self))]
    exact ih fun j hj => h j (List.mem_cons_of_mem i hj)

theorem volume_eq_prod (l : List (BitVec 40 × BitVec 24)) : volume l = (l.map fun x => x.2.toNat).prod :=
  List.prod_eq_foldl.symm

/-- A condition that does not hold is no fault. -/
theorem whenTrue_false {p : Prop} [Decidable p] (h : ¬p) (c : TrapCause) (v : Word) : whenTrue (decide p) c v = none :=
  if_neg (by simpa using h)

theorem copyCheck_eq {i : Issued} (h : copyIssues i) : copyCheck (i.src, i.dst, i.ctl) i.dims = ⟨none, [17], none⟩ := by
  obtain ⟨bit6, spare, some, few, src, dst, strides, bytes⟩ := h
  have fields : ¬(i.ctl.getLsbD 6 || (!i.ctl.getLsbD 7 && decide (bitsAt i.ctl.toNat 8 24 ≠ 0))) = true := by
    rw [bit6]
    cases bit7 : i.ctl.getLsbD 7 with
    | false => rw [spare bit7]; decide
    | true => exact Bool.false_ne_true
  have aligned : firstMisaligned (copyEsz i.ctl) ((i.src.toNat : Int) :: (i.dims.map fun x => x.1.toInt) ++ [(i.dst.toNat : Int)]) = none :=
    firstMisaligned_eq_none (List.forall_mem_append.2 ⟨List.forall_mem_cons.2 ⟨by exact_mod_cast src, List.forall_mem_map.2 strides⟩,
      List.forall_mem_singleton.2 (by exact_mod_cast dst)⟩)
  have small : ¬2 ^ 40 < copyEsz i.ctl * volume i.dims := volume_eq_prod i.dims ▸ Nat.not_lt.2 bytes
  simp only [copyCheck, if_neg fields, if_pos (And.intro some few), aligned, whenTrue_false small]
  rfl

theorem bloadPacked_iff (ctl : Word) : bloadPacked ctl = true ↔ srcBits (ctl.toNat % 32) < 8 ∨ ctl.getLsbD 8 = true := by
  rw [bloadPacked, Bool.or_eq_true, decide_eq_true_eq]
  rfl

theorem bloadCheck_eq {i : Issued} (h : bloadIssues i) : bloadCheck (i.src, i.dst, i.ctl) i.dims =
    ⟨none, [if i.ctl.toNat % 32 = 0 then 13 else if i.ctl.toNat % 32 = 1 then 14 else 15], none⟩ := by
  obtain ⟨high, bit9, fmt, slices, mx, dims, packed, whole, depth, rows⟩ := h
  have fields : ¬(bitsAt i.ctl.toNat 26 38 ≠ 0 ∨ bitsAt i.ctl.toNat 9 9 ≠ 0 ∨ 10 < bloadFmt i.ctl ∨
      (bloadSlices i.ctl ≠ 1 ∧ bloadFmt i.ctl ≤ 1) ∨ (bloadMxb i.ctl = true ∧ (bloadFmt i.ctl = 1 ∨ 6 < bloadFmt i.ctl))) := by
    unfold bloadFmt bloadSlices bloadMxb
    rintro (h | h | h | ⟨h, f⟩ | ⟨h, f⟩)
    · exact h high
    · exact h bit9
    · omega
    · exact h (slices f)
    · have := mx h; omega
  have deep : ¬4096 < extentOf i.dims 0 * bloadSlices i.ctl := Nat.not_lt.2 depth
  have blocks : ¬2048 < i.dst.toNat + extentOf i.dims 1 := Nat.not_lt.2 rows
  by_cases isPacked : bloadPacked i.ctl = true
  · obtain ⟨step, bits, block⟩ := packed ((bloadPacked_iff i.ctl).1 isPacked)
    have unit : ¬strideOf i.dims 0 ≠ 0 := not_not.2 step
    have bytes : ¬(extentOf i.dims 0 * srcBits (bloadFmt i.ctl) % 8 ≠ 0 ∨ (bloadMxb i.ctl = true ∧ extentOf i.dims 0 % 32 ≠ 0)) :=
      fun h => h.elim (· bits) fun h => h.2 (block h.1)
    simp only [bloadCheck, if_neg fields, if_neg (not_not.2 dims), if_pos isPacked, if_neg unit, if_neg bytes, whenTrue_false deep,
      whenTrue_false blocks]
    rfl
  · obtain ⟨src, step, row⟩ := whole (by
      rw [bloadPacked_iff, not_or, Nat.not_lt, Bool.not_eq_true] at isPacked
      exact isPacked)
    have aligned : firstMisaligned (srcBits (bloadFmt i.ctl) / 8) [(i.src.toNat : Int), strideOf i.dims 0, strideOf i.dims 1] = none :=
      firstMisaligned_eq_none (by
        simp only [List.forall_mem_cons, List.not_mem_nil, false_imp_iff, implies_true, and_true]
        exact ⟨by exact_mod_cast src, step, row⟩)
    simp only [bloadCheck, if_neg fields, if_neg (not_not.2 dims), if_neg isPacked, aligned, whenTrue_false deep, whenTrue_false blocks]
    rfl

theorem mmaCheck_eq {i : Issued} (h : mmaIssues i) : mmaCheck (i.src, i.dst, i.ctl) i.dims =
    ⟨none, (13 + bitsAt i.ctl.toNat 11 2) :: (if bitsAt i.ctl.toNat 16 4 = 2 then [16] else []), none⟩ := by
  obtain ⟨high, spare, frm, epi, cf, acls, exact, wide, dims, dst, stride, blocks⟩ := h
  have fields : ¬(bitsAt i.ctl.toNat 25 39 ≠ 0 ∨ bitsAt i.ctl.toNat 13 3 ≠ 0 ∨ 4 < mmaFrm i.ctl ∨ 1 < mmaEpi i.ctl ∨ 4 < mmaCfmt i.ctl ∨
      mmaAcls i.ctl = 3 ∨ (mmaAcls i.ctl < 2 ∧ 2 < mmaCfmt i.ctl) ∨ (mmaAcls i.ctl = 2 ∧ mmaCfmt i.ctl = 0)) := by
    unfold mmaFrm mmaEpi mmaCfmt mmaAcls
    omega
  have aligned : firstMisaligned (mmaCsize i.ctl) [(i.dst.toNat : Int), strideOf i.dims 1] = none :=
    firstMisaligned_eq_none (List.forall_mem_cons.2 ⟨by exact_mod_cast dst, List.forall_mem_singleton.2 stride⟩)
  have room : ¬2048 < mmaBblk i.ctl + extentOf i.dims 1 := Nat.not_lt.2 blocks
  simp only [mmaCheck, if_neg fields, if_neg (not_not.2 dims), aligned, whenTrue_false room]
  rfl

theorem collCheck_eq {s : State} {i : Issued} (h : collIssues s i) :
    collCheck s (i.src, i.dst, i.ctl) i.dims = ⟨none, [18], none⟩ := by
  obtain ⟨high, spare, frm, dtype, rop, op, root, some, few, peers⟩ := h
  have fields : ¬(bitsAt i.ctl.toNat 40 24 ≠ 0 ∨ bitsAt i.ctl.toNat 13 3 ≠ 0 ∨ 4 < collFrm i.ctl ∨ 5 < collDtype i.ctl ∨
      collRop i.ctl = 3 ∨ 3 < collOp i.ctl ∨ (collOp i.ctl ≠ 3 ∧ collRoot i.ctl ≠ 0)) := by
    unfold collFrm collDtype collRop collOp collRoot
    rintro (h | h | h | h | h | h | ⟨h, r⟩)
    · exact h high
    · exact h spare
    · omega
    · omega
    · omega
    · omega
    · exact r (root h)
  have allowed : s.psetOk s.thr.key.part (collPset i.ctl) = true := peers
  simp only [collCheck, if_neg fields, if_pos (And.intro some few), allowed]
  rfl

/-! ### The entry that a tether takes (R272) -/

theorem State.mem_freeEntries {s : State} {die i : Nat} (h : i ∈ s.freeEntries die) :
    i < 4096 ∧ ∀ x ∈ s.tethers, x.die = die → x.index ≠ i := by
  obtain ⟨range, free⟩ := List.mem_filter.1 h
  refine ⟨List.mem_range.1 range, ?_⟩
  rintro x hx rfl rfl
  have used : x.index ∈ (s.tethers.filter fun t => decide (t.die = x.die)).map Tether.index :=
    List.mem_map_of_mem (List.mem_filter.2 ⟨hx, decide_eq_true rfl⟩)
  rw [Bool.not_eq_true', List.contains_eq_mem, decide_eq_false_iff_not] at free
  exact free used

/-- A tether in entry `i` of its die, QUEUED under the generation of that entry. -/
def Tether.inEntry (y : Tether) (s : State) (i : Nat) : Tether :=
  { y with index := i, gen := Assoc.getD s.gens (y.die, i) 1, arrival := s.clock }

/-- The machine with one more tether: the device's event clock advances, and a free choice may be used up. -/
def State.listing (s : State) (y : Tether) (n : Nat) : State :=
  { s with tethers := s.tethers ++ [y], clock := s.clock + 1, freeCtr := n }

/-- A new tether takes a free entry. -/
theorem State.addTether_entry (s : State) (y : Tether) (room : s.freeEntries y.die ≠ []) : ∃ i ∈ s.freeEntries y.die, ∃ n,
    s.addTether y = (s.listing (y.inEntry s i) n, tetherToken (y.inEntry s i)) := by
  obtain ⟨a, l, entries⟩ := List.exists_cons_of_ne_nil room
  obtain ⟨n, state⟩ := s.choose_state (s.freeEntries y.die) 0
  refine ⟨(s.choose (s.freeEntries y.die) 0).1, entries ▸ s.choose_mem a l 0, n, ?_⟩
  simp only [State.addTether, state]
  rfl

/-! ### Predecessors (R193) -/

/-- With no QUEUED tether behind a failed one none is cancelled. -/
theorem State.settlePreds_of_unbroken {s : State} (h : s.brokenPred = none) (n : Nat) : s.settlePreds n = s := by
  cases n with
  | zero => rfl
  | succ n => rw [State.settlePreds, h]

theorem State.brokenPred_eq_none {s : State} (h : ∀ t ∈ s.tethers, t.state = .queued → ∀ p ∈ t.preds, ∀ q,
    s.tether? t.part t.proc p = some q → tetherFailed q = false) : s.brokenPred = none := by
  refine List.find?_eq_none.2 fun t ht => ?_
  rw [Bool.and_eq_true, decide_eq_true_eq, List.any_eq_true]
  rintro ⟨queued, p, hp, failed⟩
  split at failed
  · next q hq => exact absurd failed (by rw [h t ht queued p hp q hq]; decide)
  · exact absurd failed (by decide)

/-- The lookup of a token finds what it found before a new tether was listed, or else the new one. -/
theorem find?_snoc {α : Type} {l : List α} {y q : α} {f : α → Bool} (h : (l ++ [y]).find? f = some q) : l.find? f = some q ∨ q = y := by
  rw [List.find?_append] at h
  cases found : l.find? f with
  | some x => rw [found] at h; exact .inl h
  | none =>
    rw [found, Option.none_or] at h
    exact .inr (List.mem_singleton.1 (List.mem_of_find?_eq_some h))

/-! ### What an issue leaves (R184) -/

/-- The tether of an issue before it has an entry; `det` says whether it is detached. -/
def State.newTether (s : State) (kind : TKind) (a b : Reg) (prio : BitVec 3) (det : Bool) : Tether :=
  { Tether.blank kind s.thr.key.part s.thr.key.proc s.thr.core.die s.thr.key s.thr.core with
    prio := prio, detached := det, detacher := if det then some s.thr.key else none,
    owner := if det then none else some s.thr.key, ops := s.thr.triple a, layout := s.thr.layout b, preds := s.livePreds }

/-- The machine with a slot of the process's reel taken, where the tether is detached (R278). -/
def State.takeReel (s : State) (det : Bool) : State := if det then withReel s (s.thrPr.reel + 1) else s

theorem State.takeReel_eq (s : State) (det : Bool) : ∃ l, s.takeReel det = { s with procs := l } := by
  cases det
  · exact ⟨s.procs, rfl⟩
  · exact ⟨_, rfl⟩

/-- A new tether breaks no predecessor, where none was broken and none that it records has failed. -/
theorem listing_unbroken {s u : State} {y : Tether} (n : Nat) (old : u.tethers = s.tethers) (queued : y.state = .queued)
    (mine : y.part = s.thr.key.part ∧ y.proc = s.thr.key.proc) (preds : y.preds = recordedPreds s) (unbroken : noBrokenPred s) :
    (u.listing y n).brokenPred = none := by
  refine State.brokenPred_eq_none fun t ht hq p hp q found => ?_
  rw [State.listing, State.tether?, old] at found
  obtain before | rfl := find?_snoc found
  · rw [State.listing, old] at ht
    obtain ht | ht := List.mem_append.1 ht
    · exact unbroken.1 t ht hq p hp q before
    · obtain rfl := List.mem_singleton.1 ht
      rw [mine.1, mine.2] at before
      exact unbroken.2 p (preds ▸ hp) q before
  · rw [tetherFailed, queued]

/-- The thread after an issue: an event is counted, the record of `tafter` is cleared, and a register takes the token. -/
def Thread.issued (t : Thread) (d : Reg) (tok : Word) : Thread := ({ t.count 13 1 with preds := none } : Thread).setX d tok

theorem State.setX_mapThr (s : State) (f : Thread → Thread) (d : Reg) (w : Word) :
    (s.mapThr f).setX d w = s.mapThr fun t => (f t).setX d w := rfl

section
variable {s : State} (room : s.tableRoom s.thr.key.part s.thr.core.die = true) (empty : s.thr.sq = []) (unbroken : noBrokenPred s)
include room empty

/-- What an issue does once there is room and no store waits: its tether takes an entry, and those behind a failed one are cancelled. -/
theorem issueTether_eq (kind : TKind) (d a b : Reg) (prio : BitVec 3) {det own : Bool}
    (reel : (det && decide (s.thrPr.reel < reelSlots)) = own) {u : State} {tok : Word}
    (added : (s.takeReel own).addTether (s.newTether kind a b prio own) = (u, tok)) :
    s.issueTether kind d a b prio det = .ok ((u.settlePreds u.tethers.length).mapThr fun v => v.issued d tok) := by
  have drained : s.drain = .ok s := s.drainWhere_none _ (by simp [empty])
  calc s.issueTether kind d a b prio det
      = .ok ((((s.takeReel own).addTether (s.newTether kind a b prio own)).1.settlePreds
          ((s.takeReel own).addTether (s.newTether kind a b prio own)).1.tethers.length).mapThr fun v =>
            v.issued d ((s.takeReel own).addTether (s.newTether kind a b prio own)).2) := by
        unfold State.issueTether State.takeReel withReel State.newTether Thread.issued
        simp only [room, if_true, drained, reel, bind, Except.bind]
        exact congrArg Except.ok (State.setX_mapThr _ _ d _)
    _ = _ := by rw [added]

include unbroken

theorem issueTether_ok (kind : TKind) (d a b : Reg) (prio : BitVec 3) {det own : Bool}
    (reel : (det && decide (s.thrPr.reel < reelSlots)) = own) : ∃ i ∈ s.freeEntries s.thr.core.die, ∃ n,
      s.issueTether kind d a b prio det = .ok (((s.takeReel own).listing ((s.newTether kind a b prio own).inEntry s i) n).mapThr fun v =>
        v.issued d (tetherToken ((s.newTether kind a b prio own).inEntry s i))) := by
  have free : s.freeEntries s.thr.core.die ≠ [] := by
    intro none
    simp [State.tableRoom, none] at room
  have eq (u : State) (tok : Word) := issueTether_eq room empty kind d a b prio reel (u := u) (tok := tok)
  obtain ⟨l, procs⟩ := s.takeReel_eq own
  rw [procs] at eq ⊢
  obtain ⟨i, hi, n, added⟩ := State.addTether_entry { s with procs := l } (s.newTether kind a b prio own) free
  have settled := State.settlePreds_of_unbroken (listing_unbroken (s := s) (u := { s with procs := l })
    (y := (s.newTether kind a b prio own).inEntry s i) n rfl rfl ⟨rfl, rfl⟩ rfl unbroken)
  exact ⟨i, hi, n, (eq _ _ added).trans (congrArg (fun u : State => Except.ok (u.mapThr fun v =>
    v.issued d (tetherToken ((s.newTether kind a b prio own).inEntry s i)))) (settled _))⟩

end

/-- A completed vector instruction: event counts are apart. -/
theorem State.vectorDone_counts {s t : State} {f g : Thread → Thread} (e : Vector Word 8)
    (h : f s.thr = { g s.thr with evcnt := e }) (hf : s.vectorDone t f) : s.vectorDone t g := by
  obtain ⟨only, csa, thr⟩ := hf
  refine ⟨only, csa, ?_⟩
  rw [h] at thr
  exact thr

theorem Thread.issued_eq (t : Thread) (d : Reg) (tok : Word) :
    t.issued d tok = { ({ t with preds := none } : Thread).setX d tok with evcnt := (t.count 13 1).evcnt } := by
  unfold Thread.issued Thread.setX
  split <;> rfl

/-- The operands of an issue, as R80 checks them. -/
def Thread.issueArgs (t : Thread) (w : BitVec 32) (a b : Reg) (caps : List Nat) : VArgs :=
  { word := w, legal := decide (a.toNat < 30), caps := caps, src := [oneOf b.toNat 64 (List.range t.vl)], xsrc := [a, a + 1, a + 2],
    always := true }

/-- An issue whose operands pass the checks of its kind. -/
theorem issueOp_done {instr : Instr} {w : BitVec 32} {kind : TKind} {s : State} {d a b : Reg} {prio : BitVec 3} {det : Bool} {caps : List Nat}
    {chk : Word × Word × Word → List (BitVec 40 × BitVec 24) → IssueCheck} (runs : exec instr s = issueOp w kind d a b prio det chk s)
    (hfit : s.vectorFit caps) (passes : chk ((issuedBy s.thr a b).src, (issuedBy s.thr a b).dst, (issuedBy s.thr a b).ctl)
      (issuedBy s.thr a b).dims = ⟨none, caps, none⟩) (triple : a.toNat < 30) (layout : b.toNat < s.thr.hdr.vregs) (group : b.toNat < 32)
    (empty : s.thr.sq = []) (room : s.tableRoom s.thr.key.part s.thr.core.die = true) (unbroken : noBrokenPred s) :
    ∃ t u, exec instr s = .next t ∧
      u = { Tether.blank kind s.thr.key.part s.thr.key.proc s.thr.core.die s.thr.key s.thr.core with
        index := u.index, gen := Assoc.getD s.gens (s.thr.core.die, u.index) 1, prio := prio, arrival := s.clock,
        detached := det && decide (s.thrPr.reel < 1024),
        detacher := if det = true ∧ s.thrPr.reel < 1024 then some s.thr.key else none,
        owner := if det = true ∧ s.thrPr.reel < 1024 then none else some s.thr.key,
        ops := (s.xr a, s.xr (a + 1), s.xr (a + 2)), layout := s.thr.layout b, preds := recordedPreds s } ∧
      u.index < 4096 ∧ (∀ x ∈ s.tethers, x.die = s.thr.core.die → x.index ≠ u.index) ∧
      ({ (if det = true ∧ s.thrPr.reel < 1024 then withReel s (s.thrPr.reel + 1) else s) with
        tethers := s.tethers ++ [u], clock := s.clock + 1, freeCtr := t.freeCtr } : State).vectorDone t fun v =>
          ({ v with preds := none } : Thread).setX d (tetherToken u) := by
  obtain ⟨own, reel⟩ : ∃ own, (det && decide (s.thrPr.reel < reelSlots)) = own := ⟨_, rfl⟩
  have detached : (det = true ∧ s.thrPr.reel < 1024) = (own = true) := by
    rw [← reel, Bool.and_eq_true, decide_eq_true_eq]
    rfl
  have args : s.thr.argsOk (s.thr.issueArgs w a b caps) :=
    Thread.argsOk_of (decide_eq_true triple) (fun _ h => nomatch h) (List.forall_mem_singleton.2 (Thread.oneOf_ok 64 _ group layout))
      (fun _ h => nomatch h) (fun _ h => nomatch h)
  have issues : exec instr s = issueVector (s.thr.vreq (s.thr.issueArgs w a b caps)) s fun s => s.issueTether kind d a b prio det := by
    have passes' : chk (s.thr.triple a) (s.thr.layout b) = ⟨none, caps, none⟩ := passes
    rw [runs, issueOp]
    simp only [passes', Thread.issueArgs]
  obtain ⟨i, hi, n, body⟩ := issueTether_ok room empty unbroken kind d a b prio reel
  obtain ⟨index, unused⟩ := State.mem_freeEntries hi
  obtain ⟨l, procs⟩ := s.takeReel_eq own
  have base : (if own = true then withReel s (s.thrPr.reel + 1) else s) = { s with procs := l } := procs
  simp only [detached, base]
  rw [procs] at body
  refine ⟨_, (s.newTether kind a b prio own).inEntry s i, issues.trans (issueVector_done _ s _ _ hfit args.1 args.2 body rfl), ?entry, index,
    unused, ?frame⟩
  case entry =>
    rw [← show (det && decide (s.thrPr.reel < 1024)) = own from reel]
    rfl
  case frame =>
    refine State.vectorDone_counts _ (Thread.issued_eq _ d _) (State.vectorDone_of
      (State.listing { s with procs := l } ((s.newTether kind a b prio own).inEntry s i) n) _ ?_ ?_ ?_ ?_) <;> simp [Thread.issued]

/-- Settles O29: each kind's operands pass its checks, and an issue is one for all. -/
theorem tetherIssueResults : Obligations.TetherIssueResults := by
  unfold Obligations.TetherIssueResults
  simp only [issueTable, List.forall_mem_cons, List.not_mem_nil, false_imp_iff, implies_true, and_true]
  refine ⟨fun s d a b p det hfit ha hb hb' issues hq room unbroken => ?copy, fun s d a b p det hfit ha hb hb' issues hq room unbroken => ?bload,
    fun s d a b p det hfit ha hb hb' issues hq room unbroken => ?mma, fun s d a b p det hfit ha hb hb' issues hq room unbroken => ?coll⟩
  case copy => exact issueOp_done (chk := copyCheck) rfl hfit (copyCheck_eq issues) ha hb hb' hq room unbroken
  case bload => exact issueOp_done (chk := bloadCheck) rfl hfit (bloadCheck_eq issues) ha hb hb' hq room unbroken
  case mma => exact issueOp_done (chk := mmaCheck) rfl hfit (mmaCheck_eq issues) ha hb hb' hq room unbroken
  case coll => exact issueOp_done (chk := collCheck s) rfl hfit (collCheck_eq issues) ha hb hb' hq room unbroken

end Sys2Proof.Machine
end

section
/-! Waiting for tethers, testing and controlling them (R189 to R194). -/

namespace Sys2Proof.Machine
open Sys2Proof.Statements

/-! ### What the instructions read of a tether -/

theorem stateCode_eq (st : TState) : BitVec.ofNat 64 (TState.code st) = stateCode st := by cases st <;> rfl

theorem recordedCause_toNat (c : TCause) : (recordedCause c).toNat = TCause.code c := by cases c <;> rfl

theorem kindCode_toNat (k : TKind) : (kindCode k).toNat = TKind.code k := by cases k <;> rfl

theorem stateCode_toNat (st : TState) : ((stateCode st).setWidth 3).toNat = TState.code st := by cases st <;> rfl

theorem toNat_append_add {n m : Nat} (x : BitVec n) (y : BitVec m) : (x ++ y).toNat = x.toNat * 2 ^ m + y.toNat := by
  rw [BitVec.toNat_append, ← Nat.shiftLeft_add_eq_or_of_lt y.isLt, Nat.shiftLeft_eq]

/-- Selector 0 puts the fields of R190 side by side. -/
theorem tetherStat_eq (y : Tether) : tetherStat y = statField y 0 := by
  have flag (b : Bool) (n : Nat) : (if b then 2 ^ n else 0) = b.toNat * 2 ^ n := by cases b <;> simp
  refine Eq.trans (congrArg (BitVec.ofNat 64) ?_) (BitVec.ofNat_toNat 64 (statField y 0))
  simp only [statField, flag, BitVec.truncate_eq_setWidth,
    BitVec.toNat_setWidth_of_le (show 16 ≤ 64 by decide), toNat_append_add, recordedCause_toNat, kindCode_toNat, BitVec.toNat_ofBool,
    stateCode_toNat]
  omega

/-! ### Retirement and the instructions that end no tether -/

theorem freezeBinds_committed (y : Tether) (v : Thread) (e : Vector Word 8) :
    freezeBinds y { v with vq := [], evcnt := e } = { freezeBinds y v with vq := [], evcnt := e } := by
  unfold freezeBinds
  split <;> rfl

theorem State.committed_retire {s : State} {tok : Word} {y : Tether} (hy : s.tetherAny? tok = some y) (e : Vector Word 8) :
    (s.committed e).retire tok = (withoutTether s y).committed e := by
  have found : (s.committed e).tetherAny? tok = some y := hy
  have token := State.tetherAny?_token hy
  subst token
  rw [State.retire, found]
  exact congrArg (fun v => ({ withoutTether s y with thr := v } : State)) (freezeBinds_committed y s.thr e)

section
variable {s : State}

section
variable (hfit : s.scalarFit [])
include hfit

/-- A control instruction whose body has the effect `u`. -/
theorem tetherOp_done (w : BitVec 32) {legal : Bool} (src : List Reg) (body : State → Run State) (u : State) (hl : legal = true)
    (hb : ∀ e, body (s.committed e) = .ok (u.committed e)) (hr : u.badReg = s.badReg) :
    ∃ t, tetherOp w legal src s body = .next t ∧ t.heldDone u (s.thr.pc + 4) :=
  issueHeld_done _ s u body hfit hl rfl hb hr

/-- The same for a body that writes a value to xD. -/
theorem tetherOp_writes (w : BitVec 32) {legal : Bool} (src : List Reg) (body : State → Run State) (u : State) (d : Reg) (v : Word)
    (hl : legal = true) (hb : ∀ e, body (s.committed e) = .ok ((u.committed e).setX d v)) (hr : u.badReg = s.badReg) :
    ∃ t, tetherOp w legal src s body = .next t ∧ t.heldDone (u.setX d v) (s.thr.pc + 4) :=
  tetherOp_done hfit w src body _ hl (fun e => (hb e).trans (congrArg Except.ok (u.committed_setX e d v))) hr

end

section
variable {a : Reg} {y : Tether} (hy : s.myTether? (s.xr a) = some y)
include hy

/-- A final tether of its own thread, whose fault is known, retires when it is observed. -/
theorem observe_retires (any : s.tetherAny? (s.xr a) = some y) (final : tetherFinal y = true) (own : y.owner = some s.thr.key)
    (known : y.state = .faulted → y.delivered = true) (d : Reg) (e : Vector Word 8) :
    (s.committed e).observe d (s.xr a) = .ok (((withoutTether s y).committed e).setX d (stateCode y.state)) := by
  have found : (s.committed e).myTether? (s.xr a) = some y := hy
  have key : (s.committed e).thr.key = s.thr.key := rfl
  have told : (decide (y.state = .faulted) && !y.delivered) = false := by
    by_cases f : y.state = .faulted
    · simp [known f]
    · simp [f]
  simp only [State.observe, found, final, own, key, decide_true, Bool.and_self, if_true, told, Bool.false_eq_true, if_false,
    State.committed_retire any, stateCode_eq]

/-- Another tether stays when it is observed. -/
theorem observe_reads (other : tetherFinal y = false ∨ y.owner ≠ some s.thr.key) (d : Reg) (e : Vector Word 8) :
    (s.committed e).observe d (s.xr a) = .ok ((s.committed e).setX d (stateCode y.state)) := by
  have found : (s.committed e).myTether? (s.xr a) = some y := hy
  have key : (s.committed e).thr.key = s.thr.key := rfl
  have stays : (tetherFinal y && decide (y.owner = some s.thr.key)) = false := by
    rcases other with going | other
    · rw [going, Bool.false_and]
    · rw [decide_eq_false other, Bool.and_false]
  simp only [State.observe, found, key, stays, Bool.false_eq_true, if_false, stateCode_eq]

variable (hfit : s.scalarFit [])
include hfit

/-- `twait` of a final tether observes it. -/
theorem twait_final (final : tetherFinal y = true) {u : State} {d : Reg} {v : Word} (hr : u.badReg = s.badReg)
    (seen : ∀ e, (s.committed e).observe d (s.xr a) = .ok ((u.committed e).setX d v)) :
    ∃ t, exec (.twait d a) s = .next t ∧ t.heldDone (u.setX d v) (s.thr.pc + 4) := by
  show ∃ t, execTwait d a s = .next t ∧ _
  unfold execTwait
  refine tetherOp_writes hfit _ [a] _ u d v rfl (fun e => ?_) hr
  have found : (s.committed e).myTether? (s.xr a) = some y := hy
  have xa : (s.committed e).xr a = s.xr a := rfl
  simp only [xa, found, final, if_true, bind, Except.bind, seen]

omit hy in
theorem ttest_observes {u : State} {d : Reg} {v : Word} (hr : u.badReg = s.badReg)
    (seen : ∀ e, (s.committed e).observe d (s.xr a) = .ok ((u.committed e).setX d v)) :
    ∃ t, exec (.ttest d a) s = .next t ∧ t.heldDone (u.setX d v) (s.thr.pc + 4) := by
  show ∃ t, execTtest d a s = .next t ∧ _
  unfold execTtest
  exact tetherOp_writes hfit _ [a] _ u d v rfl seen hr

theorem tdetach_again (detached : y.detached = true) (mine : y.detacher = some s.thr.key) (d : Reg) :
    ∃ t, exec (.tdetach d a) s = .next t ∧ t.heldDone (s.setX d 1) (s.thr.pc + 4) := by
  show ∃ t, execTdetach d a s = .next t ∧ _
  unfold execTdetach
  refine tetherOp_writes hfit _ [a] _ s d 1 rfl (fun e => ?_) rfl
  have found : (s.committed e).myTether? (s.xr a) = some y := hy
  have xa : (s.committed e).xr a = s.xr a := rfl
  have key : (s.committed e).thr.key = s.thr.key := rfl
  simp only [xa, found, key, detached, mine, decide_true, Bool.and_self, if_true]

theorem tdetach_own (attached : y.detached = false) (own : y.owner = some s.thr.key) (d : Reg) :
    ∃ t, exec (.tdetach d a) s = .next t ∧
      t.heldDone (if s.thrPr.reel < 1024 then
        ((withReel s (s.thrPr.reel + 1)).mapTether (s.xr a) fun u =>
          { u with detached := true, owner := none, detacher := some s.thr.key }).setX d 1
        else s.setX d 0) (s.thr.pc + 4) := by
  show ∃ t, execTdetach d a s = .next t ∧ _
  unfold execTdetach
  refine tetherOp_done hfit _ [a] _ _ rfl (fun e => ?_) (by split <;> rfl)
  have found : (s.committed e).myTether? (s.xr a) = some y := hy
  have xa : (s.committed e).xr a = s.xr a := rfl
  have key : (s.committed e).thr.key = s.thr.key := rfl
  have slots : (s.committed e).thrPr = s.thrPr := rfl
  simp only [xa, found, key, slots, attached, own, Bool.false_and, Bool.false_eq_true, if_false, decide_true, if_true, reelSlots]
  split
  · rw [← State.committed_setX]
    rfl
  · exact congrArg Except.ok (s.committed_setX e d 0)

theorem tdetach_other (other : y.owner ≠ some s.thr.key) (notMine : y.detached = true → y.detacher ≠ some s.thr.key) (d : Reg) :
    ∃ t, exec (.tdetach d a) s = .next t ∧ t.heldDone (s.setX d (BitVec.allOnes 64)) (s.thr.pc + 4) := by
  show ∃ t, execTdetach d a s = .next t ∧ _
  unfold execTdetach
  refine tetherOp_writes hfit _ [a] _ s d _ rfl (fun e => ?_) rfl
  have found : (s.committed e).myTether? (s.xr a) = some y := hy
  have xa : (s.committed e).xr a = s.xr a := rfl
  have key : (s.committed e).thr.key = s.thr.key := rfl
  have before : (y.detached && decide (y.detacher = some s.thr.key)) = false := by
    simpa using notMine
  simp only [xa, found, key, before, decide_eq_false other, Bool.false_eq_true, if_false]

theorem tadopt_done (d : Reg) : ∃ t, exec (.tadopt d a) s = .next t ∧
    t.heldDone (if y.detached then
      ((withReel s (s.thrPr.reel - 1)).mapTether (s.xr a) fun u => { u with detached := false, owner := some s.thr.key }).setX d 1
      else s.setX d 0) (s.thr.pc + 4) := by
  show ∃ t, execTadopt d a s = .next t ∧ _
  unfold execTadopt
  refine tetherOp_done hfit _ [a] _ _ rfl (fun e => ?_) (by split <;> rfl)
  have found : (s.committed e).myTether? (s.xr a) = some y := hy
  have xa : (s.committed e).xr a = s.xr a := rfl
  simp only [xa, found]
  split
  · rw [← State.committed_setX]
    rfl
  · exact congrArg Except.ok (s.committed_setX e d 0)

theorem tstat_done (d n : Reg) (h : n.toNat ≤ 5) :
    ∃ t, exec (.tstat d a n) s = .next t ∧ t.heldDone (s.setX d (statField y n.toNat)) (s.thr.pc + 4) := by
  show ∃ t, execTstat d a n s = .next t ∧ _
  unfold execTstat
  refine tetherOp_writes hfit _ [a] _ s d _ (decide_eq_true h) (fun e => ?_) rfl
  have found : (s.committed e).myTether? (s.xr a) = some y := hy
  have xa : (s.committed e).xr a = s.xr a := rfl
  simp only [xa, found]
  refine congrArg (fun v => Except.ok ((s.committed e).setX d v)) ?_
  generalize n.toNat = k at h
  match k, h with
  | 0, _ => exact tetherStat_eq y
  | 1, _ | 2, _ | 3, _ | 4, _ | 5, _ => rfl

theorem tsetpri_done (p : BitVec 3) : ∃ t, exec (.tsetpri a p) s = .next t ∧
    t.heldDone (if y.owner = some s.thr.key ∧ tetherFinal y = false then
      s.mapTether (s.xr a) fun u => { u with prio := p } else s) (s.thr.pc + 4) := by
  show ∃ t, execTsetpri a p s = .next t ∧ _
  unfold execTsetpri
  refine tetherOp_done hfit _ [a] _ _ rfl (fun e => ?_) (by split <;> rfl)
  have found : (s.committed e).myTether? (s.xr a) = some y := hy
  have xa : (s.committed e).xr a = s.xr a := rfl
  have key : (s.committed e).thr.key = s.thr.key := rfl
  simp only [xa, found, key, Bool.and_eq_true, decide_eq_true_eq, Bool.not_eq_true']
  split <;> rfl

theorem tcancel_final (any : s.tetherAny? (s.xr a) = some y) (final : tetherFinal y = true) :
    ∃ t, exec (.tcancel a) s = .next t ∧ t.heldDone s (s.thr.pc + 4) := by
  show ∃ t, execTcancel a s = .next t ∧ _
  unfold execTcancel
  refine tetherOp_done hfit _ [a] _ s rfl (fun e => ?_) rfl
  have found : (s.committed e).myTether? (s.xr a) = some y := hy
  have named : (s.committed e).tetherAny? (s.xr a) = some y := any
  have xa : (s.committed e).xr a = s.xr a := rfl
  simp only [xa, found, State.cancelTether, named]
  cases state : y.state <;> simp_all [tetherFinal]

end

/-! ### A token that names no tether of the process, and `tafter` -/

section
variable (hfit : s.scalarFit []) {a : Reg} (stale : s.myTether? (s.xr a) = none)
include stale

theorem observe_stale (d : Reg) (e : Vector Word 8) : (s.committed e).observe d (s.xr a) = .ok ((s.committed e).setX d 7) := by
  have found : (s.committed e).myTether? (s.xr a) = none := stale
  simp only [State.observe, found]

include hfit

theorem twait_stale (d : Reg) : ∃ t, exec (.twait d a) s = .next t ∧ t.heldDone (s.setX d 7) (s.thr.pc + 4) := by
  show ∃ t, execTwait d a s = .next t ∧ _
  unfold execTwait
  refine tetherOp_writes hfit _ [a] _ s d 7 rfl (fun e => ?_) rfl
  have found : (s.committed e).myTether? (s.xr a) = none := stale
  have xa : (s.committed e).xr a = s.xr a := rfl
  simp only [xa, found, bind, Except.bind, observe_stale stale]

theorem tcancel_stale : ∃ t, exec (.tcancel a) s = .next t ∧ t.heldDone s (s.thr.pc + 4) := by
  show ∃ t, execTcancel a s = .next t ∧ _
  unfold execTcancel
  refine tetherOp_done hfit _ [a] _ s rfl (fun e => ?_) rfl
  have found : (s.committed e).myTether? (s.xr a) = none := stale
  have xa : (s.committed e).xr a = s.xr a := rfl
  simp only [xa, found]

theorem tdetach_stale (d : Reg) :
    ∃ t, exec (.tdetach d a) s = .next t ∧ t.heldDone (s.setX d (BitVec.allOnes 64)) (s.thr.pc + 4) := by
  show ∃ t, execTdetach d a s = .next t ∧ _
  unfold execTdetach
  refine tetherOp_writes hfit _ [a] _ s d _ rfl (fun e => ?_) rfl
  have found : (s.committed e).myTether? (s.xr a) = none := stale
  have xa : (s.committed e).xr a = s.xr a := rfl
  simp only [xa, found]

theorem tadopt_stale (d : Reg) : ∃ t, exec (.tadopt d a) s = .next t ∧ t.heldDone (s.setX d 0) (s.thr.pc + 4) := by
  show ∃ t, execTadopt d a s = .next t ∧ _
  unfold execTadopt
  refine tetherOp_writes hfit _ [a] _ s d 0 rfl (fun e => ?_) rfl
  have found : (s.committed e).myTether? (s.xr a) = none := stale
  have xa : (s.committed e).xr a = s.xr a := rfl
  simp only [xa, found]

theorem tstat_stale (d n : Reg) (h : n.toNat ≤ 5) :
    ∃ t, exec (.tstat d a n) s = .next t ∧ t.heldDone (s.setX d (if n = 0 then 7 else 0)) (s.thr.pc + 4) := by
  show ∃ t, execTstat d a n s = .next t ∧ _
  unfold execTstat
  refine tetherOp_writes hfit _ [a] _ s d _ (decide_eq_true h) (fun e => ?_) rfl
  have found : (s.committed e).myTether? (s.xr a) = none := stale
  have xa : (s.committed e).xr a = s.xr a := rfl
  simp only [xa, found]

theorem tsetpri_stale (p : BitVec 3) : ∃ t, exec (.tsetpri a p) s = .next t ∧ t.heldDone s (s.thr.pc + 4) := by
  show ∃ t, execTsetpri a p s = .next t ∧ _
  unfold execTsetpri
  refine tetherOp_done hfit _ [a] _ s rfl (fun e => ?_) rfl
  have found : (s.committed e).myTether? (s.xr a) = none := stale
  have xa : (s.committed e).xr a = s.xr a := rfl
  simp only [xa, found]

end

theorem tafter_done (hfit : s.scalarFit []) (a b : Reg) : ∃ t, exec (.tafter a b) s = .next t ∧
    t.heldDone { s with thr := { s.thr with preds := some (s.xr a, s.xr b) } } (s.thr.pc + 4) := by
  show ∃ t, execTafter a b s = .next t ∧ _
  unfold execTafter
  exact tetherOp_done hfit _ [a, b] _ _ rfl (fun e => rfl) rfl

end

end Sys2Proof.Machine
end

section
/-! Cancelling tethers (R191): what the end of a tether changes besides, and that `tcancel` ends a tether or marks it. -/

namespace Sys2Proof.Machine
open Sys2Proof.Statements

/-! ### What follows an end -/

/-- A tether before and after the end of another one. -/
def besideEnd (y x : Tether) : Prop :=
  x = { y with suspended := x.suspended } ∨ y.state = .queued ∧ x.state = .cancelled ∧ x.cause = .pred

theorem besideEnd.refl (y : Tether) : besideEnd y y := .inl rfl

theorem besideEnd.suspend {y x : Tether} (h : besideEnd y x) (b : Bool) : besideEnd y { x with suspended := b } := by
  rcases h with same | cancelled
  · exact .inl (congrArg (fun z : Tether => { z with suspended := b }) same)
  · exact .inr cancelled

theorem besideEnd.trans {y x z : Tether} (h : besideEnd y x) (h' : besideEnd x z) : besideEnd y z := by
  rcases h' with same | ⟨queued, cancelled⟩
  · rw [same]
    exact h.suspend _
  · rcases h with same | ⟨-, gone, -⟩
    · rw [same] at queued
      exact .inr ⟨queued, cancelled⟩
    · rw [gone] at queued
      cases queued

/-- What follows the end of a tether, with its frame. -/
structure followsEnd (tok : Word) (s t : State) : Prop where
  frame : t = { s with tethers := t.tethers, ports := t.ports, cores := t.cores, parts := t.parts }
  beside : endsBeside s t tok

section
variable {tok : Word}

theorem followsEnd.refl (s : State) : followsEnd tok s s :=
  ⟨rfl, rfl, fun x hx _ => ⟨x, hx, rfl, besideEnd.refl x⟩, rfl, fun _ => rfl, fun _ => rfl⟩

theorem followsEnd.trans {s t v : State} (h : followsEnd tok s t) (h' : followsEnd tok t v) : followsEnd tok s v := by
  obtain ⟨frame, tokens, tethers, ports, cores, parts⟩ := h
  obtain ⟨frame', tokens', tethers', ports', cores', parts'⟩ := h'
  refine ⟨frame'.trans (congrArg (fun w : State =>
      { w with tethers := v.tethers, ports := v.ports, cores := v.cores, parts := v.parts }) frame), tokens'.trans tokens,
    fun x hx other => ?_, ports'.trans ports,
    fun c => (cores' c).trans (congrArg (fun k : Core => { k with channels := (v.core c).channels }) (cores c)),
    fun n => (parts' n).trans (congrArg (fun p : Partition => { p with
      savedChannels := (v.part n).savedChannels, fifo := (v.part n).fifo, fifoWait := (v.part n).fifoWait }) (parts n))⟩
  obtain ⟨y, hy, token, follows⟩ := tethers' x hx other
  obtain ⟨z, hz, token', follows'⟩ := tethers y hy (by rwa [token])
  exact ⟨z, hz, token'.trans token, besideEnd.trans follows' follows⟩

theorem State.tokens_mapTether (s : State) (o : Word) (f : Tether → Tether) (hf : ∀ z, tetherToken z = o → tetherToken (f z) = o) :
    (s.mapTether o f).tethers.map tetherToken = s.tethers.map tetherToken := by
  refine List.map_map.trans (List.map_congr_left fun z _ => ?_)
  rw [Function.comp_apply]
  split
  · next named => rw [hf z named, named]
  · rfl

/-- Tethers of a token change as the end of another one makes them, or are those that end. -/
theorem followsEnd.mapTether {s t : State} (h : followsEnd tok s t) (o : Word) (f : Tether → Tether)
    (hf : ∀ z, tetherToken z = o → tetherToken (f z) = o)
    (hz : o = tok ∨ ∀ z ∈ t.tethers, tetherToken z = o → ∃ y ∈ s.tethers, tetherToken y = o ∧ besideEnd y (f z)) :
    followsEnd tok s (t.mapTether o f) := by
  obtain ⟨frame, tokens, tethers, ports, cores, parts⟩ := h
  refine ⟨congrArg (fun w : State => { w with tethers := (t.mapTether o f).tethers }) frame,
    (t.tokens_mapTether o f hf).trans tokens, fun x hx other => ?_, ports, cores, parts⟩
  obtain ⟨z, hz', rfl⟩ := List.mem_map.1 hx
  by_cases named : tetherToken z = o
  · rw [if_pos named] at other ⊢
    rw [hf z named] at other ⊢
    exact (hz.resolve_left other) z hz' named
  · rw [if_neg named] at other ⊢
    exact tethers z hz' other

/-- The tether itself may change in any way that leaves its token. -/
theorem followsEnd_mapTether (s : State) (f : Tether → Tether) (hf : ∀ z, tetherToken z = tok → tetherToken (f z) = tok) :
    followsEnd tok s (s.mapTether tok f) := (followsEnd.refl s).mapTether tok f hf (.inl rfl)

theorem followsEnd_suspend (s : State) (o : Word) (b : Tether → Bool) :
    followsEnd tok s (s.mapTether o fun z => { z with suspended := b z }) :=
  (followsEnd.refl s).mapTether o _ (fun _ h => h) (.inr fun z hz token => ⟨z, hz, token, (besideEnd.refl z).suspend _⟩)

theorem State.part_setPart (s : State) (n m : Nat) (p : Partition) :
    (s.setPart n p).part m = if n = m ∧ m < 16 then p else s.part m := by
  rw [State.setPart, State.part, Vector.getElem?_setIfInBounds]
  by_cases same : n = m
  · subst same
    by_cases small : n < 16 <;> simp [State.part, small]
  · simp [State.part, same]

theorem State.core_setCore (s : State) (c c' : CoreId) (k : Core) : (s.setCore c k).core c' = if c' = c then k else s.core c' := by
  rw [State.setCore, State.core, Assoc.getD_put]
  split
  · rfl
  · rfl

/-- Saved channels and the fault FIFO of a partition change. -/
theorem followsEnd_setPart (s : State) (n : Nat) (p : Partition)
    (hp : p = { s.part n with savedChannels := p.savedChannels, fifo := p.fifo, fifoWait := p.fifoWait }) :
    followsEnd tok s (s.setPart n p) := by
  refine ⟨rfl, rfl, fun x hx _ => ⟨x, hx, rfl, besideEnd.refl x⟩, rfl, fun _ => rfl, fun m => ?_⟩
  rw [s.part_setPart]
  split
  · next h => exact h.1 ▸ hp
  · rfl

theorem followsEnd_putChannel (s : State) (c : CoreId) (n : Nat) (x : Channel) : followsEnd tok s (s.putChannel c n x) := by
  refine ⟨rfl, rfl, fun x hx _ => ⟨x, hx, rfl, besideEnd.refl x⟩, rfl, fun c' => ?_, fun _ => rfl⟩
  rw [State.putChannel, s.core_setCore]
  split
  · next h => rw [h]
  · rfl

theorem followsEnd_dropBursts (s : State) (o : Word) : followsEnd tok s (s.dropBursts o) := by
  refine ⟨rfl, rfl, fun x hx _ => ⟨x, hx, rfl, besideEnd.refl x⟩, ?_, fun _ => rfl, fun _ => rfl⟩
  rw [State.dropBursts, List.map_map]
  rfl

theorem returnChannels_follows (part : Nat) (l : List (CoreId × Nat × Channel)) (s : State) :
    followsEnd tok s (s.returnChannels part l) := by
  induction l generalizing s with
  | nil => exact .refl s
  | cons e l ih =>
    obtain ⟨c, n, x⟩ := e
    rw [State.returnChannels]
    split
    · exact ih s
    · refine followsEnd.trans ?_ (ih _)
      refine followsEnd.trans ?_ (followsEnd_suspend _ x.token fun z => z.suspended && !(s.part part).run)
      exact (followsEnd_putChannel s c n x).trans (followsEnd_setPart _ part _ rfl)

theorem returnAll_follows (s : State) : followsEnd tok s s.returnAll := by
  have each (l : List Nat) (u : State) : followsEnd tok u
      (l.foldl (fun u p => if (u.part p).swappedOut then u else u.returnChannels p (u.part p).savedChannels) u) := by
    induction l generalizing u with
    | nil => exact .refl u
    | cons p l ih =>
      refine followsEnd.trans ?_ (ih _)
      dsimp only
      split
      · exact .refl u
      · exact returnChannels_follows p _ u
  exact each _ s

theorem dropSavedChannel_follows (s : State) (part : Nat) (o : Word) : followsEnd tok s (s.dropSavedChannel part o) := by
  unfold State.dropSavedChannel
  dsimp only
  split
  · exact followsEnd_setPart s part _ rfl
  · exact .refl s

theorem keepChannel_follows (s : State) (y : Tether) : followsEnd tok s (s.keepChannel y) := by
  have dropped := dropSavedChannel_follows (tok := tok) s y.part (tetherToken y)
  unfold State.keepChannel
  split
  · dsimp only
    split
    · split
      · exact (dropped.trans (followsEnd_putChannel _ _ _ _)).trans (returnAll_follows _)
      · exact dropped
    · exact dropped
  · exact .refl s

theorem kernelEnd_follows (s : State) (y : Tether) : followsEnd tok s (s.kernelEnd y) := by
  unfold State.kernelEnd
  split
  · split
    · unfold State.report
      refine followsEnd_setPart s y.part _ ?_
      split <;> rfl
    · exact .refl s
  · exact .refl s

/-- The end of the tether itself, or of a QUEUED one behind it. -/
theorem finishOne_follows (s : State) (o : Word) (st : TState) (c : TCause)
    (h : o = tok ∨ (st = .cancelled ∧ c = .pred) ∧ ∃ y ∈ s.tethers, tetherToken y = o ∧ y.state = .queued) :
    followsEnd tok s (s.finishOne o st c) := by
  unfold State.finishOne
  split
  · exact .refl s
  · next y found =>
    have token := State.tetherAny?_token found
    split
    · exact .refl s
    · refine (((keepChannel_follows s y).trans (followsEnd_dropBursts _ o)).mapTether o (fun _ => y.ending st c) (fun _ _ => token) ?_).trans
        (kernelEnd_follows _ _)
      refine h.imp_right fun ⟨⟨state, cause⟩, z, hz, token', queued⟩ _ _ _ => ⟨z, hz, token', .inr ⟨queued, state, cause⟩⟩

theorem State.brokenPred_queued {s : State} {y : Tether} (h : s.brokenPred = some y) : y ∈ s.tethers ∧ y.state = .queued := by
  refine ⟨List.mem_of_find?_eq_some h, ?_⟩
  have broken := List.find?_some h
  rw [Bool.and_eq_true] at broken
  exact of_decide_eq_true broken.1

theorem settlePreds_follows (n : Nat) (s : State) : followsEnd tok s (s.settlePreds n) := by
  induction n generalizing s with
  | zero => exact .refl s
  | succ n ih =>
    rw [State.settlePreds]
    split
    · next y broken =>
      obtain ⟨listed, queued⟩ := State.brokenPred_queued broken
      exact (finishOne_follows s _ _ _ (.inr ⟨⟨rfl, rfl⟩, y, listed, rfl, queued⟩)).trans (ih _)
    · exact .refl s

end

end Sys2Proof.Machine
end

section
/-! What `tcancel` does (R191): it ends a QUEUED tether, and a RUNNING one at its boundary, which it marks else. -/

namespace Sys2Proof.Machine
open Sys2Proof.Statements

/-! ### The tether that ends -/

theorem State.kernelEnd_tethers (s : State) (y : Tether) : (s.kernelEnd y).tethers = s.tethers := by
  unfold State.kernelEnd
  split
  · split <;> rfl
  · rfl

/-- A tether of any kind that ends, in its entry. -/
theorem State.finishOne_ending {s : State} {tok : Word} {y : Tether} (hy : s.tetherAny? tok = some y) (going : tetherFinal y = false)
    (st : TState) (c : TCause) : (s.finishOne tok st c).tetherAny? tok = some (y.ending st c) := by
  have token := State.tetherAny?_token hy
  obtain ⟨z, hz, -⟩ := (keepChannel_quiet tok s y).tether y hy
  have held : ((s.keepChannel y).dropBursts tok).tetherAny? tok = some z := hz
  have ended : (((s.keepChannel y).dropBursts tok).mapTether tok fun _ => y.ending st c).tetherAny? tok = some (y.ending st c) := by
    rw [State.tetherAny?_mapTether _ _ _ _ fun _ _ => (y.ending_token st c).trans token, held, Option.map_some,
      if_pos (State.tetherAny?_token hz)]
  simp only [State.finishOne, hy, going, Bool.false_eq_true, if_false]
  rw [State.tetherAny?, State.kernelEnd_tethers]
  exact ended

section
variable {s : State} {tok : Word} {y : Tether} (hy : s.tetherAny? tok = some y) (going : tetherFinal y = false)
  (live : (s.proc y.part y.proc).live = true) {st : TState} (c : TCause) (final : ∀ z : Tether, z.state = st → tetherFinal z = true)
include hy going live final

/-- A tether of a live process that ends stays in its entry (R279). -/
theorem finish_stays :
    s.finish tok st c = (s.finishOne tok st c).settlePreds (s.finishOne tok st c).tethers.length ∧
    ∃ z, (s.finish tok st c).tetherAny? tok = some z ∧ z.state = st ∧ z.cause = c := by
  have ended := State.finishOne_ending hy going st c
  have settled := settlePreds_quiet tok (s.finishOne tok st c).tethers.length ended (final _ rfl)
  obtain ⟨z, hz, state, cause, part, proc⟩ := settled.tether _ ended
  have procs : ((s.finishOne tok st c).settlePreds (s.finishOne tok st c).tethers.length).procs = s.procs := by
    rw [settled.procs, (finishOne_follows s tok st c (.inl rfl)).frame]
  have stays : s.finish tok st c = (s.finishOne tok st c).settlePreds (s.finishOne tok st c).tethers.length :=
    State.reap_live hz (by rw [State.proc, procs, part, proc]; exact live)
  exact ⟨stays, z, by rw [stays]; exact hz, state, cause⟩

theorem finish_follows : followsEnd tok s (s.finish tok st c) := by
  rw [(finish_stays hy going live c final).1]
  exact (finishOne_follows s tok st c (.inl rfl)).trans (settlePreds_follows _ _)

end

/-! ### The end of a tether beside the vector queue of the thread -/

theorem State.committed_returnChannels (e : Vector Word 8) (part : Nat) (l : List (CoreId × Nat × Channel)) (s : State) :
    (s.committed e).returnChannels part l = (s.returnChannels part l).committed e := by
  induction l generalizing s with
  | nil => rfl
  | cons x l ih =>
    have busy : ((s.committed e).core x.1).filling x.2.1 = (s.core x.1).filling x.2.1 := rfl
    rw [State.returnChannels, State.returnChannels, busy]
    split
    · exact ih s
    · dsimp only
      rw [← ih]
      rfl

theorem State.committed_returnAll (s : State) (e : Vector Word 8) : (s.committed e).returnAll = s.returnAll.committed e := by
  have each (l : List Nat) (u : State) :
      l.foldl (fun u p => if (u.part p).swappedOut then u else u.returnChannels p (u.part p).savedChannels) (u.committed e) =
      (l.foldl (fun u p => if (u.part p).swappedOut then u else u.returnChannels p (u.part p).savedChannels) u).committed e := by
    induction l generalizing u with
    | nil => rfl
    | cons p l ih =>
      rw [List.foldl_cons, List.foldl_cons, ← ih]
      refine congrArg (l.foldl _) ?_
      have saved : (u.committed e).part p = u.part p := rfl
      rw [saved]
      split
      · rfl
      · exact u.committed_returnChannels e p _
  exact each _ s

theorem State.committed_dropSavedChannel (s : State) (e : Vector Word 8) (part : Nat) (o : Word) :
    (s.committed e).dropSavedChannel part o = (s.dropSavedChannel part o).committed e := by
  have saved : (s.committed e).part part = s.part part := rfl
  simp only [State.dropSavedChannel, saved]
  split <;> rfl

theorem State.committed_keepChannel (s : State) (e : Vector Word 8) (y : Tether) :
    (s.committed e).keepChannel y = (s.keepChannel y).committed e := by
  unfold State.keepChannel
  split
  · rw [State.committed_dropSavedChannel]
    generalize s.dropSavedChannel y.part (tetherToken y) = u
    have channel : (u.committed e).channel? y.core (copyChannel y) = u.channel? y.core (copyChannel y) := rfl
    dsimp only
    rw [channel]
    split
    · split
      · rw [← State.committed_returnAll]
        rfl
      · rfl
    · rfl
  · rfl

theorem State.committed_kernelEnd (s : State) (e : Vector Word 8) (y : Tether) :
    (s.committed e).kernelEnd y = (s.kernelEnd y).committed e := by
  unfold State.kernelEnd
  split
  · split <;> rfl
  · rfl

theorem State.committed_finishOne (s : State) (e : Vector Word 8) (o : Word) (st : TState) (c : TCause) :
    (s.committed e).finishOne o st c = (s.finishOne o st c).committed e := by
  have named : (s.committed e).tetherAny? o = s.tetherAny? o := rfl
  unfold State.finishOne
  rw [named]
  split
  · rfl
  · next y found =>
    split
    · rfl
    · dsimp only
      rw [State.committed_keepChannel, ← State.committed_kernelEnd]
      rfl

theorem State.committed_settlePreds (n : Nat) (s : State) (e : Vector Word 8) :
    (s.committed e).settlePreds n = (s.settlePreds n).committed e := by
  induction n generalizing s with
  | zero => rfl
  | succ n ih =>
    have broken : (s.committed e).brokenPred = s.brokenPred := rfl
    rw [State.settlePreds, State.settlePreds, broken]
    split
    · rw [State.committed_finishOne]
      exact ih _
    · rfl

/-! ### `tcancel` -/

theorem cancelled_final (y : Tether) (h : y.state = .cancelled) : tetherFinal y = true := by rw [tetherFinal, h]

theorem faulted_final (y : Tether) (h : y.state = .faulted) : tetherFinal y = true := by rw [tetherFinal, h]

theorem running_going {y : Tether} (h : y.state = .running) : tetherFinal y = false := by rw [tetherFinal, h]

/-- A cancel ends a tether: CANCELLED, unless a fence or a peer ends it. -/
def cancelEnds (tok : Word) (y : Tether) (s t : State) : Prop :=
  followsEnd tok s t ∧ ∃ u, t.tetherAny? tok = some u ∧ tetherFinal u = true ∧
    (y.kind = .kernel ∨ y.fenced = false ∧ y.byPeer = false → u.state = .cancelled ∧ u.cause = .cancel)

section
variable {s : State} {tok : Word} {y : Tether} (hy : s.tetherAny? tok = some y) (running : y.state = .running)
include hy

theorem settleLaunch_final (final : tetherFinal y = true) : s.settleLaunch tok = s := by
  have ended : y.state ≠ .running := fun h => by simp [running_going h] at final
  simp only [State.settleLaunch, hy]
  split
  · next h => exact absurd h ended
  · rfl

variable (live : (s.proc y.part y.proc).live = true)
include running live

theorem finish_cancelEnds (c : TCause) (cause : y.kind = .kernel ∨ y.fenced = false ∧ y.byPeer = false → c = .cancel) :
    cancelEnds tok y s (s.finish tok .cancelled c) := by
  obtain ⟨-, u, hu, state, cause'⟩ := finish_stays hy (running_going running) live c cancelled_final
  exact ⟨finish_follows hy (running_going running) live c cancelled_final, u, hu, cancelled_final u state,
    fun h => ⟨state, cause'.trans (cause h)⟩⟩

theorem faultTether_cancelEnds (kind : y.kind ≠ .kernel) (fenced : y.fenced = true) (c : TCause) (addr : Word) (node : Nat) :
    cancelEnds tok y s (s.faultTether tok c addr node) := by
  have going := running_going running
  have marks (z : Tether) (h : tetherToken z = tok) :
      tetherToken (if tetherFinal z then z else { z with addr := addr, node := node }) = tok := by split <;> exact h
  have marked : (s.mapTether tok fun z => if tetherFinal z then z else { z with addr := addr, node := node }).tetherAny? tok =
      some { y with addr := addr, node := node } := by
    rw [State.tetherAny?_mapTether _ _ _ _ marks, hy, Option.map_some, if_pos (State.tetherAny?_token hy), going]
    rfl
  obtain ⟨-, u, hu, state, -⟩ := finish_stays marked going live c faulted_final
  refine ⟨(followsEnd_mapTether s _ marks).trans (finish_follows marked going live c faulted_final), u, hu,
    faulted_final u state, fun h => ?_⟩
  rcases h with kernel | ⟨unfenced, -⟩
  · exact absurd kernel kind
  · rw [fenced] at unfenced
    cases unfenced

variable (cancelling : y.cancelling = true)
include cancelling

theorem settleBoundary_cancels : s.settleBoundary tok = s ∨ cancelEnds tok y s (s.settleBoundary tok) := by
  simp only [State.settleBoundary, hy, cancelling, if_true]
  split
  · next h =>
    obtain ⟨-, kind, -⟩ := h
    right
    split
    · next fenced => exact faultTether_cancelEnds hy running live kind fenced .dataErr 0 0
    · refine finish_cancelEnds hy running live _ fun h => ?_
      rw [(h.resolve_left kind).2]
      rfl
  · exact .inl rfl

theorem settleLaunch_cancels : s.settleLaunch tok = s ∨ cancelEnds tok y s (s.settleLaunch tok) := by
  simp only [State.settleLaunch, hy, cancelling, if_true]
  split
  · split
    · exact .inl rfl
    · exact .inr (finish_cancelEnds hy running live .cancel fun _ => rfl)
  · exact .inl rfl

end

/-- A cancel of a RUNNING tether ends it or marks it. -/
theorem cancelTether_running {s : State} {tok : Word} {y : Tether} (hy : s.tetherAny? tok = some y) (running : y.state = .running)
    (live : (s.proc y.part y.proc).live = true) :
    followsEnd tok s (s.cancelTether tok) ∧ ∃ u, (s.cancelTether tok).tetherAny? tok = some u ∧
      (u = { y with cancelling := true } ∨ tetherFinal u = true ∧
        (y.kind = .kernel ∨ y.fenced = false ∧ y.byPeer = false → u.state = .cancelled ∧ u.cause = .cancel)) := by
  have cancel : s.cancelTether tok = ((s.mapTether tok fun z => { z with cancelling := true }).settleBoundary tok).settleLaunch tok := by
    simp only [State.cancelTether, hy, running]
  have marks := followsEnd_mapTether (tok := tok) s (fun z => { z with cancelling := true }) fun _ h => h
  have marked : (s.mapTether tok fun z => { z with cancelling := true }).tetherAny? tok = some { y with cancelling := true } := by
    rw [State.tetherAny?_mapTether _ _ _ (fun z => { z with cancelling := true }) fun _ h => h, hy, Option.map_some,
      if_pos (State.tetherAny?_token hy)]
  rw [cancel]
  rcases settleBoundary_cancels marked running live rfl with same | ⟨follows, u, hu, final, ends⟩
  · rw [same]
    rcases settleLaunch_cancels marked running live rfl with same | ⟨follows, u, hu, ends⟩
    · rw [same]
      exact ⟨marks, _, marked, .inl rfl⟩
    · exact ⟨marks.trans follows, u, hu, .inr ends⟩
  · rw [settleLaunch_final hu final]
    exact ⟨marks.trans follows, u, hu, .inr ⟨final, ends⟩⟩

/-! ### The instruction -/

theorem followsEnd.badReg {tok : Word} {s t : State} (h : followsEnd tok s t) : t.badReg = s.badReg :=
  Eq.trans (congrArg State.badReg h.frame) rfl

theorem State.heldDone.tethers {t u : State} {pc : Word} (h : t.heldDone u pc) : t.tethers = u.tethers :=
  Eq.trans (congrArg State.tethers h.1) rfl

/-- The tether of a token is one of the process of the thread. -/
theorem State.myTether?_place {s : State} {tok : Word} {y : Tether} (h : s.myTether? tok = some y) :
    y.part = s.thr.key.part ∧ y.proc = s.thr.key.proc :=
  (of_decide_eq_true (List.find?_some (p := fun z : Tether =>
    decide (tetherToken z = tok ∧ z.part = s.thr.key.part ∧ z.proc = s.thr.key.proc)) h)).2

section
variable {s : State} (hfit : s.scalarFit []) {a : Reg} {y : Tether} (hy : s.myTether? (s.xr a) = some y)
  (any : s.tetherAny? (s.xr a) = some y) (live : s.thrPr.live = true)
include hfit hy any live

theorem tcancel_queued (queued : y.state = .queued) : ∃ t u, exec (.tcancel a) s = .next t ∧
    t.heldDone (s.finish (s.xr a) .cancelled .cancel) (s.thr.pc + 4) ∧
    t.tetherAny? (s.xr a) = some u ∧ u.state = .cancelled ∧ u.cause = .cancel := by
  obtain ⟨part, proc⟩ := State.myTether?_place hy
  have alive : (s.proc y.part y.proc).live = true := by rw [part, proc]; exact live
  have going : tetherFinal y = false := by rw [tetherFinal, queued]
  obtain ⟨stays, u, hu, state, cause⟩ := finish_stays any going alive .cancel cancelled_final
  have runs : ∃ t, exec (.tcancel a) s = .next t ∧ t.heldDone (s.finish (s.xr a) .cancelled .cancel) (s.thr.pc + 4) := by
    show ∃ t, execTcancel a s = .next t ∧ _
    unfold execTcancel
    refine tetherOp_done hfit _ [a] _ _ rfl (fun e => ?_) (finish_follows any going alive .cancel cancelled_final).badReg
    have found : (s.committed e).myTether? (s.xr a) = some y := hy
    have named : (s.committed e).tetherAny? (s.xr a) = some y := any
    have alive' : ((s.committed e).proc y.part y.proc).live = true := alive
    have xa : (s.committed e).xr a = s.xr a := rfl
    simp only [xa, found, State.cancelTether, named, queued]
    rw [(finish_stays named going alive' .cancel cancelled_final).1, stays, State.committed_finishOne, State.committed_settlePreds]
    rfl
  obtain ⟨t, ht, done⟩ := runs
  exact ⟨t, u, ht, done, by rw [State.tetherAny?, done.tethers]; exact hu, state, cause⟩

theorem tcancel_running (running : y.state = .running) : ∃ t u, exec (.tcancel a) s = .next t ∧
    t.heldDone { s with tethers := t.tethers, ports := t.ports, cores := t.cores, parts := t.parts } (s.thr.pc + 4) ∧
    endsBeside s t (s.xr a) ∧ t.tetherAny? (s.xr a) = some u ∧
    (u = { y with cancelling := true } ∨ tetherFinal u = true ∧
      (y.kind = .kernel ∨ y.fenced = false ∧ y.byPeer = false → u.state = .cancelled ∧ u.cause = .cancel)) := by
  obtain ⟨part, proc⟩ := State.myTether?_place hy
  let e := s.thr.commitAll.evcnt
  have found : (s.committed e).myTether? (s.xr a) = some y := hy
  have named : (s.committed e).tetherAny? (s.xr a) = some y := any
  have xa : (s.committed e).xr a = s.xr a := rfl
  have alive : ((s.committed e).proc y.part y.proc).live = true := by rw [part, proc]; exact live
  obtain ⟨follows, u, hu, ends⟩ := cancelTether_running named running alive
  generalize hv : (s.committed e).cancelTether (s.xr a) = v at follows hu
  have runs : exec (.tcancel a) s = .next (v.mapThr fun t => t.retire false (s.thr.pc + 4)) := by
    show execTcancel a s = _
    unfold execTcancel tetherOp
    refine issueHeld_ok _ s v _ hfit rfl rfl ?_ follows.badReg
    have started : s.mapThr Thread.commitAll = s.committed e := rfl
    simp only [started, xa, found, hv]
  have done := State.committed_heldDone { s with tethers := v.tethers, ports := v.ports, cores := v.cores, parts := v.parts } e (s.thr.pc + 4)
  rw [← show v = State.committed { s with tethers := v.tethers, ports := v.ports, cores := v.cores, parts := v.parts } e from follows.frame] at done
  exact ⟨_, u, runs, done, follows.beside, hu, ends⟩

end

/-- Settles O30: each instruction by its own lemma, and a cancelled tether by what its end brings with it. -/
theorem tetherControlResults : Obligations.TetherControlResults := by
  unfold Obligations.TetherControlResults
  intro s d a b p n hfit
  refine ⟨fun y hy any => ⟨fun final own known => ?_, fun final other => ?_, fun other => ?_, fun queued live => ?_,
    fun running live => ?_, tcancel_final hy hfit any, fun detached mine => ?_, fun attached own => ?_, fun other notMine => ?_,
    tadopt_done hy hfit d, tstat_done hy hfit d n, tsetpri_done hy hfit p⟩,
    fun stale => ⟨twait_stale hfit stale d, ?_, tcancel_stale hfit stale, tdetach_stale hfit stale d, tadopt_stale hfit stale d,
      tstat_stale hfit stale d n, tsetpri_stale hfit stale p⟩, tafter_done hfit a b⟩
  · have seen := observe_retires hy any final own known d
    exact ⟨twait_final hy hfit final rfl seen, ttest_observes hfit rfl seen⟩
  · exact twait_final hy hfit final rfl (observe_reads hy (.inr other) d)
  · exact ttest_observes hfit rfl (observe_reads hy other d)
  · exact tcancel_queued hfit hy any live queued
  · exact tcancel_running hfit hy any live running
  · exact tdetach_again hy hfit detached mine d
  · exact tdetach_own hy hfit attached own d
  · exact tdetach_other hy hfit other notMine d
  · exact ttest_observes hfit rfl (observe_stale stale d)

end Sys2Proof.Machine
end
